-- ==== Sys2Proof/Word.lean ====
section
/-! DEFINITION. The plain words of the model and the sparse table in which the state keeps anything indexed by a number. -/

namespace Sys2Proof

/-- A byte (00 R4). -/
abbrev Byte := BitVec 8

/-- A halfword of a Jalgal-T stream (11 R324). -/
abbrev Half := BitVec 16

/-- A Jalgal-N instruction word (11 R312), and the 32-bit registers of the trellis (09 R240). -/
abbrev Word32 := BitVec 32

/-- A 64-bit register. -/
abbrev Word := BitVec 64

/-- Plain data indexed by a number: pairs with strictly rising keys, no pair holding the default value. -/
abbrev Store (α : Type) := List (Nat × α)

/-- The value at key `k`, `d` where no pair has that key. -/
def Store.get {α : Type} (d : α) (k : Nat) : Store α → α
  | [] => d
  | (j, v) :: t => if j = k then v else Store.get d k t

/-- `v` placed at key `k` in key order. -/
def Store.insert {α : Type} (k : Nat) (v : α) : Store α → Store α
  | [] => [(k, v)]
  | (j, w) :: t =>
    if j < k then (j, w) :: Store.insert k v t
    else if j = k then (k, v) :: t
    else (k, v) :: (j, w) :: t

/-- Every pair of key `k` taken out. -/
def Store.erase {α : Type} (k : Nat) : Store α → Store α
  | [] => []
  | (j, w) :: t => if j = k then Store.erase k t else (j, w) :: Store.erase k t

/-- The table with `v` at key `k`; the default value is kept by listing nothing. -/
def Store.put {α : Type} [DecidableEq α] (d : α) (k : Nat) (v : α) (t : Store α) : Store α :=
  if v = d then Store.erase k t else Store.insert k v t

/-- Every key is at least `lo` and the keys rise strictly. -/
def Store.rising {α : Type} : Nat → Store α → Bool
  | _, [] => true
  | lo, (k, _) :: t => decide (lo ≤ k) && Store.rising (k + 1) t

/-- The canonical form: strictly rising keys and no default value. -/
def Store.wf {α : Type} [DecidableEq α] (d : α) (t : Store α) : Bool :=
  Store.rising 0 t && t.all (fun p => decide (p.2 ≠ d))

/-- Every pair whose key lies in `lo` to `hi - 1` taken out. -/
def Store.clearRange {α : Type} (lo hi : Nat) : Store α → Store α
  | [] => []
  | (j, w) :: t =>
    if lo ≤ j ∧ j < hi then Store.clearRange lo hi t else (j, w) :: Store.clearRange lo hi t

end Sys2Proof
end

