-- ==== Sys2Proof/Syntax.lean ====
section
/-! DEFINITION. The steps of the part: one constructor per row of the opcode table. The Jalgal-N and Jalgal-T
instructions carry the fields of their words (11 R312, R324). The device and host events have no encoding; the
operands of the one that is performed stand in the state's `arg` (`Arg` below), and each event's comment names those
it reads. -/

namespace Sys2Proof

/-- The three privilege levels (01 R25). -/
inductive Level where
  | user
  | supervisor
  | firmware
  deriving DecidableEq, Repr

/-- Who makes an access to a register: a level, and the job of a thread (06 R139). -/
structure Who where
  level : Level
  job : Nat
  deriving DecidableEq, Repr

/-- A packet that Ethernet delivers to this package, retransmitted duplicates already discarded (03 R52, R53, R58,
R59). -/
structure Packet where
  /-- The peer's name for the operation, returned with the answer. -/
  id : Nat
  /-- UET job identifier at this target. -/
  jobid : Nat
  /-- Whether TSS authentication passed (03 R63). -/
  auth : Bool
  /-- Target virtual address, or the offset into a command region. -/
  va : Word
  /-- Bytes of an RMA write. -/
  data : List Byte
  /-- Length of an RMA read. -/
  len : Nat
  /-- The function and type of a remote accumulate (03 R58; 10 R292). -/
  accum : Option (BitVec 2 × BitVec 2)
  /-- Operand of an atomic add. -/
  addend : Word
  /-- The ullage counter that a RINC of counter kind names in place of an address (13 R406). -/
  counter : Option Nat
  /-- Whether the packet is a RINC with `.rel`. -/
  rel : Bool
  /-- The connection that carries it, whether that is a ROD connection, and its number there, from 0 (03 R52, R53, R61). -/
  conn : Nat
  ordered : Bool
  psn : Nat
  deriving DecidableEq, Repr

/-- The packet with every field empty. -/
def Packet.init : Packet :=
  { id := 0, jobid := 0, auth := true, va := 0, data := [], len := 0, accum := none, addend := 0, counter := none,
    rel := false, conn := 0, ordered := false, psn := 0 }

/-- The operands of a device or host event. -/
structure Arg where
  n : Nat
  m : Nat
  v : Word
  i : Int
  b : Bool
  ints : List Int
  bytes : List Byte
  who : Who
  pkt : Packet
  deriving DecidableEq, Repr

/-- No operands. -/
def Arg.init : Arg :=
  { n := 0, m := 0, v := 0, i := 0, b := false, ints := [], bytes := [], who := { level := .user, job := 0 },
    pkt := Packet.init }

/-- Operands that name one unit. -/
def Arg.ofN (n : Nat) : Arg := { Arg.init with n := n }

/-- Operands that name two units. -/
def Arg.ofNM (n m : Nat) : Arg := { Arg.init with n := n, m := m }

/-- Operands that name a unit and a value. -/
def Arg.ofNV (n : Nat) (v : Word) : Arg := { Arg.init with n := n, v := v }

/-- One step of the part (spec/opcode_table.json). -/
inductive Instr where
  -- Integer and bit operations (12 R339 to R344)
  | add (d a b : BitVec 5)
  | sub (d a b : BitVec 5)
  | addi (d a : BitVec 5) (imm : BitVec 14)
  | mul (d a b : BitVec 5)
  | mulh (d a b : BitVec 5)
  | mulhu (d a b : BitVec 5)
  | div (d a b : BitVec 5)
  | divu (d a b : BitVec 5)
  | rem (d a b : BitVec 5)
  | remu (d a b : BitVec 5)
  | andR (d a b : BitVec 5)
  | orR (d a b : BitVec 5)
  | xorR (d a b : BitVec 5)
  | andn (d a b : BitVec 5)
  | lea (d base idx : BitVec 5) (sc : BitVec 2)
  | andi (d a : BitVec 5) (imm : BitVec 14)
  | ori (d a : BitVec 5) (imm : BitVec 14)
  | xori (d a : BitVec 5) (imm : BitVec 14)
  | shl (d a b : BitVec 5)
  | shr (d a b : BitVec 5)
  | sar (d a b : BitVec 5)
  | rot (d a b : BitVec 5)
  | shli (d a : BitVec 5) (imm : BitVec 14)
  | shri (d a : BitVec 5) (imm : BitVec 14)
  | sari (d a : BitVec 5) (imm : BitVec 14)
  | roti (d a : BitVec 5) (imm : BitVec 14)
  | clz (d a : BitVec 5)
  | ctz (d a : BitVec 5)
  | popc (d a : BitVec 5)
  | brev (d a : BitVec 5)
  | bswp (d a : BitVec 5)
  | bext (d a : BitVec 5) (pos len1 : BitVec 6)
  | bins (d a : BitVec 5) (pos len1 : BitVec 6)
  | min (d a b : BitVec 5)
  | max (d a b : BitVec 5)
  | minu (d a b : BitVec 5)
  | maxu (d a b : BitVec 5)
  | lih (d a : BitVec 5) (imm : BitVec 14)
  -- Compare and skip (12 R345 to R347)
  | sk (cond : BitVec 4) (n : BitVec 2) (a b : BitVec 5)
  | ski (cond : BitVec 4) (n : BitVec 2) (a : BitVec 5) (imm : BitVec 13)
  | fsk (p : BitVec 1) (cond : BitVec 3) (n : BitVec 2) (a b : BitVec 5)
  -- Branches and calls (12 R348 to R352)
  | br (imm : BitVec 24)
  | jr (a : BitVec 5)
  | call (imm : BitVec 24)
  | callr (a : BitVec 5)
  | ret
  | dbnz (d : BitVec 5) (imm : BitVec 14)
  -- Loads, stores and full/empty accesses (12 R353 to R360)
  | ld (d base : BitVec 5) (ord : BitVec 2) (off : BitVec 9) (wc : BitVec 3)
  | st (s base : BitVec 5) (ord : BitVec 2) (off : BitVec 9) (wc : BitVec 3)
  | ldx (d base idx : BitVec 5) (wc : BitVec 3) (ord sc : BitVec 2)
  | stx (s base idx : BitVec 5) (wc : BitVec 3) (ord sc : BitVec 2)
  | ldc (d base : BitVec 5) (ord : BitVec 2) (off : BitVec 9) (wc : BitVec 3)
  | prf (base : BitVec 5) (off : BitVec 9)
  | ldf (d base : BitVec 5) (off : BitVec 9)
  | ste (s base : BitVec 5) (off : BitVec 9)
  | ldp (d base : BitVec 5) (off : BitVec 9)
  | stf (s base : BitVec 5) (off : BitVec 9)
  | fec (base : BitVec 5) (off : BitVec 9)
  -- Atomics (12 R361 to R367)
  | amo (d a b : BitVec 5) (w : BitVec 1) (ord : BitVec 2) (fn : BitVec 4)
  | cas (d a b c : BitVec 5) (w : BitVec 1) (ord : BitVec 2)
  | arb (a : BitVec 5)
  | arl (d base : BitVec 5) (off : BitVec 9) (wc : BitVec 3)
  | ars (s base : BitVec 5) (off : BitVec 9) (wc : BitVec 3)
  | arc (d a : BitVec 5)
  -- Fences (12 R368 to R370)
  | fence (sc : BitVec 3)
  | bfence (a : BitVec 5) (sc : BitVec 3)
  -- Scalar floating point (13 R374 to R379)
  | fadd (d a b : BitVec 5) (rm : BitVec 3) (p : BitVec 1)
  | fsub (d a b : BitVec 5) (rm : BitVec 3) (p : BitVec 1)
  | fmul (d a b : BitVec 5) (rm : BitVec 3) (p : BitVec 1)
  | fdiv (d a b : BitVec 5) (rm : BitVec 3) (p : BitVec 1)
  | fsqrt (d a : BitVec 5) (rm : BitVec 3) (p : BitVec 1)
  | fma (d a b c : BitVec 5) (rm : BitVec 3) (p : BitVec 1)
  | fms (d a b c : BitVec 5) (rm : BitVec 3) (p : BitVec 1)
  | fnma (d a b c : BitVec 5) (rm : BitVec 3) (p : BitVec 1)
  | fmin (d a b : BitVec 5) (p : BitVec 1)
  | fmax (d a b : BitVec 5) (p : BitVec 1)
  | fcvt (d a b kind : BitVec 5) (rm : BitVec 3)
  | fcls (d a : BitVec 5) (p : BitVec 1)
  | fsgn (d a b : BitVec 5) (op : BitVec 3) (p : BitVec 1)
  | frnd (d a : BitVec 5) (rm : BitVec 3) (p : BitVec 1)
  -- Vectors (13 R380 to R389)
  | vadd (vd va vb : BitVec 3) (me : BitVec 1) (vm : BitVec 3) (pol : BitVec 1) (ew : BitVec 3) (fn : BitVec 4)
  | vsub (vd va vb : BitVec 3) (me : BitVec 1) (vm : BitVec 3) (pol : BitVec 1) (ew : BitVec 3) (fn : BitVec 4)
  | vmul (vd va vb : BitVec 3) (me : BitVec 1) (vm : BitVec 3) (pol : BitVec 1) (ew : BitVec 3) (fn : BitVec 4)
  | vfma (vd va vb vc : BitVec 3) (me : BitVec 1) (vm : BitVec 3) (pol : BitVec 1) (ew : BitVec 3) (fn : BitVec 4)
  | vdiv (vd va vb : BitVec 3) (me : BitVec 1) (vm : BitVec 3) (pol : BitVec 1) (ew : BitVec 3) (fn : BitVec 4)
  | vmin (vd va vb : BitVec 3) (me : BitVec 1) (vm : BitVec 3) (pol : BitVec 1) (ew : BitVec 3) (fn : BitVec 4)
  | vmax (vd va vb : BitVec 3) (me : BitVec 1) (vm : BitVec 3) (pol : BitVec 1) (ew : BitVec 3) (fn : BitVec 4)
  | vlog (vd va vb : BitVec 3) (me : BitVec 1) (vm : BitVec 3) (pol : BitVec 1) (fn : BitVec 4)
  | vshf (vd va vb : BitVec 3) (me : BitVec 1) (vm : BitVec 3) (pol : BitVec 1) (ew : BitVec 3) (fn : BitVec 4)
  | vcmp (vd va vb : BitVec 3) (me : BitVec 1) (vm : BitVec 3) (pol : BitVec 1) (ew : BitVec 3) (fn : BitVec 4)
  | vsel (vd va vb vc : BitVec 3) (me : BitVec 1) (vm : BitVec 3) (pol : BitVec 1)
  | vred (vd va : BitVec 3) (me : BitVec 1) (vm ew : BitVec 3) (fn : BitVec 4)
  | vld (vd : BitVec 3) (ga : BitVec 5) (me : BitVec 1) (vm : BitVec 3) (pol : BitVec 1) (ord : BitVec 2)
  | vst (vd : BitVec 3) (ga : BitVec 5) (me : BitVec 1) (vm : BitVec 3) (pol : BitVec 1) (ord : BitVec 2)
  | vgth (vd : BitVec 3) (ga : BitVec 5) (vc : BitVec 3) (me : BitVec 1) (vm : BitVec 3) (pol : BitVec 1) (sc : BitVec 2)
  | vsct (vd : BitVec 3) (ga : BitVec 5) (vc : BitVec 3) (me : BitVec 1) (vm : BitVec 3) (pol : BitVec 1) (sc : BitVec 2)
  | vbrd (vd : BitVec 3) (ga : BitVec 5) (me : BitVec 1) (vm : BitVec 3) (pol : BitVec 1) (ew : BitVec 3)
  | vext (vd : BitVec 3) (ga : BitVec 5) (lane ew j : BitVec 3)
  | vprm (vd va vb vc : BitVec 3) (me : BitVec 1) (vm : BitVec 3) (pol fn : BitVec 1)
  | vcvt (vd va vb sew : BitVec 3) (me : BitVec 1) (vm : BitVec 3) (pol : BitVec 1) (ew : BitVec 3) (hi : BitVec 1) (rm : BitVec 3)
  -- Messages and threads (13 R390 to R398)
  | send (a : BitVec 5)
  | recv (d a : BitVec 5)
  | rpc (a : BitVec 5)
  | rply (a : BitVec 5)
  | htw (a b c : BitVec 5)
  | spwn (d a b c : BitVec 5)
  | quit
  | bar (a : BitVec 5) (id sc : BitVec 3)
  | qsc (sc : BitVec 3)
  | wft (a : BitVec 5)
  -- Engines, handles, counters and remote writes (13 R399 to R406)
  | cps (a : BitVec 5) (sel : BitVec 14)
  | cpl (d : BitVec 5)
  | cpq (d a : BitVec 5)
  | hwt (st : BitVec 2) (h : BitVec 5)
  | hrl (h : BitVec 5)
  | uls (d a b : BitVec 5)
  | ulr (d a : BitVec 5)
  | rst (a b c : BitVec 5) (w : BitVec 2)
  | rinc (a b c : BitVec 5) (rel kind : BitVec 1)
  -- Planes, vintages, bank units and random numbers (13 R407 to R413)
  | post (a b : BitVec 5)
  | wwt (d a : BitVec 5)
  | vpub (d a b : BitVec 5)
  | vqry (d a : BitVec 5)
  | bcmd (a : BitVec 5)
  | rng (vd va vb vc : BitVec 3) (me : BitVec 1) (vm : BitVec 3) (pol : BitVec 1) (ew : BitVec 3)
  | gmb (vd va vb vc : BitVec 3) (me : BitVec 1) (vm : BitVec 3) (pol : BitVec 1) (fn : BitVec 4)
  -- Deterministic allocation (13 R414 to R416)
  | alc (d a : BitVec 5)
  | fre (a : BitVec 5)
  -- System (13 R417 to R422)
  | trap (e : BitVec 14)
  | eret
  | syr (d : BitVec 5) (sel : BitVec 14)
  | syw (a : BitVec 5) (sel : BitVec 14)
  | tlbi (a : BitVec 5)
  | tlbiAll
  | migr (d a b : BitVec 5)
  | time (d : BitVec 5)
  | timeRot (d : BitVec 5)
  | brk (e : BitVec 14)
  -- Trellis control and registers (14 R428 to R433)
  | blk (len : BitVec 12) (kind : BitVec 1) (count : BitVec 13)
  | nop
  | dly (n1 : BitVec 10)
  | wut (ka kb : BitVec 4)
  | tkp (fifo : BitVec 3) (ks : BitVec 4)
  | tkw (fifo : BitVec 3) (kd : BitVec 4)
  | brc (w : BitVec 4) (bit : BitVec 6) (sense : BitVec 1)
  | kli (kd : BitVec 4) (imm : BitVec 20)
  | kliHi (kd : BitVec 4) (imm : BitVec 16)
  | kliAdd (kd ks : BitVec 4) (imm : BitVec 16)
  | kliMul (kd ks : BitVec 4) (imm : BitVec 16)
  | kop (op : BitVec 2) (kd ks : BitVec 4)
  | endT
  -- Exchange stream (14 R434 to R445)
  | hld (kt kv : BitVec 4) (n16 : BitVec 14)
  | hst (kt kv : BitVec 4) (n16 : BitVec 14)
  | hac (kt kv : BitVec 4) (n16 : BitVec 14) (aty : BitVec 2)
  | lks (ks : BitVec 4) (form dir : BitVec 2) (n1 : BitVec 10)
  | lkr (kt : BitVec 4) (dir : BitVec 2) (n1 : BitVec 10)
  | lka (kl : BitVec 4) (dir : BitVec 2) (out : BitVec 1) (n1 : BitVec 10) (ty : BitVec 2) (kd : BitVec 4)
  | win (id : BitVec 4) (n : BitVec 22)
  | wcl (id : BitVec 4)
  | prd (kd w : BitVec 4) (part : BitVec 2)
  | vlt (slot : BitVec 2)
  | tld (kt kv : BitVec 4) (n16 : BitVec 14) (vchk : BitVec 1)
  | scp (kt ks : BitVec 4) (n16 : BitVec 14)
  -- Format stream (14 R446 to R453)
  | qnt (kt ks : BitVec 4) (fmt : BitVec 5) (rm : BitVec 3) (nosat : BitVec 1) (ty : BitVec 2) (kn : BitVec 4)
  | dqn (kt ks : BitVec 4) (fmt : BitVec 5) (rm : BitVec 3) (nosat : BitVec 1) (ty : BitVec 2) (kn : BitVec 4)
  | cvt (kt ks : BitVec 4) (dfmt sfmt : BitVec 5) (rm : BitVec 3) (nosat : BitVec 1) (kn : BitVec 4)
  | trn (kt ks : BitVec 4) (sz : BitVec 2)
  | pak (kt ks : BitVec 4) (op : BitVec 2) (sx : BitVec 1) (kn : BitVec 4)
  | srs (kt ks : BitVec 4) (fmt : BitVec 5) (rm : BitVec 3) (sh : BitVec 5) (kn : BitVec 4)
  | fmt (kt kp : BitVec 4) (n16 : BitVec 14)
  -- Math stream (14 R454 to R466)
  | wld (kt ks : BitVec 4) (fmt : BitVec 5)
  | mma (ka kw : BitVec 4) (afmt wfmt : BitVec 5) (bank : BitVec 1) (m1 : BitVec 6)
  | acr (kt kr : BitVec 4) (bank : BitVec 1) (aty : BitVec 2) (fmt : BitVec 5) (rm : BitVec 3) (nosat : BitVec 1)
  | acz (bank : BitVec 1) (row0 m1 : BitVec 6)
  | var (yd ya yb yc : BitVec 5) (et : BitVec 2) (op : BitVec 4)
  | vly (kb : BitVec 4) (y : BitVec 5) (off : BitVec 16)
  | vsy (kb : BitVec 4) (y : BitVec 5) (off : BitVec 16)
  | vrd (yd ya : BitVec 5) (op : BitVec 3) (et : BitVec 2)
  | vtr (dir bank : BitVec 1) (row : BitVec 6) (y : BitVec 5)
  | vcm (yd ya yb : BitVec 5) (cond : BitVec 4) (et : BitVec 2)
  | vsl (yd ya yb yc : BitVec 5) (et : BitVec 2) (op : BitVec 3)
  -- Host commands (04 R87 to R101): arg.bytes is the 64-byte record, arg.n its queue
  /-- JOB.OPEN -/
  | jobOpen
  /-- JOB.CLOSE -/
  | jobClose
  /-- MAP -/
  | map
  /-- PEER -/
  | peer
  /-- SCHED.LOAD -/
  | schedLoad
  /-- KLAUNCH -/
  | klaunch
  /-- PREEMPT -/
  | preempt
  /-- RESUME -/
  | resume
  /-- SEED -/
  | seed
  /-- VINTAGE -/
  | vintage
  /-- QUERY -/
  | query
  /-- ATTEST -/
  | attest
  /-- DEBUG -/
  | debug
  /-- LOG -/
  | log
  /-- FWLOAD -/
  | fwload
  /-- START -/
  | start
  /-- POWER -/
  | power
  /-- n the queue, m the slot whose counter reached 64 -/
  | commandThread
  /-- n the queue, m the sequence number -/
  | commandCompletion
  -- The cellarmaster (05)
  /-- n the job -/
  | heldRecordDelivery
  /-- n the job, v the descriptor's VA -/
  | launchPort
  /-- n the number of the queued launch -/
  | launchAccept
  /-- n the job, m the kernel id -/
  | kernelComplete
  /-- n the job -/
  | deadlinePreemption
  /-- n the job -/
  | deadlineMiss
  /-- n the partition -/
  | partitionPreemption
  /-- b true for a kernel; n the job and m the kernel id, or n the partition -/
  | preemptSaveDone
  /-- n the job, m the kernel id -/
  | kernelPreemption
  /-- n the partition -/
  | partitionRestore
  /-- n the job, m the kernel id -/
  | kernelRestore
  /-- n the partition number -/
  | pctlContinue
  /-- n the partition number -/
  | pctlAbort
  /-- b true for a partition; n the partition or the core -/
  | hang
  /-- n the core -/
  | coreClockGate
  /-- n the core -/
  | corePowerGate
  -- Memory-mapped registers (00 R6, R7; 03; 04; 06; 13 R414)
  /-- n the physical address, v the value, who the writer -/
  | registerWrite
  /-- n the queue, v the value -/
  | ahqctlEnable
  /-- v the value written to PODCFG -/
  | podForm
  /-- v the value written to PODCFG -/
  | podDissolve
  /-- n the job, v the value -/
  | alccfgWrite
  /-- n the counter, v the value -/
  | counterFeedWrite
  /-- n the counter, v the value -/
  | counterTotalWrite
  -- Counters, buffers, caches, gates, messages and engines (06, 07, 10)
  /-- n the home, m the counter -/
  | ullageCountReport
  /-- n the counter -/
  | ullageLaunch
  /-- n the thread -/
  | storeBufferDrain
  /-- n the core, m the line number -/
  | rlcEviction
  /-- n the die -/
  | pageWalk
  /-- n the gate -/
  | gatedRequestService
  /-- n the job -/
  | quantumEnd
  /-- n the message's place among those in flight -/
  | messageDelivery
  /-- n the reply's place among those in flight -/
  | rplyDelivery
  /-- n the request's place among those in flight -/
  | spawnService
  /-- n the episode's key -/
  | barrierEpisodeComplete
  /-- n the thread -/
  | qscQuietCheck
  /-- n the thread -/
  | windowSpill
  /-- n the thread -/
  | windowFill
  /-- n the engine -/
  | copyTransferStart
  /-- n the engine -/
  | copyTransferComplete
  /-- n the bank number -/
  | bauCommand
  /-- n the thread -/
  | movedReissue
  /-- n the thread -/
  | wftRelease
  /-- n the remote operation -/
  | remoteAck
  /-- n the remote operation -/
  | retransmissionLimit
  /-- n the packet delivery context -/
  | pdcIdleClose
  -- Packets and frames (03)
  /-- pkt the packet -/
  | rmaWrite
  /-- pkt the packet -/
  | rmaRead
  /-- pkt the packet -/
  | fetchAdd
  /-- pkt the packet -/
  | nonFetchingAtomicAdd
  /-- n the port, m the kind: 0 IPv4, 1 another EtherType, 2 an unsupported service, 3 unsupported semantics -/
  | frameReceive
  /-- n the port, b true for an ICMPv6 echo, bytes the frame's source address -/
  | neighbourDiscovery
  /-- n the port, m the domain, v the timestamp in 1/16 cycle, i the offset estimate in ns, b a supported form -/
  | ptpEventMessage
  /-- n the port -/
  | ethernetPortDown
  /-- n the port, b whether it trained -/
  | ethernetPortTraining
  /-- n the port, m the latency measured, b whether the cabling matches -/
  | tendrilTraining
  /-- n the port, m the cause: 0 uncorrectable codeword, 1 CRC mismatch, 2 loss of lock -/
  | link
  /-- n the port, ints t1 to t4 in 1/16 cycle -/
  | timestamp
  /-- a TIMESTAMP exchange falls due -/
  | timestampExchange
  /-- n the partition number, v WHEN -/
  | sidebandFreeze
  /-- n the partition number, v WHEN -/
  | sidebandResume
  /-- n the barrier id, m the count, b true for a release -/
  | sidebandBar
  /-- n the partition number, v WHEN, m the kind: 0 freeze decision, 1 PTIME sample, 2 vintage sample, 3 choice; bytes the value -/
  | bcast
  /-- v WHEN, i the correction -/
  | corr
  /-- n the partition number, m the fault code, v the faulting cycle -/
  | sidebandFault
  /-- n the port, bytes the body -/
  | linkmgt
  /-- n the port, m the type -/
  | sidebandReserved
  -- Time, power, starts, ageing and memory upkeep (02, 03, 05 R130)
  /-- a pending correction has a step due -/
  | ptimeCorrectionStep
  /-- a pending phase shift has a step due -/
  | clockPhaseStep
  /-- n the watts measured -/
  | powerSample
  /-- a throttle step falls due -/
  | throttleStep
  /-- a 256-cycle interval begins -/
  | throttleInterval
  /-- n the die -/
  | thermalFloor
  /-- b true for a rail out of range -/
  | thermalTrip
  /-- n the rail, b whether it reached its range -/
  | railEnable
  /-- a reset or power-up -/
  | reset
  /-- n the first failed step or 0, b stacks in self-refresh with valid training values -/
  | startSequence
  /-- the last unit has been saved and firmware orders entry -/
  | retentionEntry
  /-- bytes the lowest margin of each die and domain in ps -/
  | marginPlan
  /-- n the die, m the domain -/
  | marginMonitorLow
  /-- a glitch monitor trip or a fuse re-read mismatch -/
  | securityFault
  /-- PTIME reaches NOTAFTER -/
  | debugExpiry
  /-- n the sector, b another write intervened, m 0 clean, 1 corrected, 2 uncorrectable -/
  | patrolScrub
  /-- n the bank, b no free cycle for a whole pass -/
  | sramScrub
  /-- n the stack, m the pseudo-channel, v the row -/
  | alertBackOff
  /-- n the stack, m the rate in units of 0.1 Gb/s -/
  | hbmRetrainRequest
  /-- n the stack -/
  | retrainDeferExpiry
  /-- n the stack -/
  | hbmFallbackRate
  -- The trellis plane (09)
  /-- n the partition -/
  | scheduleStart
  /-- n the partition -/
  | checkPoint
  /-- n the partition -/
  | freezeTakesEffect
  /-- n the partition -/
  | freezeEnd
  /-- n the partition -/
  | slipTimeout
  /-- n the post's place among those that came again -/
  | postArrival
  /-- n the tile, m the window id -/
  | windowOpen
  /-- n the tile, m the window id -/
  | windowClose
  /-- n the tile -/
  | hbmGranuleLanding
  /-- n the flit's place among partition m's; with bytes, a flit from another package for tile n from direction m -/
  | meshFlitArrival
  /-- n the partition -/
  | scheduleEnd
  /-- n the die -/
  | thermalFloorRelease
  /-- n the remote operation, b true for a TSS failure at the initiator, false for a refusal -/
  | negativeAcknowledgement
  /-- the page migration under way -/
  | migrationEnd
  /-- n the stack -/
  | hbmRetrainingEnd
  deriving DecidableEq, Repr

end Sys2Proof
end

