-- ==== Sys2Proof/WellFormed.lean ====
section
/-! DEFINITION. The limits that the entries of the instructions put on their fields: a Jalgal-N word that breaks one
raises ILLEGAL (11 R315), a Jalgal-T instruction that breaks one refuses its image with STREAMOP (14 R423). -/

namespace Sys2Proof

/-- Rounding codes of scalar and vector arithmetic: 0 to 3, or 7 for FCTL.RM (11 R322; 13 R374). -/
def rmOk (rm : BitVec 3) : Bool := decide (rm.toNat ≤ 3) || rm == 7#3

/-- Ordering codes of a load: plain or `.acq` (11 R317). -/
def ordLoad (o : BitVec 2) : Bool := o == 0#2 || o == 2#2

/-- Ordering codes of a store: plain or `.rel` (11 R317). -/
def ordStore (o : BitVec 2) : Bool := o == 0#2 || o == 1#2

/-- The mask fields: without a mask, vm and pol are zero (11 R321). -/
def maskOk (me : BitVec 1) (vm : BitVec 3) (pol : BitVec 1) : Bool :=
  me == 1#1 || (vm == 0#3 && pol == 0#1)

/-- Element codes 4 to 7 are the floating-point ones (11 R320). -/
def ewFp (ew : BitVec 3) : Bool := decide (4 ≤ ew.toNat)

/-- Log2 of the element size in bytes of an element code (11 R320). -/
def ewLog2 (ew : BitVec 3) : Nat :=
  match ew.toNat with
  | 0 => 0
  | 1 => 1
  | 2 => 2
  | 3 => 3
  | 4 => 1
  | 5 => 1
  | 6 => 2
  | _ => 3

/-- The fn field of VADD to VDIV: a rounding code for FP elements, zero for integers (13 R381). -/
def vArithFn (ew : BitVec 3) (fn : BitVec 4) : Bool :=
  if ewFp ew then decide (fn.toNat < 8) && rmOk (fn.extractLsb' 0 3) else fn == 0#4

/-- VCVT: different codes, sizes equal or a factor of 2 apart, at least one FP (13 R386). -/
def vcvtOk (sew ew : BitVec 3) (vb : BitVec 3) (hi : BitVec 1) (rm : BitVec 3) : Bool :=
  let s := ewLog2 sew
  let d := ewLog2 ew
  sew != ew && (ewFp sew || ewFp ew) && decide (s ≤ d + 1) && decide (d ≤ s + 1)
    && (if s = d then hi == 0#1 else true)
    && (if rm == 4#3 then decide (d < s) && ewFp ew else rmOk rm && vb == 0#3)

/-- FCVT: twenty conversions, `.sr` only where the result is a narrower FP format (13 R378). -/
def fcvtOk (kind b : BitVec 5) (rm : BitVec 3) : Bool :=
  decide (kind.toNat < 20)
    && (if rm == 4#3 then kind == 0#5 || (decide (2 ≤ kind.toNat) && decide (kind.toNat ≤ 5))
        else rmOk rm && b == 0#5)

/-- The assigned format codes (08 R224). -/
def fmtOk (f : BitVec 5) : Bool :=
  (decide (1 ≤ f.toNat) && decide (f.toNat ≤ 13)) || (decide (16 ≤ f.toNat) && decide (f.toNat ≤ 23))

/-- The row of the slice array that a format belongs to, by its K: 256 FP4, 64 FP8, 32 INT6, 16 INT8, 8 FP16, 2 FP32,
1 FP64; 0 where the format has no row (08 R225). -/
def fmtK (f : BitVec 5) : Nat :=
  match f.toNat with
  | 0x09 | 0x14 => 256
  | 0x05 | 0x06 | 0x07 | 0x08 | 0x0A | 0x17 | 0x12 | 0x13 | 0x10 | 0x11 => 64
  | 0x0B | 0x16 => 32
  | 0x0C | 0x15 | 0x04 => 16
  | 0x03 => 8
  | 0x02 => 2
  | 0x01 => 1
  | _ => 0

/-- The kind of a format: 0 plain floating point, 1 plain integer, 2 MX (08 R226). -/
def fmtClass (f : BitVec 5) : Nat :=
  if 16 ≤ f.toNat then 2 else if 10 ≤ f.toNat then 1 else 0

/-- Two operands of a pass lie in one row and are of one kind (08 R226). -/
def mmaPairOk (a w : BitVec 5) : Bool :=
  fmtK a != 0 && fmtK a == fmtK w && fmtClass a == fmtClass w

/-- Trellis rounding codes: 0 to 4 (14 R446). -/
def rmT (rm : BitVec 3) : Bool := decide (rm.toNat ≤ 4)

/-- Element types 2 and 3 of the tile vector unit are floating point (14 R459). -/
def etFp (et : BitVec 2) : Bool := decide (2 ≤ et.toNat)

/-- VAR: unused register fields zero, FP-only and integer-only operations, conversions (14 R461, R462). -/
def varOk (yb yc : BitVec 5) (et : BitVec 2) (op : BitVec 4) : Bool :=
  match op.toNat with
  | 3 => true
  | 6 => yc == 0#5 && etFp et
  | 7 => yb == 0#5 && yc == 0#5 && etFp et
  | 8 | 9 => yb == 0#5 && yc == 0#5
  | 13 | 14 => yc == 0#5 && !etFp et
  | 15 =>
    decide (yb.toNat < 4) && decide (yc.toNat < 2) && yb.extractLsb' 0 2 != et
      && (if yb.getLsbD 0 == et.getLsbD 0 then yc == 0#5 else true)
  | _ => yc == 0#5

/-- VSL: the selection, slides, broadcast and FTZ forms (14 R464). -/
def vslOk (yd ya yb yc : BitVec 5) (et : BitVec 2) (op : BitVec 3) : Bool :=
  match op.toNat with
  | 0 | 1 | 2 => true
  | 3 => yb == 0#5
  | 4 => yd == 0#5 && ya == 0#5 && yb == 0#5 && et == 0#2 && decide (yc.toNat ≤ 1)
  | _ => false

/-- Whether an instruction keeps the field limits of its entry; a step without fields does. -/
def Instr.wf : Instr → Bool
  | .shli _ _ i | .shri _ _ i | .sari _ _ i | .roti _ _ i => decide (i.toNat < 64)
  | .bext _ _ p l | .bins _ _ p l => decide (p.toNat + (l.toNat + 1) ≤ 64)
  | .sk c n _ _ => decide (c.toNat ≤ 11) && n != 0#2
  | .ski c n _ i => decide (c.toNat ≤ 11) && n != 0#2 && (decide (c.toNat < 10) || decide (i.toNat < 64))
  | .fsk _ _ n _ _ => n != 0#2
  | .ld _ _ o _ w | .ldc _ _ o _ w => w != 7#3 && ordLoad o
  | .ldx _ _ _ w o _ => w != 7#3 && ordLoad o
  | .st _ _ o _ w => decide (w.toNat ≤ 3) && ordStore o
  | .stx _ _ _ w o _ => decide (w.toNat ≤ 3) && ordStore o
  | .amo _ _ _ w o f =>
    decide (o.toNat ≤ 1) && decide (f.toNat ≤ 10) && (if f == 9#4 then w == 0#1 else true)
      && (if f == 10#4 then w == 1#1 else true)
  | .cas _ _ _ _ _ o => decide (o.toNat ≤ 1)
  | .arl _ _ _ w => w != 7#3
  | .ars _ _ _ w => decide (w.toNat ≤ 3)
  | .fence s => decide (s.toNat ≤ 4)
  | .bfence a s => s == 5#3 || s == 6#3 || (s == 3#3 && a == 0#5)
  | .fadd _ _ _ r _ | .fsub _ _ _ r _ | .fmul _ _ _ r _ | .fdiv _ _ _ r _ => rmOk r
  | .fsqrt _ _ r _ | .frnd _ _ r _ => rmOk r
  | .fma _ _ _ _ r _ | .fms _ _ _ _ r _ | .fnma _ _ _ _ r _ => rmOk r
  | .fcvt _ _ b k r => fcvtOk k b r
  | .fsgn _ _ _ o _ => decide (o.toNat ≤ 2)
  | .vadd _ _ _ me vm p e f | .vsub _ _ _ me vm p e f | .vmul _ _ _ me vm p e f => maskOk me vm p && vArithFn e f
  | .vfma _ _ _ _ me vm p e f => maskOk me vm p && vArithFn e f
  | .vdiv _ _ _ me vm p e f => maskOk me vm p && ewFp e && vArithFn e f
  | .vmin _ _ _ me vm p e f | .vmax _ _ _ me vm p e f =>
    maskOk me vm p && (if ewFp e then f == 0#4 else decide (f.toNat ≤ 1))
  | .vlog _ _ b me vm p f => maskOk me vm p && decide (f.toNat ≤ 4) && (if f == 4#4 then b == 0#3 else true)
  | .vshf _ _ _ me vm p e f => maskOk me vm p && !ewFp e && decide (f.toNat ≤ 3)
  | .vcmp _ _ _ me vm p e f => maskOk me vm p && (if ewFp e then decide (f.toNat < 8) else decide (f.toNat ≤ 11))
  | .vsel _ _ _ _ me vm p => maskOk me vm p
  | .vred _ _ me vm e f => maskOk me vm 0#1 && decide (f.toNat ≤ 4) && (decide (f.toNat < 3) || !ewFp e)
  | .vld _ _ me vm p o => maskOk me vm p && ordLoad o
  | .vst _ _ me vm p o => maskOk me vm p && ordStore o
  | .vgth _ _ _ me vm p _ | .vsct _ _ _ me vm p _ => maskOk me vm p
  | .vbrd _ _ me vm p _ => maskOk me vm p
  | .vext _ _ _ e j => decide (j.toNat < 2 ^ (3 - ewLog2 e))
  | .vprm _ _ _ c me vm p f => maskOk me vm p && (f == 1#1 || c == 0#3)
  | .vcvt _ _ b s me vm p e h r => maskOk me vm p && vcvtOk s e b h r
  | .spwn _ _ _ c => decide (c.toNat ≤ 28)
  | .bar _ _ s => decide (s.toNat ≤ 4)
  | .qsc s => decide (s.toNat ≤ 3)
  | .cps _ s => decide (s.toNat ≤ 13)
  | .vqry d _ => decide (2 ≤ d.toNat) && d.toNat % 2 == 0
  | .rng _ _ _ _ me vm p e => maskOk me vm p && (e == 3#3 || e == 7#3)
  | .gmb _ _ _ c me vm p f => maskOk me vm p && decide (f.toNat ≤ 2) && (f != 2#4 || c == 0#3)
  | .syr _ s => decide (s.toNat ≤ 16)
  | .syw _ s => decide (s.toNat ≤ 16)
  | .blk l k c => l != 0#12 && (if k == 0#1 then c != 0#13 else decide (c.toNat < 16))
  | .tkp f _ | .tkw f _ => decide (f.toNat ≤ 5)
  | .hld _ _ n | .hst _ _ n | .scp _ _ n | .fmt _ _ n => n != 0#14
  | .hac _ _ n _ => n != 0#14
  | .tld _ _ n _ => decide (2 ≤ n.toNat)
  | .lks _ f d _ => decide (f.toNat ≤ 2) && (f == 0#2 || d == 0#2)
  | .lka _ _ o _ t k => decide (t.toNat ≤ 2) && (o == 1#1 || k == 0#4)
  | .prd _ _ p => decide (p.toNat ≤ 2)
  | .qnt _ _ f r _ _ _ => fmtOk f && rmT r
  | .dqn _ _ f r _ _ _ => fmtOk f && f != 13#5 && rmT r
  | .cvt _ _ d s r _ _ => fmtOk d && fmtOk s && decide (d.toNat ≤ 13) && decide (s.toNat ≤ 13) && d != s && rmT r
  | .srs _ _ f r _ _ => decide (10 ≤ f.toNat) && decide (f.toNat ≤ 13) && rmT r
  | .pak _ _ o x _ => x == 0#1 || o == 1#2 || o == 3#2
  | .wld _ _ f => decide (1 ≤ f.toNat) && decide (f.toNat ≤ 12)
  | .mma _ _ a w _ _ => mmaPairOk a w
  | .acr _ _ _ t f r _ => decide (t.toNat ≤ 2) && fmtOk f && rmT r
  | .acz _ r m => decide (r.toNat + (m.toNat + 1) ≤ 64)
  | .var _ _ b c e o => varOk b c e o
  | .vrd _ _ o e => decide (o.toNat ≤ 4) && (decide (o.toNat < 3) || !etFp e)
  | .vcm _ _ _ c e =>
    decide (c.toNat ≤ 9) && (if c == 6#4 || c == 7#4 then !etFp e else true)
      && (if c == 8#4 || c == 9#4 then etFp e else true)
  | .vsl d a b c e o => vslOk d a b c e o
  | _ => true

end Sys2Proof
end

