-- ==== Sys2Proof/Decode.lean ====
section
/-! DEFINITION. Decoding and encoding of Jalgal-N words and Jalgal-T instructions, from the formats and opcode maps of
"Jalgal assembly language, formats and opcode maps" (11 R312 to R327) and the field lists of the instruction chapters.
A word whose opcode is reserved, whose fixed fields do not hold their values or whose fields break the limits of the
entry is refused by name. -/

namespace Sys2Proof

/-- The words of an instruction: one 32-bit word or one halfword; a step without an encoding has none. -/
inductive Words where
  | w32 (w : BitVec 32)
  | w16 (w : BitVec 16)
  | none
  deriving DecidableEq, Repr

/-- Why a word is refused. -/
inductive DecodeError where
  /-- A reserved opcode, or a fixed field without its value (00 R8, R9). -/
  | reserved
  /-- A field outside the limits of its entry (11 R315; 14 R423). -/
  | fieldLimit
  deriving DecidableEq, Repr

/-- The word of ADD, SUB, MUL, MULH, MULHU, DIV, DIVU, REM, REMU, AND, OR, XOR, ANDN, SHL, SHR, SAR, ROT, MIN, MAX, MINU, MAXU, ULS, VPUB, MIGR. -/
def encNDAB (opc : BitVec 8) (d a b : BitVec 5) : BitVec 32 :=
  opc.setWidth 32 <<< 24 ||| d.setWidth 32 <<< 19 ||| a.setWidth 32 <<< 14 ||| b.setWidth 32 <<< 9

/-- The operands of ADD, SUB, MUL, MULH, MULHU, DIV, DIVU, REM, REMU, AND, OR, XOR, ANDN, SHL, SHR, SAR, ROT, MIN, MAX, MINU, MAXU, ULS, VPUB, MIGR, where every fixed field holds its value. -/
def decNDAB (k : BitVec 5 → BitVec 5 → BitVec 5 → Instr) (w : BitVec 32) : Option Instr :=
  if w.extractLsb' 0 9 = 0#9 then some (k (w.extractLsb' 19 5) (w.extractLsb' 14 5) (w.extractLsb' 9 5)) else none

/-- The word of ADDI, ANDI, ORI, XORI, SHLI, SHRI, SARI, ROTI, LIH. -/
def encNDAImm (opc : BitVec 8) (d a : BitVec 5) (imm : BitVec 14) : BitVec 32 :=
  opc.setWidth 32 <<< 24 ||| d.setWidth 32 <<< 19 ||| a.setWidth 32 <<< 14 ||| imm.setWidth 32

/-- The operands of ADDI, ANDI, ORI, XORI, SHLI, SHRI, SARI, ROTI, LIH, where every fixed field holds its value. -/
def decNDAImm (k : BitVec 5 → BitVec 5 → BitVec 14 → Instr) (w : BitVec 32) : Option Instr :=
  some (k (w.extractLsb' 19 5) (w.extractLsb' 14 5) (w.extractLsb' 0 14))

/-- The word of LEA. -/
def encNDBaseIdxSc (opc : BitVec 8) (d base idx : BitVec 5) (sc : BitVec 2) : BitVec 32 :=
  opc.setWidth 32 <<< 24 ||| d.setWidth 32 <<< 19 ||| base.setWidth 32 <<< 14 ||| idx.setWidth 32 <<< 9 ||| sc.setWidth 32

/-- The operands of LEA, where every fixed field holds its value. -/
def decNDBaseIdxSc (k : BitVec 5 → BitVec 5 → BitVec 5 → BitVec 2 → Instr) (w : BitVec 32) : Option Instr :=
  if w.extractLsb' 2 7 = 0#7 then some (k (w.extractLsb' 19 5) (w.extractLsb' 14 5) (w.extractLsb' 9 5) (w.extractLsb' 0 2)) else none

/-- The word of CLZ, CTZ, POPC, BREV, BSWP, ARC, RECV, CPQ, ULR, WWT, VQRY, ALC. -/
def encNDA (opc : BitVec 8) (d a : BitVec 5) : BitVec 32 :=
  opc.setWidth 32 <<< 24 ||| d.setWidth 32 <<< 19 ||| a.setWidth 32 <<< 14

/-- The operands of CLZ, CTZ, POPC, BREV, BSWP, ARC, RECV, CPQ, ULR, WWT, VQRY, ALC, where every fixed field holds its value. -/
def decNDA (k : BitVec 5 → BitVec 5 → Instr) (w : BitVec 32) : Option Instr :=
  if w.extractLsb' 0 14 = 0#14 then some (k (w.extractLsb' 19 5) (w.extractLsb' 14 5)) else none

/-- The word of BEXT, BINS. -/
def encNDAPosLen1 (opc : BitVec 8) (d a : BitVec 5) (pos len1 : BitVec 6) : BitVec 32 :=
  opc.setWidth 32 <<< 24 ||| d.setWidth 32 <<< 19 ||| a.setWidth 32 <<< 14 ||| pos.setWidth 32 <<< 8 ||| len1.setWidth 32 <<< 2

/-- The operands of BEXT, BINS, where every fixed field holds its value. -/
def decNDAPosLen1 (k : BitVec 5 → BitVec 5 → BitVec 6 → BitVec 6 → Instr) (w : BitVec 32) : Option Instr :=
  if w.extractLsb' 0 2 = 0#2 then some (k (w.extractLsb' 19 5) (w.extractLsb' 14 5) (w.extractLsb' 8 6) (w.extractLsb' 2 6)) else none

/-- The word of SK. -/
def encNCondNAB (opc : BitVec 8) (cond : BitVec 4) (n : BitVec 2) (a b : BitVec 5) : BitVec 32 :=
  opc.setWidth 32 <<< 24 ||| cond.setWidth 32 <<< 20 ||| n.setWidth 32 <<< 18 ||| a.setWidth 32 <<< 13 ||| b.setWidth 32 <<< 8

/-- The operands of SK, where every fixed field holds its value. -/
def decNCondNAB (k : BitVec 4 → BitVec 2 → BitVec 5 → BitVec 5 → Instr) (w : BitVec 32) : Option Instr :=
  if w.extractLsb' 0 8 = 0#8 then some (k (w.extractLsb' 20 4) (w.extractLsb' 18 2) (w.extractLsb' 13 5) (w.extractLsb' 8 5)) else none

/-- The word of SKI. -/
def encNCondNAImm (opc : BitVec 8) (cond : BitVec 4) (n : BitVec 2) (a : BitVec 5) (imm : BitVec 13) : BitVec 32 :=
  opc.setWidth 32 <<< 24 ||| cond.setWidth 32 <<< 20 ||| n.setWidth 32 <<< 18 ||| a.setWidth 32 <<< 13 ||| imm.setWidth 32

/-- The operands of SKI, where every fixed field holds its value. -/
def decNCondNAImm (k : BitVec 4 → BitVec 2 → BitVec 5 → BitVec 13 → Instr) (w : BitVec 32) : Option Instr :=
  some (k (w.extractLsb' 20 4) (w.extractLsb' 18 2) (w.extractLsb' 13 5) (w.extractLsb' 0 13))

/-- The word of FSK. -/
def encNPCondNAB (opc : BitVec 8) (p : BitVec 1) (cond : BitVec 3) (n : BitVec 2) (a b : BitVec 5) : BitVec 32 :=
  opc.setWidth 32 <<< 24 ||| p.setWidth 32 <<< 23 ||| cond.setWidth 32 <<< 20 ||| n.setWidth 32 <<< 18 ||| a.setWidth 32 <<< 13 ||| b.setWidth 32 <<< 8

/-- The operands of FSK, where every fixed field holds its value. -/
def decNPCondNAB (k : BitVec 1 → BitVec 3 → BitVec 2 → BitVec 5 → BitVec 5 → Instr) (w : BitVec 32) : Option Instr :=
  if w.extractLsb' 0 8 = 0#8 then some (k (w.extractLsb' 23 1) (w.extractLsb' 20 3) (w.extractLsb' 18 2) (w.extractLsb' 13 5) (w.extractLsb' 8 5)) else none

/-- The word of BR, CALL. -/
def encNImm (opc : BitVec 8) (imm : BitVec 24) : BitVec 32 :=
  opc.setWidth 32 <<< 24 ||| imm.setWidth 32

/-- The operands of BR, CALL, where every fixed field holds its value. -/
def decNImm (k : BitVec 24 → Instr) (w : BitVec 32) : Option Instr :=
  some (k (w.extractLsb' 0 24))

/-- The word of JR, CALLR, ARB, SEND, RPC, RPLY, WFT, BCMD, FRE, TLBI. -/
def encNA (opc : BitVec 8) (a : BitVec 5) : BitVec 32 :=
  opc.setWidth 32 <<< 24 ||| a.setWidth 32 <<< 14

/-- The operands of JR, CALLR, ARB, SEND, RPC, RPLY, WFT, BCMD, FRE, TLBI, where every fixed field holds its value. -/
def decNA (k : BitVec 5 → Instr) (w : BitVec 32) : Option Instr :=
  if w.extractLsb' 19 5 = 0#5 ∧ w.extractLsb' 0 14 = 0#14 then some (k (w.extractLsb' 14 5)) else none

/-- The word of RET, QUIT, ERET. -/
def encNNone (opc : BitVec 8) : BitVec 32 :=
  opc.setWidth 32 <<< 24

/-- The operands of RET, QUIT, ERET, where every fixed field holds its value. -/
def decNNone (k : Instr) (w : BitVec 32) : Option Instr :=
  if w.extractLsb' 0 24 = 0#24 then some k else none

/-- The word of DBNZ, SYR. -/
def encNDImm (opc : BitVec 8) (d : BitVec 5) (imm : BitVec 14) : BitVec 32 :=
  opc.setWidth 32 <<< 24 ||| d.setWidth 32 <<< 19 ||| imm.setWidth 32

/-- The operands of DBNZ, SYR, where every fixed field holds its value. -/
def decNDImm (k : BitVec 5 → BitVec 14 → Instr) (w : BitVec 32) : Option Instr :=
  if w.extractLsb' 14 5 = 0#5 then some (k (w.extractLsb' 19 5) (w.extractLsb' 0 14)) else none

/-- The word of LD, ST, LDC. -/
def encNDBaseOrdOffWc (opc : BitVec 8) (d base : BitVec 5) (ord : BitVec 2) (off : BitVec 9) (wc : BitVec 3) : BitVec 32 :=
  opc.setWidth 32 <<< 24 ||| d.setWidth 32 <<< 19 ||| base.setWidth 32 <<< 14 ||| ord.setWidth 32 <<< 12 ||| off.setWidth 32 <<< 3 ||| wc.setWidth 32

/-- The operands of LD, ST, LDC, where every fixed field holds its value. -/
def decNDBaseOrdOffWc (k : BitVec 5 → BitVec 5 → BitVec 2 → BitVec 9 → BitVec 3 → Instr) (w : BitVec 32) : Option Instr :=
  some (k (w.extractLsb' 19 5) (w.extractLsb' 14 5) (w.extractLsb' 12 2) (w.extractLsb' 3 9) (w.extractLsb' 0 3))

/-- The word of LDX, STX. -/
def encNDBaseIdxWcOrdSc (opc : BitVec 8) (d base idx : BitVec 5) (wc : BitVec 3) (ord sc : BitVec 2) : BitVec 32 :=
  opc.setWidth 32 <<< 24 ||| d.setWidth 32 <<< 19 ||| base.setWidth 32 <<< 14 ||| idx.setWidth 32 <<< 9 ||| wc.setWidth 32 <<< 5 ||| ord.setWidth 32 <<< 2 ||| sc.setWidth 32

/-- The operands of LDX, STX, where every fixed field holds its value. -/
def decNDBaseIdxWcOrdSc (k : BitVec 5 → BitVec 5 → BitVec 5 → BitVec 3 → BitVec 2 → BitVec 2 → Instr) (w : BitVec 32) : Option Instr :=
  if w.extractLsb' 8 1 = 0#1 ∧ w.extractLsb' 4 1 = 0#1 then some (k (w.extractLsb' 19 5) (w.extractLsb' 14 5) (w.extractLsb' 9 5) (w.extractLsb' 5 3) (w.extractLsb' 2 2) (w.extractLsb' 0 2)) else none

/-- The word of PRF, FEC. -/
def encNBaseOff (opc : BitVec 8) (base : BitVec 5) (off : BitVec 9) : BitVec 32 :=
  opc.setWidth 32 <<< 24 ||| base.setWidth 32 <<< 14 ||| off.setWidth 32 <<< 3 ||| 3#32

/-- The operands of PRF, FEC, where every fixed field holds its value. -/
def decNBaseOff (k : BitVec 5 → BitVec 9 → Instr) (w : BitVec 32) : Option Instr :=
  if w.extractLsb' 19 5 = 0#5 ∧ w.extractLsb' 12 2 = 0#2 ∧ w.extractLsb' 0 3 = 3#3 then some (k (w.extractLsb' 14 5) (w.extractLsb' 3 9)) else none

/-- The word of LDF, STE, LDP, STF. -/
def encNDBaseOff (opc : BitVec 8) (d base : BitVec 5) (off : BitVec 9) : BitVec 32 :=
  opc.setWidth 32 <<< 24 ||| d.setWidth 32 <<< 19 ||| base.setWidth 32 <<< 14 ||| off.setWidth 32 <<< 3 ||| 3#32

/-- The operands of LDF, STE, LDP, STF, where every fixed field holds its value. -/
def decNDBaseOff (k : BitVec 5 → BitVec 5 → BitVec 9 → Instr) (w : BitVec 32) : Option Instr :=
  if w.extractLsb' 12 2 = 0#2 ∧ w.extractLsb' 0 3 = 3#3 then some (k (w.extractLsb' 19 5) (w.extractLsb' 14 5) (w.extractLsb' 3 9)) else none

/-- The word of AMO. -/
def encNDABWOrdFn (opc : BitVec 8) (d a b : BitVec 5) (w : BitVec 1) (ord : BitVec 2) (fn : BitVec 4) : BitVec 32 :=
  opc.setWidth 32 <<< 24 ||| d.setWidth 32 <<< 19 ||| a.setWidth 32 <<< 14 ||| b.setWidth 32 <<< 9 ||| w.setWidth 32 <<< 8 ||| ord.setWidth 32 <<< 6 ||| fn.setWidth 32

/-- The operands of AMO, where every fixed field holds its value. -/
def decNDABWOrdFn (k : BitVec 5 → BitVec 5 → BitVec 5 → BitVec 1 → BitVec 2 → BitVec 4 → Instr) (w : BitVec 32) : Option Instr :=
  if w.extractLsb' 4 2 = 0#2 then some (k (w.extractLsb' 19 5) (w.extractLsb' 14 5) (w.extractLsb' 9 5) (w.extractLsb' 8 1) (w.extractLsb' 6 2) (w.extractLsb' 0 4)) else none

/-- The word of CAS. -/
def encNDABCWOrd (opc : BitVec 8) (d a b c : BitVec 5) (w : BitVec 1) (ord : BitVec 2) : BitVec 32 :=
  opc.setWidth 32 <<< 24 ||| d.setWidth 32 <<< 19 ||| a.setWidth 32 <<< 14 ||| b.setWidth 32 <<< 9 ||| c.setWidth 32 <<< 4 ||| w.setWidth 32 <<< 3 ||| ord.setWidth 32 <<< 1

/-- The operands of CAS, where every fixed field holds its value. -/
def decNDABCWOrd (k : BitVec 5 → BitVec 5 → BitVec 5 → BitVec 5 → BitVec 1 → BitVec 2 → Instr) (w : BitVec 32) : Option Instr :=
  if w.extractLsb' 0 1 = 0#1 then some (k (w.extractLsb' 19 5) (w.extractLsb' 14 5) (w.extractLsb' 9 5) (w.extractLsb' 4 5) (w.extractLsb' 3 1) (w.extractLsb' 1 2)) else none

/-- The word of ARL, ARS. -/
def encNDBaseOffWc (opc : BitVec 8) (d base : BitVec 5) (off : BitVec 9) (wc : BitVec 3) : BitVec 32 :=
  opc.setWidth 32 <<< 24 ||| d.setWidth 32 <<< 19 ||| base.setWidth 32 <<< 14 ||| off.setWidth 32 <<< 3 ||| wc.setWidth 32

/-- The operands of ARL, ARS, where every fixed field holds its value. -/
def decNDBaseOffWc (k : BitVec 5 → BitVec 5 → BitVec 9 → BitVec 3 → Instr) (w : BitVec 32) : Option Instr :=
  if w.extractLsb' 12 2 = 0#2 then some (k (w.extractLsb' 19 5) (w.extractLsb' 14 5) (w.extractLsb' 3 9) (w.extractLsb' 0 3)) else none

/-- The word of FENCE, QSC. -/
def encNSc (opc : BitVec 8) (sc : BitVec 3) : BitVec 32 :=
  opc.setWidth 32 <<< 24 ||| sc.setWidth 32

/-- The operands of FENCE, QSC, where every fixed field holds its value. -/
def decNSc (k : BitVec 3 → Instr) (w : BitVec 32) : Option Instr :=
  if w.extractLsb' 3 21 = 0#21 then some (k (w.extractLsb' 0 3)) else none

/-- The word of BFENCE. -/
def encNASc (opc : BitVec 8) (a : BitVec 5) (sc : BitVec 3) : BitVec 32 :=
  opc.setWidth 32 <<< 24 ||| a.setWidth 32 <<< 14 ||| sc.setWidth 32

/-- The operands of BFENCE, where every fixed field holds its value. -/
def decNASc (k : BitVec 5 → BitVec 3 → Instr) (w : BitVec 32) : Option Instr :=
  if w.extractLsb' 19 5 = 0#5 ∧ w.extractLsb' 3 11 = 0#11 then some (k (w.extractLsb' 14 5) (w.extractLsb' 0 3)) else none

/-- The word of FADD, FSUB, FMUL, FDIV, FSGN. -/
def encNDABRmP (opc : BitVec 8) (d a b : BitVec 5) (rm : BitVec 3) (p : BitVec 1) : BitVec 32 :=
  opc.setWidth 32 <<< 24 ||| d.setWidth 32 <<< 19 ||| a.setWidth 32 <<< 14 ||| b.setWidth 32 <<< 9 ||| rm.setWidth 32 <<< 1 ||| p.setWidth 32

/-- The operands of FADD, FSUB, FMUL, FDIV, FSGN, where every fixed field holds its value. -/
def decNDABRmP (k : BitVec 5 → BitVec 5 → BitVec 5 → BitVec 3 → BitVec 1 → Instr) (w : BitVec 32) : Option Instr :=
  if w.extractLsb' 4 5 = 0#5 then some (k (w.extractLsb' 19 5) (w.extractLsb' 14 5) (w.extractLsb' 9 5) (w.extractLsb' 1 3) (w.extractLsb' 0 1)) else none

/-- The word of FSQRT, FRND. -/
def encNDARmP (opc : BitVec 8) (d a : BitVec 5) (rm : BitVec 3) (p : BitVec 1) : BitVec 32 :=
  opc.setWidth 32 <<< 24 ||| d.setWidth 32 <<< 19 ||| a.setWidth 32 <<< 14 ||| rm.setWidth 32 <<< 1 ||| p.setWidth 32

/-- The operands of FSQRT, FRND, where every fixed field holds its value. -/
def decNDARmP (k : BitVec 5 → BitVec 5 → BitVec 3 → BitVec 1 → Instr) (w : BitVec 32) : Option Instr :=
  if w.extractLsb' 4 10 = 0#10 then some (k (w.extractLsb' 19 5) (w.extractLsb' 14 5) (w.extractLsb' 1 3) (w.extractLsb' 0 1)) else none

/-- The word of FMA, FMS, FNMA. -/
def encNDABCRmP (opc : BitVec 8) (d a b c : BitVec 5) (rm : BitVec 3) (p : BitVec 1) : BitVec 32 :=
  opc.setWidth 32 <<< 24 ||| d.setWidth 32 <<< 19 ||| a.setWidth 32 <<< 14 ||| b.setWidth 32 <<< 9 ||| c.setWidth 32 <<< 4 ||| rm.setWidth 32 <<< 1 ||| p.setWidth 32

/-- The operands of FMA, FMS, FNMA, where every fixed field holds its value. -/
def decNDABCRmP (k : BitVec 5 → BitVec 5 → BitVec 5 → BitVec 5 → BitVec 3 → BitVec 1 → Instr) (w : BitVec 32) : Option Instr :=
  some (k (w.extractLsb' 19 5) (w.extractLsb' 14 5) (w.extractLsb' 9 5) (w.extractLsb' 4 5) (w.extractLsb' 1 3) (w.extractLsb' 0 1))

/-- The word of FMIN, FMAX. -/
def encNDABP (opc : BitVec 8) (d a b : BitVec 5) (p : BitVec 1) : BitVec 32 :=
  opc.setWidth 32 <<< 24 ||| d.setWidth 32 <<< 19 ||| a.setWidth 32 <<< 14 ||| b.setWidth 32 <<< 9 ||| p.setWidth 32

/-- The operands of FMIN, FMAX, where every fixed field holds its value. -/
def decNDABP (k : BitVec 5 → BitVec 5 → BitVec 5 → BitVec 1 → Instr) (w : BitVec 32) : Option Instr :=
  if w.extractLsb' 1 8 = 0#8 then some (k (w.extractLsb' 19 5) (w.extractLsb' 14 5) (w.extractLsb' 9 5) (w.extractLsb' 0 1)) else none

/-- The word of FCVT. -/
def encNDABKindRm (opc : BitVec 8) (d a b kind : BitVec 5) (rm : BitVec 3) : BitVec 32 :=
  opc.setWidth 32 <<< 24 ||| d.setWidth 32 <<< 19 ||| a.setWidth 32 <<< 14 ||| b.setWidth 32 <<< 9 ||| kind.setWidth 32 <<< 4 ||| rm.setWidth 32 <<< 1

/-- The operands of FCVT, where every fixed field holds its value. -/
def decNDABKindRm (k : BitVec 5 → BitVec 5 → BitVec 5 → BitVec 5 → BitVec 3 → Instr) (w : BitVec 32) : Option Instr :=
  if w.extractLsb' 0 1 = 0#1 then some (k (w.extractLsb' 19 5) (w.extractLsb' 14 5) (w.extractLsb' 9 5) (w.extractLsb' 4 5) (w.extractLsb' 1 3)) else none

/-- The word of FCLS. -/
def encNDAP (opc : BitVec 8) (d a : BitVec 5) (p : BitVec 1) : BitVec 32 :=
  opc.setWidth 32 <<< 24 ||| d.setWidth 32 <<< 19 ||| a.setWidth 32 <<< 14 ||| p.setWidth 32

/-- The operands of FCLS, where every fixed field holds its value. -/
def decNDAP (k : BitVec 5 → BitVec 5 → BitVec 1 → Instr) (w : BitVec 32) : Option Instr :=
  if w.extractLsb' 1 13 = 0#13 then some (k (w.extractLsb' 19 5) (w.extractLsb' 14 5) (w.extractLsb' 0 1)) else none

/-- The word of VADD, VSUB, VMUL, VDIV, VMIN, VMAX, VSHF, VCMP. -/
def encNVdVaVbMeVmPolEwFn (opc : BitVec 8) (vd va vb : BitVec 3) (me : BitVec 1) (vm : BitVec 3) (pol : BitVec 1) (ew : BitVec 3) (fn : BitVec 4) : BitVec 32 :=
  opc.setWidth 32 <<< 24 ||| vd.setWidth 32 <<< 21 ||| va.setWidth 32 <<< 18 ||| vb.setWidth 32 <<< 15 ||| me.setWidth 32 <<< 11 ||| vm.setWidth 32 <<< 8 ||| pol.setWidth 32 <<< 7 ||| ew.setWidth 32 <<< 4 ||| fn.setWidth 32

/-- The operands of VADD, VSUB, VMUL, VDIV, VMIN, VMAX, VSHF, VCMP, where every fixed field holds its value. -/
def decNVdVaVbMeVmPolEwFn (k : BitVec 3 → BitVec 3 → BitVec 3 → BitVec 1 → BitVec 3 → BitVec 1 → BitVec 3 → BitVec 4 → Instr) (w : BitVec 32) : Option Instr :=
  if w.extractLsb' 12 3 = 0#3 then some (k (w.extractLsb' 21 3) (w.extractLsb' 18 3) (w.extractLsb' 15 3) (w.extractLsb' 11 1) (w.extractLsb' 8 3) (w.extractLsb' 7 1) (w.extractLsb' 4 3) (w.extractLsb' 0 4)) else none

/-- The word of VFMA. -/
def encNVdVaVbVcMeVmPolEwFn (opc : BitVec 8) (vd va vb vc : BitVec 3) (me : BitVec 1) (vm : BitVec 3) (pol : BitVec 1) (ew : BitVec 3) (fn : BitVec 4) : BitVec 32 :=
  opc.setWidth 32 <<< 24 ||| vd.setWidth 32 <<< 21 ||| va.setWidth 32 <<< 18 ||| vb.setWidth 32 <<< 15 ||| vc.setWidth 32 <<< 12 ||| me.setWidth 32 <<< 11 ||| vm.setWidth 32 <<< 8 ||| pol.setWidth 32 <<< 7 ||| ew.setWidth 32 <<< 4 ||| fn.setWidth 32

/-- The operands of VFMA, where every fixed field holds its value. -/
def decNVdVaVbVcMeVmPolEwFn (k : BitVec 3 → BitVec 3 → BitVec 3 → BitVec 3 → BitVec 1 → BitVec 3 → BitVec 1 → BitVec 3 → BitVec 4 → Instr) (w : BitVec 32) : Option Instr :=
  some (k (w.extractLsb' 21 3) (w.extractLsb' 18 3) (w.extractLsb' 15 3) (w.extractLsb' 12 3) (w.extractLsb' 11 1) (w.extractLsb' 8 3) (w.extractLsb' 7 1) (w.extractLsb' 4 3) (w.extractLsb' 0 4))

/-- The word of VLOG. -/
def encNVdVaVbMeVmPolFn (opc : BitVec 8) (vd va vb : BitVec 3) (me : BitVec 1) (vm : BitVec 3) (pol : BitVec 1) (fn : BitVec 4) : BitVec 32 :=
  opc.setWidth 32 <<< 24 ||| vd.setWidth 32 <<< 21 ||| va.setWidth 32 <<< 18 ||| vb.setWidth 32 <<< 15 ||| me.setWidth 32 <<< 11 ||| vm.setWidth 32 <<< 8 ||| pol.setWidth 32 <<< 7 ||| 48#32 ||| fn.setWidth 32

/-- The operands of VLOG, where every fixed field holds its value. -/
def decNVdVaVbMeVmPolFn (k : BitVec 3 → BitVec 3 → BitVec 3 → BitVec 1 → BitVec 3 → BitVec 1 → BitVec 4 → Instr) (w : BitVec 32) : Option Instr :=
  if w.extractLsb' 12 3 = 0#3 ∧ w.extractLsb' 4 3 = 3#3 then some (k (w.extractLsb' 21 3) (w.extractLsb' 18 3) (w.extractLsb' 15 3) (w.extractLsb' 11 1) (w.extractLsb' 8 3) (w.extractLsb' 7 1) (w.extractLsb' 0 4)) else none

/-- The word of VSEL. -/
def encNVdVaVbVcMeVmPol (opc : BitVec 8) (vd va vb vc : BitVec 3) (me : BitVec 1) (vm : BitVec 3) (pol : BitVec 1) : BitVec 32 :=
  opc.setWidth 32 <<< 24 ||| vd.setWidth 32 <<< 21 ||| va.setWidth 32 <<< 18 ||| vb.setWidth 32 <<< 15 ||| vc.setWidth 32 <<< 12 ||| me.setWidth 32 <<< 11 ||| vm.setWidth 32 <<< 8 ||| pol.setWidth 32 <<< 7 ||| 48#32

/-- The operands of VSEL, where every fixed field holds its value. -/
def decNVdVaVbVcMeVmPol (k : BitVec 3 → BitVec 3 → BitVec 3 → BitVec 3 → BitVec 1 → BitVec 3 → BitVec 1 → Instr) (w : BitVec 32) : Option Instr :=
  if w.extractLsb' 0 7 = 48#7 then some (k (w.extractLsb' 21 3) (w.extractLsb' 18 3) (w.extractLsb' 15 3) (w.extractLsb' 12 3) (w.extractLsb' 11 1) (w.extractLsb' 8 3) (w.extractLsb' 7 1)) else none

/-- The word of VRED. -/
def encNVdVaMeVmEwFn (opc : BitVec 8) (vd va : BitVec 3) (me : BitVec 1) (vm ew : BitVec 3) (fn : BitVec 4) : BitVec 32 :=
  opc.setWidth 32 <<< 24 ||| vd.setWidth 32 <<< 21 ||| va.setWidth 32 <<< 18 ||| me.setWidth 32 <<< 11 ||| vm.setWidth 32 <<< 8 ||| ew.setWidth 32 <<< 4 ||| fn.setWidth 32

/-- The operands of VRED, where every fixed field holds its value. -/
def decNVdVaMeVmEwFn (k : BitVec 3 → BitVec 3 → BitVec 1 → BitVec 3 → BitVec 3 → BitVec 4 → Instr) (w : BitVec 32) : Option Instr :=
  if w.extractLsb' 12 6 = 0#6 ∧ w.extractLsb' 7 1 = 0#1 then some (k (w.extractLsb' 21 3) (w.extractLsb' 18 3) (w.extractLsb' 11 1) (w.extractLsb' 8 3) (w.extractLsb' 4 3) (w.extractLsb' 0 4)) else none

/-- The word of VLD, VST. -/
def encNVdGaMeVmPolOrd (opc : BitVec 8) (vd : BitVec 3) (ga : BitVec 5) (me : BitVec 1) (vm : BitVec 3) (pol : BitVec 1) (ord : BitVec 2) : BitVec 32 :=
  opc.setWidth 32 <<< 24 ||| vd.setWidth 32 <<< 21 ||| ga.setWidth 32 <<< 16 ||| me.setWidth 32 <<< 11 ||| vm.setWidth 32 <<< 8 ||| pol.setWidth 32 <<< 7 ||| 48#32 ||| ord.setWidth 32

/-- The operands of VLD, VST, where every fixed field holds its value. -/
def decNVdGaMeVmPolOrd (k : BitVec 3 → BitVec 5 → BitVec 1 → BitVec 3 → BitVec 1 → BitVec 2 → Instr) (w : BitVec 32) : Option Instr :=
  if w.extractLsb' 12 4 = 0#4 ∧ w.extractLsb' 2 5 = 12#5 then some (k (w.extractLsb' 21 3) (w.extractLsb' 16 5) (w.extractLsb' 11 1) (w.extractLsb' 8 3) (w.extractLsb' 7 1) (w.extractLsb' 0 2)) else none

/-- The word of VGTH, VSCT. -/
def encNVdGaVcMeVmPolSc (opc : BitVec 8) (vd : BitVec 3) (ga : BitVec 5) (vc : BitVec 3) (me : BitVec 1) (vm : BitVec 3) (pol : BitVec 1) (sc : BitVec 2) : BitVec 32 :=
  opc.setWidth 32 <<< 24 ||| vd.setWidth 32 <<< 21 ||| ga.setWidth 32 <<< 16 ||| vc.setWidth 32 <<< 12 ||| me.setWidth 32 <<< 11 ||| vm.setWidth 32 <<< 8 ||| pol.setWidth 32 <<< 7 ||| 48#32 ||| sc.setWidth 32

/-- The operands of VGTH, VSCT, where every fixed field holds its value. -/
def decNVdGaVcMeVmPolSc (k : BitVec 3 → BitVec 5 → BitVec 3 → BitVec 1 → BitVec 3 → BitVec 1 → BitVec 2 → Instr) (w : BitVec 32) : Option Instr :=
  if w.extractLsb' 15 1 = 0#1 ∧ w.extractLsb' 2 5 = 12#5 then some (k (w.extractLsb' 21 3) (w.extractLsb' 16 5) (w.extractLsb' 12 3) (w.extractLsb' 11 1) (w.extractLsb' 8 3) (w.extractLsb' 7 1) (w.extractLsb' 0 2)) else none

/-- The word of VBRD. -/
def encNVdGaMeVmPolEw (opc : BitVec 8) (vd : BitVec 3) (ga : BitVec 5) (me : BitVec 1) (vm : BitVec 3) (pol : BitVec 1) (ew : BitVec 3) : BitVec 32 :=
  opc.setWidth 32 <<< 24 ||| vd.setWidth 32 <<< 21 ||| ga.setWidth 32 <<< 16 ||| me.setWidth 32 <<< 11 ||| vm.setWidth 32 <<< 8 ||| pol.setWidth 32 <<< 7 ||| ew.setWidth 32 <<< 4

/-- The operands of VBRD, where every fixed field holds its value. -/
def decNVdGaMeVmPolEw (k : BitVec 3 → BitVec 5 → BitVec 1 → BitVec 3 → BitVec 1 → BitVec 3 → Instr) (w : BitVec 32) : Option Instr :=
  if w.extractLsb' 12 4 = 0#4 ∧ w.extractLsb' 0 4 = 0#4 then some (k (w.extractLsb' 21 3) (w.extractLsb' 16 5) (w.extractLsb' 11 1) (w.extractLsb' 8 3) (w.extractLsb' 7 1) (w.extractLsb' 4 3)) else none

/-- The word of VEXT. -/
def encNVdGaLaneEwJ (opc : BitVec 8) (vd : BitVec 3) (ga : BitVec 5) (lane ew j : BitVec 3) : BitVec 32 :=
  opc.setWidth 32 <<< 24 ||| vd.setWidth 32 <<< 21 ||| ga.setWidth 32 <<< 16 ||| lane.setWidth 32 <<< 12 ||| ew.setWidth 32 <<< 4 ||| j.setWidth 32

/-- The operands of VEXT, where every fixed field holds its value. -/
def decNVdGaLaneEwJ (k : BitVec 3 → BitVec 5 → BitVec 3 → BitVec 3 → BitVec 3 → Instr) (w : BitVec 32) : Option Instr :=
  if w.extractLsb' 15 1 = 0#1 ∧ w.extractLsb' 7 5 = 0#5 ∧ w.extractLsb' 3 1 = 0#1 then some (k (w.extractLsb' 21 3) (w.extractLsb' 16 5) (w.extractLsb' 12 3) (w.extractLsb' 4 3) (w.extractLsb' 0 3)) else none

/-- The word of VPRM. -/
def encNVdVaVbVcMeVmPolFn (opc : BitVec 8) (vd va vb vc : BitVec 3) (me : BitVec 1) (vm : BitVec 3) (pol fn : BitVec 1) : BitVec 32 :=
  opc.setWidth 32 <<< 24 ||| vd.setWidth 32 <<< 21 ||| va.setWidth 32 <<< 18 ||| vb.setWidth 32 <<< 15 ||| vc.setWidth 32 <<< 12 ||| me.setWidth 32 <<< 11 ||| vm.setWidth 32 <<< 8 ||| pol.setWidth 32 <<< 7 ||| 48#32 ||| fn.setWidth 32

/-- The operands of VPRM, where every fixed field holds its value. -/
def decNVdVaVbVcMeVmPolFn (k : BitVec 3 → BitVec 3 → BitVec 3 → BitVec 3 → BitVec 1 → BitVec 3 → BitVec 1 → BitVec 1 → Instr) (w : BitVec 32) : Option Instr :=
  if w.extractLsb' 1 6 = 24#6 then some (k (w.extractLsb' 21 3) (w.extractLsb' 18 3) (w.extractLsb' 15 3) (w.extractLsb' 12 3) (w.extractLsb' 11 1) (w.extractLsb' 8 3) (w.extractLsb' 7 1) (w.extractLsb' 0 1)) else none

/-- The word of VCVT. -/
def encNVdVaVbSewMeVmPolEwHiRm (opc : BitVec 8) (vd va vb sew : BitVec 3) (me : BitVec 1) (vm : BitVec 3) (pol : BitVec 1) (ew : BitVec 3) (hi : BitVec 1) (rm : BitVec 3) : BitVec 32 :=
  opc.setWidth 32 <<< 24 ||| vd.setWidth 32 <<< 21 ||| va.setWidth 32 <<< 18 ||| vb.setWidth 32 <<< 15 ||| sew.setWidth 32 <<< 12 ||| me.setWidth 32 <<< 11 ||| vm.setWidth 32 <<< 8 ||| pol.setWidth 32 <<< 7 ||| ew.setWidth 32 <<< 4 ||| hi.setWidth 32 <<< 3 ||| rm.setWidth 32

/-- The operands of VCVT, where every fixed field holds its value. -/
def decNVdVaVbSewMeVmPolEwHiRm (k : BitVec 3 → BitVec 3 → BitVec 3 → BitVec 3 → BitVec 1 → BitVec 3 → BitVec 1 → BitVec 3 → BitVec 1 → BitVec 3 → Instr) (w : BitVec 32) : Option Instr :=
  some (k (w.extractLsb' 21 3) (w.extractLsb' 18 3) (w.extractLsb' 15 3) (w.extractLsb' 12 3) (w.extractLsb' 11 1) (w.extractLsb' 8 3) (w.extractLsb' 7 1) (w.extractLsb' 4 3) (w.extractLsb' 3 1) (w.extractLsb' 0 3))

/-- The word of HTW. -/
def encNABC (opc : BitVec 8) (a b c : BitVec 5) : BitVec 32 :=
  opc.setWidth 32 <<< 24 ||| a.setWidth 32 <<< 14 ||| b.setWidth 32 <<< 9 ||| c.setWidth 32 <<< 4

/-- The operands of HTW, where every fixed field holds its value. -/
def decNABC (k : BitVec 5 → BitVec 5 → BitVec 5 → Instr) (w : BitVec 32) : Option Instr :=
  if w.extractLsb' 19 5 = 0#5 ∧ w.extractLsb' 0 4 = 0#4 then some (k (w.extractLsb' 14 5) (w.extractLsb' 9 5) (w.extractLsb' 4 5)) else none

/-- The word of SPWN. -/
def encNDABC (opc : BitVec 8) (d a b c : BitVec 5) : BitVec 32 :=
  opc.setWidth 32 <<< 24 ||| d.setWidth 32 <<< 19 ||| a.setWidth 32 <<< 14 ||| b.setWidth 32 <<< 9 ||| c.setWidth 32 <<< 4

/-- The operands of SPWN, where every fixed field holds its value. -/
def decNDABC (k : BitVec 5 → BitVec 5 → BitVec 5 → BitVec 5 → Instr) (w : BitVec 32) : Option Instr :=
  if w.extractLsb' 0 4 = 0#4 then some (k (w.extractLsb' 19 5) (w.extractLsb' 14 5) (w.extractLsb' 9 5) (w.extractLsb' 4 5)) else none

/-- The word of BAR. -/
def encNAIdSc (opc : BitVec 8) (a : BitVec 5) (id sc : BitVec 3) : BitVec 32 :=
  opc.setWidth 32 <<< 24 ||| a.setWidth 32 <<< 14 ||| id.setWidth 32 <<< 3 ||| sc.setWidth 32

/-- The operands of BAR, where every fixed field holds its value. -/
def decNAIdSc (k : BitVec 5 → BitVec 3 → BitVec 3 → Instr) (w : BitVec 32) : Option Instr :=
  if w.extractLsb' 19 5 = 0#5 ∧ w.extractLsb' 6 8 = 0#8 then some (k (w.extractLsb' 14 5) (w.extractLsb' 3 3) (w.extractLsb' 0 3)) else none

/-- The word of CPS, SYW. -/
def encNASel (opc : BitVec 8) (a : BitVec 5) (sel : BitVec 14) : BitVec 32 :=
  opc.setWidth 32 <<< 24 ||| a.setWidth 32 <<< 14 ||| sel.setWidth 32

/-- The operands of CPS, SYW, where every fixed field holds its value. -/
def decNASel (k : BitVec 5 → BitVec 14 → Instr) (w : BitVec 32) : Option Instr :=
  if w.extractLsb' 19 5 = 0#5 then some (k (w.extractLsb' 14 5) (w.extractLsb' 0 14)) else none

/-- The word of CPL, TIME. -/
def encND (opc : BitVec 8) (d : BitVec 5) : BitVec 32 :=
  opc.setWidth 32 <<< 24 ||| d.setWidth 32 <<< 19

/-- The operands of CPL, TIME, where every fixed field holds its value. -/
def decND (k : BitVec 5 → Instr) (w : BitVec 32) : Option Instr :=
  if w.extractLsb' 0 19 = 0#19 then some (k (w.extractLsb' 19 5)) else none

/-- The word of HWT. -/
def encNStH (opc : BitVec 8) (st : BitVec 2) (h : BitVec 5) : BitVec 32 :=
  opc.setWidth 32 <<< 24 ||| st.setWidth 32 <<< 5 ||| h.setWidth 32

/-- The operands of HWT, where every fixed field holds its value. -/
def decNStH (k : BitVec 2 → BitVec 5 → Instr) (w : BitVec 32) : Option Instr :=
  if w.extractLsb' 7 17 = 0#17 then some (k (w.extractLsb' 5 2) (w.extractLsb' 0 5)) else none

/-- The word of HRL. -/
def encNH (opc : BitVec 8) (h : BitVec 5) : BitVec 32 :=
  opc.setWidth 32 <<< 24 ||| h.setWidth 32

/-- The operands of HRL, where every fixed field holds its value. -/
def decNH (k : BitVec 5 → Instr) (w : BitVec 32) : Option Instr :=
  if w.extractLsb' 5 19 = 0#19 then some (k (w.extractLsb' 0 5)) else none

/-- The word of RST. -/
def encNABCW (opc : BitVec 8) (a b c : BitVec 5) (w : BitVec 2) : BitVec 32 :=
  opc.setWidth 32 <<< 24 ||| a.setWidth 32 <<< 14 ||| b.setWidth 32 <<< 9 ||| c.setWidth 32 <<< 4 ||| w.setWidth 32

/-- The operands of RST, where every fixed field holds its value. -/
def decNABCW (k : BitVec 5 → BitVec 5 → BitVec 5 → BitVec 2 → Instr) (w : BitVec 32) : Option Instr :=
  if w.extractLsb' 19 5 = 0#5 ∧ w.extractLsb' 2 2 = 0#2 then some (k (w.extractLsb' 14 5) (w.extractLsb' 9 5) (w.extractLsb' 4 5) (w.extractLsb' 0 2)) else none

/-- The word of RINC. -/
def encNABCRelKind (opc : BitVec 8) (a b c : BitVec 5) (rel kind : BitVec 1) : BitVec 32 :=
  opc.setWidth 32 <<< 24 ||| a.setWidth 32 <<< 14 ||| b.setWidth 32 <<< 9 ||| c.setWidth 32 <<< 4 ||| rel.setWidth 32 <<< 1 ||| kind.setWidth 32

/-- The operands of RINC, where every fixed field holds its value. -/
def decNABCRelKind (k : BitVec 5 → BitVec 5 → BitVec 5 → BitVec 1 → BitVec 1 → Instr) (w : BitVec 32) : Option Instr :=
  if w.extractLsb' 19 5 = 0#5 ∧ w.extractLsb' 2 2 = 0#2 then some (k (w.extractLsb' 14 5) (w.extractLsb' 9 5) (w.extractLsb' 4 5) (w.extractLsb' 1 1) (w.extractLsb' 0 1)) else none

/-- The word of POST. -/
def encNAB (opc : BitVec 8) (a b : BitVec 5) : BitVec 32 :=
  opc.setWidth 32 <<< 24 ||| a.setWidth 32 <<< 14 ||| b.setWidth 32 <<< 9

/-- The operands of POST, where every fixed field holds its value. -/
def decNAB (k : BitVec 5 → BitVec 5 → Instr) (w : BitVec 32) : Option Instr :=
  if w.extractLsb' 19 5 = 0#5 ∧ w.extractLsb' 0 9 = 0#9 then some (k (w.extractLsb' 14 5) (w.extractLsb' 9 5)) else none

/-- The word of RNG. -/
def encNVdVaVbVcMeVmPolEw (opc : BitVec 8) (vd va vb vc : BitVec 3) (me : BitVec 1) (vm : BitVec 3) (pol : BitVec 1) (ew : BitVec 3) : BitVec 32 :=
  opc.setWidth 32 <<< 24 ||| vd.setWidth 32 <<< 21 ||| va.setWidth 32 <<< 18 ||| vb.setWidth 32 <<< 15 ||| vc.setWidth 32 <<< 12 ||| me.setWidth 32 <<< 11 ||| vm.setWidth 32 <<< 8 ||| pol.setWidth 32 <<< 7 ||| ew.setWidth 32 <<< 4

/-- The operands of RNG, where every fixed field holds its value. -/
def decNVdVaVbVcMeVmPolEw (k : BitVec 3 → BitVec 3 → BitVec 3 → BitVec 3 → BitVec 1 → BitVec 3 → BitVec 1 → BitVec 3 → Instr) (w : BitVec 32) : Option Instr :=
  if w.extractLsb' 0 4 = 0#4 then some (k (w.extractLsb' 21 3) (w.extractLsb' 18 3) (w.extractLsb' 15 3) (w.extractLsb' 12 3) (w.extractLsb' 11 1) (w.extractLsb' 8 3) (w.extractLsb' 7 1) (w.extractLsb' 4 3)) else none

/-- The word of GMB. -/
def encNVdVaVbVcMeVmPolFn2 (opc : BitVec 8) (vd va vb vc : BitVec 3) (me : BitVec 1) (vm : BitVec 3) (pol : BitVec 1) (fn : BitVec 4) : BitVec 32 :=
  opc.setWidth 32 <<< 24 ||| vd.setWidth 32 <<< 21 ||| va.setWidth 32 <<< 18 ||| vb.setWidth 32 <<< 15 ||| vc.setWidth 32 <<< 12 ||| me.setWidth 32 <<< 11 ||| vm.setWidth 32 <<< 8 ||| pol.setWidth 32 <<< 7 ||| 112#32 ||| fn.setWidth 32

/-- The operands of GMB, where every fixed field holds its value. -/
def decNVdVaVbVcMeVmPolFn2 (k : BitVec 3 → BitVec 3 → BitVec 3 → BitVec 3 → BitVec 1 → BitVec 3 → BitVec 1 → BitVec 4 → Instr) (w : BitVec 32) : Option Instr :=
  if w.extractLsb' 4 3 = 7#3 then some (k (w.extractLsb' 21 3) (w.extractLsb' 18 3) (w.extractLsb' 15 3) (w.extractLsb' 12 3) (w.extractLsb' 11 1) (w.extractLsb' 8 3) (w.extractLsb' 7 1) (w.extractLsb' 0 4)) else none

/-- The word of TRAP, BRK. -/
def encNE (opc : BitVec 8) (e : BitVec 14) : BitVec 32 :=
  opc.setWidth 32 <<< 24 ||| e.setWidth 32

/-- The operands of TRAP, BRK, where every fixed field holds its value. -/
def decNE (k : BitVec 14 → Instr) (w : BitVec 32) : Option Instr :=
  if w.extractLsb' 14 10 = 0#10 then some (k (w.extractLsb' 0 14)) else none

/-- The word of TLBI ALL. -/
def encNNone2 (opc : BitVec 8) : BitVec 32 :=
  opc.setWidth 32 <<< 24 ||| 1#32

/-- The operands of TLBI ALL, where every fixed field holds its value. -/
def decNNone2 (k : Instr) (w : BitVec 32) : Option Instr :=
  if w.extractLsb' 0 24 = 1#24 then some k else none

/-- The word of TIME ROT. -/
def encND2 (opc : BitVec 8) (d : BitVec 5) : BitVec 32 :=
  opc.setWidth 32 <<< 24 ||| d.setWidth 32 <<< 19 ||| 1#32

/-- The operands of TIME ROT, where every fixed field holds its value. -/
def decND2 (k : BitVec 5 → Instr) (w : BitVec 32) : Option Instr :=
  if w.extractLsb' 0 19 = 1#19 then some (k (w.extractLsb' 19 5)) else none

/-- The word of BLK. -/
def encTLenKindCount (opc : BitVec 6) (len : BitVec 12) (kind : BitVec 1) (count : BitVec 13) : BitVec 32 :=
  opc.setWidth 32 <<< 26 ||| len.setWidth 32 <<< 14 ||| kind.setWidth 32 <<< 13 ||| count.setWidth 32

/-- The operands of BLK, where every fixed field holds its value. -/
def decTLenKindCount (k : BitVec 12 → BitVec 1 → BitVec 13 → Instr) (w : BitVec 32) : Option Instr :=
  some (k (w.extractLsb' 14 12) (w.extractLsb' 13 1) (w.extractLsb' 0 13))

/-- The word of NOP, END. -/
def encHNone (opc : BitVec 6) : BitVec 16 :=
  opc.setWidth 16 <<< 10

/-- The operands of NOP, END, where every fixed field holds its value. -/
def decHNone (k : Instr) (w : BitVec 16) : Option Instr :=
  if w.extractLsb' 0 10 = 0#10 then some k else none

/-- The word of DLY. -/
def encHN1 (opc : BitVec 6) (n1 : BitVec 10) : BitVec 16 :=
  opc.setWidth 16 <<< 10 ||| n1.setWidth 16

/-- The operands of DLY, where every fixed field holds its value. -/
def decHN1 (k : BitVec 10 → Instr) (w : BitVec 16) : Option Instr :=
  some (k (w.extractLsb' 0 10))

/-- The word of WUT. -/
def encTKaKb (opc : BitVec 6) (ka kb : BitVec 4) : BitVec 32 :=
  opc.setWidth 32 <<< 26 ||| ka.setWidth 32 <<< 22 ||| kb.setWidth 32 <<< 18

/-- The operands of WUT, where every fixed field holds its value. -/
def decTKaKb (k : BitVec 4 → BitVec 4 → Instr) (w : BitVec 32) : Option Instr :=
  if w.extractLsb' 0 18 = 0#18 then some (k (w.extractLsb' 22 4) (w.extractLsb' 18 4)) else none

/-- The word of TKP, TKW. -/
def encHFifoKs (opc : BitVec 6) (fifo : BitVec 3) (ks : BitVec 4) : BitVec 16 :=
  opc.setWidth 16 <<< 10 ||| fifo.setWidth 16 <<< 7 ||| ks.setWidth 16 <<< 3

/-- The operands of TKP, TKW, where every fixed field holds its value. -/
def decHFifoKs (k : BitVec 3 → BitVec 4 → Instr) (w : BitVec 16) : Option Instr :=
  if w.extractLsb' 0 3 = 0#3 then some (k (w.extractLsb' 7 3) (w.extractLsb' 3 4)) else none

/-- The word of BRC. -/
def encTWBitSense (opc : BitVec 6) (w : BitVec 4) (bit : BitVec 6) (sense : BitVec 1) : BitVec 32 :=
  opc.setWidth 32 <<< 26 ||| w.setWidth 32 <<< 22 ||| bit.setWidth 32 <<< 16 ||| sense.setWidth 32 <<< 15

/-- The operands of BRC, where every fixed field holds its value. -/
def decTWBitSense (k : BitVec 4 → BitVec 6 → BitVec 1 → Instr) (w : BitVec 32) : Option Instr :=
  if w.extractLsb' 0 15 = 0#15 then some (k (w.extractLsb' 22 4) (w.extractLsb' 16 6) (w.extractLsb' 15 1)) else none

/-- The word of KLI. -/
def encTKdImm (opc : BitVec 6) (kd : BitVec 4) (imm : BitVec 20) : BitVec 32 :=
  opc.setWidth 32 <<< 26 ||| kd.setWidth 32 <<< 22 ||| imm.setWidth 32

/-- The operands of KLI, where every fixed field holds its value. -/
def decTKdImm (k : BitVec 4 → BitVec 20 → Instr) (w : BitVec 32) : Option Instr :=
  if w.extractLsb' 20 2 = 0#2 then some (k (w.extractLsb' 22 4) (w.extractLsb' 0 20)) else none

/-- The word of KLI HI. -/
def encTKdImm2 (opc : BitVec 6) (kd : BitVec 4) (imm : BitVec 16) : BitVec 32 :=
  opc.setWidth 32 <<< 26 ||| kd.setWidth 32 <<< 22 ||| 1048576#32 ||| imm.setWidth 32

/-- The operands of KLI HI, where every fixed field holds its value. -/
def decTKdImm2 (k : BitVec 4 → BitVec 16 → Instr) (w : BitVec 32) : Option Instr :=
  if w.extractLsb' 16 6 = 16#6 then some (k (w.extractLsb' 22 4) (w.extractLsb' 0 16)) else none

/-- The word of KLI ADD. -/
def encTKdKsImm (opc : BitVec 6) (kd ks : BitVec 4) (imm : BitVec 16) : BitVec 32 :=
  opc.setWidth 32 <<< 26 ||| kd.setWidth 32 <<< 22 ||| 2097152#32 ||| ks.setWidth 32 <<< 16 ||| imm.setWidth 32

/-- The operands of KLI ADD, where every fixed field holds its value. -/
def decTKdKsImm (k : BitVec 4 → BitVec 4 → BitVec 16 → Instr) (w : BitVec 32) : Option Instr :=
  if w.extractLsb' 20 2 = 2#2 then some (k (w.extractLsb' 22 4) (w.extractLsb' 16 4) (w.extractLsb' 0 16)) else none

/-- The word of KLI MUL. -/
def encTKdKsImm2 (opc : BitVec 6) (kd ks : BitVec 4) (imm : BitVec 16) : BitVec 32 :=
  opc.setWidth 32 <<< 26 ||| kd.setWidth 32 <<< 22 ||| 3145728#32 ||| ks.setWidth 32 <<< 16 ||| imm.setWidth 32

/-- The operands of KLI MUL, where every fixed field holds its value. -/
def decTKdKsImm2 (k : BitVec 4 → BitVec 4 → BitVec 16 → Instr) (w : BitVec 32) : Option Instr :=
  if w.extractLsb' 20 2 = 3#2 then some (k (w.extractLsb' 22 4) (w.extractLsb' 16 4) (w.extractLsb' 0 16)) else none

/-- The word of KOP. -/
def encHOpKdKs (opc : BitVec 6) (op : BitVec 2) (kd ks : BitVec 4) : BitVec 16 :=
  opc.setWidth 16 <<< 10 ||| op.setWidth 16 <<< 8 ||| kd.setWidth 16 <<< 4 ||| ks.setWidth 16

/-- The operands of KOP, where every fixed field holds its value. -/
def decHOpKdKs (k : BitVec 2 → BitVec 4 → BitVec 4 → Instr) (w : BitVec 16) : Option Instr :=
  some (k (w.extractLsb' 8 2) (w.extractLsb' 4 4) (w.extractLsb' 0 4))

/-- The word of HLD, HST, SCP, FMT. -/
def encTKtKvN16 (opc : BitVec 6) (kt kv : BitVec 4) (n16 : BitVec 14) : BitVec 32 :=
  opc.setWidth 32 <<< 26 ||| kt.setWidth 32 <<< 22 ||| kv.setWidth 32 <<< 18 ||| n16.setWidth 32 <<< 4

/-- The operands of HLD, HST, SCP, FMT, where every fixed field holds its value. -/
def decTKtKvN16 (k : BitVec 4 → BitVec 4 → BitVec 14 → Instr) (w : BitVec 32) : Option Instr :=
  if w.extractLsb' 0 4 = 0#4 then some (k (w.extractLsb' 22 4) (w.extractLsb' 18 4) (w.extractLsb' 4 14)) else none

/-- The word of HAC. -/
def encTKtKvN16Aty (opc : BitVec 6) (kt kv : BitVec 4) (n16 : BitVec 14) (aty : BitVec 2) : BitVec 32 :=
  opc.setWidth 32 <<< 26 ||| kt.setWidth 32 <<< 22 ||| kv.setWidth 32 <<< 18 ||| n16.setWidth 32 <<< 4 ||| aty.setWidth 32 <<< 2

/-- The operands of HAC, where every fixed field holds its value. -/
def decTKtKvN16Aty (k : BitVec 4 → BitVec 4 → BitVec 14 → BitVec 2 → Instr) (w : BitVec 32) : Option Instr :=
  if w.extractLsb' 0 2 = 0#2 then some (k (w.extractLsb' 22 4) (w.extractLsb' 18 4) (w.extractLsb' 4 14) (w.extractLsb' 2 2)) else none

/-- The word of LKS. -/
def encTKsFormDirN1 (opc : BitVec 6) (ks : BitVec 4) (form dir : BitVec 2) (n1 : BitVec 10) : BitVec 32 :=
  opc.setWidth 32 <<< 26 ||| ks.setWidth 32 <<< 22 ||| form.setWidth 32 <<< 20 ||| dir.setWidth 32 <<< 18 ||| n1.setWidth 32 <<< 8

/-- The operands of LKS, where every fixed field holds its value. -/
def decTKsFormDirN1 (k : BitVec 4 → BitVec 2 → BitVec 2 → BitVec 10 → Instr) (w : BitVec 32) : Option Instr :=
  if w.extractLsb' 0 8 = 0#8 then some (k (w.extractLsb' 22 4) (w.extractLsb' 20 2) (w.extractLsb' 18 2) (w.extractLsb' 8 10)) else none

/-- The word of LKR. -/
def encTKtDirN1 (opc : BitVec 6) (kt : BitVec 4) (dir : BitVec 2) (n1 : BitVec 10) : BitVec 32 :=
  opc.setWidth 32 <<< 26 ||| kt.setWidth 32 <<< 22 ||| dir.setWidth 32 <<< 20 ||| n1.setWidth 32 <<< 8

/-- The operands of LKR, where every fixed field holds its value. -/
def decTKtDirN1 (k : BitVec 4 → BitVec 2 → BitVec 10 → Instr) (w : BitVec 32) : Option Instr :=
  if w.extractLsb' 18 2 = 0#2 ∧ w.extractLsb' 0 8 = 0#8 then some (k (w.extractLsb' 22 4) (w.extractLsb' 20 2) (w.extractLsb' 8 10)) else none

/-- The word of LKA. -/
def encTKlDirOutN1TyKd (opc : BitVec 6) (kl : BitVec 4) (dir : BitVec 2) (out : BitVec 1) (n1 : BitVec 10) (ty : BitVec 2) (kd : BitVec 4) : BitVec 32 :=
  opc.setWidth 32 <<< 26 ||| kl.setWidth 32 <<< 22 ||| dir.setWidth 32 <<< 20 ||| out.setWidth 32 <<< 19 ||| n1.setWidth 32 <<< 8 ||| ty.setWidth 32 <<< 6 ||| kd.setWidth 32 <<< 2

/-- The operands of LKA, where every fixed field holds its value. -/
def decTKlDirOutN1TyKd (k : BitVec 4 → BitVec 2 → BitVec 1 → BitVec 10 → BitVec 2 → BitVec 4 → Instr) (w : BitVec 32) : Option Instr :=
  if w.extractLsb' 18 1 = 0#1 ∧ w.extractLsb' 0 2 = 0#2 then some (k (w.extractLsb' 22 4) (w.extractLsb' 20 2) (w.extractLsb' 19 1) (w.extractLsb' 8 10) (w.extractLsb' 6 2) (w.extractLsb' 2 4)) else none

/-- The word of WIN. -/
def encTIdN (opc : BitVec 6) (id : BitVec 4) (n : BitVec 22) : BitVec 32 :=
  opc.setWidth 32 <<< 26 ||| id.setWidth 32 <<< 22 ||| n.setWidth 32

/-- The operands of WIN, where every fixed field holds its value. -/
def decTIdN (k : BitVec 4 → BitVec 22 → Instr) (w : BitVec 32) : Option Instr :=
  some (k (w.extractLsb' 22 4) (w.extractLsb' 0 22))

/-- The word of WCL. -/
def encTId (opc : BitVec 6) (id : BitVec 4) : BitVec 32 :=
  opc.setWidth 32 <<< 26 ||| id.setWidth 32 <<< 22

/-- The operands of WCL, where every fixed field holds its value. -/
def decTId (k : BitVec 4 → Instr) (w : BitVec 32) : Option Instr :=
  if w.extractLsb' 0 22 = 0#22 then some (k (w.extractLsb' 22 4)) else none

/-- The word of PRD, TRN. -/
def encTKdWPart (opc : BitVec 6) (kd w : BitVec 4) (part : BitVec 2) : BitVec 32 :=
  opc.setWidth 32 <<< 26 ||| kd.setWidth 32 <<< 22 ||| w.setWidth 32 <<< 18 ||| part.setWidth 32 <<< 16

/-- The operands of PRD, TRN, where every fixed field holds its value. -/
def decTKdWPart (k : BitVec 4 → BitVec 4 → BitVec 2 → Instr) (w : BitVec 32) : Option Instr :=
  if w.extractLsb' 0 16 = 0#16 then some (k (w.extractLsb' 22 4) (w.extractLsb' 18 4) (w.extractLsb' 16 2)) else none

/-- The word of VLT. -/
def encTSlot (opc : BitVec 6) (slot : BitVec 2) : BitVec 32 :=
  opc.setWidth 32 <<< 26 ||| slot.setWidth 32 <<< 24

/-- The operands of VLT, where every fixed field holds its value. -/
def decTSlot (k : BitVec 2 → Instr) (w : BitVec 32) : Option Instr :=
  if w.extractLsb' 0 24 = 0#24 then some (k (w.extractLsb' 24 2)) else none

/-- The word of TLD. -/
def encTKtKvN16Vchk (opc : BitVec 6) (kt kv : BitVec 4) (n16 : BitVec 14) (vchk : BitVec 1) : BitVec 32 :=
  opc.setWidth 32 <<< 26 ||| kt.setWidth 32 <<< 22 ||| kv.setWidth 32 <<< 18 ||| n16.setWidth 32 <<< 4 ||| vchk.setWidth 32 <<< 3

/-- The operands of TLD, where every fixed field holds its value. -/
def decTKtKvN16Vchk (k : BitVec 4 → BitVec 4 → BitVec 14 → BitVec 1 → Instr) (w : BitVec 32) : Option Instr :=
  if w.extractLsb' 0 3 = 0#3 then some (k (w.extractLsb' 22 4) (w.extractLsb' 18 4) (w.extractLsb' 4 14) (w.extractLsb' 3 1)) else none

/-- The word of QNT, DQN. -/
def encTKtKsFmtRmNosatTyKn (opc : BitVec 6) (kt ks : BitVec 4) (fmt : BitVec 5) (rm : BitVec 3) (nosat : BitVec 1) (ty : BitVec 2) (kn : BitVec 4) : BitVec 32 :=
  opc.setWidth 32 <<< 26 ||| kt.setWidth 32 <<< 22 ||| ks.setWidth 32 <<< 18 ||| fmt.setWidth 32 <<< 13 ||| rm.setWidth 32 <<< 10 ||| nosat.setWidth 32 <<< 9 ||| ty.setWidth 32 <<< 7 ||| kn.setWidth 32

/-- The operands of QNT, DQN, where every fixed field holds its value. -/
def decTKtKsFmtRmNosatTyKn (k : BitVec 4 → BitVec 4 → BitVec 5 → BitVec 3 → BitVec 1 → BitVec 2 → BitVec 4 → Instr) (w : BitVec 32) : Option Instr :=
  if w.extractLsb' 4 3 = 0#3 then some (k (w.extractLsb' 22 4) (w.extractLsb' 18 4) (w.extractLsb' 13 5) (w.extractLsb' 10 3) (w.extractLsb' 9 1) (w.extractLsb' 7 2) (w.extractLsb' 0 4)) else none

/-- The word of CVT. -/
def encTKtKsDfmtSfmtRmNosatKn (opc : BitVec 6) (kt ks : BitVec 4) (dfmt sfmt : BitVec 5) (rm : BitVec 3) (nosat : BitVec 1) (kn : BitVec 4) : BitVec 32 :=
  opc.setWidth 32 <<< 26 ||| kt.setWidth 32 <<< 22 ||| ks.setWidth 32 <<< 18 ||| dfmt.setWidth 32 <<< 13 ||| sfmt.setWidth 32 <<< 8 ||| rm.setWidth 32 <<< 5 ||| nosat.setWidth 32 <<< 4 ||| kn.setWidth 32

/-- The operands of CVT, where every fixed field holds its value. -/
def decTKtKsDfmtSfmtRmNosatKn (k : BitVec 4 → BitVec 4 → BitVec 5 → BitVec 5 → BitVec 3 → BitVec 1 → BitVec 4 → Instr) (w : BitVec 32) : Option Instr :=
  some (k (w.extractLsb' 22 4) (w.extractLsb' 18 4) (w.extractLsb' 13 5) (w.extractLsb' 8 5) (w.extractLsb' 5 3) (w.extractLsb' 4 1) (w.extractLsb' 0 4))

/-- The word of PAK. -/
def encTKtKsOpSxKn (opc : BitVec 6) (kt ks : BitVec 4) (op : BitVec 2) (sx : BitVec 1) (kn : BitVec 4) : BitVec 32 :=
  opc.setWidth 32 <<< 26 ||| kt.setWidth 32 <<< 22 ||| ks.setWidth 32 <<< 18 ||| op.setWidth 32 <<< 16 ||| sx.setWidth 32 <<< 15 ||| kn.setWidth 32

/-- The operands of PAK, where every fixed field holds its value. -/
def decTKtKsOpSxKn (k : BitVec 4 → BitVec 4 → BitVec 2 → BitVec 1 → BitVec 4 → Instr) (w : BitVec 32) : Option Instr :=
  if w.extractLsb' 4 11 = 0#11 then some (k (w.extractLsb' 22 4) (w.extractLsb' 18 4) (w.extractLsb' 16 2) (w.extractLsb' 15 1) (w.extractLsb' 0 4)) else none

/-- The word of SRS. -/
def encTKtKsFmtRmShKn (opc : BitVec 6) (kt ks : BitVec 4) (fmt : BitVec 5) (rm : BitVec 3) (sh : BitVec 5) (kn : BitVec 4) : BitVec 32 :=
  opc.setWidth 32 <<< 26 ||| kt.setWidth 32 <<< 22 ||| ks.setWidth 32 <<< 18 ||| fmt.setWidth 32 <<< 13 ||| rm.setWidth 32 <<< 10 ||| sh.setWidth 32 <<< 4 ||| kn.setWidth 32

/-- The operands of SRS, where every fixed field holds its value. -/
def decTKtKsFmtRmShKn (k : BitVec 4 → BitVec 4 → BitVec 5 → BitVec 3 → BitVec 5 → BitVec 4 → Instr) (w : BitVec 32) : Option Instr :=
  if w.extractLsb' 9 1 = 0#1 then some (k (w.extractLsb' 22 4) (w.extractLsb' 18 4) (w.extractLsb' 13 5) (w.extractLsb' 10 3) (w.extractLsb' 4 5) (w.extractLsb' 0 4)) else none

/-- The word of WLD. -/
def encTKtKsFmt (opc : BitVec 6) (kt ks : BitVec 4) (fmt : BitVec 5) : BitVec 32 :=
  opc.setWidth 32 <<< 26 ||| kt.setWidth 32 <<< 22 ||| ks.setWidth 32 <<< 18 ||| fmt.setWidth 32 <<< 13

/-- The operands of WLD, where every fixed field holds its value. -/
def decTKtKsFmt (k : BitVec 4 → BitVec 4 → BitVec 5 → Instr) (w : BitVec 32) : Option Instr :=
  if w.extractLsb' 0 13 = 0#13 then some (k (w.extractLsb' 22 4) (w.extractLsb' 18 4) (w.extractLsb' 13 5)) else none

/-- The word of MMA. -/
def encTKaKwAfmtWfmtBankM1 (opc : BitVec 6) (ka kw : BitVec 4) (afmt wfmt : BitVec 5) (bank : BitVec 1) (m1 : BitVec 6) : BitVec 32 :=
  opc.setWidth 32 <<< 26 ||| ka.setWidth 32 <<< 22 ||| kw.setWidth 32 <<< 18 ||| afmt.setWidth 32 <<< 13 ||| wfmt.setWidth 32 <<< 8 ||| bank.setWidth 32 <<< 7 ||| m1.setWidth 32 <<< 1

/-- The operands of MMA, where every fixed field holds its value. -/
def decTKaKwAfmtWfmtBankM1 (k : BitVec 4 → BitVec 4 → BitVec 5 → BitVec 5 → BitVec 1 → BitVec 6 → Instr) (w : BitVec 32) : Option Instr :=
  if w.extractLsb' 0 1 = 0#1 then some (k (w.extractLsb' 22 4) (w.extractLsb' 18 4) (w.extractLsb' 13 5) (w.extractLsb' 8 5) (w.extractLsb' 7 1) (w.extractLsb' 1 6)) else none

/-- The word of ACR. -/
def encTKtKrBankAtyFmtRmNosat (opc : BitVec 6) (kt kr : BitVec 4) (bank : BitVec 1) (aty : BitVec 2) (fmt : BitVec 5) (rm : BitVec 3) (nosat : BitVec 1) : BitVec 32 :=
  opc.setWidth 32 <<< 26 ||| kt.setWidth 32 <<< 22 ||| kr.setWidth 32 <<< 18 ||| bank.setWidth 32 <<< 17 ||| aty.setWidth 32 <<< 15 ||| fmt.setWidth 32 <<< 10 ||| rm.setWidth 32 <<< 7 ||| nosat.setWidth 32 <<< 6

/-- The operands of ACR, where every fixed field holds its value. -/
def decTKtKrBankAtyFmtRmNosat (k : BitVec 4 → BitVec 4 → BitVec 1 → BitVec 2 → BitVec 5 → BitVec 3 → BitVec 1 → Instr) (w : BitVec 32) : Option Instr :=
  if w.extractLsb' 0 6 = 0#6 then some (k (w.extractLsb' 22 4) (w.extractLsb' 18 4) (w.extractLsb' 17 1) (w.extractLsb' 15 2) (w.extractLsb' 10 5) (w.extractLsb' 7 3) (w.extractLsb' 6 1)) else none

/-- The word of ACZ. -/
def encTBankRow0M1 (opc : BitVec 6) (bank : BitVec 1) (row0 m1 : BitVec 6) : BitVec 32 :=
  opc.setWidth 32 <<< 26 ||| bank.setWidth 32 <<< 25 ||| row0.setWidth 32 <<< 19 ||| m1.setWidth 32 <<< 13

/-- The operands of ACZ, where every fixed field holds its value. -/
def decTBankRow0M1 (k : BitVec 1 → BitVec 6 → BitVec 6 → Instr) (w : BitVec 32) : Option Instr :=
  if w.extractLsb' 0 13 = 0#13 then some (k (w.extractLsb' 25 1) (w.extractLsb' 19 6) (w.extractLsb' 13 6)) else none

/-- The word of VAR. -/
def encTYdYaYbYcEtOp (opc : BitVec 6) (yd ya yb yc : BitVec 5) (et : BitVec 2) (op : BitVec 4) : BitVec 32 :=
  opc.setWidth 32 <<< 26 ||| yd.setWidth 32 <<< 21 ||| ya.setWidth 32 <<< 16 ||| yb.setWidth 32 <<< 11 ||| yc.setWidth 32 <<< 6 ||| et.setWidth 32 <<< 4 ||| op.setWidth 32

/-- The operands of VAR, where every fixed field holds its value. -/
def decTYdYaYbYcEtOp (k : BitVec 5 → BitVec 5 → BitVec 5 → BitVec 5 → BitVec 2 → BitVec 4 → Instr) (w : BitVec 32) : Option Instr :=
  some (k (w.extractLsb' 21 5) (w.extractLsb' 16 5) (w.extractLsb' 11 5) (w.extractLsb' 6 5) (w.extractLsb' 4 2) (w.extractLsb' 0 4))

/-- The word of VLY, VSY. -/
def encTKbYOff (opc : BitVec 6) (kb : BitVec 4) (y : BitVec 5) (off : BitVec 16) : BitVec 32 :=
  opc.setWidth 32 <<< 26 ||| kb.setWidth 32 <<< 22 ||| y.setWidth 32 <<< 17 ||| off.setWidth 32 <<< 1

/-- The operands of VLY, VSY, where every fixed field holds its value. -/
def decTKbYOff (k : BitVec 4 → BitVec 5 → BitVec 16 → Instr) (w : BitVec 32) : Option Instr :=
  if w.extractLsb' 0 1 = 0#1 then some (k (w.extractLsb' 22 4) (w.extractLsb' 17 5) (w.extractLsb' 1 16)) else none

/-- The word of VRD. -/
def encTYdYaOpEt (opc : BitVec 6) (yd ya : BitVec 5) (op : BitVec 3) (et : BitVec 2) : BitVec 32 :=
  opc.setWidth 32 <<< 26 ||| yd.setWidth 32 <<< 21 ||| ya.setWidth 32 <<< 16 ||| op.setWidth 32 <<< 13 ||| et.setWidth 32 <<< 4

/-- The operands of VRD, where every fixed field holds its value. -/
def decTYdYaOpEt (k : BitVec 5 → BitVec 5 → BitVec 3 → BitVec 2 → Instr) (w : BitVec 32) : Option Instr :=
  if w.extractLsb' 6 7 = 0#7 ∧ w.extractLsb' 0 4 = 0#4 then some (k (w.extractLsb' 21 5) (w.extractLsb' 16 5) (w.extractLsb' 13 3) (w.extractLsb' 4 2)) else none

/-- The word of VTR. -/
def encTDirBankRowY (opc : BitVec 6) (dir bank : BitVec 1) (row : BitVec 6) (y : BitVec 5) : BitVec 32 :=
  opc.setWidth 32 <<< 26 ||| dir.setWidth 32 <<< 25 ||| bank.setWidth 32 <<< 24 ||| row.setWidth 32 <<< 18 ||| y.setWidth 32 <<< 13

/-- The operands of VTR, where every fixed field holds its value. -/
def decTDirBankRowY (k : BitVec 1 → BitVec 1 → BitVec 6 → BitVec 5 → Instr) (w : BitVec 32) : Option Instr :=
  if w.extractLsb' 0 13 = 0#13 then some (k (w.extractLsb' 25 1) (w.extractLsb' 24 1) (w.extractLsb' 18 6) (w.extractLsb' 13 5)) else none

/-- The word of VCM. -/
def encTYdYaYbCondEt (opc : BitVec 6) (yd ya yb : BitVec 5) (cond : BitVec 4) (et : BitVec 2) : BitVec 32 :=
  opc.setWidth 32 <<< 26 ||| yd.setWidth 32 <<< 21 ||| ya.setWidth 32 <<< 16 ||| yb.setWidth 32 <<< 11 ||| cond.setWidth 32 <<< 7 ||| et.setWidth 32 <<< 4

/-- The operands of VCM, where every fixed field holds its value. -/
def decTYdYaYbCondEt (k : BitVec 5 → BitVec 5 → BitVec 5 → BitVec 4 → BitVec 2 → Instr) (w : BitVec 32) : Option Instr :=
  if w.extractLsb' 6 1 = 0#1 ∧ w.extractLsb' 0 4 = 0#4 then some (k (w.extractLsb' 21 5) (w.extractLsb' 16 5) (w.extractLsb' 11 5) (w.extractLsb' 7 4) (w.extractLsb' 4 2)) else none

/-- The word of VSL. -/
def encTYdYaYbYcEtOp2 (opc : BitVec 6) (yd ya yb yc : BitVec 5) (et : BitVec 2) (op : BitVec 3) : BitVec 32 :=
  opc.setWidth 32 <<< 26 ||| yd.setWidth 32 <<< 21 ||| ya.setWidth 32 <<< 16 ||| yb.setWidth 32 <<< 11 ||| yc.setWidth 32 <<< 6 ||| et.setWidth 32 <<< 4 ||| op.setWidth 32 <<< 1

/-- The operands of VSL, where every fixed field holds its value. -/
def decTYdYaYbYcEtOp2 (k : BitVec 5 → BitVec 5 → BitVec 5 → BitVec 5 → BitVec 2 → BitVec 3 → Instr) (w : BitVec 32) : Option Instr :=
  if w.extractLsb' 0 1 = 0#1 then some (k (w.extractLsb' 21 5) (w.extractLsb' 16 5) (w.extractLsb' 11 5) (w.extractLsb' 6 5) (w.extractLsb' 4 2) (w.extractLsb' 1 3)) else none

/-- The fields of a Jalgal-N word by its opcode, before the limits of the entries (11 R312, R323). -/
def rawNewt (w : Word32) : Option Instr :=
  match (w.extractLsb' 24 8).toNat with
  | 1 => decNDAB .add w
  | 2 => decNDAB .sub w
  | 3 => decNDAImm .addi w
  | 4 => decNDAB .mul w
  | 5 => decNDAB .mulh w
  | 6 => decNDAB .mulhu w
  | 7 => decNDAB .div w
  | 8 => decNDAB .divu w
  | 9 => decNDAB .rem w
  | 10 => decNDAB .remu w
  | 11 => decNDAB .andR w
  | 12 => decNDAB .orR w
  | 13 => decNDAB .xorR w
  | 14 => decNDAB .andn w
  | 15 => decNDBaseIdxSc .lea w
  | 16 => decNDAImm .andi w
  | 17 => decNDAImm .ori w
  | 18 => decNDAImm .xori w
  | 19 => decNDAB .shl w
  | 20 => decNDAB .shr w
  | 21 => decNDAB .sar w
  | 22 => decNDAB .rot w
  | 23 => decNDAImm .shli w
  | 24 => decNDAImm .shri w
  | 25 => decNDAImm .sari w
  | 26 => decNDAImm .roti w
  | 27 => decNDA .clz w
  | 28 => decNDA .ctz w
  | 29 => decNDA .popc w
  | 30 => decNDA .brev w
  | 31 => decNDA .bswp w
  | 32 => decNDAPosLen1 .bext w
  | 33 => decNDAPosLen1 .bins w
  | 34 => decNDAB .min w
  | 35 => decNDAB .max w
  | 36 => decNDAB .minu w
  | 37 => decNDAB .maxu w
  | 38 => decNDAImm .lih w
  | 39 => decNCondNAB .sk w
  | 40 => decNCondNAImm .ski w
  | 41 => decNPCondNAB .fsk w
  | 42 => decNImm .br w
  | 43 => decNA .jr w
  | 44 => decNImm .call w
  | 45 => decNA .callr w
  | 46 => decNNone .ret w
  | 47 => decNDImm .dbnz w
  | 48 => decNDBaseOrdOffWc .ld w
  | 49 => decNDBaseOrdOffWc .st w
  | 50 => decNDBaseIdxWcOrdSc .ldx w
  | 51 => decNDBaseIdxWcOrdSc .stx w
  | 52 => decNDBaseOrdOffWc .ldc w
  | 53 => decNBaseOff .prf w
  | 54 => decNDBaseOff .ldf w
  | 55 => decNDBaseOff .ste w
  | 56 => decNDBaseOff .ldp w
  | 57 => decNDBaseOff .stf w
  | 58 => decNBaseOff .fec w
  | 59 => decNDABWOrdFn .amo w
  | 60 => decNDABCWOrd .cas w
  | 61 => decNA .arb w
  | 62 => decNDBaseOffWc .arl w
  | 63 => decNDBaseOffWc .ars w
  | 64 => decNDA .arc w
  | 65 => decNSc .fence w
  | 66 => decNASc .bfence w
  | 67 => decNDABRmP .fadd w
  | 68 => decNDABRmP .fsub w
  | 69 => decNDABRmP .fmul w
  | 70 => decNDABRmP .fdiv w
  | 71 => decNDARmP .fsqrt w
  | 72 => decNDABCRmP .fma w
  | 73 => decNDABCRmP .fms w
  | 74 => decNDABCRmP .fnma w
  | 75 => decNDABP .fmin w
  | 76 => decNDABP .fmax w
  | 77 => decNDABKindRm .fcvt w
  | 78 => decNDAP .fcls w
  | 79 => decNDABRmP .fsgn w
  | 80 => decNDARmP .frnd w
  | 81 => decNVdVaVbMeVmPolEwFn .vadd w
  | 82 => decNVdVaVbMeVmPolEwFn .vsub w
  | 83 => decNVdVaVbMeVmPolEwFn .vmul w
  | 84 => decNVdVaVbVcMeVmPolEwFn .vfma w
  | 85 => decNVdVaVbMeVmPolEwFn .vdiv w
  | 86 => decNVdVaVbMeVmPolEwFn .vmin w
  | 87 => decNVdVaVbMeVmPolEwFn .vmax w
  | 88 => decNVdVaVbMeVmPolFn .vlog w
  | 89 => decNVdVaVbMeVmPolEwFn .vshf w
  | 90 => decNVdVaVbMeVmPolEwFn .vcmp w
  | 91 => decNVdVaVbVcMeVmPol .vsel w
  | 92 => decNVdVaMeVmEwFn .vred w
  | 93 => decNVdGaMeVmPolOrd .vld w
  | 94 => decNVdGaMeVmPolOrd .vst w
  | 95 => decNVdGaVcMeVmPolSc .vgth w
  | 96 => decNVdGaVcMeVmPolSc .vsct w
  | 97 => decNVdGaMeVmPolEw .vbrd w
  | 98 => decNVdGaLaneEwJ .vext w
  | 99 => decNVdVaVbVcMeVmPolFn .vprm w
  | 100 => decNVdVaVbSewMeVmPolEwHiRm .vcvt w
  | 101 => decNA .send w
  | 102 => decNDA .recv w
  | 103 => decNA .rpc w
  | 104 => decNA .rply w
  | 105 => decNABC .htw w
  | 106 => decNDABC .spwn w
  | 107 => decNNone .quit w
  | 108 => decNAIdSc .bar w
  | 109 => decNSc .qsc w
  | 110 => decNA .wft w
  | 111 => decNASel .cps w
  | 112 => decND .cpl w
  | 113 => decNDA .cpq w
  | 114 => decNStH .hwt w
  | 115 => decNH .hrl w
  | 116 => decNDAB .uls w
  | 117 => decNDA .ulr w
  | 118 => decNABCW .rst w
  | 119 => decNABCRelKind .rinc w
  | 120 => decNAB .post w
  | 121 => decNDA .wwt w
  | 122 => decNDAB .vpub w
  | 123 => decNDA .vqry w
  | 124 => decNA .bcmd w
  | 125 => decNVdVaVbVcMeVmPolEw .rng w
  | 126 => decNVdVaVbVcMeVmPolFn2 .gmb w
  | 127 => decNDA .alc w
  | 128 => decNA .fre w
  | 129 => decNE .trap w
  | 130 => decNNone .eret w
  | 131 => decNDImm .syr w
  | 132 => decNASel .syw w
  | 133 => decNA .tlbi w <|> decNNone2 .tlbiAll w
  | 134 => decNDAB .migr w
  | 135 => decND .time w <|> decND2 .timeRot w
  | 136 => decNE .brk w
  | _ => none

/-- The fields of a 32-bit Jalgal-T instruction by its opcode (11 R324, R326). -/
def rawTrellis32 (w : Word32) : Option Instr :=
  match (w.extractLsb' 26 6).toNat with
  | 1 => decTLenKindCount .blk w
  | 4 => decTKaKb .wut w
  | 7 => decTWBitSense .brc w
  | 8 => decTKdImm .kli w <|> decTKdImm2 .kliHi w <|> decTKdKsImm .kliAdd w <|> decTKdKsImm2 .kliMul w
  | 11 => decTKtKvN16 .hld w
  | 12 => decTKtKvN16 .hst w
  | 13 => decTKtKvN16Aty .hac w
  | 14 => decTKsFormDirN1 .lks w
  | 15 => decTKtDirN1 .lkr w
  | 16 => decTKlDirOutN1TyKd .lka w
  | 17 => decTIdN .win w
  | 18 => decTId .wcl w
  | 19 => decTKdWPart .prd w
  | 20 => decTSlot .vlt w
  | 21 => decTKtKvN16Vchk .tld w
  | 22 => decTKtKvN16 .scp w
  | 23 => decTKtKsFmtRmNosatTyKn .qnt w
  | 24 => decTKtKsFmtRmNosatTyKn .dqn w
  | 25 => decTKtKsDfmtSfmtRmNosatKn .cvt w
  | 26 => decTKdWPart .trn w
  | 27 => decTKtKsOpSxKn .pak w
  | 28 => decTKtKsFmtRmShKn .srs w
  | 29 => decTKtKvN16 .fmt w
  | 30 => decTKtKsFmt .wld w
  | 31 => decTKaKwAfmtWfmtBankM1 .mma w
  | 32 => decTKtKrBankAtyFmtRmNosat .acr w
  | 33 => decTBankRow0M1 .acz w
  | 34 => decTYdYaYbYcEtOp .var w
  | 35 => decTKbYOff .vly w
  | 36 => decTKbYOff .vsy w
  | 37 => decTYdYaOpEt .vrd w
  | 38 => decTDirBankRowY .vtr w
  | 39 => decTYdYaYbCondEt .vcm w
  | 40 => decTYdYaYbYcEtOp2 .vsl w
  | _ => none

/-- The fields of a 16-bit Jalgal-T instruction by its opcode (11 R324, R326). -/
def rawTrellis16 (w : Half) : Option Instr :=
  match (w.extractLsb' 10 6).toNat with
  | 2 => decHNone .nop w
  | 3 => decHN1 .dly w
  | 5 => decHFifoKs .tkp w
  | 6 => decHFifoKs .tkw w
  | 9 => decHOpKdKs .kop w
  | 10 => decHNone .endT w
  | _ => none

/-- The raw fields of an instruction held to the limits of its entry. -/
def limited : Option Instr → Except DecodeError Instr
  | .none => .error .reserved
  | some i => if i.wf then .ok i else .error .fieldLimit

/-- A Jalgal-N word decoded; an error is what raises ILLEGAL (11 R315). -/
def decodeNewt (w : Word32) : Except DecodeError Instr := limited (rawNewt w)

/-- The 32-bit value of a 32-bit Jalgal-T form: its first halfword holds bits [31:16] (11 R324). -/
def trellisWord (h0 h1 : Half) : Word32 := h0 ++ h1

/-- A 32-bit Jalgal-T value decoded; an error refuses the image with STREAMOP. -/
def decodeTrellis32 (w : Word32) : Except DecodeError Instr := limited (rawTrellis32 w)

/-- A 16-bit Jalgal-T form decoded; an error refuses the image with STREAMOP. -/
def decodeTrellis16 (h : Half) : Except DecodeError Instr := limited (rawTrellis16 h)

/-- The opcodes of the 16-bit forms: NOP, DLY, TKP, TKW, KOP and END (11 R326). -/
def isShort (op : BitVec 6) : Bool :=
  op == 2#6 || op == 3#6 || op == 5#6 || op == 6#6 || op == 9#6 || op == 10#6

/-- A Jalgal-T instruction read from two consecutive halfwords, and how many halfwords it takes (11 R324). -/
def decodeTrellis (h0 h1 : Half) : Except DecodeError (Instr × Nat) :=
  if isShort (h0.extractLsb' 10 6) then (decodeTrellis16 h0).map (fun i => (i, 1))
  else (decodeTrellis32 (trellisWord h0 h1)).map (fun i => (i, 2))

/-- A Jalgal-N word read from its four bytes, the lowest address first (00 R4). -/
def newtWordOfBytes (b0 b1 b2 b3 : Byte) : Word32 := b3 ++ b2 ++ b1 ++ b0

/-- A halfword read from its two bytes, the lowest address first (00 R4). -/
def halfOfBytes (b0 b1 : Byte) : Half := b1 ++ b0

/-- The words of an instruction. -/
def encode : Instr → Words
  | .add d a b => .w32 (encNDAB 1#8 d a b)
  | .sub d a b => .w32 (encNDAB 2#8 d a b)
  | .addi d a imm => .w32 (encNDAImm 3#8 d a imm)
  | .mul d a b => .w32 (encNDAB 4#8 d a b)
  | .mulh d a b => .w32 (encNDAB 5#8 d a b)
  | .mulhu d a b => .w32 (encNDAB 6#8 d a b)
  | .div d a b => .w32 (encNDAB 7#8 d a b)
  | .divu d a b => .w32 (encNDAB 8#8 d a b)
  | .rem d a b => .w32 (encNDAB 9#8 d a b)
  | .remu d a b => .w32 (encNDAB 10#8 d a b)
  | .andR d a b => .w32 (encNDAB 11#8 d a b)
  | .orR d a b => .w32 (encNDAB 12#8 d a b)
  | .xorR d a b => .w32 (encNDAB 13#8 d a b)
  | .andn d a b => .w32 (encNDAB 14#8 d a b)
  | .lea d base idx sc => .w32 (encNDBaseIdxSc 15#8 d base idx sc)
  | .andi d a imm => .w32 (encNDAImm 16#8 d a imm)
  | .ori d a imm => .w32 (encNDAImm 17#8 d a imm)
  | .xori d a imm => .w32 (encNDAImm 18#8 d a imm)
  | .shl d a b => .w32 (encNDAB 19#8 d a b)
  | .shr d a b => .w32 (encNDAB 20#8 d a b)
  | .sar d a b => .w32 (encNDAB 21#8 d a b)
  | .rot d a b => .w32 (encNDAB 22#8 d a b)
  | .shli d a imm => .w32 (encNDAImm 23#8 d a imm)
  | .shri d a imm => .w32 (encNDAImm 24#8 d a imm)
  | .sari d a imm => .w32 (encNDAImm 25#8 d a imm)
  | .roti d a imm => .w32 (encNDAImm 26#8 d a imm)
  | .clz d a => .w32 (encNDA 27#8 d a)
  | .ctz d a => .w32 (encNDA 28#8 d a)
  | .popc d a => .w32 (encNDA 29#8 d a)
  | .brev d a => .w32 (encNDA 30#8 d a)
  | .bswp d a => .w32 (encNDA 31#8 d a)
  | .bext d a pos len1 => .w32 (encNDAPosLen1 32#8 d a pos len1)
  | .bins d a pos len1 => .w32 (encNDAPosLen1 33#8 d a pos len1)
  | .min d a b => .w32 (encNDAB 34#8 d a b)
  | .max d a b => .w32 (encNDAB 35#8 d a b)
  | .minu d a b => .w32 (encNDAB 36#8 d a b)
  | .maxu d a b => .w32 (encNDAB 37#8 d a b)
  | .lih d a imm => .w32 (encNDAImm 38#8 d a imm)
  | .sk cond n a b => .w32 (encNCondNAB 39#8 cond n a b)
  | .ski cond n a imm => .w32 (encNCondNAImm 40#8 cond n a imm)
  | .fsk p cond n a b => .w32 (encNPCondNAB 41#8 p cond n a b)
  | .br imm => .w32 (encNImm 42#8 imm)
  | .jr a => .w32 (encNA 43#8 a)
  | .call imm => .w32 (encNImm 44#8 imm)
  | .callr a => .w32 (encNA 45#8 a)
  | .ret => .w32 (encNNone 46#8)
  | .dbnz d imm => .w32 (encNDImm 47#8 d imm)
  | .ld d base ord off wc => .w32 (encNDBaseOrdOffWc 48#8 d base ord off wc)
  | .st s base ord off wc => .w32 (encNDBaseOrdOffWc 49#8 s base ord off wc)
  | .ldx d base idx wc ord sc => .w32 (encNDBaseIdxWcOrdSc 50#8 d base idx wc ord sc)
  | .stx s base idx wc ord sc => .w32 (encNDBaseIdxWcOrdSc 51#8 s base idx wc ord sc)
  | .ldc d base ord off wc => .w32 (encNDBaseOrdOffWc 52#8 d base ord off wc)
  | .prf base off => .w32 (encNBaseOff 53#8 base off)
  | .ldf d base off => .w32 (encNDBaseOff 54#8 d base off)
  | .ste s base off => .w32 (encNDBaseOff 55#8 s base off)
  | .ldp d base off => .w32 (encNDBaseOff 56#8 d base off)
  | .stf s base off => .w32 (encNDBaseOff 57#8 s base off)
  | .fec base off => .w32 (encNBaseOff 58#8 base off)
  | .amo d a b w ord fn => .w32 (encNDABWOrdFn 59#8 d a b w ord fn)
  | .cas d a b c w ord => .w32 (encNDABCWOrd 60#8 d a b c w ord)
  | .arb a => .w32 (encNA 61#8 a)
  | .arl d base off wc => .w32 (encNDBaseOffWc 62#8 d base off wc)
  | .ars s base off wc => .w32 (encNDBaseOffWc 63#8 s base off wc)
  | .arc d a => .w32 (encNDA 64#8 d a)
  | .fence sc => .w32 (encNSc 65#8 sc)
  | .bfence a sc => .w32 (encNASc 66#8 a sc)
  | .fadd d a b rm p => .w32 (encNDABRmP 67#8 d a b rm p)
  | .fsub d a b rm p => .w32 (encNDABRmP 68#8 d a b rm p)
  | .fmul d a b rm p => .w32 (encNDABRmP 69#8 d a b rm p)
  | .fdiv d a b rm p => .w32 (encNDABRmP 70#8 d a b rm p)
  | .fsqrt d a rm p => .w32 (encNDARmP 71#8 d a rm p)
  | .fma d a b c rm p => .w32 (encNDABCRmP 72#8 d a b c rm p)
  | .fms d a b c rm p => .w32 (encNDABCRmP 73#8 d a b c rm p)
  | .fnma d a b c rm p => .w32 (encNDABCRmP 74#8 d a b c rm p)
  | .fmin d a b p => .w32 (encNDABP 75#8 d a b p)
  | .fmax d a b p => .w32 (encNDABP 76#8 d a b p)
  | .fcvt d a b kind rm => .w32 (encNDABKindRm 77#8 d a b kind rm)
  | .fcls d a p => .w32 (encNDAP 78#8 d a p)
  | .fsgn d a b op p => .w32 (encNDABRmP 79#8 d a b op p)
  | .frnd d a rm p => .w32 (encNDARmP 80#8 d a rm p)
  | .vadd vd va vb me vm pol ew fn => .w32 (encNVdVaVbMeVmPolEwFn 81#8 vd va vb me vm pol ew fn)
  | .vsub vd va vb me vm pol ew fn => .w32 (encNVdVaVbMeVmPolEwFn 82#8 vd va vb me vm pol ew fn)
  | .vmul vd va vb me vm pol ew fn => .w32 (encNVdVaVbMeVmPolEwFn 83#8 vd va vb me vm pol ew fn)
  | .vfma vd va vb vc me vm pol ew fn => .w32 (encNVdVaVbVcMeVmPolEwFn 84#8 vd va vb vc me vm pol ew fn)
  | .vdiv vd va vb me vm pol ew fn => .w32 (encNVdVaVbMeVmPolEwFn 85#8 vd va vb me vm pol ew fn)
  | .vmin vd va vb me vm pol ew fn => .w32 (encNVdVaVbMeVmPolEwFn 86#8 vd va vb me vm pol ew fn)
  | .vmax vd va vb me vm pol ew fn => .w32 (encNVdVaVbMeVmPolEwFn 87#8 vd va vb me vm pol ew fn)
  | .vlog vd va vb me vm pol fn => .w32 (encNVdVaVbMeVmPolFn 88#8 vd va vb me vm pol fn)
  | .vshf vd va vb me vm pol ew fn => .w32 (encNVdVaVbMeVmPolEwFn 89#8 vd va vb me vm pol ew fn)
  | .vcmp vd va vb me vm pol ew fn => .w32 (encNVdVaVbMeVmPolEwFn 90#8 vd va vb me vm pol ew fn)
  | .vsel vd va vb vc me vm pol => .w32 (encNVdVaVbVcMeVmPol 91#8 vd va vb vc me vm pol)
  | .vred vd va me vm ew fn => .w32 (encNVdVaMeVmEwFn 92#8 vd va me vm ew fn)
  | .vld vd ga me vm pol ord => .w32 (encNVdGaMeVmPolOrd 93#8 vd ga me vm pol ord)
  | .vst vd ga me vm pol ord => .w32 (encNVdGaMeVmPolOrd 94#8 vd ga me vm pol ord)
  | .vgth vd ga vc me vm pol sc => .w32 (encNVdGaVcMeVmPolSc 95#8 vd ga vc me vm pol sc)
  | .vsct vd ga vc me vm pol sc => .w32 (encNVdGaVcMeVmPolSc 96#8 vd ga vc me vm pol sc)
  | .vbrd vd ga me vm pol ew => .w32 (encNVdGaMeVmPolEw 97#8 vd ga me vm pol ew)
  | .vext vd ga lane ew j => .w32 (encNVdGaLaneEwJ 98#8 vd ga lane ew j)
  | .vprm vd va vb vc me vm pol fn => .w32 (encNVdVaVbVcMeVmPolFn 99#8 vd va vb vc me vm pol fn)
  | .vcvt vd va vb sew me vm pol ew hi rm => .w32 (encNVdVaVbSewMeVmPolEwHiRm 100#8 vd va vb sew me vm pol ew hi rm)
  | .send a => .w32 (encNA 101#8 a)
  | .recv d a => .w32 (encNDA 102#8 d a)
  | .rpc a => .w32 (encNA 103#8 a)
  | .rply a => .w32 (encNA 104#8 a)
  | .htw a b c => .w32 (encNABC 105#8 a b c)
  | .spwn d a b c => .w32 (encNDABC 106#8 d a b c)
  | .quit => .w32 (encNNone 107#8)
  | .bar a id sc => .w32 (encNAIdSc 108#8 a id sc)
  | .qsc sc => .w32 (encNSc 109#8 sc)
  | .wft a => .w32 (encNA 110#8 a)
  | .cps a sel => .w32 (encNASel 111#8 a sel)
  | .cpl d => .w32 (encND 112#8 d)
  | .cpq d a => .w32 (encNDA 113#8 d a)
  | .hwt st h => .w32 (encNStH 114#8 st h)
  | .hrl h => .w32 (encNH 115#8 h)
  | .uls d a b => .w32 (encNDAB 116#8 d a b)
  | .ulr d a => .w32 (encNDA 117#8 d a)
  | .rst a b c w => .w32 (encNABCW 118#8 a b c w)
  | .rinc a b c rel kind => .w32 (encNABCRelKind 119#8 a b c rel kind)
  | .post a b => .w32 (encNAB 120#8 a b)
  | .wwt d a => .w32 (encNDA 121#8 d a)
  | .vpub d a b => .w32 (encNDAB 122#8 d a b)
  | .vqry d a => .w32 (encNDA 123#8 d a)
  | .bcmd a => .w32 (encNA 124#8 a)
  | .rng vd va vb vc me vm pol ew => .w32 (encNVdVaVbVcMeVmPolEw 125#8 vd va vb vc me vm pol ew)
  | .gmb vd va vb vc me vm pol fn => .w32 (encNVdVaVbVcMeVmPolFn2 126#8 vd va vb vc me vm pol fn)
  | .alc d a => .w32 (encNDA 127#8 d a)
  | .fre a => .w32 (encNA 128#8 a)
  | .trap e => .w32 (encNE 129#8 e)
  | .eret => .w32 (encNNone 130#8)
  | .syr d sel => .w32 (encNDImm 131#8 d sel)
  | .syw a sel => .w32 (encNASel 132#8 a sel)
  | .tlbi a => .w32 (encNA 133#8 a)
  | .tlbiAll => .w32 (encNNone2 133#8)
  | .migr d a b => .w32 (encNDAB 134#8 d a b)
  | .time d => .w32 (encND 135#8 d)
  | .timeRot d => .w32 (encND2 135#8 d)
  | .brk e => .w32 (encNE 136#8 e)
  | .blk len kind count => .w32 (encTLenKindCount 1#6 len kind count)
  | .nop => .w16 (encHNone 2#6)
  | .dly n1 => .w16 (encHN1 3#6 n1)
  | .wut ka kb => .w32 (encTKaKb 4#6 ka kb)
  | .tkp fifo ks => .w16 (encHFifoKs 5#6 fifo ks)
  | .tkw fifo kd => .w16 (encHFifoKs 6#6 fifo kd)
  | .brc w bit sense => .w32 (encTWBitSense 7#6 w bit sense)
  | .kli kd imm => .w32 (encTKdImm 8#6 kd imm)
  | .kliHi kd imm => .w32 (encTKdImm2 8#6 kd imm)
  | .kliAdd kd ks imm => .w32 (encTKdKsImm 8#6 kd ks imm)
  | .kliMul kd ks imm => .w32 (encTKdKsImm2 8#6 kd ks imm)
  | .kop op kd ks => .w16 (encHOpKdKs 9#6 op kd ks)
  | .endT => .w16 (encHNone 10#6)
  | .hld kt kv n16 => .w32 (encTKtKvN16 11#6 kt kv n16)
  | .hst kt kv n16 => .w32 (encTKtKvN16 12#6 kt kv n16)
  | .hac kt kv n16 aty => .w32 (encTKtKvN16Aty 13#6 kt kv n16 aty)
  | .lks ks form dir n1 => .w32 (encTKsFormDirN1 14#6 ks form dir n1)
  | .lkr kt dir n1 => .w32 (encTKtDirN1 15#6 kt dir n1)
  | .lka kl dir out n1 ty kd => .w32 (encTKlDirOutN1TyKd 16#6 kl dir out n1 ty kd)
  | .win id n => .w32 (encTIdN 17#6 id n)
  | .wcl id => .w32 (encTId 18#6 id)
  | .prd kd w part => .w32 (encTKdWPart 19#6 kd w part)
  | .vlt slot => .w32 (encTSlot 20#6 slot)
  | .tld kt kv n16 vchk => .w32 (encTKtKvN16Vchk 21#6 kt kv n16 vchk)
  | .scp kt ks n16 => .w32 (encTKtKvN16 22#6 kt ks n16)
  | .qnt kt ks fmt rm nosat ty kn => .w32 (encTKtKsFmtRmNosatTyKn 23#6 kt ks fmt rm nosat ty kn)
  | .dqn kt ks fmt rm nosat ty kn => .w32 (encTKtKsFmtRmNosatTyKn 24#6 kt ks fmt rm nosat ty kn)
  | .cvt kt ks dfmt sfmt rm nosat kn => .w32 (encTKtKsDfmtSfmtRmNosatKn 25#6 kt ks dfmt sfmt rm nosat kn)
  | .trn kt ks sz => .w32 (encTKdWPart 26#6 kt ks sz)
  | .pak kt ks op sx kn => .w32 (encTKtKsOpSxKn 27#6 kt ks op sx kn)
  | .srs kt ks fmt rm sh kn => .w32 (encTKtKsFmtRmShKn 28#6 kt ks fmt rm sh kn)
  | .fmt kt kp n16 => .w32 (encTKtKvN16 29#6 kt kp n16)
  | .wld kt ks fmt => .w32 (encTKtKsFmt 30#6 kt ks fmt)
  | .mma ka kw afmt wfmt bank m1 => .w32 (encTKaKwAfmtWfmtBankM1 31#6 ka kw afmt wfmt bank m1)
  | .acr kt kr bank aty fmt rm nosat => .w32 (encTKtKrBankAtyFmtRmNosat 32#6 kt kr bank aty fmt rm nosat)
  | .acz bank row0 m1 => .w32 (encTBankRow0M1 33#6 bank row0 m1)
  | .var yd ya yb yc et op => .w32 (encTYdYaYbYcEtOp 34#6 yd ya yb yc et op)
  | .vly kb y off => .w32 (encTKbYOff 35#6 kb y off)
  | .vsy kb y off => .w32 (encTKbYOff 36#6 kb y off)
  | .vrd yd ya op et => .w32 (encTYdYaOpEt 37#6 yd ya op et)
  | .vtr dir bank row y => .w32 (encTDirBankRowY 38#6 dir bank row y)
  | .vcm yd ya yb cond et => .w32 (encTYdYaYbCondEt 39#6 yd ya yb cond et)
  | .vsl yd ya yb yc et op => .w32 (encTYdYaYbYcEtOp2 40#6 yd ya yb yc et op)
  | _ => .none

/-- The words read back by the decoder of their own plane. -/
def decodeNewtWords : Words → Except DecodeError Instr
  | .w32 w => decodeNewt w
  | _ => .error .reserved

/-- The words of a Jalgal-T instruction read back. -/
def decodeTrellisWords : Words → Except DecodeError Instr
  | .w32 w => decodeTrellis32 w
  | .w16 h => decodeTrellis16 h
  | .none => .error .reserved

/-- The four bytes of a 32-bit number as memory holds them, the lowest first (00 R4). -/
def tableBytes (w : Nat) : Byte × Byte × Byte × Byte :=
  (BitVec.ofNat 8 w, BitVec.ofNat 8 (w / 256), BitVec.ofNat 8 (w / 65536), BitVec.ofNat 8 (w / 16777216))

/-- The instruction that the decoder reads from an instruction given in the opcode table's numbering. A 16-bit row is a
Jalgal-T halfword. A 32-bit row is laid out as a Jalgal-N word, and read as one where that word is a Jalgal-N
instruction; otherwise it is laid out as the two halfwords of a Jalgal-T instruction, [31:16] first (log entry 7). -/
def decodeTableWord (nbits w : Nat) : Option Instr :=
  let b := tableBytes w
  if nbits = 16 then (decodeTrellis16 (halfOfBytes b.1 b.2.1)).toOption
  else if nbits = 32 then
    match decodeNewt (newtWordOfBytes b.1 b.2.1 b.2.2.1 b.2.2.2) with
    | .ok i => some i
    | .error _ =>
      ((decodeTrellis (halfOfBytes b.2.2.1 b.2.2.2) (halfOfBytes b.1 b.2.1)).map (fun p => p.1)).toOption
  else .none

end Sys2Proof
end

