-- ==== Sys2Proof/Config.lean ====
section
/-! DEFINITION. What an implementation or its provisioning fixes, and the free values: constants without a body, so that
no proof can see what they are (log entries 5 and 6). -/

namespace Sys2Proof

/-- The value of the n-th free draw of a 64-bit quantity that the spec leaves open (log entry 5). -/
opaque Config.freeWord : Nat → BitVec 64

/-- The n-th free choice among `k` things that the spec leaves in any order, taken modulo `k` (log entry 5). -/
opaque Config.freeChoice : Nat → Nat

/-- What the private identity key is made of, a number that nothing returns (04 R96; log entry 8). -/
opaque Config.identitySecret : Nat

/-- What the nonce of a signature over a message is made of, which the spec does not fix (04 R97; log entry 8). -/
opaque Config.signNonce : List (BitVec 8) → Nat

/-- The MAC address that firmware gives an Ethernet port (03 R51). -/
opaque Config.portMac : Nat → BitVec 48

/-- The IPv6 address that firmware gives an Ethernet port (03 R51). -/
opaque Config.portAddr : Nat → BitVec 128

/-- The fused vendor image key: 64 bytes x and y, whose SHA-256 hash the fuses hold (04 R95). -/
opaque Config.vendorKey : List (BitVec 8)

/-- The fused vendor debug key, 64 bytes (04 R98). -/
opaque Config.vendorDebugKey : List (BitVec 8)

/-- The fused serial number, 16 bytes (04 R97). -/
opaque Config.serial : List (BitVec 8)

/-- The identity certificate chain, DER X.509 (04 R92, R96). -/
opaque Config.certChain : List (BitVec 8)

/-- The part revision that QUERY 0 returns (04 R92). -/
opaque Config.partRevision : BitVec 32

/-- The TSS association indexes that a job's opening sets up (03 R56, R57). -/
opaque Config.jobAssociations : Nat → List Nat

/-- The first TSS association index that provisioning gives the Ahnaux queues (04 R78). -/
opaque Config.hostAssociation : BitVec 16

/-- The further ones (04 R78). -/
opaque Config.moreHostAssociations : List Nat

/-- The TSS association indexes of the Ahnaux queues: there is one at least (04 R78; log entry 8). -/
def Config.hostAssociations : List Nat := Config.hostAssociation.toNat :: Config.moreHostAssociations

/-- The 4 KiB page of HBM that is each queue's command region, which firmware sets at a start (04 R77, R79). -/
opaque Config.ahqPage : Nat → BitVec 27

/-- Physical address of each queue's command region: a page of HBM's 512 GiB (04 R77, R79; 06 R137). -/
def Config.ahqBase (q : Nat) : Nat := (Config.ahqPage q).toNat * 4096

/-- The clock domain that a path-delay monitor, by its number in the package, belongs to: which is not stated (02 R40, R41). -/
opaque Config.monitorDomain : Nat → Nat

/-- The bytes of a log that LOG returns, whose layout is not given: the kind and the entries as numbers (04 R92). -/
opaque Config.logBytes : Nat → List (List Nat) → List (BitVec 8)

/-- The signed images in the image store when the part leaves the factory, by KIND × 2 + slot (04 R93). -/
opaque Config.factoryImage : Nat → List (BitVec 8)

/-- Number of cores, and of tiles: one of each per position (01 R18). -/
def nPos : Nat := 1024

/-- Thread slots of a core (01 R18). -/
def nSlots : Nat := 16

/-- Steps of 256 cycles that THROTTLE works in (02 R36). -/
def throttleInterval : Nat := 256

/-- The plane cycles of 1 ms at 1.9 GHz (00 R1). -/
def cyclesPerMs : Nat := 1900000

/-- Activations of an HBM row at which its stack signals alert back-off (02 R46; log entry 146). -/
opaque Config.rowThreshold : Nat

/-- The HBM stack on which the context of a unit, by its key, begins: firmware places it, and the spec does not say where (05
R123, R127, R130; log entry 121). -/
opaque Config.contextFirst : Nat → BitVec 3

/-- Whether the context of a unit lies on a further HBM stack too (log entry 121). -/
opaque Config.contextAlso : Nat → Nat → Bool

end Sys2Proof
end

