-- ==== Sys2Proof/Machine/Bits.lean ====
section
/-! DEFINITION. Bytes, fields and two's complement: how values lie in bytes (00 R2 to R4) and small list helpers. -/

namespace Sys2Proof.Machine

open Sys2Proof

/-- The `n` low bytes of `v`, byte 0 first (00 R4). -/
def bytesOf (n v : Nat) : List Byte :=
  match n with
  | 0 => []
  | k + 1 => BitVec.ofNat 8 v :: bytesOf k (v / 256)

/-- The value of a list of bytes, byte 0 first (00 R4). -/
def natOf : List Byte → Nat
  | [] => 0
  | b :: t => b.toNat + 256 * natOf t

/-- Bytes `off` to `off + n - 1` of a record. -/
def sub (b : List Byte) (off n : Nat) : List Byte := (b.drop off).take n

/-- The little-endian value of `n` bytes at `off` in a record. -/
def field (b : List Byte) (off n : Nat) : Nat := natOf (sub b off n)

/-- A value's bits `hi` to `lo`. -/
def bits (v hi lo : Nat) : Nat := v / 2 ^ lo % 2 ^ (hi + 1 - lo)

/-- Bit `i` of a value. -/
def bit (v i : Nat) : Bool := v / 2 ^ i % 2 == 1

/-- The `b` low bits of `x` read as two's complement (12 R336). -/
def toSigned (b x : Nat) : Int :=
  if x % 2 ^ b < 2 ^ (b - 1) then (x % 2 ^ b : Nat) else ((x % 2 ^ b : Nat) : Int) - (2 ^ b : Nat)

/-- The two's complement of an integer in `b` bits. -/
def ofSigned (b : Nat) (x : Int) : Nat := (x % (2 ^ b : Nat)).toNat

/-- sext(x, b) of 12 R336, as a 64-bit value. -/
def sextW (b x : Nat) : Word := BitVec.ofInt 64 (toSigned b x)

/-- A 64-bit word from bytes. -/
def wordOf (b : List Byte) : Word := BitVec.ofNat 64 (natOf b)

/-- A 64-bit value as bytes. -/
def wordBytes (w : Word) : List Byte := bytesOf 8 w.toNat

/-- Rounded-up quotient. -/
def ceilDiv (a b : Nat) : Nat := (a + b - 1) / b

/-- Whether every byte of a record is zero. -/
def allZero (b : List Byte) : Bool := b.all (fun x => x == 0)

/-- The list with its item at index `i` replaced. -/
def setAt {α : Type} (l : List α) (i : Nat) (v : α) : List α := l.set i v

/-- The item at index `i`, or `d`. -/
def nth {α : Type} (d : α) (l : List α) (i : Nat) : α := l.getD i d

/-- The list without its item at index `i`. -/
def dropAt {α : Type} (l : List α) (i : Nat) : List α := l.eraseIdx i

/-- The pairs of a list with their places. -/
def indexed {α : Type} (l : List α) : List (Nat × α) := (List.range l.length).zip l

/-- A Bool as a number. -/
def b2n (b : Bool) : Nat := if b then 1 else 0

/-- The items of two lists combined element by element. -/
def zipWith2 {α β γ : Type} (f : α → β → γ) (a : List α) (b : List β) : List γ := List.zipWith f a b

/-- Consecutive groups of `n` items; `fuel` bounds their number. -/
def chunksN {α : Type} (n : Nat) : Nat → List α → List (List α)
  | 0, _ => []
  | fuel + 1, l => if l.isEmpty then [] else l.take n :: chunksN n fuel (l.drop n)

/-- Consecutive groups of `n` items. -/
def chunks {α : Type} (n : Nat) (l : List α) : List (List α) := chunksN n l.length l

/-- The values of `Nat.log2` for a non-zero value plus one: the number of bits it needs. -/
def bitLen (v : Nat) : Nat := if v = 0 then 0 else Nat.log2 v + 1

end Sys2Proof.Machine
end

