-- ==== Sys2Proof/Machine/Codes.lean ====
section
/-! DEFINITION. Check codes, hashes, signatures and random words: CRC-32C, CRC-64, SHA-256, ECDSA P-256 and Philox. -/

namespace Sys2Proof.Machine

open Sys2Proof

/-! ## CRC-32C, bit-reflected (08 R223) -/

/-- One bit of the CRC-32C. -/
def crc32cBit (c : BitVec 32) : BitVec 32 :=
  if c &&& 1#32 = 1#32 then (c >>> 1) ^^^ 0x82F63B78#32 else c >>> 1

/-- A step of the CRC-32C by one byte. -/
def crc32cByte (c : BitVec 32) (b : Byte) : BitVec 32 :=
  crc32cBit (crc32cBit (crc32cBit (crc32cBit (crc32cBit (crc32cBit (crc32cBit (crc32cBit
    (c ^^^ b.setWidth 32))))))))

/-- CRC-32C of a list of bytes (08 R223). -/
def crc32c (l : List Byte) : BitVec 32 := l.foldl crc32cByte 0xFFFFFFFF#32 ^^^ 0xFFFFFFFF#32

/-! ## CRC-64/ECMA-182, most significant bit first (10 R300) -/

/-- One bit of the CRC-64. -/
def crc64Bit (c : BitVec 64) : BitVec 64 :=
  if c.msb then (c <<< 1) ^^^ 0x42F0E1EBA9EA3693#64 else c <<< 1

/-- crc64_ecma_step (10 R300). -/
def crc64Step (c : BitVec 64) (b : Byte) : BitVec 64 :=
  crc64Bit (crc64Bit (crc64Bit (crc64Bit (crc64Bit (crc64Bit (crc64Bit (crc64Bit
    (c ^^^ (b.setWidth 64 <<< 56)))))))))

/-- The CRC continued over bytes. -/
def crc64Over (c : BitVec 64) (l : List Byte) : BitVec 64 := l.foldl crc64Step c

/-- DIGEST after a retired store: its address, size and data (10 R300). -/
def digestStore (d : Word) (va : Word) (data : List Byte) : Word :=
  crc64Over d (wordBytes va ++ bytesOf 1 data.length ++ data)

/-! ## SHA-256, most significant byte first (04 R93) -/

/-- The round constants. -/
def shaK : List (BitVec 32) :=
  [0x428a2f98#32, 0x71374491#32, 0xb5c0fbcf#32, 0xe9b5dba5#32, 0x3956c25b#32, 0x59f111f1#32, 0x923f82a4#32,
   0xab1c5ed5#32, 0xd807aa98#32, 0x12835b01#32, 0x243185be#32, 0x550c7dc3#32, 0x72be5d74#32, 0x80deb1fe#32,
   0x9bdc06a7#32, 0xc19bf174#32, 0xe49b69c1#32, 0xefbe4786#32, 0x0fc19dc6#32, 0x240ca1cc#32, 0x2de92c6f#32,
   0x4a7484aa#32, 0x5cb0a9dc#32, 0x76f988da#32, 0x983e5152#32, 0xa831c66d#32, 0xb00327c8#32, 0xbf597fc7#32] ++
  [0xc6e00bf3#32, 0xd5a79147#32, 0x06ca6351#32, 0x14292967#32, 0x27b70a85#32, 0x2e1b2138#32, 0x4d2c6dfc#32,
   0x53380d13#32, 0x650a7354#32, 0x766a0abb#32, 0x81c2c92e#32, 0x92722c85#32, 0xa2bfe8a1#32, 0xa81a664b#32,
   0xc24b8b70#32, 0xc76c51a3#32, 0xd192e819#32, 0xd6990624#32, 0xf40e3585#32, 0x106aa070#32, 0x19a4c116#32,
   0x1e376c08#32, 0x2748774c#32, 0x34b0bcb5#32, 0x391c0cb3#32, 0x4ed8aa4a#32, 0x5b9cca4f#32, 0x682e6ff3#32] ++
  [0x748f82ee#32, 0x78a5636f#32, 0x84c87814#32, 0x8cc70208#32, 0x90befffa#32, 0xa4506ceb#32, 0xbef9a3f7#32,
   0xc67178f2#32]

/-- The initial hash. -/
def shaInit : List (BitVec 32) :=
  [0x6a09e667#32, 0xbb67ae85#32, 0x3c6ef372#32, 0xa54ff53a#32, 0x510e527f#32, 0x9b05688c#32, 0x1f83d9ab#32,
   0x5be0cd19#32]

/-- A value of `n` bytes, most significant byte first. -/
def bytesBE (n v : Nat) : List Byte := (bytesOf n v).reverse

/-- The value of bytes, most significant first. -/
def natBE (l : List Byte) : Nat := natOf l.reverse

/-- The message padded to whole blocks. -/
def shaPad (l : List Byte) : List Byte :=
  l ++ [0x80#8] ++ List.replicate ((119 - l.length % 64) % 64) 0 ++ bytesBE 8 (l.length * 8)

/-- The schedule extended by one word; words are kept newest first. -/
def shaExtend (w : List (BitVec 32)) : List (BitVec 32) :=
  let a := nth 0 w 14
  let b := nth 0 w 1
  let s0 := a.rotateRight 7 ^^^ a.rotateRight 18 ^^^ (a >>> 3)
  let s1 := b.rotateRight 17 ^^^ b.rotateRight 19 ^^^ (b >>> 10)
  (nth 0 w 15 + s0 + nth 0 w 6 + s1) :: w

/-- The 64 words of a block's schedule. -/
def shaWords (blk : List Byte) : List (BitVec 32) :=
  let w0 := ((chunks 4 blk).map (fun c => BitVec.ofNat 32 (natBE c))).reverse
  ((List.range 48).foldl (fun w _ => shaExtend w) w0).reverse

/-- One round. -/
def shaRound (h : List (BitVec 32)) (kw : BitVec 32 × BitVec 32) : List (BitVec 32) :=
  let a := nth 0 h 0
  let b := nth 0 h 1
  let c := nth 0 h 2
  let e := nth 0 h 4
  let f := nth 0 h 5
  let g := nth 0 h 6
  let t1 := nth 0 h 7 + (e.rotateRight 6 ^^^ e.rotateRight 11 ^^^ e.rotateRight 25) + ((e &&& f) ^^^ (~~~e &&& g)) +
    kw.1 + kw.2
  let t2 := (a.rotateRight 2 ^^^ a.rotateRight 13 ^^^ a.rotateRight 22) + ((a &&& b) ^^^ (a &&& c) ^^^ (b &&& c))
  [t1 + t2, a, b, c, nth 0 h 3 + t1, e, f, g]

/-- One block. -/
def shaBlock (h : List (BitVec 32)) (blk : List Byte) : List (BitVec 32) :=
  zipWith2 (· + ·) h ((shaK.zip (shaWords blk)).foldl shaRound h)

/-- SHA-256 of a list of bytes. -/
def sha256 (l : List Byte) : List Byte :=
  ((chunks 64 (shaPad l)).foldl shaBlock shaInit).flatMap (fun w => bytesBE 4 w.toNat)

/-! ## ECDSA over P-256 (04 R94) -/

/-- The field's prime. -/
def p256p : Nat := 0xffffffff00000001000000000000000000000000ffffffffffffffffffffffff
/-- The group's order. -/
def p256n : Nat := 0xffffffff00000000ffffffffffffffffbce6faada7179e84f3b9cac2fc632551
/-- The curve's b. -/
def p256b : Nat := 0x5ac635d8aa3a93e7b3ebbd55769886bc651d06b0cc53b0f63bce3c3e27d2604b
/-- The generator. -/
def p256g : Nat × Nat :=
  (0x6b17d1f2e12c4247f8bce6e563a440f277037d812deb33a0f4a13945d898c296,
   0x4fe342e2fe1a7f9b8ee7eb4a7c0f9e162bce33576b315ececbb6406837bf51f5)

/-- a^e mod m, `fuel` bits of e. -/
def powMod (m : Nat) : Nat → Nat → Nat → Nat
  | 0, _, _ => 1 % m
  | fuel + 1, a, e =>
    let r := powMod m fuel (a * a % m) (e / 2)
    if e % 2 = 1 then r * a % m else r

/-- The inverse modulo a prime. -/
def invMod (m a : Nat) : Nat := powMod m 256 (a % m) (m - 2)

/-- A point of the curve; `none` is the point at infinity. -/
abbrev Point := Option (Nat × Nat)

/-- The third point of a chord or tangent of a slope. -/
def ecThird (slope : Nat) (a b : Nat × Nat) : Point :=
  let x := (slope * slope + 2 * p256p - a.1 - b.1) % p256p
  some (x, (slope * (a.1 + p256p - x) + p256p - a.2) % p256p)

/-- The sum of two points. -/
def ecAdd : Point → Point → Point
  | none, q => q
  | p, none => p
  | some a, some b =>
    if a.1 = b.1 then
      if (a.2 + b.2) % p256p = 0 then none
      else ecThird ((3 * a.1 * a.1 + p256p - 3) % p256p * invMod p256p (2 * a.2) % p256p) a b
    else ecThird ((b.2 + p256p - a.2) % p256p * invMod p256p (b.1 + p256p - a.1) % p256p) a b

/-- k times a point, `fuel` bits of k. -/
def ecMul : Nat → Nat → Point → Point
  | 0, _, _ => none
  | fuel + 1, k, p =>
    let r := ecMul fuel (k / 2) (ecAdd p p)
    if k % 2 = 1 then ecAdd r p else r

/-- Whether a pair lies on the curve. -/
def onCurve (q : Nat × Nat) : Bool :=
  decide (q.1 < p256p) && decide (q.2 < p256p) &&
    (q.2 * q.2 % p256p == (q.1 * q.1 * q.1 + (p256p - 3) * q.1 + p256b) % p256p)

/-- Whether a 64-byte signature over a message verifies under a 64-byte public key, all big-endian (04 R94). -/
def ecdsaVerify (key msg sig : List Byte) : Bool :=
  let r := natBE (sub sig 0 32)
  let s := natBE (sub sig 32 32)
  let q := (natBE (sub key 0 32), natBE (sub key 32 32))
  if key.length = 64 ∧ sig.length = 64 ∧ onCurve q ∧ 0 < r ∧ r < p256n ∧ 0 < s ∧ s < p256n then
    let w := invMod p256n s
    let z := natBE (sha256 msg)
    match ecAdd (ecMul 256 (z * w % p256n) (some p256g)) (ecMul 256 (r * w % p256n) (some q)) with
    | some v => v.1 % p256n == r
    | none => false
  else false

/-- A private key or nonce between 1 and n - 1 from any number. -/
def scalarOf (n : Nat) : Nat := n % (p256n - 1) + 1

/-- The public key of a private one, 64 bytes: x, then y (04 R94, R96). -/
def ecdsaKey (d : Nat) : List Byte :=
  match ecMul 256 d (some p256g) with
  | some q => bytesBE 32 q.1 ++ bytesBE 32 q.2
  | none => List.replicate 64 0

/-- The ECDSA P-256 signature over SHA-256 of a message with private key `d` and nonce `k`: r, then s (04 R94, R97). -/
def ecdsaSign (d k : Nat) (msg : List Byte) : List Byte :=
  let r := match ecMul 256 k (some p256g) with
    | some q => q.1 % p256n
    | none => 0
  bytesBE 32 r ++ bytesBE 32 (invMod p256n k * (natBE (sha256 msg) + r * d) % p256n)

/-- The public identity key (04 R96). -/
def identityKey : List Byte := ecdsaKey (scalarOf Config.identitySecret)

/-- The signature of the security block over a message (04 R96, R97; log entry 8). -/
def identitySign (msg : List Byte) : List Byte :=
  ecdsaSign (scalarOf Config.identitySecret) (scalarOf (Config.signNonce msg)) msg

/-! ## Philox-4x32-10 (08 R220) -/

/-- A round of Philox on four counter words under a key. -/
def philoxRound (c : List Nat) (k0 k1 : Nat) : List Nat :=
  let p0 := 0xD2511F53 * nth 0 c 0
  let p1 := 0xCD9E8D57 * nth 0 c 2
  [Nat.xor (Nat.xor (p1 / 2 ^ 32) (nth 0 c 1)) k0, p1 % 2 ^ 32,
   Nat.xor (Nat.xor (p0 / 2 ^ 32) (nth 0 c 3)) k1, p0 % 2 ^ 32]

/-- The rounds left, with the key raised between them. -/
def philoxRounds : Nat → List Nat → Nat → Nat → List Nat
  | 0, c, _, _ => c
  | n + 1, c, k0, k1 =>
    philoxRounds n (philoxRound c k0 k1) ((k0 + 0x9E3779B9) % 2 ^ 32) ((k1 + 0xBB67AE85) % 2 ^ 32)

/-- philox_word(): the four output words for a seed, stream, index and lane-and-word field (08 R220). -/
def philox (seed : Word) (stream index lane : Nat) : List Nat :=
  let ctr := stream % 2 ^ 48 * 2 ^ 80 + index % 2 ^ 40 * 2 ^ 40 + lane % 2 ^ 40
  philoxRounds 10 [ctr % 2 ^ 32, ctr / 2 ^ 32 % 2 ^ 32, ctr / 2 ^ 64 % 2 ^ 32, ctr / 2 ^ 96]
    (seed.toNat % 2 ^ 32) (seed.toNat / 2 ^ 32)

end Sys2Proof.Machine
end

