-- ==== Sys2Proof/Machine/State.lean ====
section
/-! DEFINITION. The state of one package as plain data. Each field names the rule that gives it; INVENTORY.md lists them
with their reset values. -/

namespace Sys2Proof.Machine

open Sys2Proof

/-- The main scopes that ordering operations name, narrowest first (01 R26, R27). -/
inductive Scope where
  | core
  | quad
  | die
  | pkg
  | pod
  deriving DecidableEq, Repr

/-- Where an agent of the memory model lies: the smallest main scope that contains it (01 R28). -/
inductive Place where
  | nowhere
  | core (c : Nat)
  | quad (q : Nat)
  | die (d : Nat)
  | pkg
  deriving DecidableEq, Repr

/-- What a write carries for scope widening: the writer's place and its scope tag (07 R189). -/
structure WTag where
  place : Place
  tag : Scope
  deriving DecidableEq, Repr

/-- The tag of a byte that no agent wrote. -/
def WTag.init : WTag := { place := .nowhere, tag := .core }

/-- One part of a store held in a store buffer (06 R151): its virtual and physical address and bytes. -/
structure SbPart where
  va : Word
  pa : Nat
  data : List Byte
  deriving DecidableEq, Repr

/-- A store-buffer entry: one scalar store, vector store or scatter (07 R181; 13 R387, R388). -/
structure SbEntry where
  parts : List SbPart
  tag : Scope
  /-- A release's own store, which goes to its home and is never held dirty (07 R186). -/
  rel : Bool
  /-- A VST: its bytes on one side of a home or page boundary are one part, whatever gaps the mask leaves (13 R387). -/
  joint : Bool := false
  deriving DecidableEq, Repr

/-- What a thread waits for in its slot (10 R274). `retry` is a wait in which the instruction issues again until its
condition holds. -/
inductive Park where
  | running
  | retry (opcode : Nat)
  /-- A wait that counts as blocked in ordered mode: a full send queue, or a barrier that another job holds (07 R205). -/
  | blocked (opcode : Nat)
  | gate (g : Nat)
  | walk (va : Word)
  | rpc (token : BitVec 32)
  | bar (key : Nat)
  /-- A QSC: the cycle at which the activity bits of its instance were cleared, and whether one has been set since (10 R290). -/
  | qsc (scope : Scope) (since : Option Nat) (active : Bool)
  | wft (target : Word)
  | spawn
  | post
  | migr
  /-- A load held at a window that pre-emption of a partition suspended (05 R124). -/
  | held (part : Nat)
  /-- A WWT that waits for a window of a partition (13 R408). -/
  | wwt (part : Nat)
  /-- A BFENCE, whose operand was translated to an address at its issue, that waits for so many commands of each bank (06 R174;
  12 R370). -/
  | bank (pa : Nat) (left : List (Nat × Nat))
  | stopped
  deriving DecidableEq, Repr

/-- An atomic region being recorded: ARB's address and register, the address it captured and what was recorded
(12 R365). -/
structure Region where
  pc : Word
  base : Nat
  addr : Word
  body : List Instr
  accesses : Nat
  deriving DecidableEq, Repr

/-- One thread of a Newt core (10 R274 to R282; 05 R127). -/
structure Thread where
  live : Bool
  job : Nat
  kid : Nat
  level : Level
  tid : BitVec 14
  /-- Address of the next instruction to issue. -/
  pc : Word
  /-- g1 to g31 of the current window (10 R276). -/
  g : Store Word
  /-- Resident older frames, newest first, g16 to g23 of each (10 R276). -/
  older : List (List Word)
  /-- v0 to v7, lane i of vN at key 8N + i. -/
  v : Store Word
  wsp : Word
  tvec : Word
  epc : Word
  ecause : Word
  eval : Word
  fstat : Word
  fctl : Word
  rpe : Bool
  wpe : Bool
  vpe : Bool
  intrap : Bool
  wkind : BitVec 2
  nspill : BitVec 16
  rpeDetail : Word
  wpeDetail : Word
  vpeDetail : Word
  digest : Word
  seed : Word
  /-- Copy-engine shadows 0 to 13 (10 R291). -/
  shadows : Store Word
  sb : List SbEntry
  park : Park
  region : Option Region
  rpcSeq : BitVec 18
  /-- Instructions retired in the current quantum, the quantum, and the gated requests issued in it (07 R205). -/
  qcount : Nat
  qnum : Nat
  qseq : Nat
  /-- A far access since the last release or FENCE of effective scope pkg (07 R189). -/
  far : Bool
  /-- Effective scope of the latest release or FENCE (07 R189). -/
  relScope : Scope
  /-- The widening collected from the values read since the previous FENCE (07 R189). -/
  readScope : Scope
  /-- The widest effective scope of its acquires, which its later writes carry on (07 R190; log entry 140). -/
  carry : Scope
  /-- The copy that its atomic or region names was latched when the address was translated (06 R167). -/
  latchSeen : Bool
  deriving DecidableEq, Repr

/-- The state of a slot that holds no thread, and the values a new thread starts from (10 R278). -/
def Thread.init : Thread :=
  { live := false, job := 0, kid := 0, level := .user, tid := 0, pc := 0, g := [], older := [], v := [], wsp := 0,
    tvec := 0, epc := 0, ecause := 0, eval := 0, fstat := 0, fctl := 0, rpe := false, wpe := false, vpe := false,
    intrap := false, wkind := 0, nspill := 0, rpeDetail := 0, wpeDetail := 0, vpeDetail := 0, digest := 0, seed := 0,
    shadows := [], sb := [], park := .running, region := none, rpcSeq := 0, qcount := 0, qnum := 0, qseq := 0,
    far := false, relScope := .core, readScope := .core, carry := .core, latchSeen := false }

/-- A translation held by a TLB or found by a walk: one leaf of any size (06 R143, R146). -/
structure Leaf where
  asid : Nat
  /-- First address and size in bytes of the range that the leaf translates. -/
  va : Nat
  size : Nat
  /-- Size in bytes of the page that the leaf belongs to. -/
  page : Nat
  pa : Nat
  rd : Bool
  wr : Bool
  x : Bool
  user : Bool
  rox : Bool
  deriving DecidableEq, Repr

/-- A line of the remote line cache: a mask bit per 8-byte word (06 R149). -/
structure Line where
  num : Nat
  valid : BitVec 16
  dirty : BitVec 16
  data : Store Byte
  /-- Writer of each dirty word: thread, virtual address and tag (R167, 07 R189). -/
  who : Store (Option (Nat × Word × WTag))
  /-- By word, the widest scope that the values taken into it ask of an acquire (07 R189). -/
  seen : Store Scope
  rox : Bool
  deriving DecidableEq, Repr

/-- A handler-table entry (10 R285), with what a task it starts takes from the thread that wrote it (R278). -/
structure HEntry where
  kind : BitVec 2
  ring : Nat
  slots : BitVec 16
  pc : Word
  job : Nat
  kid : Nat
  fctl : Word
  tvec : Word
  seed : Word
  level : Level
  deriving DecidableEq, Repr

/-- An empty handler entry. -/
def HEntry.init : HEntry :=
  { kind := 0, ring := 0, slots := 0, pc := 0, job := 0, kid := 0, fctl := 0, tvec := 0, seed := 0, level := .user }

/-- A ring descriptor: BASE in bytes, LOG2N and EN (10 R283), and the kernel that set it up (05 R110). -/
structure Ring where
  base : Nat
  log2n : Nat
  en : Bool
  kid : Nat
  deriving DecidableEq, Repr

/-- A ring that is not set up. -/
def Ring.init : Ring := { base := 0, log2n := 0, en := false, kid := 0 }

/-- The states of a buffer handle (10 R296). -/
inductive HState where
  | free
  | filling
  | full
  | draining
  deriving DecidableEq, Repr

/-- A buffer handle: its state and the kernel that claimed it (10 R296). -/
structure Handle where
  st : HState
  owner : Option (Nat × Nat)
  deriving DecidableEq, Repr

/-- A handle at reset. -/
def Handle.init : Handle := { st := .free, owner := none }

/-- A TID: the kernel that launched it, its place among that kernel's CPLs on the core and its status word
(10 R295). -/
structure TidRec where
  job : Nat
  kid : Nat
  nth : Nat
  status : Word
  deriving DecidableEq, Repr

/-- How a core is gated (05 R131). -/
inductive Gating where
  | running
  | clockGated (since : Nat)
  | powerGated
  deriving DecidableEq, Repr

/-- One Newt core (10). -/
structure Core where
  handlers : Store HEntry
  rings : Store Ring
  /-- The job that owns the handler table and rings (05 R111). -/
  ringJob : Option Nat
  nextTid : BitVec 16
  tids : Store (Option TidRec)
  /-- CPLs of each kernel on this core, keyed by job × 2^32 + kernel id. -/
  cpls : Store Nat
  handles : Store Handle
  rlc : List Line
  tlb : List Leaf
  gating : Gating
  /-- The cycle at which the residency timer began: all slots blocked since then (05 R131, R132). -/
  blockedSince : Option Nat
  /-- Event counters: further deferred faults (R281), replies that match no caller (R288). -/
  deferredLost : Nat
  strayReplies : Nat
  deriving DecidableEq, Repr

/-- A core at reset. -/
def Core.init : Core :=
  { handlers := [], rings := [], ringJob := none, nextTid := 1, tids := [], cpls := [], handles := [],
    rlc := [], tlb := [], gating := .running, blockedSince := none, deferredLost := 0, strayReplies := 0 }

/-- A walk request queued at a die (06 R146). -/
structure WalkReq where
  thr : Nat
  core : Nat
  job : Nat
  va : Word
  /-- EVAL of the cause that a failed walk gives, where the rule of the access states it (13 R387, R388). -/
  eval : Option Word := none
  deriving DecidableEq, Repr

/-- A message on its way to a core (10 R284; 07 R194). -/
structure Msg where
  /-- Sending core; 1,024 and above for the cellarmaster, 2,048 + e for copy engine e. -/
  src : Nat
  slot : Nat
  dst : Nat
  hidx : Nat
  len : Nat
  payload : List Byte
  /-- Bits [63:26] of the meta word that the sender fixes (10 R284). -/
  call : Bool
  engine : Bool
  sys : Bool
  token : BitVec 32
  tid : BitVec 14
  job : Nat
  /-- Effective scope of the sender's release, and the message's place in the order of sending (07 R189, R194). -/
  tag : Scope
  num : Nat
  /-- For the order gate at the ring tail (07 R203, R205). -/
  quantum : Nat
  seq : Nat
  held : Bool
  deriving DecidableEq, Repr

/-- A reply on its way to its caller (10 R288). -/
structure Reply where
  token : BitVec 32
  src : Nat
  payload : List Byte
  job : Nat
  tid : BitVec 14
  tag : Scope
  num : Nat
  quantum : Nat
  seq : Nat
  held : Bool
  deriving DecidableEq, Repr

/-- A request to start a thread (13 R394; 06 R161). -/
structure SpawnReq where
  core : Nat
  /-- The thread that waits for the logical id and the register it goes to, for SPWN. -/
  waiter : Option (Nat × Nat)
  /-- The counter, for an ullage launch. -/
  counter : Option Nat
  job : Nat
  kid : Nat
  level : Level
  slots : BitVec 16
  pc : Word
  regs : List Word
  fctl : Word
  tvec : Word
  seed : Word
  tid : BitVec 14
  /-- The requesting core or other source and the request's place in the order of sending (07 R194; 10 R287). -/
  src : Nat
  num : Nat
  /-- Scope of the acquire that the new thread begins with (07 R185). -/
  tag : Scope
  quantum : Nat
  seq : Nat
  held : Bool
  deriving DecidableEq, Repr

/-- What a gated request does when its gate serves it (07 R203). -/
inductive GateOp where
  | amo (pa : Nat) (va : Word) (size fn : Nat) (operand : Word) (rlx : Bool) (d : Nat)
  | cas (pa : Nat) (va : Word) (size : Nat) (expected new : Word) (rlx : Bool) (d : Nat)
  | region (line : Nat) (va : Word) (status abandon : Nat)
  | ldf (pa : Nat) (d : Nat)
  | ste (pa : Nat) (va : Word) (v : Word)
  | ldp (pa : Nat) (d : Nat)
  | stf (pa : Nat) (va : Word) (v : Word)
  | fec (pa : Nat)
  | alc (n : Word) (d : Nat)
  | fre (a : Word)
  deriving DecidableEq, Repr

/-- A request that waits at a gate: the thread parked on it, and what orders it (07 R204 to R206). -/
structure GateReq where
  gate : Nat
  thr : Nat
  op : GateOp
  job : Nat
  tid : BitVec 14
  quantum : Nat
  seq : Nat
  /-- Held until its quantum ends, in ordered mode (07 R205). -/
  held : Bool
  deriving DecidableEq, Repr

/-- What one gate keeps for one job's log: the open run, chunks written or read, and requests served of the head
chunk (10 R299; 17 R487). -/
structure GateLog where
  runTid : Nat
  runLen : Nat
  chunks : Nat
  served : Nat
  full : Bool
  deriving DecidableEq, Repr

/-- A gate's log position when a job opens. -/
def GateLog.init : GateLog := { runTid := 0, runLen := 0, chunks := 0, served := 0, full := false }

/-- A copy transfer in an engine (10 R291 to R295). -/
structure Transfer where
  job : Nat
  kid : Nat
  core : Nat
  slot : Nat
  thr : Nat
  tidNum : Nat
  shadows : Store Word
  tid : BitVec 14
  level : Level
  /-- The transfer launched before it by the same thread, for `.ord`: engine-independent launch number. -/
  num : Nat
  after : Option Nat
  started : Bool
  err : Nat
  oor : Nat
  /-- In-tensor box of a clipped tensor copy: lower and upper bounds (R293). -/
  clipped : Bool
  /-- Remote parts not acknowledged yet. -/
  remote : Nat
  deriving DecidableEq, Repr

/-- A copy engine (10 R297). -/
structure Engine where
  queue : List Transfer
  done : BitVec 32
  errs : BitVec 16
  /-- Its TLB of 32 entries, the latest first (06 R146). -/
  tlb : List Leaf
  deriving DecidableEq, Repr

/-- An engine at reset. -/
def Engine.init : Engine := { queue := [], done := 0, errs := 0, tlb := [] }

/-- A command of a bank arithmetic unit (06 R169), its sectors already translated. -/
structure BauCmd where
  op : Nat
  bf16 : Bool
  nsec : Nat
  d : Nat
  a : Nat
  b : Nat
  s1 : Word
  s2 : Word
  /-- The issuing thread (`threadKey`); 0 once that thread has ended. -/
  thr : Nat
  tid : BitVec 14
  job : Nat
  deriving DecidableEq, Repr

/-- One HBM bank's FIFO, errors not yet reported by thread, and unwritten sectors (06 R173, R175, R176). -/
structure Bank where
  fifo : List BauCmd
  /-- First error not yet reported, its cycle and address, by thread (`threadKey`). -/
  pend : Store (Option (Nat × Nat))
  errs : BitVec 16
  deriving DecidableEq, Repr

/-- A bank at reset. -/
def Bank.init : Bank := { fifo := [], pend := [], errs := 0 }

/-- An ullage counter (06 R157 to R163). -/
structure Counter where
  total : BitVec 48
  count : BitVec 48
  armed : Bool
  fired : Bool
  overran : Bool
  owner : Option Nat
  fw : Bool
  kind : BitVec 3
  arg : BitVec 56
  lg : List Word
  /-- The kernel whose ULS armed it (05 R110, R113). -/
  kid : Nat
  /-- The physical ranges it is bound to (R158). -/
  ranges : List (Nat × Nat)
  /-- Bytes counted by each home and not yet reported (R159). -/
  frags : Store Nat
  deriving DecidableEq, Repr

/-- A counter at reset. -/
def Counter.init : Counter :=
  { total := 0, count := 0, armed := false, fired := false, overran := false, owner := none, fw := false, kind := 0,
    arg := 0, lg := [0, 0, 0, 0], kid := 0, ranges := [], frags := [] }

/-- A vintage set (06 R164). -/
structure VSet where
  used : Bool
  len : Nat
  ncopy : Nat
  pubcopy : Nat
  owner : Nat
  pub : BitVec 32
  latch : List (BitVec 16)
  copypa : List Nat
  deriving DecidableEq, Repr

/-- A set number that no set holds. -/
def VSet.init : VSet :=
  { used := false, len := 0, ncopy := 0, pubcopy := 0, owner := 0, pub := 0, latch := [0, 0, 0, 0],
    copypa := [0, 0, 0, 0] }

/-- The tag entry of a 2 MiB page: membership and tag (06 R165). -/
structure PageTag where
  member : Option (Nat × Nat)
  tag : BitVec 32
  deriving DecidableEq, Repr

/-- A page that belongs to no set. -/
def PageTag.init : PageTag := { member := none, tag := 0 }

/-- A barrier episode (10 R289): where it is, its job, its count once fixed, arrivals and parked participants. -/
structure Episode where
  key : Nat
  job : Option Nat
  count : Option Nat
  arrivals : Nat
  parked : List Nat
  /-- Widest effective scope of the arrivals' releases (07 R189). -/
  tag : Scope
  /-- The tendril ports over which arrivals of a pod barrier came (03 R70). -/
  ports : List Nat
  deriving DecidableEq, Repr

/-- What a remote operation carries on the wire (03 R58). -/
structure OutPkt where
  /-- 0 RMA write, 1 add to a word, 2 add to a counter's feed, 3 RMA write to the accumulate resource, 4 an answer to a
  peer or the host, 5 a completion or buffer write to the host, 6 a side-band flit, 7 an answer to a frame, 8 a flit of
  the timed mesh. -/
  kind : Nat
  op : Nat
  job : Nat
  peer : Nat
  va : Word
  data : List Byte
  rel : Bool
  ports : BitVec 8
  /-- The peer entry that the packet was sent under, read whole as it left egress (03 R57). -/
  entry : List Byte := []
  deriving DecidableEq, Repr

/-- An operation sent to a peer and not ended (13 R371; 03 R63). -/
structure RemoteOp where
  id : Nat
  job : Nat
  peer : Nat
  thr : Option Nat
  tid : BitVec 14
  engine : Option (Nat × Nat)
  /-- A queue and sequence number, for a completion or buffer write to the host. -/
  cmd : Option (Nat × Nat)
  /-- Its packet as it was sent last, which a port's loss sends again (03 R61, R62). -/
  pkt : OutPkt
  /-- Waits at egress for a packet delivery context (03 R54). -/
  waiting : Bool
  deriving DecidableEq, Repr

/-- An open packet delivery context: the job and peer that use it (03 R52, R54). -/
structure Pdc where
  id : Nat
  job : Nat
  peer : Nat
  idleSince : Nat
  deriving DecidableEq, Repr

/-- What the target keeps of a connection: the next number of a ROD connection, the packets that came before their turn, and
the numbers performed on a RUD connection (03 R53, R61). -/
structure RxConn where
  next : Nat
  early : List (Nat × Packet)
  done : List Nat
  deriving DecidableEq, Repr

/-- A connection on which nothing has come. -/
def RxConn.init : RxConn := { next := 0, early := [], done := [] }

/-- A page migration under way (06 R155). -/
structure Migration where
  job : Nat
  va : Nat
  size : Nat
  old : Nat
  new : Nat
  thr : Nat
  d : Nat
  /-- Packets that wait for its end at this target (03 R59), with their kind as in `Partition.heldPackets`. -/
  held : List (Nat × Packet)
  deriving DecidableEq, Repr

/-- The states of a job (05 R102). -/
inductive JobState where
  | closed
  | opened
  | held
  deriving DecidableEq, Repr

/-- A job (05 R102; 04 R87) with its order-gate registers and allocator (10 R298; 13 R414). -/
structure Job where
  st : JobState
  asid : Nat
  cls : Nat
  gmode : Nat
  qlog2 : Nat
  seed : Word
  deadline : Word
  wcrt : Word
  key : Option (List Byte)
  nextLaunch : Nat
  started : Bool
  heldRecords : List (List Byte)
  lostRecords : Nat
  associations : List Nat
  logva : Word
  seglog2 : Nat
  digva : Word
  dseglog2 : Nat
  lost : Bool
  dlost : Bool
  /-- Digest cursor of each logical id (17 R486), and ids whose recording stopped. -/
  cursors : Store Nat
  digFull : Store Bool
  quantum : Nat
  sizelog2 : Nat
  base : Word
  /-- Free and live blocks of the arena: offset and log2 size (13 R415). -/
  freeBlocks : List (Nat × Nat)
  liveBlocks : List (Nat × Nat)
  freezeCycles : Nat
  /-- DEADLINE has come, and a job that still ran then has been logged as a miss (05 R121). -/
  missed : Bool
  /-- SHA-256 of each image loaded, in load order (04 R97). -/
  measurements : List (List Byte)
  deriving DecidableEq, Repr

/-- A job number that is not open. -/
def Job.init : Job :=
  { st := .closed, asid := 0, cls := 0, gmode := 0, qlog2 := 0, seed := 0, deadline := 0, wcrt := 0, key := none,
    nextLaunch := 1, started := false, heldRecords := [], lostRecords := 0, associations := [], logva := 0,
    seglog2 := 0, digva := 0, dseglog2 := 0, lost := false, dlost := false, cursors := [], digFull := [], quantum := 0,
    sizelog2 := 0, base := 0, freeBlocks := [], liveBlocks := [], freezeCycles := 0, missed := false, measurements := [] }

/-- How far a unit's pre-emption has come (05 R123, R127). -/
inductive UnitState where
  | loading
  | running
  | saving
  | preempted
  | done
  deriving DecidableEq, Repr

/-- A kernel (05 R110 to R113; 11 R330). -/
structure Kernel where
  st : UnitState
  level : Level
  slots : Nat
  rings : Nat
  handles : Nat
  tids : Nat
  lsoff : Nat
  lslen : Nat
  wstack : Nat
  /-- Entry and trap vector as core 0 sees them; core c adds c × 0x2_0000 (11 R331). -/
  entry : Nat
  tvecoff : Option Nat
  lsview : Nat
  seed : Word
  cores : List Nat
  /-- The core list it was launched with; empty where the cellarmaster placed it (R128). -/
  corelist : List Nat
  accepted : Nat
  hostHold : Bool
  deadlineHold : Bool
  savedThreads : List Thread
  /-- The slots that the saved threads held: core × 16 + slot. -/
  savedAt : List Nat
  /-- Local-store regions that a claim forced out: core, bytes and full/empty bits (R127). -/
  lsSaved : List (Nat × List Byte × List Bool)
  cmd : Option (Nat × Nat)
  pcmds : List (Nat × Nat)
  savedBytes : Nat
  /-- Logical id of its thread 0, until that thread quits (05 R104). -/
  tid0 : Option Nat
  /-- Slots reserved to it on each of its cores (05 R110, R119). -/
  masks : Store (BitVec 16)
  /-- Logical ids given to its threads, held until it completes (05 R112). -/
  ids : List Nat
  deriving DecidableEq, Repr

/-- No kernel. -/
def Kernel.init : Kernel :=
  { st := .done, level := .user, slots := 0, rings := 0, handles := 0, tids := 0, lsoff := 0, lslen := 0, wstack := 0,
    entry := 0, tvecoff := none, lsview := 0, seed := 0, cores := [], corelist := [], accepted := 0, hostHold := false,
    deadlineHold := false, savedThreads := [], savedAt := [], lsSaved := [], cmd := none, pcmds := [], savedBytes := 0,
    tid0 := none, masks := [], ids := [] }

/-- A launch that waits in a class queue (05 R108, R114 to R117), or a unit that waits to resume. -/
structure Launch where
  num : Nat
  job : Nat
  cls : Nat
  sched : Bool
  image : List Byte
  n : Nat
  cores : List Nat
  origin : Nat
  width : Nat
  height : Nat
  startAt : Word
  args : List Word
  dep0 : BitVec 32
  dep1 : BitVec 32
  nowait : Bool
  /-- VA of the descriptor's RES, for a launch through a port (R115). -/
  res : Option Word
  cmd : Option (Nat × Nat)
  /-- The unit to resume in place of a new launch: true and a kernel id, or false and a partition. -/
  resumes : Option (Bool × Nat)
  /-- For a spanning schedule, the claims made of the other packages: pod coordinates in the plane, and the answer once there
  is one: 0 taken, 1 BUSY, 2 SHAPE (09 R270). -/
  claims : List ((Nat × Nat) × Option Nat)
  deriving DecidableEq, Repr

/-- A command whose completion has not been sent (04 R81, R85, R87). -/
structure PendCmd where
  q : Nat
  seq : Nat
  op : Nat
  ord : Bool
  early : Bool
  job : Nat
  ready : Bool
  status : Nat
  result : List Byte
  /-- Bytes saved or restored so far, for PREEMPT and RESUME. -/
  sum : Nat
  /-- Its completion record waits for a packet delivery context (03 R54). -/
  waits : Bool
  deriving DecidableEq, Repr

/-- An Ahnaux queue (04 R77 to R79). -/
structure AhQueue where
  enable : Bool
  cerr : Bool
  base : Nat
  ring : Word
  nextseq : BitVec 32
  /-- Commands read from their slots that wait for their turn: sequence number, whether the record was good, bytes. -/
  waiting : List (Nat × Nat × List Byte)
  deriving DecidableEq, Repr

/-- An Ahnaux queue at reset; queue 0 is enabled (04 R79). -/
def AhQueue.init (q : Nat) : AhQueue :=
  { enable := q == 0, cerr := false, base := 0, ring := 0, nextseq := 0, waiting := [] }

/-- The three streams of a tile (09 R240). -/
inductive StreamId where
  | x
  | f
  | m
  deriving DecidableEq, Repr

/-- An open block (09 R244, R245): its body, the iterations left including the present one, and whether the loop
buffer holds it. -/
structure Loop where
  start : Nat
  len : Nat
  left : Nat
  held : Bool
  deriving DecidableEq, Repr

/-- One stream of a tile (09 R240, R243, R244). -/
structure Stream where
  /-- k1 to k15. -/
  k : Store Word32
  spc : Nat
  ended : Bool
  /-- Schedule cycle of the next issue. -/
  next : Int
  outer : Option Loop
  inner : Option Loop
  /-- Halfwords in the loop buffer, keyed by their offset in the schedule store. -/
  buf : Store (Option Half)
  /-- Stochastic-rounding instructions counted (08 R220). -/
  sr : Nat
  deriving DecidableEq, Repr

/-- A stream before its schedule starts. -/
def Stream.init : Stream :=
  { k := [], spc := 0, ended := true, next := 0, outer := none, inner := none, buf := [], sr := 0 }

/-- What a trellis result changes when it takes effect (14 R426). -/
inductive Eff where
  | kreg (st : StreamId) (r : Nat) (v : Word32)
  | yreg (r off : Nat) (data : List Byte)
  /-- Bytes to a footprint offset; the flag says whether ullage counters count them (06 R159). -/
  | sram (off : Nat) (data : List Byte) (counted : Bool)
  /-- A result of an LKA that is written where it was read, and the ranges written since its read: address and length. -/
  | lka (off : Nat) (data : List Byte) (since : List (Nat × Nat))
  | acc (bank : Bool) (off : Nat) (data : List Byte)
  | mma (bank : Bool) (row af wf : Nat) (a w : List Byte)
  | token (fifo : Nat) (v : Word32)
  | ftz (v : Bool)
  deriving DecidableEq, Repr

/-- A result that takes effect in schedule cycle `cyc` as an event of R426, with what orders it (09 R242, R243). -/
structure Pend where
  cyc : Int
  st : StreamId
  seq : Nat
  eff : Eff
  deriving DecidableEq, Repr

/-- A latch slot (09 R268). -/
structure Latch where
  latched : Bool
  vint : BitVec 32
  copy : Nat
  deriving DecidableEq, Repr

/-- An unlatched slot. -/
def Latch.init : Latch := { latched := false, vint := 0, copy := 0 }

/-- A granule of an HLD, TLD, HST or HAC under way (14 R435 to R437; 09 R263). -/
structure Granule where
  cyc : Int
  seq : Nat
  /-- Reads HBM into the tile. -/
  load : Bool
  /-- The ATY of a HAC. -/
  acum : Option Nat
  /-- Footprint offset of its first byte. -/
  off : Nat
  /-- Physical ranges: address, length, and the vintages that a read's check accepts, each of a set, or of any set for a
  block-map entry with VT = 1, as latched at the instruction's check point (09 R268, R269). -/
  pas : List (Nat × Nat × List (Option Nat × Nat))
  /-- Its bytes. -/
  data : List Byte
  /-- For the last granule of a TLD: the trailer, whether its CRC is right, and with VCHK slot 0's latch as at the TLD's check
  point (09 R268; 14 R436). -/
  trailer : Option (List Byte × Bool × Option Latch)
  /-- What its landing check point found, once it has passed (09 R250). -/
  passed : Option Bool
  deriving DecidableEq, Repr

/-- An LKR or LKA that covers arrivals (14 R439, R440). -/
structure Recv where
  dir : Nat
  first : Int
  n : Nat
  seq : Nat
  /-- 0 LKR, 1 LKA that forwards, 2 LKA that writes. -/
  kind : Nat
  ty : Nat
  /-- Footprint offset of the LKR destination or the LKA local operand. -/
  off : Nat
  dst : Nat
  deriving DecidableEq, Repr

/-- A token: its value and the plane cycle at which it became visible (09 R252). -/
structure Token where
  v : Word32
  vis : Nat
  deriving DecidableEq, Repr

/-- An entry of a schedule's window table (11 R333). -/
structure WinDef where
  wid : Nat
  off : Nat
  len : Nat
  rd : Bool
  wr : Bool
  mask : BitVec 16
  stall : Bool
  timeout : Nat
  deriving DecidableEq, Repr

/-- A window that a WIN has opened, or will open at `opens` (09 R254 to R257). -/
structure Win where
  defn : WinDef
  opens : Int
  isOpen : Bool
  close : Option Int
  /-- Its check point has passed, and whether expected posts were missing there so that a STALL freeze moves it. -/
  passed : Bool
  missing : Bool
  /-- It was opened with N = 0, so a WCL closes it (14 R442). -/
  byWcl : Bool
  deriving DecidableEq, Repr

/-- A POST on its way to its tiles, or kept at one (13 R407; 09 R253, R256, R262). -/
structure Post where
  thr : Nat
  part : Nat
  tiles : List Nat
  form : Nat
  sel : Nat
  idx : Nat
  value : Word
  deriving DecidableEq, Repr

/-- One trellis tile (09). -/
structure Tile where
  part : Option Nat
  sx : Stream
  sf : Stream
  sm : Stream
  /-- y0 to y31, byte i of yN at 256N + i. -/
  y : Store Byte
  accA : Store Byte
  accB : Store Byte
  ftz : Bool
  wins : List Win
  arrival : Store Word
  visible : Store Word
  arrPosted : BitVec 16
  visPosted : BitVec 16
  fifos : Store (List Token)
  bmap : Store (BitVec 16)
  staged : List (Nat × BitVec 16)
  /-- POSTs held for want of room in a FIFO or the staging (R253, R262). -/
  heldPosts : List Post
  pend : List Pend
  gran : List Granule
  recvs : List Recv
  /-- Bytes that writes replaced in the schedule store: cycle, offset, old byte (R241). -/
  storeLog : List (Int × Nat × Byte)
  /-- Instructions issued, which orders results. -/
  seq : Nat
  deriving DecidableEq, Repr

/-- A tile that runs nothing. -/
def Tile.init : Tile :=
  { part := none, sx := Stream.init, sf := Stream.init, sm := Stream.init, y := [], accA := [], accB := [],
    ftz := false, wins := [], arrival := [], visible := [], arrPosted := 0, visPosted := 0, fifos := [], bmap := [],
    staged := [], heldPosts := [], pend := [], gran := [], recvs := [], storeLog := [], seq := 0 }

/-- A flit that arrives at a tile (09 R264). -/
structure Flit where
  tile : Nat
  /-- The direction that it arrives from. -/
  dir : Nat
  cyc : Int
  data : List Byte
  /-- For a flit that departs from the tile to another package: its timed slot, plus 4 for a multicast copy (03 R65). -/
  away : Option Nat
  deriving DecidableEq, Repr

/-- What a check point decided about the instruction that issues at a schedule cycle (09 R248, R251). -/
inductive Decision where
  | tkw (fifo : Nat)
  | push (fifo : Nat)
  | brc (run : Bool)
  | hbm (off : Nat) (pas : List (Nat × Nat × List (Option Nat × Nat))) (lat : Latch)
  | vlt (slot : Nat) (l : Latch)
  | wut
  | wcl (wid : Nat)
  deriving DecidableEq, Repr

/-- A decision, with the issue it is for. -/
structure Decided where
  cyc : Int
  tile : Nat
  st : StreamId
  spc : Nat
  dec : Decision
  deriving DecidableEq, Repr

/-- The causes of a freeze (09 R249). -/
inductive Cause where
  | tkw (tile fifo : Nat)
  | stall (tile wid : Nat)
  | wut (target : Word)
  | hbm (stack : Nat)
  | throttle (cycles : Nat)
  | preempt
  | fault
  | sideband
  deriving DecidableEq, Repr

/-- A freeze decided for a schedule cycle: its cause, and the plane cycle of its end once known (09 R249, R250). -/
structure Freeze where
  cyc : Int
  cause : Cause
  ends : Option Nat
  deriving DecidableEq, Repr

/-- A partition fault waiting to take effect, or taken (09 R251; 05 R135). -/
structure PFault where
  cyc : Int
  code : Nat
  tile : Option Nat
  st : Option StreamId
  eval : Word
  detail : List Byte
  deriving DecidableEq, Repr

/-- The states of a partition, as PCTL reports them (05 R136). -/
inductive PState where
  | free
  | loading
  | running
  | frozen
  | faulted
  | preempted
  deriving DecidableEq, Repr

/-- What a partition's check point looks at as it stood at a schedule cycle: the cycle, its plane cycle, the latches, and the
tiles (09 R248). -/
structure PastPoint where
  scyc : Int
  cyc : Nat
  latches : List Latch
  tiles : List (Nat × Tile)
  /-- PTIME as WUT compares it, the vintage sets of the latch slots, and the decisions for issues still to come. -/
  time : Nat
  vsets : List VSet
  decided : List Decided
  deriving DecidableEq, Repr

/-- A partition and the schedule it runs (09; 05 R105 to R107). -/
structure Partition where
  st : PState
  job : Nat
  launch : Nat
  /-- Partition number while it holds one, and the one that a load took from it while it was pre-empted (R105). -/
  num : Option Nat
  oldNum : Option Nat
  /-- The number in the side-band flits of a spanning partition: its anchor's at the load (03 R67). -/
  flitId : Nat
  /-- For a spanning partition: the other packages that hold parts whose end they have not reported, and whether this package
  has reported its own (09 R246, R270). -/
  peers : List (Nat × Nat)
  reported : Bool
  /-- The claim by which a spanning partition's packages know it: its anchor's number for the launch (09 R270; log entry 156). -/
  claimNo : Nat
  span : Bool
  /-- Package-grid origin and size in blocks; for a spanning partition in pod-blocks (R270). -/
  ox : Nat
  oy : Nat
  w : Nat
  h : Nat
  /-- This package's tiles of it. -/
  tiles : List Nat
  /-- Freeze lead L (03 R69). -/
  lead : Nat
  fb : Nat
  flen : Nat
  storeOff : Nat
  storeLen : Nat
  ratio : List Nat
  ts : Nat
  scyc : Int
  /-- The start PTIME that its load states (R247). -/
  startPtime : Word
  /-- Plane cycle of SCYC 0, once fixed (R247). -/
  startAt : Nat
  started : Bool
  frozen : Bool
  frozenAt : Nat
  /-- Plane cycle from which a STALL freeze counts its timeout (09 R257; 05 R135). -/
  stallFrom : Nat
  freezes : List Freeze
  faults : List PFault
  lastFault : Nat
  /-- A fault that it has taken permits no CONTINUE (05 R135). -/
  stuck : Bool
  decided : List Decided
  freezeCycles : Nat
  /-- Pre-emption offset (05 R126) and the PTIME at which the present stop began. -/
  offset : Word
  stoppedAt : Word
  /-- Plane cycle at which a pre-emption freeze took effect (05 R123). -/
  stopCyc : Nat
  /-- On a package other than the anchor: the anchor's PTIME as last sampled, less its offset, and the plane cycle of the
  sample (03 R74). -/
  sample : Option (Nat × Nat)
  /-- The tiles as they stood at the latest check points, for issues that could not be foreseen then (09 R248). -/
  past : List PastPoint
  /-- HBM requests that the claimed slots of a turn of the wheels serve: turn, requests (06 R153, R154; 09 R263). -/
  slotUse : List (Nat × Nat)
  sets : List Nat
  latches : List Latch
  winDefs : List WinDef
  defaults : List Word
  crossing : List (Nat × Nat × Nat × Nat)
  seed : Word
  flits : List Flit
  /-- Outgoing link uses: tile, direction, schedule cycle. -/
  links : List (Nat × Nat × Int)
  saved : Store Tile
  /-- Bytes held in place on a tile: tile, first offset, end; and bytes saved out of it. -/
  heldBytes : List (Nat × Nat × Nat)
  savedBytes : List (Nat × Nat × List Byte)
  savedCount : Nat
  hostHold : Bool
  deadlineHold : Bool
  keptPosts : List Post
  /-- Accesses held for a suspended window (05 R124, R125): threads whose oldest buffered store waits, transfers that wait
  by engine and number, packets with their kind (0 write, 1 read, 2 fetch-add, 3 add), KIND 3 actions by counter and address. -/
  heldStores : List Nat
  heldEngines : List (Nat × Nat)
  heldPackets : List (Nat × Packet)
  heldIncs : List (Nat × Nat)
  /-- Whether it has written HBM, which its window openings then release (07 R201). -/
  wroteHbm : Bool
  /-- Largest granule count less one of its HBM instructions (05 R122). -/
  maxGran : Nat
  cmd : Option (Nat × Nat)
  /-- Its place in the order of acceptance (05 R117, R121), and PREEMPT or RESUME commands that wait on it. -/
  accepted : Nat
  pcmds : List (Nat × Nat)
  deriving DecidableEq, Repr

/-- No partition. -/
def Partition.init : Partition :=
  { st := .free, job := 0, launch := 0, num := none, oldNum := none, flitId := 0, peers := [], reported := false, claimNo := 0,
    span := false, ox := 0, oy := 0, w := 0, h := 0, tiles := [],
    lead := 16, fb := 0, flen := 0, storeOff := 0, storeLen := 0, ratio := [40, 16, 4, 4], ts := 0, scyc := 0,
    startPtime := 0, startAt := 0, started := false, frozen := false, frozenAt := 0, stallFrom := 0, freezes := [],
    faults := [], lastFault := 0, stuck := false, decided := [], freezeCycles := 0, offset := 0, stoppedAt := 0,
    stopCyc := 0, sample := none, past := [], slotUse := [], sets := [], latches := [], winDefs := [],
    defaults := [], crossing := [], seed := 0, flits := [], links := [], saved := [], heldBytes := [],
    savedBytes := [], savedCount := 0, hostHold := false, deadlineHold := false, keptPosts := [],
    heldStores := [], heldEngines := [], heldPackets := [], heldIncs := [], wroteHbm := false, maxGran := 0, cmd := none, accepted := 0, pcmds := [] }

/-- What PCTL of a free partition number still shows: owner, last fault code and freeze cycles of the schedule that ended
there last (05 R136; 15 R471). -/
structure LastSchedule where
  job : Nat
  fault : Nat
  freeze : Nat
  deriving DecidableEq, Repr

/-- The five power states (02 R35). -/
inductive PowerState where
  | active
  | capped
  | idle
  | retention
  | off
  deriving DecidableEq, Repr

/-- Power, throttling and temperature (02 R32, R35 to R38). -/
structure Power where
  st : PowerState
  cap : Nat
  duty : Nat
  therm : Bool
  /-- Dies held at duty 12 by their temperature. -/
  hot : List Nat
  /-- Power measured at each 100 µs, newest first, at most 100 (R36). -/
  samples : List Nat
  /-- Plane cycle at which the present 256-cycle interval began, and its duty. -/
  interval : Nat
  intervalDuty : Nat
  rails : Store Bool
  tripOut : Bool
  /-- A margin-exhausted package refuses launches until the next start (R41). -/
  exhausted : Bool
  /-- Entry to retention has been ordered (R39; 04 R87). -/
  toRetention : Bool
  deriving DecidableEq, Repr

/-- What STARTSTAT keeps (02 R47 to R49) and the start under way. -/
structure Starts where
  fails : Nat
  safe : Bool
  warm : Bool
  trainKept : Bool
  step : Nat
  /-- A start is under way or asked for: none, or whether it is to be warm. -/
  asked : Option Bool
  deriving DecidableEq, Repr

/-- Plane time and its pending corrections (02 R34; 03 R72, R73). -/
structure Clock where
  ptime : Word
  /-- Whole cycles still to correct, and plane cycle of the last correction step. -/
  corr : Int
  lastCorr : Nat
  /-- Corrections to apply at a PTIME: WHEN and the correction. -/
  corrAt : List (Word × Int)
  /-- Sixteenths of a cycle of phase still to shift, and plane cycle of the last phase step. -/
  phase : Int
  lastPhase : Nat
  lastExchange : Nat
  /-- Whether an exchange over the upstream port has given a correction since the pod was formed and that port last came up. -/
  exchanged : Bool
  deriving DecidableEq, Repr

/-- A tendril port (03 R64, R69, R70). -/
structure Tendril where
  up : Bool
  latency : Nat
  matched : Bool
  lockLost : Bool
  discarded : Nat
  /-- First plane cycle at which the port's side-band slots are free again (03 R65). -/
  slotFree : Nat
  deriving DecidableEq, Repr

/-- A tendril port at reset. -/
def Tendril.init : Tendril := { up := false, latency := 0, matched := false, lockLost := false, discarded := 0, slotFree := 0 }

/-- PODCFG's fields (03 R71) and the ports. -/
structure Pod where
  dxm : BitVec 3
  dym : BitVec 3
  dzm : BitVec 3
  px : BitVec 3
  py : BitVec 3
  pz : BitVec 3
  form : Bool
  tlat : BitVec 12
  locked : Bool
  ports : Store Tendril
  /-- Pod barrier arrivals reported by side-band: barrier id and count. -/
  bars : List (Nat × Nat)
  deriving DecidableEq, Repr

/-- PTPCTL and PTPSTAT (03 R76), with the estimates in a row within bounds. -/
structure Ptp where
  epoch : BitVec 48
  port : BitVec 3
  enable : Bool
  domain : BitVec 7
  offset : BitVec 32
  locked : Bool
  outbound : Bool
  stepped : Bool
  good : Nat
  deriving DecidableEq, Repr

/-- The security states (04 R100). -/
inductive SecState where
  | provisioning
  | secure
  | degraded
  deriving DecidableEq, Repr

/-- The debug states (04 R99). -/
inductive DebugState where
  | locked
  | jobDebug (job : Nat)
  | full
  deriving DecidableEq, Repr

/-- Security and debug state, and the image store (04 R93 to R100). -/
structure Security where
  st : SecState
  access : DebugState
  notAfter : Word
  mark : Bool
  lockBlown : Bool
  /-- Fused minimum SVN by KIND. -/
  minSvn : Store Nat
  /-- Images by KIND × 2 + slot, slot 0 for A. -/
  images : Store (List Byte)
  preferred : Store Nat
  /-- Slot that ran the present start, by KIND: 1 for slot A, 2 for B, 0 where none ran; and measurements of it. -/
  ran : Store Nat
  measured : Store (List Byte)
  deriving DecidableEq, Repr

/-- An Ethernet port (03 R50 to R52, R55): up, its addresses, the timestamp of its last PTP event message in 1/16 cycle,
discarded frames by kind, answers given. -/
structure EthPort where
  up : Bool
  mac : BitVec 48
  addr : BitVec 128
  stamp : Nat
  discV4 : Nat
  discType : Nat
  discService : Nat
  discSemantics : Nat
  answered : Nat
  deriving DecidableEq, Repr

/-- An Ethernet port at reset. -/
def EthPort.init : EthPort :=
  { up := false, mac := 0, addr := 0, stamp := 0, discV4 := 0, discType := 0, discService := 0, discSemantics := 0, answered := 0 }

/-- An HBM stack's link (02 R42, R46; 05 R130). -/
structure Stack where
  /-- Data rate in units of 0.1 Gb/s. -/
  rate : Nat
  /-- A rate asked for, and the plane cycle at which a deferral of it began. -/
  asked : Option Nat
  deferred : Option Nat
  retraining : Bool
  /-- Accesses to it are disturbed slots until this plane cycle. -/
  disturbed : Nat
  corrected : Nat
  deriving DecidableEq, Repr

/-- A stack at reset: 12.8 Gb/s (01 R19). -/
def Stack.init : Stack :=
  { rate := 128, asked := none, deferred := none, retraining := false, disturbed := 0, corrected := 0 }

/-- What the Tadpole logs (02, 03, 04, 05). -/
inductive LogKind where
  | startFailed
  | marginPlan
  | marginExhausted
  | scrubUncorrectable
  | scrubLag
  | portDown
  | podMismatch
  | pdcWait
  | completionFailed
  | deadlineMiss
  | recordsLost
  | linkDown
  deriving DecidableEq, Repr

/-- An entry of the event log. -/
structure LogEntry where
  kind : LogKind
  a : Nat
  b : Nat
  time : Word
  deriving DecidableEq, Repr

/-- A margin plan logged (02 R40): die, lowest margin and guard bands in 5 mV steps. -/
structure PlanEntry where
  time : Word
  die : Nat
  low : Nat
  bands : List Nat
  deriving DecidableEq, Repr

/-- The package outside its positions (02, 03, 04). -/
structure Package where
  power : Power
  starts : Starts
  clock : Clock
  pod : Pod
  ptp : Ptp
  sec : Security
  eth : Store EthPort
  hbm : Store Stack
  /-- Guard bands in 5 mV steps by die × 2 + domain. -/
  bands : Store Nat
  lastPlan : Word
  plans : List PlanEntry
  events : List LogEntry
  queues : Store (Option AhQueue)
  pendCmds : List PendCmd
  /-- Commands held in retention (04 R101): queue and slot. -/
  heldCmds : List (Nat × Nat)
  /-- Corrected errors by die (02 R42). -/
  corrected : Store Nat
  /-- The last reading of each path-delay monitor in picoseconds, die × 64 + monitor (02 R40). -/
  monitors : Store Nat
  /-- Hours of a pass of the patrol scrubber, and the sector that it reads next (02 R44). -/
  scrubHours : Nat
  scrubNext : Nat
  /-- Activations of each HBM row since its last back-off, bank × 32,768 + row (02 R46). -/
  rowActs : Store Nat
  /-- Packets that failed TSS authentication here, discarded (03 R63). -/
  tssDiscards : Nat
  /-- Records about counters that firmware owns (06 R494). -/
  fwRecords : List (List Byte)
  deriving DecidableEq, Repr

/-- One act that the machine performs in a step: an issue of a thread slot, an issue of a stream, an event of the part, the
MEMORY_UE of a store of thread `thr` that met an uncorrectable error after it had left the core (12 R358), or what a core does with
the cycle of its slot where that is spare, `tried` where the slot's thread was to issue in it (10 R275). -/
inductive Act where
  | issue (core slot : Nat)
  | stream (tile : Nat) (st : StreamId)
  | event (i : Instr) (a : Arg)
  | storeUe (thr : Nat) (va : Word)
  | spare (core : Nat) (tried : Bool)
  deriving DecidableEq, Repr

/-- The state of one package. -/
structure State where
  /-- Plane cycles since the last cold start. -/
  cyc : Nat
  /-- Plane cycle at which the cores powered up; the rotation count of every core runs from it (10 R274). -/
  powerUp : Nat
  /-- Acts that are still to be performed in the present cycle; the model's own (log entry 3). -/
  agenda : List Act
  /-- Thread whose instruction is executed: core × 16 + slot. -/
  cur : Nat
  /-- Tile and stream whose instruction is executed. -/
  curTile : Nat
  curSt : StreamId
  /-- Operands of the event that is performed (log entry 3). -/
  arg : Arg
  /-- Free values drawn so far; the model's own (log entry 5). -/
  free : Nat
  /-- Bytes by physical address (06 R137): HBM, tile SRAM, local stores. -/
  mem : Store Byte
  /-- Full/empty bits by local-store word, core × 16,384 + word (R148). -/
  fulls : Store Bool
  /-- ECC granules with an uncorrectable error, by first byte's address (02 R42, R43). -/
  ue : Store Bool
  /-- Scope tags of written bytes (07 R189). -/
  wtags : Store WTag
  threads : Store Thread
  cores : Store Core
  quadTlb : Store (List Leaf)
  walks : Store (List WalkReq)
  banks : Store Bank
  engines : Store Engine
  counters : Store Counter
  vsets : Store VSet
  pageTags : Store PageTag
  jobs : Store Job
  kernels : Store Kernel
  launches : List Launch
  launchSeq : Nat
  /-- Launch-port stores whose descriptor or image the cellarmaster cannot read yet, for a page that migrates: job and
  address (05 R114; 06 R156). -/
  submits : List (Nat × Word)
  /-- Launches completed, by job × 2^32 + launch id (05 R116). -/
  completed : Store Bool
  msgs : List Msg
  /-- Messages and replies sent so far, which orders them. -/
  msgSeq : Nat
  replies : List Reply
  spawns : List SpawnReq
  posts : List Post
  gateQueue : List GateReq
  gateLogs : Store GateLog
  /-- Page-table pool pages in use: table address to job (R493). -/
  pool : Store (Option Nat)
  ptroot : Store Nat
  iltab : Word
  jobOpened : Bool
  episodes : List Episode
  remotes : List RemoteOp
  remoteSeq : Nat
  /-- Connections of peers and hosts to this target (03 R53, R61). -/
  rx : Store RxConn
  pdcs : List Pdc
  pdcSeq : Nat
  /-- Bytes of the peer tables and host peer entries by physical address (03 R56). -/
  peers : Store Byte
  outbox : List OutPkt
  /-- The host's memory as the package has written it, and read it (04 R85). -/
  hostMem : Store Byte
  migrations : List Migration
  parts : Store Partition
  /-- Schedules that ended, by partition number (05 R136). -/
  lastPctl : Store (Option LastSchedule)
  tiles : Store Tile
  ratio : List Nat
  hangMs : Nat
  pkg : Package
  deriving DecidableEq, Repr

/-- Faults of a step. The set is closed and no meaning raises one: every cause that the spec names is taken as a trap,
a record or a status, in a next state. -/
inductive Fault where
  /-- Raised by nobody. Safe. -/
  | noSuchAddress
  deriving DecidableEq, Repr

/-- Refusals of a step. -/
inductive Refusal where
  /-- Raised by an arm of exec that has no meaning yet. Safe: nothing is claimed of it. -/
  | notModelled (mnemonic : String)
  /-- Raised by step for a stream whose bytes at its program counter are no instruction: the load has refused every
  image in which this could arise (11 R326), so it is safe. -/
  | badStream
  deriving DecidableEq, Repr

/-- The package right after a cold start: the register values of 02 R37, 03 R71, R76 and 04 R79; what the spec gives no
value for is named in log entry 1. The fields that STARTSTAT keeps (02 R48: FAILS, SAFE, WARM, TRAINKEPT, STEP) have no
value before the first start; DESIGN CHOICE: 0 (log entry 138). -/
def Package.reset : Package :=
  { power :=
      { st := .active, cap := 0xBB8, duty := 0, therm := false, hot := [], samples := [], interval := 0,
        intervalDuty := 0, rails := (List.range 12).map (fun i => (i, true)), tripOut := false, exhausted := false,
        toRetention := false },
    starts := { fails := 0, safe := false, warm := false, trainKept := false, step := 0, asked := some false },
    clock :=
      { ptime := 0, corr := 0, lastCorr := 0, corrAt := [], phase := 0, lastPhase := 0, lastExchange := 0,
        exchanged := false },
    pod :=
      { dxm := 0, dym := 0, dzm := 0, px := 0, py := 0, pz := 0, form := false, tlat := 0x0C0, locked := false,
        ports := [], bars := [] },
    ptp :=
      { epoch := 0, port := 0, enable := false, domain := 0, offset := 0, locked := false, outbound := false,
        stepped := false, good := 0 },
    sec :=
      { st := .secure, access := .locked, notAfter := 0, mark := false, lockBlown := true, minSvn := [], images := [],
        preferred := [], ran := [], measured := [] },
    eth := [], hbm := [], bands := [], lastPlan := 0, plans := [], events := [], queues := [], pendCmds := [],
    heldCmds := [], corrected := [], monitors := [], scrubHours := 24, scrubNext := 0, rowActs := [], tssDiscards := 0,
    fwRecords := [] }

/-- The machine right after a reset and its cold start (02 R34, R47; log entries 1 to 4). Nothing is open, loaded or
listed in memory. -/
def State.reset : State :=
  { cyc := 0, powerUp := 0, agenda := [], cur := 0, curTile := 0, curSt := .x, arg := Arg.init, free := 0, mem := [], fulls := [],
    ue := [], wtags := [], threads := [], cores := [], quadTlb := [], walks := [], banks := [], engines := [],
    counters := [], vsets := [], pageTags := [], jobs := [], kernels := [], launches := [], launchSeq := 0, submits := [],
    completed := [], msgs := [], msgSeq := 0, replies := [], spawns := [], posts := [], gateQueue := [], gateLogs := [],
    pool := [], ptroot := [], iltab := 0, jobOpened := false, episodes := [], remotes := [], remoteSeq := 0, rx := [],
    pdcs := [], pdcSeq := 0, peers := [], outbox := [], hostMem := [], migrations := [], parts := [], lastPctl := [], tiles := [],
    ratio := [40, 16, 4, 4], hangMs := 10000, pkg := Package.reset }

end Sys2Proof.Machine
end

