-- ==== Sys2Proof/Machine/Ops.lean ====
section
/-! DEFINITION. The named operations over registers, threads, memory, homes and translation, and taking a trap. -/

namespace Sys2Proof.Machine

open Sys2Proof

/-! ## Causes -/

/-- Trap causes of 05 R133. -/
def cIllegal : Nat := 0x01
/-- PRIV (05 R133). -/
def cPriv : Nat := 0x02
/-- MISALIGN (05 R133). -/
def cMisalign : Nat := 0x03
/-- XLATE (05 R133). -/
def cXlate : Nat := 0x04
/-- PROT (05 R133). -/
def cProt : Nat := 0x05
/-- WINDOW (05 R133). -/
def cWindow : Nat := 0x06
/-- VINTAGE (05 R133). -/
def cVintage : Nat := 0x07
/-- REGION_ABORT: the ninth name of the list 0x01 to 0x08, 0x0A to 0x0D (05 R133). -/
def cRegionAbort : Nat := 0x0A
/-- HANDLER_EMPTY (05 R133). -/
def cHandlerEmpty : Nat := 0x09
/-- FP (05 R133). -/
def cFp : Nat := 0x0B
/-- STREAM_EXHAUSTED (05 R133). -/
def cStreamExhausted : Nat := 0x0C
/-- DIVERGE (05 R133). -/
def cDiverge : Nat := 0x0D
/-- ULLAGE_OVER (05 R133). -/
def cUllageOver : Nat := 0x0E
/-- BAU_ERROR (05 R133). -/
def cBauError : Nat := 0x0F
/-- MEMORY_UE (05 R133). -/
def cMemoryUe : Nat := 0x10
/-- HANG (05 R133). -/
def cHang : Nat := 0x11
/-- PREEMPT (05 R133). -/
def cPreempt : Nat := 0x12
/-- BREAK (05 R133). -/
def cBreak : Nat := 0x13
/-- SYSCALL (05 R133). -/
def cSyscall : Nat := 0x14
/-- ALLOC_FAIL (05 R133). -/
def cAllocFail : Nat := 0x15
/-- RESERVE (05 R133). -/
def cReserve : Nat := 0x16
/-- REMOTE (05 R133). -/
def cRemote : Nat := 0x17
/-- WINDOW_LATE (05 R133). -/
def cWindowLate : Nat := 0x18

/-! ## Positions, homes and scopes -/

/-- Die of a position id (01 R12). -/
def dieOf (p : Nat) : Nat := p / 256 % 4

/-- Local x of a position id (01 R12). -/
def locX (p : Nat) : Nat := p % 16

/-- Local y of a position id (01 R12). -/
def locY (p : Nat) : Nat := p / 16 % 16

/-- Global X of a position (01 R11). -/
def gridX (p : Nat) : Nat := locX p + 16 * (dieOf p % 2)

/-- Global Y of a position (01 R11). -/
def gridY (p : Nat) : Nat := locY p + 16 * (dieOf p / 2)

/-- Position id at global X, Y (01 R11, R12). -/
def posAt (x y : Nat) : Nat := (y / 16 * 2 + x / 16) * 256 + y % 16 * 16 + x % 16

/-- Quad number of a position (01 R13). -/
def quadOf (p : Nat) : Nat := dieOf p * 64 + locY p / 2 * 8 + locX p / 2

/-- Block of a position (01 R14). -/
def blockOf (p : Nat) : Nat := gridY p / 8 * 4 + gridX p / 8

/-- Base of HBM, tile SRAM, local stores and the full/empty view (06 R137). -/
def tileBase : Nat := 0x80_0000_0000
/-- Size of a tile's SRAM (06 R137). -/
def tileSize : Nat := 0x6_0000
/-- Base of the local stores (06 R137). -/
def localBase : Nat := 0x81_0000_0000
/-- Size of a local store (06 R137). -/
def localSize : Nat := 0x2_0000
/-- Base of the full/empty view (06 R137). -/
def feBase : Nat := 0x81_0800_0000

/-- The kinds of storage of the physical map (06 R137). -/
inductive Space where
  | hbm
  | tile (t off : Nat)
  | loc (c off : Nat)
  | fe (c off : Nat)
  | mmio
  | hole
  deriving DecidableEq, Repr

/-- The MMIO sub-ranges of 06 R137: first and last address. -/
def mmioRanges : List (Nat × Nat) :=
  [(0xFE_0000_0000, 0xFE_000F_FFFF), (0xFE_0800_0000, 0xFE_0BFF_FFFF), (0xFE_1000_0000, 0xFE_1000_FFFF),
   (0xFE_2000_0000, 0xFE_2000_0007), (0xFE_3000_0000, 0xFE_3000_FFFF), (0xFE_4000_0000, 0xFE_4000_FFFF),
   (0xFE_5000_0000, 0xFE_5001_FFFF), (0xFE_6000_0000, 0xFE_6000_07FF), (0xFE_D000_0000, 0xFE_D001_0107),
   (0xFE_E000_0000, 0xFE_E200_007F), (0xFE_F000_0000, 0xFE_F000_02FF)]

/-- Where a physical address lies (06 R137, R138). -/
def spaceOf (pa : Nat) : Space :=
  if pa < 0x80_0000_0000 then .hbm
  else if pa < 0x80_1800_0000 then .tile ((pa - tileBase) / tileSize) ((pa - tileBase) % tileSize)
  else if pa < localBase then .hole
  else if pa < feBase then .loc ((pa - localBase) / localSize) ((pa - localBase) % localSize)
  else if pa < 0x81_1000_0000 then .fe ((pa - feBase) / localSize) ((pa - feBase) % localSize)
  else if mmioRanges.any (fun r => r.1 ≤ pa && pa ≤ r.2) then .mmio
  else .hole

/-- Physical address of a tile-SRAM offset (06 R137). -/
def tilePa (t off : Nat) : Nat := tileBase + t * tileSize + off

/-- Physical address of a local-store offset (06 R137). -/
def localPa (c off : Nat) : Nat := localBase + c * localSize + off

/-- Stack and stack offset of an HBM address under a placement table (06 R141). -/
def hbmPlace (iltab : Word) (p : Nat) : Nat × Nat :=
  let g := p / 2 ^ 33 % 64
  let q := p % 2 ^ 33
  if bit iltab.toNat g then (q / 2 ^ 30, g * 2 ^ 30 + q % 2 ^ 30)
  else (q / 256 % 8, g * 2 ^ 30 + q / 2 ^ 11 * 256 + q % 256)

/-- Stack of an HBM address (06 R141). -/
def stackOf (iltab : Word) (p : Nat) : Nat := (hbmPlace iltab p).1

/-- Pseudo-channel of an HBM address (06 R141). -/
def pcOf (iltab : Word) (p : Nat) : Nat := (hbmPlace iltab p).2 / 256 % 64

/-- Bank number of an HBM address (06 R141). -/
def bankOf (iltab : Word) (p : Nat) : Nat :=
  stackOf iltab p * 2048 + pcOf iltab p * 32 + (hbmPlace iltab p).2 / 2 ^ 14 % 32

/-- Home number h of an address: 10 R299's numbers, and 4,096 and above for an MMIO register's own home. -/
def homeOf (iltab : Word) (pa : Nat) : Nat :=
  match spaceOf pa with
  | .hbm => stackOf iltab pa * 64 + pcOf iltab pa
  | .loc c _ => 512 + c
  | .fe c _ => 512 + c
  | .tile t _ => 1536 + t
  | .mmio => 4096 + pa / 8
  | .hole => 4096 + pa / 8

/-- The smallest scope that contains an address's home (01 R26, R28; 07 R178). -/
def placeOf (iltab : Word) (pa : Nat) : Place :=
  match spaceOf pa with
  | .hbm => .die (stackOf iltab pa / 2)
  | .loc c _ => .core c
  | .fe c _ => .core c
  | .tile t _ => .quad (quadOf t)
  | .mmio => .pkg
  | .hole => .pkg

/-- Die of a place, where it lies on one. -/
def Place.dieNo : Place → Option Nat
  | .core c => some (dieOf c)
  | .quad q => some (q / 64)
  | .die d => some d
  | .pkg => none
  | .nowhere => none

/-- Quad of a place, where it lies in one. -/
def Place.quadNo : Place → Option Nat
  | .core c => some (quadOf c)
  | .quad q => some q
  | .die _ => none
  | .pkg => none
  | .nowhere => none

/-- Core of a place, where it is one. -/
def Place.coreNo : Place → Option Nat
  | .core c => some c
  | .quad _ => none
  | .die _ => none
  | .pkg => none
  | .nowhere => none

/-- Order of the main scopes (01 R27). -/
def Scope.rank : Scope → Nat
  | .core => 0
  | .quad => 1
  | .die => 2
  | .pkg => 3
  | .pod => 4

/-- The wider of two scopes (01 R27). -/
def Scope.max (a b : Scope) : Scope := if a.rank ≤ b.rank then b else a

/-- Whether a scope is at least as wide as another (01 R27). -/
def Scope.atLeast (a b : Scope) : Bool := b.rank ≤ a.rank

/-- The smallest main scope that contains two places (01 R28). -/
def joinScope (a b : Place) : Scope :=
  if a = .nowhere ∨ b = .nowhere then .core
  else if a.coreNo.isSome && a.coreNo == b.coreNo then .core
  else if a.quadNo.isSome && a.quadNo == b.quadNo then .quad
  else if a.dieNo.isSome && a.dieNo == b.dieNo then .die
  else .pkg

/-- The scope of a 3-bit code (11 R319). -/
def scopeOfCode (c : Nat) : Scope :=
  match c with
  | 0 => .core
  | 1 => .quad
  | 2 => .die
  | 3 => .pkg
  | _ => .pod

/-! ## Threads and registers -/

/-- Thread of a slot: core × 16 + slot. -/
def State.thread (s : State) (t : Nat) : Thread := Store.get Thread.init t s.threads

/-- The state with a slot's thread replaced. -/
def State.setThread (s : State) (t : Nat) (x : Thread) : State :=
  { s with threads := Store.put Thread.init t x s.threads }

/-- The thread whose instruction is executed. -/
def State.th (s : State) : Thread := s.thread s.cur

/-- The state with the executing thread replaced. -/
def State.setTh (s : State) (x : Thread) : State := s.setThread s.cur x

/-- Core of a thread. -/
def coreOf (t : Nat) : Nat := t / 16

/-- Slot of a thread. -/
def slotOf (t : Nat) : Nat := t % 16

/-- Where a thread lies among the scopes (01 R28). -/
def threadPlace (t : Nat) : Place := .core (coreOf t)

/-- g(n): a general register, g0 read as zero (11 R314; 12 R336). -/
def Thread.gr (x : Thread) (n : Nat) : Word := if n = 0 then 0 else Store.get 0 n x.g

/-- setg(n, v): a write to g0 is discarded (11 R314; 12 R336). -/
def Thread.setGr (x : Thread) (n : Nat) (v : Word) : Thread :=
  if n = 0 then x else { x with g := Store.put 0 n v x.g }

/-- g(n) of the executing thread. -/
def State.g (s : State) (n : BitVec 5) : Word := s.th.gr n.toNat

/-- setg(n, v) of the executing thread. -/
def State.setG (s : State) (n : BitVec 5) (v : Word) : State := s.setTh (s.th.setGr n.toNat v)

/-- Lane `l` of vN (10; 11 R320). -/
def Thread.lane (x : Thread) (v l : Nat) : Word := Store.get 0 (v * 8 + l) x.v

/-- Lane `l` of vN replaced. -/
def Thread.setLane (x : Thread) (v l : Nat) (w : Word) : Thread := { x with v := Store.put 0 (v * 8 + l) w x.v }

/-- The eight lanes of vN. -/
def Thread.vreg (x : Thread) (v : Nat) : List Word := (List.range 8).map (fun l => x.lane v l)

/-- vN set to eight lanes. -/
def Thread.setVreg (x : Thread) (v : Nat) (l : List Word) : Thread :=
  (indexed l).foldl (fun y p => y.setLane v p.1 p.2) x

/-- Registers `n` upward of a list set in order. -/
def Thread.setGrs (x : Thread) (n : Nat) (l : List Word) : Thread :=
  (indexed l).foldl (fun y p => y.setGr (n + p.1) p.2) x

/-- A core's state. -/
def State.core (s : State) (c : Nat) : Core := Store.get Core.init c s.cores

/-- The state with a core replaced. -/
def State.setCore (s : State) (c : Nat) (x : Core) : State := { s with cores := Store.put Core.init c x s.cores }

/-- A job's state. -/
def State.job (s : State) (j : Nat) : Job := Store.get Job.init j s.jobs

/-- The state with a job replaced. -/
def State.setJob (s : State) (j : Nat) (x : Job) : State := { s with jobs := Store.put Job.init j x s.jobs }

/-- Key of a kernel, a launch or a partition: job × 2^32 + launch id (05 R115). -/
def unitKey (job id : Nat) : Nat := job * 2 ^ 32 + id

/-- A kernel's state. -/
def State.kernel (s : State) (job kid : Nat) : Kernel := Store.get Kernel.init (unitKey job kid) s.kernels

/-- The state with a kernel replaced. -/
def State.setKernel (s : State) (job kid : Nat) (x : Kernel) : State :=
  { s with kernels := Store.put Kernel.init (unitKey job kid) x s.kernels }

/-- A tile's state. -/
def State.tile (s : State) (t : Nat) : Tile := Store.get Tile.init t s.tiles

/-- The state with a tile replaced. -/
def State.setTile (s : State) (t : Nat) (x : Tile) : State := { s with tiles := Store.put Tile.init t x s.tiles }

/-- A partition's state, by its key. -/
def State.part (s : State) (p : Nat) : Partition := Store.get Partition.init p s.parts

/-- The state with a partition replaced. -/
def State.setPart (s : State) (p : Nat) (x : Partition) : State :=
  { s with parts := Store.put Partition.init p x s.parts }

/-- A counter. -/
def State.counter (s : State) (n : Nat) : Counter := Store.get Counter.init n s.counters

/-- The state with a counter replaced. -/
def State.setCounter (s : State) (n : Nat) (x : Counter) : State :=
  { s with counters := Store.put Counter.init n x s.counters }

/-- A vintage set. -/
def State.vset (s : State) (v : Nat) : VSet := Store.get VSet.init v s.vsets

/-- The state with a vintage set replaced. -/
def State.setVset (s : State) (v : Nat) (x : VSet) : State := { s with vsets := Store.put VSet.init v x s.vsets }

/-- A copy engine. -/
def State.engine (s : State) (e : Nat) : Engine := Store.get Engine.init e s.engines

/-- The state with a copy engine replaced. -/
def State.setEngine (s : State) (e : Nat) (x : Engine) : State :=
  { s with engines := Store.put Engine.init e x s.engines }

/-- The key of a thread by its job and logical id, which it keeps through a pre-emption; never 0. -/
def threadKey (job : Nat) (tid : BitVec 14) : Nat := 2 ^ 20 + job * 2 ^ 14 + tid.toNat

/-- A bank. -/
def State.bank (s : State) (b : Nat) : Bank := Store.get Bank.init b s.banks

/-- The state with a bank replaced. -/
def State.setBank (s : State) (b : Nat) (x : Bank) : State := { s with banks := Store.put Bank.init b x s.banks }

/-- An event put first on the agenda: it is performed next. -/
def State.push (s : State) (i : Instr) (a : Arg) : State := { s with agenda := .event i a :: s.agenda }

/-- The next free value (log entry 5). -/
def State.freeVal (s : State) : Word := Config.freeWord s.free

/-- The state after a free value or choice has been drawn. -/
def State.drawn (s : State) : State := { s with free := s.free + 1 }

/-- The next free choice among `k` (log entry 5). -/
def State.choice (s : State) (k : Nat) : Nat := Config.freeChoice s.free % k

/-- Whether a job's units may issue (05 R102). -/
def State.jobRuns (s : State) (j : Nat) : Bool := (s.job j).st == .opened

/-- The rotation count of the cores (10 R274). -/
def State.rotation (s : State) : Nat := s.cyc - s.powerUp

/-- PTIME (02 R34). -/
def State.ptime (s : State) : Word := s.pkg.clock.ptime

/-- The state with its package part replaced. -/
def State.setPkg (s : State) (x : Package) : State := { s with pkg := x }

/-- An entry added to the event log. -/
def State.logEvent (s : State) (k : LogKind) (a b : Nat) : State :=
  s.setPkg { s.pkg with events := s.pkg.events ++ [{ kind := k, a := a, b := b, time := s.ptime }] }

/-- The keys of the slots that hold threads. -/
def State.liveThreads (s : State) : List Nat := (s.threads.filter (fun p => p.2.live)).map (·.1)

/-- The threads of a kernel. -/
def State.kernelThreads (s : State) (job kid : Nat) : List Nat :=
  (s.threads.filter (fun p => p.2.live && p.2.job == job && p.2.kid == kid)).map (·.1)

/-- The threads of a job. -/
def State.jobThreads (s : State) (job : Nat) : List Nat :=
  (s.threads.filter (fun p => p.2.live && p.2.job == job)).map (·.1)

/-! ## Records for the supervisor and firmware (05 R104, R134) -/

/-- The 64 bytes of a record (05 R134). -/
def recordBytes (code src job id : Nat) (ptime eval loc : Word) (tile stream : Nat) (detail : List Byte) : List Byte :=
  bytesOf 1 code ++ bytesOf 1 src ++ bytesOf 2 job ++ bytesOf 4 id ++ wordBytes ptime ++ wordBytes eval ++
    wordBytes loc ++ bytesOf 2 tile ++ bytesOf 1 stream ++ bytesOf 1 0 ++ (detail ++ List.replicate 28 0).take 28

/-- The supervisor thread of a job (05 R104): logical thread 0 of its oldest running supervisor-level kernel. -/
def State.supervisor (s : State) (j : Nat) : Option Nat :=
  let ks := s.kernels.filter (fun p =>
    decide (p.1 / 2 ^ 32 = j) && p.2.level == .supervisor && p.2.st == .running && p.2.tid0.isSome)
  match ks with
  | [] => none
  | (key, k) :: _ =>
    (s.threads.find? (fun p =>
      p.2.live && p.2.job == j && decide (p.2.kid = key % 2 ^ 32) && some p.2.tid.toNat == k.tid0)).map (·.1)

/-- Source number of messages that the cellarmaster sends. -/
def srcMaster : Nat := 1024

/-- A record sent to a thread's core with handler index 63 (05 R134; 10 R284). -/
def recordMsg (j dst num : Nat) (bytes : List Byte) : Msg :=
  { src := srcMaster, slot := 0, dst := dst, hidx := 63, len := 64, payload := bytes, call := false, engine := false,
    sys := true, token := 0, tid := 0, job := j, tag := .pkg, num := num, quantum := 0, seq := 0, held := false }

/-- A record sent to a supervisor thread. -/
def State.postRecord (s : State) (j t : Nat) (bytes : List Byte) : State :=
  { s with msgs := s.msgs ++ [recordMsg j (coreOf t) s.msgSeq bytes], msgSeq := s.msgSeq + 1 }

/-- The records held for a job sent to its supervisor, where it has one, in the order in which they were raised (05 R104,
R134). -/
def State.deliverHeld (s : State) (j : Nat) : State :=
  match s.supervisor j, (s.job j).heldRecords with
  | none, _ => s
  | _, [] => s
  | some t, l => l.foldl (fun w b => w.postRecord j t b) (s.setJob j { s.job j with heldRecords := [] })

/-- A record for a job's supervisor: sent, after those held; or held up to 256, or counted as lost (05 R104, R134). -/
def State.sendRecord (s : State) (j : Nat) (bytes : List Byte) : State :=
  match s.supervisor j with
  | some t => (s.deliverHeld j).postRecord j t bytes
  | none =>
    if (s.job j).heldRecords.length < 256 then
      s.setJob j { s.job j with heldRecords := (s.job j).heldRecords ++ [bytes] }
    else s.setJob j { s.job j with lostRecords := (s.job j).lostRecords + 1 }

/-! ## Taking a trap and returning from one (05 R133; 10 R282) -/

/-- The trap handler entered: EPC, ECAUSE and EVAL written, INTRAP set, the pc at TVEC (10 R282). -/
def Thread.enterTrap (x : Thread) (cause : Nat) (eval epc : Word) : Thread :=
  { x with epc := epc, ecause := BitVec.ofNat 64 cause, eval := eval, intrap := true, pc := x.tvec,
           park := .running, region := none }

/-- A trap of the instruction at `loc` taken by a thread in its own slot, or forwarded to the supervisor when TVEC is 0
or INTRAP is 1; the thread then stays stopped (05 R133, R134; 10 R282). A recording is dropped (12 R365, R367). -/
def State.trapFrom (s : State) (t cause : Nat) (eval epc loc : Word) : State :=
  let x := s.thread t
  if x.tvec = 0 ∨ x.intrap = true then
    (s.setThread t { x with park := .stopped, region := none }).sendRecord x.job
      (recordBytes cause 0 x.job x.tid.toNat s.ptime eval loc 0xFFFF 0xFF [BitVec.ofNat 8 (b2n x.intrap)])
  else s.setThread t (x.enterTrap cause eval epc)

/-- A trap whose EPC is the address of the instruction. -/
def State.trapOf (s : State) (t cause : Nat) (eval epc : Word) : State := s.trapFrom t cause eval epc epc

/-- A trap of the executing thread with EPC at its instruction. -/
def State.trap (s : State) (cause : Nat) (eval : Word) : State := s.trapOf s.cur cause eval s.th.pc

/-- A trap whose EVAL the spec does not state: a free value (log entry 10). -/
def State.trapFree (s : State) (cause : Nat) : State := s.drawn.trap cause s.freeVal

/-- Return from a trap: INTRAP cleared, the pc at EPC (10 R282; 13 R418). -/
def Thread.leaveTrap (x : Thread) : Thread := { x with intrap := false, pc := x.epc }

end Sys2Proof.Machine
end

