-- ==== Sys2Proof/Machine/Mem.lean ====
section
/-! DEFINITION. Memory at its homes: bytes, errors, windows, counting, translation and the remote line cache. -/

namespace Sys2Proof.Machine

open Sys2Proof

/-! ## Bytes -/

/-- The byte at a physical address. -/
def State.byte (s : State) (pa : Nat) : Byte := Store.get 0 pa s.mem

/-- The `n` bytes from a physical address. -/
def State.bytes (s : State) (pa n : Nat) : List Byte := (List.range n).map (fun i => s.byte (pa + i))

/-- The value of `n` bytes at a physical address (00 R4). -/
def State.value (s : State) (pa n : Nat) : Nat := natOf (s.bytes pa n)

/-- A table with bytes put in from a key upward. -/
def putBytes (m : Store Byte) (pa : Nat) : List Byte → Store Byte
  | [] => m
  | b :: t => putBytes (Store.put 0 pa b m) (pa + 1) t

/-- Bytes of a table. -/
def getBytes (m : Store Byte) (pa n : Nat) : List Byte := (List.range n).map (fun i => Store.get 0 (pa + i) m)

/-- The state with bytes placed in memory, nothing else done. -/
def State.putMem (s : State) (pa : Nat) (b : List Byte) : State := { s with mem := putBytes s.mem pa b }

/-! ## Uncorrectable errors (02 R42, R43) -/

/-- First byte of the ECC granule of an address: 32 bytes in HBM, 8 elsewhere. -/
def granuleOf (pa : Nat) : Nat := if pa < tileBase then pa - pa % 32 else pa - pa % 8

/-- Whether a granule of a range holds an uncorrectable error. -/
def State.hasUe (s : State) (pa n : Nat) : Bool :=
  (List.range n).any (fun i => Store.get false (granuleOf (pa + i)) s.ue)

/-- Size of the granule of an address. -/
def granuleSize (pa : Nat) : Nat := if pa < tileBase then 32 else 8

/-- Whether a write of a range covers only part of a granule that holds an error (02 R43). -/
def State.partialUe (s : State) (pa n : Nat) : Bool :=
  (List.range n).any (fun i =>
    let g := granuleOf (pa + i)
    Store.get false g s.ue && !(decide (pa ≤ g) && decide (g + granuleSize g ≤ pa + n)))

/-- Whether a byte of a range lies in a granule that the range covers whole. -/
def coveredWhole (pa n a : Nat) : Bool := decide (pa ≤ granuleOf a) && decide (granuleOf a + granuleSize (granuleOf a) ≤ pa + n)

/-- Errors of the granules that a write covers whole cleared (02 R43). -/
def State.clearUe (s : State) (pa n : Nat) : State :=
  { s with ue := (List.range n).foldl (fun u i =>
      if coveredWhole pa n (pa + i) then Store.put false (granuleOf (pa + i)) false u else u) s.ue }

/-- Bytes placed in memory but for those in a granule that holds an error and that the range covers in part: such a granule
is left as it is (02 R43; log entry 169). -/
def State.putSound (s : State) (pa : Nat) (b : List Byte) : State :=
  (indexed b).foldl (fun (w : State) x =>
    if Store.get false (granuleOf (pa + x.1)) s.ue && !coveredWhole pa b.length (pa + x.1) then w
    else w.putMem (pa + x.1) [x.2]) s

/-! ## Vintage membership (06 R165, R167) -/

/-- The tag entry of an address's 2 MiB page. -/
def State.pageTag (s : State) (pa : Nat) : PageTag := Store.get PageTag.init (pa / 2 ^ 21) s.pageTags

/-- Whether an address lies in a vintage copy whose latch count is not zero (06 R167). -/
def State.latchedAt (s : State) (pa : Nat) : Bool :=
  if pa < tileBase then
    match (s.pageTag pa).member with
    | some (v, k) => decide (nth 0 (s.vset v).latch k ≠ 0)
    | none => false
  else false

/-! ## Racking windows, as cellar agents meet them (05 R124, R125; 07 R198; 09 R255) -/

/-- How a home answers an access. -/
inductive Ans where
  | ok
  | cause (c : Nat)
  | held (part : Nat)
  | moved
  deriving DecidableEq, Repr

/-- Whether a window covers a range of footprint offsets. -/
def Win.covers (w : Win) (off n : Nat) : Bool :=
  w.isOpen && decide (w.defn.off ≤ off) && decide (off + n ≤ w.defn.off + w.defn.len)

/-- The answer of the windows of a tile for one byte of the footprint: a write is accepted before the earliest check
point of the covering windows that grant write, a read before that of some covering window that grants read
(09 R255; log entry 11). -/
def winAnswer (wins : List Win) (off : Nat) (write : Bool) : Ans :=
  let ws := wins.filter (fun w => w.covers off 1 && (if write then w.defn.wr else w.defn.rd))
  if ws.isEmpty then .cause cWindow
  else if write then (if ws.any (·.passed) then .cause cWindowLate else .ok)
  else (if ws.all (·.passed) then .cause cWindowLate else .ok)

/-- Whether a partition is stopped by pre-emption. -/
def Partition.isPreempted (p : Partition) : Bool := p.st == .preempted

/-- A pre-empted partition that still holds a byte of a tile (05 R123, R125). -/
def State.holder (s : State) (t off : Nat) : Option Nat :=
  (s.parts.find? (fun p =>
    p.2.isPreempted && p.2.heldBytes.any (fun h => h.1 == t && decide (h.2.1 ≤ off) && decide (off < h.2.2)))).map (·.1)

/-- The answer for one byte of tile SRAM (05 R124, R125). -/
def State.tileByte (s : State) (t off job : Nat) (write : Bool) : Ans :=
  let run := (s.tile t).part
  let inRun := match run with
    | some p => decide ((s.part p).fb ≤ off) && decide (off < (s.part p).fb + (s.part p).flen)
    | none => false
  match run, inRun with
  | some p, true =>
    let a := winAnswer (s.tile t).wins (off - (s.part p).fb) write
    if (s.part p).job ≠ job then .cause cWindow
    else if (s.part p).isPreempted then (if a = .ok then .held p else .cause cWindow)
    else a
  | _, _ =>
    match s.holder t off with
    | none => .cause cWindow
    | some p =>
      let tl := Store.get Tile.init t (s.part p).saved
      match winAnswer tl.wins (off - (s.part p).fb) write with
      | .ok => if (s.part p).job = job then .held p else .cause cWindow
      | _ => .cause cWindow

/-- The first answer that is not ok. -/
def firstBad : List Ans → Ans
  | [] => .ok
  | .ok :: t => firstBad t
  | a :: _ => a

/-- The answer for a range of tile SRAM. -/
def State.tileRange (s : State) (t off n job : Nat) (write : Bool) : Ans :=
  firstBad ((List.range n).map (fun i => s.tileByte t (off + i) job write))

/-- Whether an address lies in a page that is migrating (06 R155). -/
def State.migratingAt (s : State) (pa : Nat) : Bool :=
  s.migrations.any (fun m => decide (m.old ≤ pa) && decide (pa < m.old + m.size))

/-- How the home answers a read of `n` bytes in one home by an agent of a job (02 R43; 06 R155; 07 R198). -/
def State.readAns (s : State) (pa n job : Nat) : Ans :=
  if s.migratingAt pa then .moved
  else
    match spaceOf pa with
    | .tile t off =>
      match s.tileRange t off n job false with
      | .ok => if s.hasUe pa n then .cause cMemoryUe else .ok
      | a => a
    | _ => if s.hasUe pa n then .cause cMemoryUe else .ok

/-- How the home answers a write of `n` bytes in one home by an agent of a job (02 R43; 06 R155, R167; 07 R198). -/
def State.writeAns (s : State) (pa n job : Nat) : Ans :=
  if s.migratingAt pa then .moved
  else if s.latchedAt pa then .cause cVintage
  else
    match spaceOf pa with
    | .tile t off =>
      match s.tileRange t off n job true with
      | .ok => if s.partialUe pa n then .cause cMemoryUe else .ok
      | a => a
    | _ => if s.partialUe pa n then .cause cMemoryUe else .ok

/-! ## Writes performed, tagged and counted (06 R159; 07 R189) -/

/-- Bytes that two ranges share. -/
def overlap (a n b m : Nat) : Nat := Nat.min (a + n) (b + m) - Nat.max a b

/-- Bytes of a write that a counter's ranges cover. -/
def Counter.covered (c : Counter) (pa n : Nat) : Nat :=
  (c.ranges.map (fun r => overlap pa n r.1 r.2)).foldl (· + ·) 0

/-- A counter's fragment at a home raised by the bytes of a write (06 R159). -/
def Counter.count1 (c : Counter) (home pa n : Nat) : Counter :=
  if c.armed && decide (c.covered pa n ≠ 0) then
    { c with frags := Store.put 0 home (Store.get 0 home c.frags + c.covered pa n) c.frags }
  else c

/-- Every armed counter's fragment at the home raised by the bytes of a write (06 R159). -/
def State.countBytes (s : State) (pa n : Nat) : State :=
  { s with counters := s.counters.map (fun p => (p.1, p.2.count1 (homeOf s.iltab pa) pa n)) }

/-- Scope tags of written bytes set (07 R189). -/
def putTags (m : Store WTag) (pa : Nat) (w : WTag) : Nat → Store WTag
  | 0 => m
  | n + 1 => putTags (Store.put WTag.init pa w m) (pa + 1) w n

/-- A range noted as written for the results of an LKA that wait to be written where they were read: where it falls between
their read and their write, it stands (07 R180; 14 R440; log entry 170). -/
def Eff.writtenAt (pa n : Nat) (e : Eff) : Eff :=
  match e with
  | .lka off data l => .lka off data (l ++ [(pa, n)])
  | e => e

/-- A write of tile SRAM noted for the tile's waiting LKA results. -/
def State.noteWritten (s : State) (pa n : Nat) : State :=
  match spaceOf pa with
  | .tile t _ =>
    let tl := s.tile t
    if tl.pend.isEmpty then s
    else s.setTile t { tl with pend := tl.pend.map (fun p => { p with eff := p.eff.writtenAt pa n }) }
  | _ => s

/-- A write performed at its home: bytes, error granules, tags and counts. -/
def State.perform (s : State) (pa : Nat) (b : List Byte) (w : WTag) : State :=
  let s1 := ((s.putMem pa b).clearUe pa b.length).noteWritten pa b.length
  { s1.countBytes pa b.length with wtags := putTags s1.wtags pa w b.length }

/-- A write performed without being counted: spills, views, logs, scrubs, loads of images (06 R159). -/
def State.performQuiet (s : State) (pa : Nat) (b : List Byte) (w : WTag) : State :=
  let s1 := ((if s.partialUe pa b.length then s.putSound pa b else s.putMem pa b).clearUe pa b.length).noteWritten pa b.length
  { s1 with wtags := putTags s1.wtags pa w b.length }

/-- The widest tag that a read of bytes meets: the scope that contains the writers and their tags (07 R189). -/
def State.readScopeAt (s : State) (me : Place) (pa n : Nat) : Scope :=
  (List.range n).foldl (fun sc i =>
    let w := Store.get WTag.init (pa + i) s.wtags
    Scope.max sc (Scope.max w.tag (joinScope me w.place))) .core

/-- Tag of writes that arrive through Ethernet or come from agents of the package (07 R189). -/
def tagPkg : WTag := { place := .pkg, tag := .pkg }

/-- Tag of writes of an engine or a counter of a die, whose completions and actions release at pkg scope (07 R195,
R196). -/
def tagDie (d : Nat) : WTag := { place := .die d, tag := .pkg }

/-- Tag of writes of a bank unit of a die, which releases nothing (07 R197). -/
def tagBank (d : Nat) : WTag := { place := .die d, tag := .core }

/-- Die of an ullage counter (01 R16, R28). -/
def counterDie (n : Nat) : Nat := n / 4096

/-- Tag of writes of a stream of a tile: its place is the tile's quad (01 R28); its partition's releases are at pkg scope
once it has written HBM, as R189 widens a thread's (07 R198, R201; log entry 141). -/
def State.tagTile (s : State) (t : Nat) : WTag :=
  { place := .quad (quadOf t),
    tag := match (s.tile t).part with
      | some p => if (s.part p).wroteHbm then .pkg else .core
      | none => .core }

/-! ## Translation (06 R138, R142 to R146) -/

/-- Whether a frame of a size holds a byte of some range of the physical map (06 R138). -/
def frameExists (pa size : Nat) : Bool :=
  decide (pa < 0x80_1800_0000) ||
    decide (overlap pa size localBase 0x1000_0000 ≠ 0) ||
    mmioRanges.any (fun r => decide (overlap pa size r.1 (r.2 + 1 - r.1) ≠ 0))

/-- First byte and size of the page-table pool (06 R493). -/
def poolBase : Nat := 0x7F_0000_0000
/-- Its size. -/
def poolSize : Nat := 2 ^ 32

/-- Bytes translated by one leaf at a level (06 R144). -/
def granuleAt (level : Nat) : Nat := 4096 * 512 ^ level

/-- Whether a PTE is a proper leaf for an address at a level (06 R143, R144). -/
def leafOk (iltab : Word) (pte va level : Nat) : Bool :=
  let size := bits pte 7 5
  let pa := bits pte 39 12 * 4096
  let g := granuleAt level
  ((size == 5 && level == 2) || ((size == 3 || size == 4) && level == 1) || ((size == 1 || size == 2) && level == 0)) &&
  !(bit pte 2 && !bit pte 1) && bits pte 63 40 == 0 && pa % g == 0 &&
  (size != 2 || bits pa 15 12 == bits va 15 12) && (size != 4 || bits pa 24 21 == bits va 24 21) &&
  !(decide (overlap pa g poolBase poolSize ≠ 0)) && frameExists pa g &&
  (bit pte 11 == (decide (pa < tileBase) && bit iltab.toNat (pa / 2 ^ 33))) &&
  !(bit pte 8 && (level == 0 || decide (tileBase ≤ pa)))

/-- Bytes of a page of a SIZE code (06 R143). -/
def pageBytes (code : Nat) : Nat :=
  match code with
  | 1 => 2 ^ 12
  | 2 => 2 ^ 16
  | 3 => 2 ^ 21
  | 4 => 2 ^ 25
  | 5 => 2 ^ 30
  | _ => 0

/-- The leaf that a PTE gives. -/
def leafOf (asid pte va level : Nat) : Leaf :=
  let g := granuleAt level
  { asid := asid, va := va - va % g, size := g, page := pageBytes (bits pte 7 5), pa := bits pte 39 12 * 4096,
    rd := bit pte 1, wr := bit pte 2, x := bit pte 3, user := bit pte 4, rox := bit pte 10 }

/-- What a walk finds. -/
inductive Walk where
  | leaf (l : Leaf) (pte : Nat) (pteAt level : Nat)
  | fail
  | migrating
  /-- An entry read on the way holds an uncorrectable error (02 R43). -/
  | bad
  deriving DecidableEq, Repr

/-- The walk from a table; the first argument is one more than the table's level (06 R142, R144). -/
def walkFrom (s : State) (asid va : Nat) : Nat → Nat → Walk
  | 0, _ => .fail
  | level + 1, table =>
    let pteAt := table + va / granuleAt level % 512 * 8
    let pte := s.value pteAt 8
    if s.hasUe pteAt 8 then .bad
    else if !bit pte 0 then .fail
    else if bits pte 7 5 = 0 then
      if bits pte 63 40 = 0 ∧ !(bit pte 2 && !bit pte 1) ∧ bits pte 39 12 * 4096 < tileBase ∧
          bit pte 11 = bit s.iltab.toNat (bits pte 39 12 * 4096 / 2 ^ 33) then
        walkFrom s asid va level (bits pte 39 12 * 4096)
      else .fail
    else if leafOk s.iltab pte va level then
      if bit pte 9 then .migrating else .leaf (leafOf asid pte va level) pte pteAt level
    else .fail

/-- The walk of a job's tables (06 R142). A job without a table has none. -/
def State.walk (s : State) (j va : Nat) : Walk :=
  if va ≥ 2 ^ 48 ∨ Store.get 0 j s.ptroot = 0 then .fail
  else walkFrom s (s.job j).asid va 4 (Store.get 0 j s.ptroot)

/-- The entry that names a table of the pool: V, and IL as its group's MODE has it (06 R140, R143, R144). -/
def State.tablePte (s : State) (table : Nat) : Nat := table + 1 + b2n (bit s.iltab.toNat (table / 2 ^ 33)) * 2 ^ 11

/-- First byte and size of what a valid leaf of the tables names, wherever it stands. -/
def pteRange (pte : Nat) : Option (Nat × Nat) :=
  if !bit pte 0 ∨ bits pte 7 5 = 0 ∨ 6 ≤ bits pte 7 5 then none
  else
    let code := bits pte 7 5
    some (bits pte 39 12 * 4096, if code ≤ 2 then 2 ^ 12 else if code ≤ 4 then 2 ^ 21 else 2 ^ 30)

/-- Whether a leaf of some tables names a byte of a range. -/
def State.tablesName (s : State) (f : Option Nat → Bool) (pa n : Nat) : Bool :=
  s.pool.any (fun p => f p.2 && (List.range 512).any (fun i =>
    match pteRange (s.value (p.1 + 8 * i) 8) with
    | some (a, m) => decide (overlap a m pa n ≠ 0)
    | none => false))

/-- Whether a range holds a page that some other job maps and a job does not: no agent of the job reaches it (01 R23; log
entry 153). -/
def State.foreign (s : State) (j pa n : Nat) : Bool :=
  (List.range ((pa + n - 1) / 4096 + 1 - pa / 4096)).any (fun i =>
    let a := (pa / 4096 + i) * 4096
    s.tablesName (fun o => o.isSome && o != some j) a 4096 && !s.tablesName (· == some j) a 4096)

/-- The permissions that an access asks for. -/
structure Need where
  rd : Bool
  wr : Bool
  x : Bool
  deriving DecidableEq, Repr

/-- A load (06 R145). -/
def needRd : Need := { rd := true, wr := false, x := false }
/-- A store or a copy destination (06 R145). -/
def needWr : Need := { rd := false, wr := true, x := false }
/-- An atomic (06 R145). -/
def needRw : Need := { rd := true, wr := true, x := false }
/-- A fetch (06 R145). -/
def needX : Need := { rd := false, wr := false, x := true }

/-- Whether a leaf permits an access (06 R145). -/
def Leaf.permits (l : Leaf) (lvl : Level) (n : Need) : Bool :=
  (!n.rd || l.rd) && (!n.wr || l.wr) && (!n.x || l.x) && (l.user || lvl != .user)

/-- Physical address that a leaf gives. -/
def Leaf.at_ (l : Leaf) (va : Nat) : Nat := l.pa + (va - l.va)

/-- Whether a leaf translates an address for an ASID. -/
def Leaf.hits (l : Leaf) (asid va : Nat) : Bool :=
  l.asid == asid && decide (l.va ≤ va) && decide (va < l.va + l.size)

/-- The TLB entry that translates an address for a core: its own, or its quad's (06 R146). -/
def State.tlbFind (s : State) (c asid va : Nat) : Option Leaf :=
  match (s.core c).tlb.find? (fun l => l.hits asid va) with
  | some l => some l
  | none => (Store.get [] (quadOf c) s.quadTlb).find? (fun l => l.hits asid va)

/-- What a translation gives. -/
inductive Xl where
  | pa (a : Nat) (l : Leaf)
  | miss
  | cause (c : Nat)
  deriving DecidableEq, Repr

/-- Translation for a thread through its TLBs (06 R142, R145, R146). -/
def State.xlate (s : State) (t : Nat) (va : Nat) (n : Need) : Xl :=
  let x := s.thread t
  if va ≥ 2 ^ 48 then .cause cXlate
  else
    match s.tlbFind (coreOf t) (s.job x.job).asid va with
    | none => .miss
    | some l => if l.permits x.level n then .pa (l.at_ va) l else .cause cProt

/-- Translation for an agent that is no thread: by an entry of the TLB that it has, a copy engine's, else by a walk of its own
(06 R146; 03 R59). -/
def State.xlateWalk (s : State) (j : Nat) (lvl : Level) (va : Nat) (n : Need) (tlb : List Leaf := []) : Xl :=
  match tlb.find? (fun l => l.hits (s.job j).asid va) with
  | some l => if l.permits lvl n then .pa (l.at_ va) l else .cause cProt
  | none =>
    match s.walk j va with
    | .leaf l _ _ _ => if l.permits lvl n then .pa (l.at_ va) l else .cause cProt
    | .fail => .cause cXlate
    | .bad => .cause cMemoryUe
    | .migrating => .miss

/-- The walk queue of a die (06 R146). -/
def State.walkQueue (s : State) (d : Nat) : List WalkReq := Store.get [] d s.walks

/-- A thread parked for a walk: queued, or parked to issue again while the queue of 64 is full; with the EVAL of a failure where
that is stated (06 R146; 13 R387). -/
def State.parkWalk (s : State) (t : Nat) (va : Nat) (opc : Nat) (eval : Option Word := none) : State :=
  let d := dieOf (coreOf t)
  let x := s.thread t
  if (s.walkQueue d).length < 64 then
    { s.setThread t { x with park := .walk (BitVec.ofNat 64 va) } with
      walks := Store.put [] d (s.walkQueue d ++ [{ thr := t, core := coreOf t, job := x.job, va := BitVec.ofNat 64 va, eval := eval }])
        s.walks }
  else s.setThread t { x with park := .retry opc }

/-! ## Parking -/

/-- The executing thread parked to issue its instruction again (10 R274). -/
def State.retry (s : State) (opc : Nat) : State := s.setTh { s.th with park := .retry opc }

/-- The executing thread parked on a given wait. -/
def State.parkOn (s : State) (p : Park) : State := s.setTh { s.th with park := p }

/-! ## Parts of a thread's access (06 R151; 12 R355, R358) -/

/-- A part: its virtual and physical address, length and leaf. -/
structure Part where
  va : Nat
  pa : Nat
  len : Nat
  leaf : Leaf
  deriving DecidableEq, Repr

/-- One range of a thread's access translated, or the state in which the instruction ends: a trap or a parked walk. -/
def State.xpart (s : State) (opc va n : Nat) (need : Need) : Except State Part :=
  match s.xlate s.cur va need with
  | .pa a l => .ok { va := va, pa := a, len := n, leaf := l }
  | .miss => .error (s.parkWalk s.cur va opc)
  | .cause c => .error (s.trapFree c)

/-- The parts of an access of `n` bytes: two where it crosses a boundary of homes or pages (06 R151). -/
def State.xparts (s : State) (opc va n : Nat) (need : Need) : Except State (List Part) :=
  let n1 := Nat.min n (256 - va % 256)
  match s.xpart opc va n1 need with
  | .error e => .error e
  | .ok p =>
    if n1 = n then .ok [p]
    else
      match s.xpart opc (va + n1) (n - n1) need with
      | .error e => .error e
      | .ok q =>
        if homeOf s.iltab p.pa = homeOf s.iltab q.pa ∧ p.leaf = q.leaf then .ok [{ p with len := n }]
        else .ok [p, q]

/-- Whether an address is MMIO. -/
def isMmio (pa : Nat) : Bool := spaceOf pa == .mmio

/-- Whether an address lies in no range of the map: an access there raises PROT (06 R138). -/
def isHole (pa : Nat) : Bool := spaceOf pa == .hole

/-! ## The remote line cache (06 R149) -/

/-- Whether an address is far HBM to a core (06 R149; 07 R178). -/
def State.isFar (s : State) (c pa : Nat) : Bool := decide (pa < tileBase) && stackOf s.iltab pa / 2 != dieOf c

/-- Whether an address is far to a core in the sense of 07 R178: its home lies not on the core's die, as no MMIO register
does. -/
def State.farAccess (s : State) (c pa : Nat) : Bool :=
  match (placeOf s.iltab pa).dieNo with
  | some d => d != dieOf c
  | none => true

/-- The line of a number in a core's RLC. -/
def Core.line (c : Core) (num : Nat) : Option Line := c.rlc.find? (fun l => l.num == num)

/-- The RLC with a line replaced or added. -/
def Core.putLine (c : Core) (l : Line) : Core := { c with rlc := l :: c.rlc.filter (fun m => m.num != l.num) }

/-- The RLC without a line. -/
def Core.dropLine (c : Core) (num : Nat) : Core := { c with rlc := c.rlc.filter (fun m => m.num != num) }

/-- A line that holds nothing. -/
def Line.empty (num : Nat) (rox : Bool) : Line :=
  { num := num, valid := 0, dirty := 0, data := [], who := [], seen := [], rox := rox }

/-- The bit of a word of a line. -/
def wordBit (i : Nat) : BitVec 16 := 1#16 <<< i

/-- The 8 bytes of a line's word. -/
def Line.word (l : Line) (i : Nat) : List Byte := getBytes l.data (i * 8) 8

/-- Whether a thread's deferred fault of a kind is pending: 0 RPE, 1 WPE, 2 VPE (10 R281). -/
def Thread.defers (x : Thread) (kind : Nat) : Bool :=
  match kind with
  | 0 => x.rpe
  | 1 => x.wpe
  | _ => x.vpe

/-- A thread with a deferred fault of a kind pending (10 R281). -/
def Thread.putDeferred (x : Thread) (kind : Nat) (wkind : BitVec 2) (detail : Word) : Thread :=
  match kind with
  | 0 => { x with rpe := true, rpeDetail := detail }
  | 1 => { x with wpe := true, wkind := wkind, wpeDetail := detail }
  | _ => { x with vpe := true, vpeDetail := detail }

/-- A deferred fault noted on a thread: kept with its bit while that is clear, counted otherwise (10 R281). The kind is
0 RPE, 1 WPE, 2 VPE. -/
def State.deferFault (s : State) (t kind : Nat) (wkind : BitVec 2) (detail : Word) : State :=
  if (s.thread t).defers kind then
    let c := s.core (coreOf t)
    s.setCore (coreOf t) { c with deferredLost := c.deferredLost + 1 }
  else s.setThread t ((s.thread t).putDeferred kind wkind detail)

/-- What a refused store of a thread comes to, after it has left the core: WPE, VPE or MEMORY_UE (06 R167; 07 R198;
12 R358). MEMORY_UE is taken next, once the present act is done, with EPC at the next instruction to issue. -/
def State.refuseStore (s : State) (t c : Nat) (va : Word) : State :=
  if c = cVintage then s.deferFault t 2 0 va
  else if c = cWindow then s.deferFault t 1 0 va
  else if c = cWindowLate then s.deferFault t 1 1 va
  else if c = cMemoryUe then { s with agenda := .storeUe t va :: s.agenda }
  else s

/-- One dirty word of a line written through to its home (06 R149). -/
def State.flushWord (s : State) (l : Line) (i : Nat) : State :=
  if l.dirty &&& wordBit i = 0 then s
  else
    let pa := l.num * 128 + i * 8
    let w := (Store.get none i l.who).getD (0, 0, WTag.init)
    match s.writeAns pa 8 (s.thread w.1).job with
    | .ok => s.perform pa (l.word i) w.2.2
    | .cause c => s.refuseStore w.1 c w.2.1
    | _ => s

/-- The dirty words of one 32-byte granule of a line written through; where all are dirty the granule is overwritten whole (02
R43). -/
def State.flushGranule (s : State) (l : Line) (g : Nat) : State :=
  let pa := l.num * 128 + 32 * g
  let words := (List.range 4).map (4 * g + ·)
  let who := (Store.get none (4 * g) l.who).map (·.1)
  let whole := words.all (fun i => l.dirty &&& wordBit i != 0) &&
    s.writeAns pa 32 ((who.map (fun t => (s.thread t).job)).getD 0) == .ok
  words.foldl (fun r i => r.flushWord l i) (if whole then s.clearUe pa 32 else s)

/-- The dirty words of a core's line that a mask names written through (06 R149). -/
def State.flushWords (s : State) (c num : Nat) (mask : BitVec 16) : State :=
  match (s.core c).line num with
  | none => s
  | some l =>
    let s1 := (List.range 4).foldl (fun r g => r.flushGranule { l with dirty := l.dirty &&& mask } g) s
    s1.setCore c ((s1.core c).putLine
      { l with dirty := l.dirty &&& ~~~mask, who := l.who.filter (fun (p : Nat × Option (Nat × Word × WTag)) => !mask.getLsbD p.1) })

/-- A core's line written through by mask (06 R149). -/
def State.flushLine (s : State) (c num : Nat) : State := s.flushWords c num (BitVec.allOnes 16)

/-- Every line of a core written through (06 R149). -/
def State.flushRlc (s : State) (c : Nat) : State :=
  (s.core c).rlc.foldl (fun r l => r.flushLine c l.num) s

/-- The RLC invalidated but for ROX lines (06 R149). -/
def State.invalidateRlc (s : State) (c : Nat) : State :=
  s.setCore c { s.core c with rlc := (s.core c).rlc.filter (·.rox) }

/-- A line written through and dropped, before an atomic or at an eviction (06 R149). -/
def State.evictLine (s : State) (c num : Nat) : State :=
  let s1 := s.flushLine c num
  s1.setCore c ((s1.core c).dropLine num)

/-- The widest scope that a word of a line asks of an acquire, kept with it (07 R189). -/
def Line.note (l : Line) (i : Nat) (sc : Scope) : Line := { l with seen := Store.put .core i (Scope.max sc (Store.get .core i l.seen)) l.seen }

/-- A valid copy of written bytes brought up to date, with what the values ask of an acquire (06 R149; 07 R186, R189). -/
def State.updateCopy (s : State) (c pa : Nat) (b : List Byte) : State :=
  match (s.core c).line (pa / 128) with
  | none => s
  | some l0 =>
    let l := ((List.range b.length).map (fun i => (pa + i) % 128 / 8)).eraseDups.foldl
      (fun (m : Line) i => m.note i (s.readScopeAt (.core c) (pa / 128 * 128 + 8 * i) 8)) l0
    let d := (indexed b).foldl (fun m p =>
      if l.valid &&& wordBit ((pa + p.1) % 128 / 8) = 0 ∨ (pa + p.1) / 128 ≠ pa / 128 then m
      else Store.put 0 ((pa + p.1) % 128) p.2 m) l.data
    s.setCore c ((s.core c).putLine { l with data := d })

/-- The words that a range touches in its line. -/
def wordsOf (pa n : Nat) : List Nat :=
  (List.range 16).filter (fun i => decide (overlap pa n (pa / 128 * 128 + i * 8) 8 ≠ 0))

/-- The mask of those words. -/
def wordMask (pa n : Nat) : BitVec 16 := (wordsOf pa n).foldl (fun m i => m ||| wordBit i) 0

/-- Lines of an RLC: 32 KiB (01 R18). -/
def rlcLines : Nat := 256

/-- Room for a line in a core's RLC: where it is full and does not hold the line, the one touched longest ago is evicted
(01 R18; 06 R149; log entry 19). -/
def State.makeRoom (s : State) (c num : Nat) : State :=
  if ((s.core c).line num).isSome ∨ (s.core c).rlc.length < rlcLines then s
  else
    match (s.core c).rlc.getLast? with
    | some l => s.evictLine c l.num
    | none => s

/-- The invalid words of a range's line filled from the home (06 R149). -/
def State.fillLine (s0 : State) (c pa n : Nat) (rox : Bool) : State :=
  let num := pa / 128
  let s := s0.makeRoom c num
  let l := ((s.core c).line num).getD (Line.empty num rox)
  let l1 := (wordsOf pa n).foldl (fun (m : Line) i =>
    if m.valid &&& wordBit i = 0 then
      { m with
        valid := m.valid ||| wordBit i, data := putBytes m.data (i * 8) (s.bytes (num * 128 + i * 8) 8),
        seen := Store.put .core i (s.readScopeAt (.core c) (num * 128 + i * 8) 8) m.seen }
    else m) l
  s.setCore c ((s.core c).putLine l1)

/-- Whether a fill of a range's invalid words would read an uncorrectable error. -/
def State.fillUe (s : State) (c pa n : Nat) : Bool :=
  let l := ((s.core c).line (pa / 128)).getD (Line.empty 0 false)
  (wordsOf pa n).any (fun i => l.valid &&& wordBit i = 0 && s.hasUe (pa / 128 * 128 + i * 8) 8)

/-- One part of a range, cut at lines of 128 bytes. -/
def lineParts (pa n : Nat) : List (Nat × Nat) :=
  let a := Nat.min n (128 - pa % 128)
  if a = n then [(pa, n)] else [(pa, a), (pa + a, n - a)]

/-- The bytes that a plain load of one part returns, and the state after it: from the RLC for a far line, else from the
home (06 R149; 07 R181 to R183). The answer comes first. -/
def State.loadPart (s : State) (p : Part) (fresh : Bool) : Ans × List Byte × State :=
  let c := coreOf s.cur
  let job := s.th.job
  if s.isFar c p.pa && !fresh then
    let ls := lineParts p.pa p.len
    if s.migratingAt p.pa then (.moved, [], s)
    else if ls.any (fun q => s.fillUe c q.1 q.2) then (.cause cMemoryUe, [], s)
    else
      let s1 := ls.foldl (fun r q => r.fillLine c q.1 q.2 p.leaf.rox) s
      (.ok, (ls.map (fun q =>
        getBytes (((s1.core c).line (q.1 / 128)).getD (Line.empty 0 false)).data (q.1 % 128) q.2)).flatten, s1)
  else
    let s1 := if s.isFar c p.pa then (lineParts p.pa p.len).foldl (fun r q => r.flushWords c (q.1 / 128) (wordMask q.1 q.2)) s else s
    match s1.readAns p.pa p.len job with
    | .ok =>
      let b := s1.bytes p.pa p.len
      (.ok, b, s1.updateCopy c p.pa b)
    | a => (a, [], s1)

/-! ## Acquires and releases (07 R185 to R189) -/

/-- Effective scope of a release: widened to pkg after a far access (07 R189). -/
def Thread.effRelease (x : Thread) (sc : Scope) : Scope := if x.far then Scope.max sc .pkg else sc

/-- What an acquire of an effective scope does in the core (07 R187); the thread's later writes carry it on (07 R190). -/
def State.acquire (s : State) (sc : Scope) : State :=
  let s1 := if sc.atLeast .die then (s.flushRlc (coreOf s.cur)).invalidateRlc (coreOf s.cur) else s
  s1.setTh { s1.th with carry := Scope.max s1.th.carry sc }

/-- What a release of an effective scope does in the core once the store buffer is empty: the RLC is written through (07
R186). -/
def State.writeThrough (s : State) (sc : Scope) : State := if sc.atLeast .die then s.flushRlc (coreOf s.cur) else s

/-- A release of an effective scope: what it does in the core, and what it leaves for the thread's later writes (07 R186,
R189). -/
def State.release (s : State) (sc : Scope) : State :=
  let s1 := s.writeThrough sc
  s1.setTh { s1.th with relScope := sc, far := if sc.atLeast .pkg then false else s1.th.far }

/-- The tag that a plain write of the executing thread carries (07 R189). -/
def State.plainTag (s : State) : WTag := { place := threadPlace s.cur, tag := Scope.max s.th.relScope s.th.carry }

/-- An access of the executing thread noted for scope widening (07 R189). -/
def State.noteAccess (s : State) (pa : Nat) : State :=
  s.setTh { s.th with far := s.th.far || s.farAccess (coreOf s.cur) pa }

/-- A read of the executing thread noted for the widening of its next FENCE (07 R189). -/
def State.noteRead (s : State) (pa n : Nat) : State :=
  s.setTh { s.th with readScope := Scope.max s.th.readScope (s.readScopeAt (threadPlace s.cur) pa n) }

/-- The widest scope that a range of a core's RLC asks of an acquire, as its values were taken in (07 R189). -/
def State.lineScope (s : State) (c pa n : Nat) : Scope :=
  (lineParts pa n).foldl (fun a q =>
    let l := ((s.core c).line (q.1 / 128)).getD (Line.empty 0 false)
    (wordsOf q.1 q.2).foldl (fun b i => Scope.max b (Store.get .core i l.seen)) a) .core

/-- A load of one part noted for the widening of the thread's next FENCE: by what its RLC copy was filled with, or by what its home
holds (07 R189). -/
def State.noteLoad (s : State) (p : Part) (fresh : Bool) : State :=
  if s.isFar (coreOf s.cur) p.pa && !fresh then
    s.setTh { s.th with readScope := Scope.max s.th.readScope (s.lineScope (coreOf s.cur) p.pa p.len) }
  else s.noteRead p.pa p.len

/-- Natural scope of an access of the executing thread (07 R185). -/
def State.naturalScope (s : State) (pa : Nat) : Scope := joinScope (threadPlace s.cur) (placeOf s.iltab pa)

/-! ## Deferred causes (10 R281, R282; 12 R337) -/

/-- Cause that a pending WPE delivers (10 R281). -/
def wkindCause (k : BitVec 2) : Nat :=
  if k = 0 then cWindow else if k = 1 then cWindowLate else cProt

/-- take_deferred: RPE where it is due, then WPE, then VPE (12 R337). `none` where nothing is pending. WKIND keeps its value
once its WPE has been taken; DESIGN CHOICE: the spec says nothing of it (10 R281; log entry 139). -/
def State.takeDeferred (s : State) (rpeDue : Bool) : Option State :=
  let x := s.th
  if rpeDue && x.rpe then some ((s.setTh { x with rpe := false }).trap cRemote x.rpeDetail)
  else if x.wpe then some ((s.setTh { x with wpe := false }).trap (wkindCause x.wkind) x.wpeDetail)
  else if x.vpe then some ((s.setTh { x with vpe := false }).trap cVintage x.vpeDetail)
  else none

end Sys2Proof.Machine
end

