-- ==== Sys2Proof/Machine/Issue.lean ====
section
/-! DEFINITION. What every instruction of a Newt thread shares: its retirement, the recording of an atomic region, and
how its end states become the outcome of a step. -/

namespace Sys2Proof.Machine

open Sys2Proof

/-- The outcome of a step of this machine. -/
abbrev Out := Host.Outcome State Fault Refusal

/-! ## Retirement (12 R338; 07 R205) -/

/-- The thread that goes on at `pc` after `n` instructions have retired. -/
def Thread.go (x : Thread) (pc : Word) (n : Nat) : Thread :=
  { x with pc := pc, park := .running, qcount := x.qcount + n }

/-- The executing thread's instruction retires and the next issue is at `pc`. -/
def State.retireTo (s : State) (pc : Word) : State := s.setTh (s.th.go pc 1)

/-- The executing thread's instruction retires and the next issue is at PC + 4. -/
def State.retire (s : State) : State := s.retireTo (s.th.pc + 4)

/-- A register written and the instruction retired. -/
def State.retireG (s : State) (d : BitVec 5) (v : Word) : State := (s.setG d v).retire

/-- A retired store entered in the thread's DIGEST (10 R300). -/
def State.digest (s : State) (va : Word) (data : List Byte) : State :=
  s.setTh { s.th with digest := digestStore s.th.digest va data }

/-- The state in which an instruction ends, whichever way it ends. -/
def ended (r : Except State State) : State :=
  match r with
  | .ok s => s
  | .error s => s

/-! ## Atomic-region recording (12 R365) -/

/-- At most so many instructions stand in a region. -/
def regionMax : Nat := 24

/-- At most so many of them are ARL or ARS. -/
def regionAccesses : Nat := 8

/-- An instruction recorded without effect, or the region dropped because it is the 25th (12 R365). -/
def State.recordPlain (s : State) (r : Region) (i : Instr) : State :=
  if r.body.length ≥ regionMax then s.trap cRegionAbort r.pc
  else s.setTh { s.th with region := some { r with body := r.body ++ [i] }, pc := s.th.pc + 4 }

/-- An instruction of opcodes 0x01 to 0x28 that may be recorded: recorded while the thread records, else performed. -/
def recordable (i : Instr) (f : State → State) (s : State) : Out :=
  match s.th.region with
  | some r => .next (s.recordPlain r i)
  | none => .next (f s)

/-- An instruction that may not be recorded: while the thread records it raises REGION_ABORT with ARB's address
(12 R365). -/
def unrecorded (f : State → Except State State) (s : State) : Out :=
  match s.th.region with
  | some r => .next (s.trap cRegionAbort r.pc)
  | none => .next (ended (f s))

/-! ## Job and mode of the executing thread -/

/-- Job of the executing thread. -/
def State.myJob (s : State) : Job := s.job s.th.job

/-- Whether the executing thread is supervisor or firmware. -/
def State.isSuper (s : State) : Bool := s.th.level != .user

/-- An access of the executing thread to a register, as its who. -/
def State.who (s : State) : Who := { level := s.th.level, job := s.th.job }

end Sys2Proof.Machine
end

