-- ==== Sys2Proof/Machine/Numbers.lean ====
section
/-! DEFINITION. Number formats, rounding and exact sums (08). A finite value is a sign, a magnitude and a power of two. -/

namespace Sys2Proof.Machine

open Sys2Proof

/-! ## Values and formats (08 R208 to R213) -/

/-- The value of a code: a NaN, an infinity, or (−1)^neg × mag × 2^exp. -/
inductive FVal where
  | nan
  | inf (neg : Bool)
  | fin (neg : Bool) (mag : Nat) (exp : Int)
  deriving DecidableEq, Repr

/-- What a floating-point format's top codes mean: IEEE infinities and NaNs, E4M3's one NaN, or nothing special
(08 R209 to R211). -/
inductive Specials where
  | ieee
  | e4m3
  | none
  deriving DecidableEq, Repr

/-- A floating-point format: exponent and fraction widths, bias, and its special codes (08 R208). -/
structure Fmt where
  w : Nat
  m : Nat
  bias : Nat
  sp : Specials
  deriving DecidableEq, Repr

/-- binary64. -/
def fp64 : Fmt := { w := 11, m := 52, bias := 1023, sp := .ieee }
/-- binary32. -/
def fp32 : Fmt := { w := 8, m := 23, bias := 127, sp := .ieee }
/-- binary16. -/
def fp16 : Fmt := { w := 5, m := 10, bias := 15, sp := .ieee }
/-- bfloat16. -/
def bf16 : Fmt := { w := 8, m := 7, bias := 127, sp := .ieee }
/-- FP8 E4M3. -/
def fE4m3 : Fmt := { w := 4, m := 3, bias := 7, sp := .e4m3 }
/-- FP8 E5M2. -/
def fE5m2 : Fmt := { w := 5, m := 2, bias := 15, sp := .ieee }
/-- FP6 E2M3. -/
def fE2m3 : Fmt := { w := 2, m := 3, bias := 1, sp := .none }
/-- FP6 E3M2. -/
def fE3m2 : Fmt := { w := 3, m := 2, bias := 3, sp := .none }
/-- FP4 E2M1. -/
def fE2m1 : Fmt := { w := 2, m := 1, bias := 1, sp := .none }

/-- Bits of a format. -/
def Fmt.bits (f : Fmt) : Nat := 1 + f.w + f.m

/-- The code with only the sign bit. -/
def Fmt.signBit (f : Fmt) : Nat := 2 ^ (f.w + f.m)

/-- The largest finite code, positive. -/
def Fmt.maxCode (f : Fmt) : Nat :=
  match f.sp with
  | .ieee => (2 ^ f.w - 1) * 2 ^ f.m - 1
  | .e4m3 => 2 ^ (f.w + f.m) - 2
  | .none => 2 ^ (f.w + f.m) - 1

/-- The code of +∞, for a format that has one. -/
def Fmt.infCode (f : Fmt) : Nat := (2 ^ f.w - 1) * 2 ^ f.m

/-- The canonical NaN (08 R230); +0 for a format without NaNs. -/
def Fmt.canonNan (f : Fmt) : Nat :=
  match f.sp with
  | .ieee => (2 ^ f.w - 1) * 2 ^ f.m + 2 ^ (f.m - 1)
  | .e4m3 => 2 ^ (f.w + f.m) - 1
  | .none => 0

/-- The exponent of the smallest normal value. -/
def Fmt.emin (f : Fmt) : Int := 1 - (f.bias : Int)

/-- Sign of a code. -/
def Fmt.neg (f : Fmt) (c : Nat) : Bool := bit c (f.w + f.m)

/-- A code with a sign put on its magnitude code. -/
def Fmt.signed (f : Fmt) (neg : Bool) (c : Nat) : Nat := if neg then c + f.signBit else c

/-- The value of a code (08 R208 to R211). -/
def Fmt.dec (f : Fmt) (c : Nat) : FVal :=
  let s := f.neg c
  let mag := c % f.signBit
  let e := mag / 2 ^ f.m
  let fr := mag % 2 ^ f.m
  if f.sp = .ieee ∧ e = 2 ^ f.w - 1 then (if fr = 0 then .inf s else .nan)
  else if f.sp = .e4m3 ∧ mag = f.signBit - 1 then .nan
  else if e = 0 then .fin s fr (f.emin - f.m)
  else .fin s (2 ^ f.m + fr) ((e : Int) - f.bias - f.m)

/-- Whether a code is a NaN. -/
def Fmt.isNan (f : Fmt) (c : Nat) : Bool := f.dec c == .nan

/-- Whether a code is a signalling NaN (08 R209). -/
def Fmt.isSnan (f : Fmt) (c : Nat) : Bool := f.isNan c && f.sp == .ieee && !bit c (f.m - 1)

/-- A NaN code with its quiet bit set. -/
def Fmt.quiet (f : Fmt) (c : Nat) : Nat := if f.sp = .ieee ∧ !bit c (f.m - 1) then c + 2 ^ (f.m - 1) else c

/-- Whether a code is subnormal. -/
def Fmt.isSub (f : Fmt) (c : Nat) : Bool :=
  c % f.signBit / 2 ^ f.m == 0 && c % 2 ^ f.m != 0

/-- The code with a subnormal read as zero of its own sign, when FTZ is set (08 R229). -/
def Fmt.ftzIn (f : Fmt) (ftz : Bool) (c : Nat) : Nat := if ftz && f.isSub c then f.signed (f.neg c) 0 else c

/-! ## Rounding modes (08 R216) -/

/-- The rounding modes; SR carries its random word. -/
inductive RMode where
  | rne
  | rtz
  | rup
  | rdn
  | sr (r : Nat)
  deriving DecidableEq, Repr

/-- The mode of a code 0 to 4 with the random word of SR. -/
def rmodeOf (c r : Nat) : RMode :=
  match c with
  | 0 => .rne
  | 1 => .rtz
  | 2 => .rup
  | 3 => .rdn
  | _ => .sr r

/-- Whether the magnitude q + rem / 2^shift is rounded away from zero (08 R216, R219). -/
def roundAway (mode : RMode) (neg : Bool) (q rem shift : Nat) : Bool :=
  if rem = 0 then false
  else
    match mode with
    | .rne => decide (2 ^ shift < 2 * rem) || (2 * rem == 2 ^ shift && q % 2 == 1)
    | .rtz => false
    | .rup => !neg
    | .rdn => neg
    | .sr r => decide (r < rem * 2 ^ 32 / 2 ^ shift)

/-- The magnitude mag × 2^exp in units of 2^ue, rounded; with whether it was inexact. -/
def roundUnits (mode : RMode) (neg : Bool) (mag : Nat) (exp ue : Int) : Nat × Bool :=
  if ue ≤ exp then (mag * 2 ^ (exp - ue).toNat, false)
  else
    let sh := (ue - exp).toNat
    let q := mag / 2 ^ sh
    let rem := mag % 2 ^ sh
    (if roundAway mode neg q rem sh then q + 1 else q, rem != 0)

/-- The exponent of a magnitude's top bit. -/
def topExp (mag : Nat) (exp : Int) : Int := exp + (bitLen mag : Int) - 1

/-- The positive code of y × 2^ue, for a y of at most p + 1 bits with ue at least the subnormal unit. -/
def Fmt.pack (f : Fmt) (y : Nat) (ue : Int) : Nat :=
  if y < 2 ^ f.m then y
  else
    let l := bitLen y
    ((ue + (l : Int) - 1 + f.bias).toNat) * 2 ^ f.m + (y / 2 ^ (l - 1 - f.m) - 2 ^ f.m)

/-- What a rounding gives: the code and the exceptions. -/
structure Rounded where
  code : Nat
  ovf : Bool
  tiny : Bool
  inexact : Bool
  deriving DecidableEq, Repr

/-- overflow(x, f, mode) for a floating-point format (08 R217). -/
def Fmt.overflow (f : Fmt) (mode : RMode) (neg sat : Bool) : Nat :=
  let mx := f.signed neg f.maxCode
  if f.sp = .none then mx
  else
    let top := if f.sp = .e4m3 then f.canonNan else f.signed neg f.infCode
    if sat then mx
    else
      match mode with
      | .rtz => mx
      | .rup => if neg then mx else top
      | .rdn => if neg then top else mx
      | _ => top

/-- round(x, f, mode) of a finite value (08 R216 to R219); the result is tiny where it is below the normal numbers (08 R233; 13
R375; log entry 165). -/
def Fmt.round (f : Fmt) (mode : RMode) (sat neg : Bool) (mag : Nat) (exp : Int) : Rounded :=
  if mag = 0 then { code := f.signed neg 0, ovf := false, tiny := false, inexact := false }
  else
    let te := topExp mag exp
    let ue := (if te < f.emin then f.emin else te) - f.m
    let r := roundUnits mode neg mag exp ue
    let c := f.pack r.1 ue
    if f.maxCode < c then { code := f.overflow mode neg sat, ovf := true, tiny := false, inexact := true }
    else { code := f.signed neg c, ovf := false, tiny := decide (c < 2 ^ f.m), inexact := r.2 }

/-! ## Exact arithmetic -/

/-- The magnitude of a finite value as a signed integer in units of 2^e, for e at most its exponent. -/
def unitsOf (neg : Bool) (mag : Nat) (exp e : Int) : Int :=
  let v : Int := (mag * 2 ^ (exp - e).toNat : Nat)
  if neg then -v else v

/-- The value of an integer times a power of two; a zero has the sign given. -/
def ofUnits (v e : Int) (zeroNeg : Bool) : FVal :=
  if v = 0 then .fin zeroNeg 0 0 else .fin (decide (v < 0)) v.natAbs e

/-- The exact sum of two values; `rdn` says that zero results are −0 under RDN (08 R218). DEDUCED: (+0) + (+0) is then −0 too, as the
rule's second sentence has it without exception (log entry 164). -/
def addV (rdn : Bool) : FVal → FVal → FVal
  | .nan, _ => .nan
  | _, .nan => .nan
  | .inf s, .inf t => if s = t then .inf s else .nan
  | .inf s, .fin .. => .inf s
  | .fin .., .inf s => .inf s
  | .fin s m e, .fin t n f =>
    let g := if e ≤ f then e else f
    ofUnits (unitsOf s m e g + unitsOf t n f g) g ((s && t) || rdn)

/-- The value with its sign inverted. -/
def negV : FVal → FVal
  | .nan => .nan
  | .inf s => .inf !s
  | .fin s m e => .fin (!s) m e

/-- The exact product. -/
def mulV : FVal → FVal → FVal
  | .nan, _ => .nan
  | _, .nan => .nan
  | .inf s, .inf t => .inf (s != t)
  | .inf s, .fin t n _ => if n = 0 then .nan else .inf (s != t)
  | .fin t n _, .inf s => if n = 0 then .nan else .inf (s != t)
  | .fin s m e, .fin t n f => .fin (s != t) (m * n) (e + f)

/-- The quotient of two non-zero magnitudes with at least `p` bits and a sticky bit below them. -/
def divMag (p m n : Nat) (e f : Int) : Nat × Int :=
  let k := p + 3 + bitLen n
  let q := m * 2 ^ k / n
  let r := m * 2 ^ k % n
  (2 * q + b2n (r != 0), e - f - k - 1)

/-- The quotient, with a sticky bit that keeps every rounding to `p` bits right. -/
def divV (p : Nat) : FVal → FVal → FVal
  | .nan, _ => .nan
  | _, .nan => .nan
  | .inf _, .inf _ => .nan
  | .inf s, .fin t _ _ => .inf (s != t)
  | .fin s _ _, .inf t => .fin (s != t) 0 0
  | .fin s m e, .fin t n f =>
    if n = 0 then (if m = 0 then .nan else .inf (s != t))
    else if m = 0 then .fin (s != t) 0 0
    else .fin (s != t) (divMag p m n e f).1 (divMag p m n e f).2

/-- The integer square root, `fuel` bits of it. -/
def isqrtAux : Nat → Nat → Nat
  | 0, _ => 0
  | fuel + 1, n =>
    let r := isqrtAux fuel (n / 4) * 2
    if (r + 1) * (r + 1) ≤ n then r + 1 else r

/-- The integer square root. -/
def isqrt (n : Nat) : Nat := isqrtAux (bitLen n / 2 + 1) n

/-- The square root, with a sticky bit that keeps every rounding to `p` bits right. -/
def sqrtV (p : Nat) : FVal → FVal
  | .nan => .nan
  | .inf s => if s then .nan else .inf false
  | .fin s m e =>
    if m = 0 then .fin s 0 0
    else if s then .nan
    else
      let k := 2 * (p + 3)
      let m1 := if e % 2 = 0 then m * 2 ^ k else m * 2 ^ (k + 1)
      let e1 := if e % 2 = 0 then e - k else e - k - 1
      let r := isqrt m1
      .fin false (2 * r + b2n (r * r != m1)) (e1 / 2 - 1)

/-- Whether a value is −0. -/
def isNegZero : FVal → Bool
  | .fin s m _ => s && m == 0
  | _ => false

/-- exact_sum(t) (08 R227), with the zero sign of RNE. -/
def exactSum (l : List FVal) : FVal :=
  let pos := l.any (fun v => v == .inf false)
  let neg := l.any (fun v => v == .inf true)
  if l.any (fun v => v == .nan) || (pos && neg) then .nan
  else if pos then .inf false
  else if neg then .inf true
  else if l.all isNegZero then .fin true 0 0
  else
    l.foldl (fun a v =>
      match a, v with
      | .fin s m e, .fin t n f =>
        let g := if e ≤ f then e else f
        ofUnits (unitsOf s m e g + unitsOf t n f g) g false
      | a, _ => a) (.fin false 0 0)

/-- A finite or infinite comparison key: sign of a − b as −1, 0 or 1; both not NaN. -/
def cmpV : FVal → FVal → Int
  | .inf s, .inf t => if s = t then 0 else if s then -1 else 1
  | .inf s, _ => if s then -1 else 1
  | _, .inf t => if t then 1 else -1
  | .fin s m e, .fin t n f =>
    let g := if e ≤ f then e else f
    (unitsOf s m e g - unitsOf t n f g).sign
  | _, _ => 0

/-! ## Results in a format -/

/-- The exceptions of R233 as bits of FSTAT: NV, DZ, OF, UF, NX. -/
def fNv : Nat := 1
/-- DZ. -/
def fDz : Nat := 2
/-- OF. -/
def fOf : Nat := 4
/-- UF. -/
def fUf : Nat := 8
/-- NX. -/
def fNx : Nat := 16

/-- A result code and the exceptions raised. -/
structure FRes where
  code : Nat
  flags : Nat
  deriving DecidableEq, Repr

/-- Arithmetic's result: the value rounded with SAT = 0, a subnormal result flushed under FTZ, a NaN canonical (08 R217,
R229, R230; 13 R375; log entries 14, 165). -/
def Fmt.deliver (f : Fmt) (mode : RMode) (ftz : Bool) (v : FVal) : FRes :=
  match v with
  | .nan => { code := f.canonNan, flags := 0 }
  | .inf s => { code := f.signed s f.infCode, flags := 0 }
  | .fin s m e =>
    let r := f.round mode false s m e
    if r.ovf then { code := r.code, flags := fOf + fNx }
    else if ftz && f.isSub r.code then { code := f.signed s 0, flags := fUf + fNx }
    else { code := r.code, flags := (if r.tiny && r.inexact then fUf else 0) + (if r.inexact then fNx else 0) }

/-- round_fp64 and its like: RNE, SAT = 0, canonical NaN (08 R216). -/
def Fmt.rne (f : Fmt) (v : FVal) : Nat := (f.deliver .rne false v).code

/-- The widening or narrowing of a code to another format by its exact value, RNE, canonical NaN. -/
def convCode (src dst : Fmt) (c : Nat) : Nat := dst.rne (src.dec c)

/-- The minimum of 08 R232 by codes for units whose NaNs are canonical. -/
def Fmt.minCode (f : Fmt) (a b : Nat) : Nat :=
  match f.dec a, f.dec b with
  | .nan, .nan => f.canonNan
  | .nan, _ => b
  | _, .nan => a
  | x, y => if cmpV x y < 0 then a else if 0 < cmpV x y then b else if f.neg a then a else b

/-- The maximum of 08 R232 by codes for units whose NaNs are canonical. -/
def Fmt.maxOf (f : Fmt) (a b : Nat) : Nat :=
  match f.dec a, f.dec b with
  | .nan, .nan => f.canonNan
  | .nan, _ => b
  | _, .nan => a
  | x, y => if cmpV x y < 0 then b else if 0 < cmpV x y then a else if f.neg a then b else a

/-! ## Integers and converters (08 R213, R216, R221) -/

/-- The target of a conversion: a floating-point format, an integer, or an MXINT element. -/
inductive NumFmt where
  | flt (f : Fmt)
  | int (b : Nat)
  | mxint (b : Nat)
  deriving DecidableEq, Repr

/-- Bits of an element. -/
def NumFmt.bits : NumFmt → Nat
  | .flt f => f.bits
  | .int b => b
  | .mxint b => b

/-- The value of an element's code (08 R208 to R213). -/
def NumFmt.dec : NumFmt → Nat → FVal
  | .flt f, c => f.dec c
  | .int b, c => ofUnits (toSigned b c) 0 false
  | .mxint b, c => ofUnits (toSigned b c) (2 - (b : Int)) false

/-- What round_narrow gives: the code, and whether the element was saturated, a NaN or an infinity. -/
structure Narrow where
  code : Nat
  sat : Bool
  nan : Bool
  inf : Bool
  deriving DecidableEq, Repr

/-- The lowest and highest integers of an integer target (08 R213). -/
def intEnds : NumFmt → Int × Int
  | .int b => (-(2 ^ (b - 1) : Nat), (2 ^ (b - 1) : Nat) - 1)
  | .mxint b => (-((2 ^ (b - 1) : Nat) - 1), (2 ^ (b - 1) : Nat) - 1)
  | .flt _ => (0, 0)

/-- Whether a finite input lies beyond the largest finite value of the target (08 R221). -/
def beyond (f : NumFmt) (neg : Bool) (mag : Nat) (exp : Int) : Bool :=
  match f with
  | .flt g => decide (0 < cmpV (.fin false mag exp) (g.dec g.maxCode))
  | .int b =>
    let v := FVal.fin neg mag exp
    decide (cmpV v (ofUnits (intEnds (.int b)).1 0 false) < 0) || decide (0 < cmpV v (ofUnits (intEnds (.int b)).2 0 false))
  | .mxint b =>
    let v := FVal.fin neg mag exp
    decide (cmpV v (ofUnits (intEnds (.mxint b)).1 (2 - (b : Int)) false) < 0) ||
      decide (0 < cmpV v (ofUnits (intEnds (.mxint b)).2 (2 - (b : Int)) false))

/-- A finite value rounded to an integer or MXINT element: the integer before and after the range is enforced. -/
def roundInt (f : NumFmt) (mode : RMode) (neg : Bool) (mag : Nat) (exp : Int) : Int × Int × Bool :=
  let ue : Int := match f with
    | .mxint b => 2 - (b : Int)
    | _ => 0
  let r := roundUnits mode neg mag exp ue
  let y : Int := if neg then -(r.1 : Int) else r.1
  let z := if y < (intEnds f).1 then (intEnds f).1 else if (intEnds f).2 < y then (intEnds f).2 else y
  (y, z, r.2)

/-- round_narrow(x, f, mode, SAT) (08 R221). -/
def roundNarrow (f : NumFmt) (mode : RMode) (sat : Bool) (v : FVal) : Narrow :=
  match f, v with
  | .flt g, .nan => { code := g.canonNan, sat := false, nan := true, inf := false }
  | _, .nan => { code := 0, sat := false, nan := true, inf := false }
  | .flt g, .inf s =>
    if sat || g.sp == .none then { code := g.signed s g.maxCode, sat := true, nan := false, inf := true }
    else if g.sp == .e4m3 then { code := g.canonNan, sat := false, nan := false, inf := true }
    else { code := g.signed s g.infCode, sat := false, nan := false, inf := true }
  | f, .inf s =>
    { code := ofSigned f.bits (if s then (intEnds f).1 else (intEnds f).2), sat := true, nan := false, inf := true }
  | .flt g, .fin s m e =>
    let r := g.round mode sat s m e
    let finite := match g.dec r.code with
      | .fin .. => true
      | _ => false
    { code := r.code, sat := beyond (.flt g) s m e && finite, nan := false, inf := false }
  | f, .fin s m e =>
    { code := ofSigned f.bits (roundInt f mode s m e).2.1, sat := beyond f s m e, nan := false, inf := false }

/-! ## Format codes of the trellis (08 R210 to R215, R224) -/

/-- The element of a format code and whether it is an MX format; `none` for a reserved code (08 R224). -/
def fmtOfCode (c : Nat) : Option (NumFmt × Bool) :=
  match c with
  | 0x01 => some (.flt fp64, false)
  | 0x02 => some (.flt fp32, false)
  | 0x03 => some (.flt fp16, false)
  | 0x04 => some (.flt bf16, false)
  | 0x05 => some (.flt fE4m3, false)
  | 0x06 => some (.flt fE5m2, false)
  | 0x07 => some (.flt fE2m3, false)
  | 0x08 => some (.flt fE3m2, false)
  | 0x09 => some (.flt fE2m1, false)
  | 0x0A => some (.int 4, false)
  | 0x0B => some (.int 6, false)
  | 0x0C => some (.int 8, false)
  | 0x0D => some (.int 32, false)
  | 0x10 => some (.flt fE4m3, true)
  | 0x11 => some (.flt fE5m2, true)
  | 0x12 => some (.flt fE2m3, true)
  | 0x13 => some (.flt fE3m2, true)
  | 0x14 => some (.flt fE2m1, true)
  | 0x15 => some (.mxint 8, true)
  | 0x16 => some (.mxint 6, true)
  | 0x17 => some (.mxint 4, true)
  | _ => none

/-- The element of a format code, FP32 for a reserved one. -/
def elemOf (c : Nat) : NumFmt := ((fmtOfCode c).getD (.flt fp32, false)).1

/-- Whether a format code is an MX format. -/
def isMx (c : Nat) : Bool := ((fmtOfCode c).getD (.flt fp32, false)).2

/-- Bytes that `n` packed elements of a width take (08 R215). -/
def packedLen (b n : Nat) : Nat :=
  if b = 4 then ceilDiv n 2 else if b = 6 then ceilDiv n 4 * 3 else n * (b / 8)

/-- Element `i` of packed bytes (08 R215). -/
def packedGet (l : List Byte) (b i : Nat) : Nat :=
  if b = 4 then field l (i / 2) 1 / 2 ^ (4 * (i % 2)) % 16
  else if b = 6 then field l (i / 4 * 3) 3 / 2 ^ (6 * (i % 4)) % 64
  else field l (i * (b / 8)) (b / 8)

/-- The value of codes of a width placed from the least significant bit up. -/
def joinCodes (b : Nat) : List Nat → Nat
  | [] => 0
  | c :: t => c % 2 ^ b + 2 ^ b * joinCodes b t

/-- Codes packed into bytes, a partial byte or group padded with zero elements (08 R215). -/
def packCodes (b : Nat) (l : List Nat) : List Byte :=
  let g := if b = 4 then 2 else if b = 6 then 4 else 1
  (chunks g l).flatMap (fun c => bytesOf (g * b / 8) (joinCodes b c))

/-- An element with its MX scale byte applied (08 R214). -/
def scaled (x : Nat) (v : FVal) : FVal :=
  if x = 0xFF then .nan
  else
    match v with
    | .fin s m e => .fin s m (e + x - 127)
    | v => v

/-- emax of an MX element format (08 R222). -/
def mxEmax : NumFmt → Int
  | .flt f => if f = fE4m3 then 8 else if f = fE5m2 then 15 else if f = fE2m3 then 2 else if f = fE3m2 then 4 else 2
  | _ => 0

/-! ## ln_rn (10 R303) -/

/-- Bits of the fixed-point numbers in which ln is computed (log entry 13). -/
def lnBits : Nat := 320

/-- The sum of z^(2i+1) / (2i+1) from a term on; z and the power are fixed-point. -/
def atanhTail (z2 : Nat) : Nat → Nat → Nat → Nat
  | 0, _, _ => 0
  | n + 1, pow, i => pow / (2 * i + 1) + atanhTail z2 n (pow * z2 / 2 ^ lnBits) (i + 1)

/-- atanh(a / b) in fixed-point for 3a ≤ b. -/
def atanhFix (a b : Nat) : Nat :=
  let z := a * 2 ^ lnBits / b
  atanhTail (z * z / 2 ^ lnBits) 110 z 0

/-- ln of a positive value in fixed-point: k ln 2 + ln y with 1 ≤ y < 2. -/
def lnFix (mag : Nat) (exp : Int) : Int :=
  let l := bitLen mag - 1
  let y := mag - 2 ^ l
  (exp + l) * (2 * atanhFix 1 3 : Nat) + (2 * atanhFix y (mag + 2 ^ l) : Nat)

/-- ln rounded RNE to FP64: −∞ for a zero, NaN for a negative value (10 R303; log entry 13). -/
def lnRn (v : FVal) : FVal :=
  match v with
  | .nan => .nan
  | .inf s => if s then .nan else .inf false
  | .fin s m e =>
    if m = 0 then .inf true
    else if s then .nan
    else if topExp m e = 0 ∧ m = 2 ^ (bitLen m - 1) then .fin false 0 0
    else fp64.dec (fp64.rne (ofUnits (lnFix m e) (-(lnBits : Int)) false))

/-! ## Sums in a fixed tree (08 R235) -/

/-- One level of the tree. -/
def pairUp {α : Type} (op : α → α → α) : List α → List α
  | a :: b :: t => op a b :: pairUp op t
  | l => l

/-- tree_reduce over a list whose length is a power of two; `fuel` levels. -/
def treeReduce {α : Type} (op : α → α → α) (d : α) : Nat → List α → α
  | 0, l => l.headD d
  | n + 1, l => treeReduce op d n (pairUp op l)

end Sys2Proof.Machine
end

