-- ==== Sys2Proof/Machine/Operands.lean ====
section
/-! DEFINITION. Operand forms: access widths, effective addresses, lanes, masks and floating-point registers
(11 R313 to R322; 13 R372). -/

namespace Sys2Proof.Machine

open Sys2Proof

/-! ## Widths and addresses (11 R313, R316) -/

/-- Access size of a width code (11 R316). -/
def wcSize (wc : BitVec 3) : Nat := 2 ^ (wc.toNat % 4)

/-- Whether a load of the width fills the register with zeros (11 R316). -/
def wcUnsigned (wc : BitVec 3) : Bool := 4 ≤ wc.toNat

/-- The register value of a load of a width (12 R355). -/
def loadValue (wc : BitVec 3) (b : List Byte) : Word :=
  if wcUnsigned wc then wordOf b else sextW (8 * wcSize wc) (natOf b)

/-- Effective address of the M format: base plus the scaled offset (11 R313; 12 R353). -/
def mAddr (base : Word) (off : BitVec 9) (size : Nat) : Word := base + off.signExtend 64 * BitVec.ofNat 64 size

/-- Effective address of LDX and STX (12 R354). -/
def xAddr (base idx : Word) (sc : BitVec 2) : Word := base + (idx <<< sc.toNat)

/-- The low bytes of a register that a store of a size writes (12 R353). -/
def storeBytes (v : Word) (size : Nat) : List Byte := bytesOf size v.toNat

/-! ## Floating-point registers (11 R322; 13 R372) -/

/-- The format of a precision bit: 0 binary64, 1 binary32. -/
def precFmt (p : BitVec 1) : Fmt := if p = 0 then fp64 else fp32

/-- FCTL.FTZ (08 R233). -/
def Thread.ftz (x : Thread) : Bool := bit x.fctl.toNat 2

/-- FCTL.RM as a mode (08 R233). -/
def Thread.rmode (x : Thread) : RMode := rmodeOf (x.fctl.toNat % 4) 0

/-- The mode of a rounding code: 7 takes FCTL.RM (11 R322). -/
def Thread.modeOf (x : Thread) (rm : BitVec 3) : RMode := if rm = 7 then x.rmode else rmodeOf rm.toNat 0

/-- The code that fpr(n, p) reads, before FTZ (13 R372). -/
def fpCode (p : BitVec 1) (v : Word) : Nat := if p = 0 then v.toNat else v.toNat % 2 ^ 32

/-! ## Lanes, elements and masks (11 R320, R321) -/

/-- Element width of an element code (11 R320). -/
def ewBits (ew : BitVec 3) : Nat :=
  match ew.toNat with
  | 0 => 8
  | 1 => 16
  | 2 => 32
  | 3 => 64
  | 4 => 16
  | 5 => 16
  | 6 => 32
  | _ => 64

/-- Whether an element code is a floating-point one (11 R320). -/
def ewIsFp (ew : BitVec 3) : Bool := 4 ≤ ew.toNat

/-- The format of a floating-point element code (11 R320). -/
def ewFmt (ew : BitVec 3) : Fmt :=
  match ew.toNat with
  | 4 => bf16
  | 5 => fp16
  | 6 => fp32
  | _ => fp64

/-- The elements of a lane, element 0 first. -/
def elems (b : Nat) (w : Word) : List Nat := (List.range (64 / b)).map (fun j => w.toNat / 2 ^ (b * j) % 2 ^ b)

/-- The lane of a list of elements. -/
def laneOf (b : Nat) (l : List Nat) : Word := BitVec.ofNat 64 (joinCodes b l)

/-- active(i) of a lane (13 R372). -/
def Thread.active (x : Thread) (me : BitVec 1) (vm : BitVec 3) (i : Nat) : Bool :=
  me = 0 || bit (x.lane vm.toNat i).toNat 0

/-- The lanes that are active. -/
def Thread.activeLanes (x : Thread) (me : BitVec 1) (vm : BitVec 3) : List Nat :=
  (List.range 8).filter (x.active me vm)

/-- The destination after a lane-wise result: active lanes take it, the others are kept or cleared (11 R321). -/
def Thread.writeLanes (x : Thread) (vd : BitVec 3) (me : BitVec 1) (vm : BitVec 3) (pol : BitVec 1)
    (r : List Word) : Thread :=
  x.setVreg vd.toNat ((List.range 8).map (fun i =>
    if x.active me vm i then nth 0 r i else if pol = 1 then 0 else x.lane vd.toNat i))

end Sys2Proof.Machine
end

