-- ==== Sys2Proof/Machine/Registers.lean ====
section
/-! DEFINITION. The memory-mapped registers: which register stands at an address, who may access it, what it reads, and
what a write of its plain fields does (00 R6, R7; 06 R137 to R139 and the chapters that give each register). -/

namespace Sys2Proof.Machine

open Sys2Proof

/-! ## The register at an address -/

/-- The registers of the MMIO ranges (06 R137). Offsets are in bytes within the register's block. -/
inductive Reg where
  | counter (n off : Nat)
  | feed (n off : Nat)
  | vset (v off : Nat)
  | iltab
  | engstat (e : Nat)
  | gate (j off : Nat)
  | alloc (j off : Nat)
  | bauq (b : Nat)
  | ptroot (j : Nat)
  | port (j : Nat)
  | pctl (p : Nat)
  | hangcfg
  | peer (j off : Nat)
  | hostPeer (q off : Nat)
  | pwrcap
  | startstat
  | podcfg
  | ptpctl
  | ptpstat
  | ahq (q off : Nat)
  deriving DecidableEq, Repr

/-- The register of the management block at an offset from 0xFE_F000_0000 (02 R37, R48; 03 R71, R76; 04 R79). -/
def mgmtReg (o : Nat) : Option Reg :=
  if o = 0 then some .pwrcap
  else if o = 8 then some .startstat
  else if o = 0x100 then some .podcfg
  else if o = 0x110 then some .ptpctl
  else if o = 0x118 then some .ptpstat
  else if 0x200 ≤ o ∧ o < 0x280 then some (.ahq ((o - 0x200) / 0x20) ((o - 0x200) % 0x20))
  else none

/-- The order-gate block at an offset from 0xFE_4000_0000 (10 R298; 13 R414). -/
def gateReg (o : Nat) : Option Reg :=
  if o < 0x4000 then (if o % 0x40 < 0x18 then some (.gate (o / 0x40) (o % 0x40)) else none)
  else if 0x8000 ≤ o ∧ o < 0x9000 then some (.alloc ((o - 0x8000) / 0x10) (o % 0x10))
  else none

/-- The cellarmaster's block at an offset from 0xFE_D000_0000 (05 R114, R132, R136). -/
def masterReg (o : Nat) : Option Reg :=
  if o < 0x1_0000 then (if o % 0x100 = 0 then some (.port (o / 0x100)) else none)
  else if o < 0x1_0100 then some (.pctl ((o - 0x1_0000) / 8))
  else if o = 0x1_0100 then some .hangcfg
  else none

/-- The register at an 8-byte-aligned physical address, where one stands there (06 R138). -/
def regAt (pa : Nat) : Option Reg :=
  if 0xFE_0000_0000 ≤ pa ∧ pa < 0xFE_0010_0000 then
    some (.counter ((pa - 0xFE_0000_0000) / 0x40) (pa % 0x40))
  else if 0xFE_0800_0000 ≤ pa ∧ pa < 0xFE_0C00_0000 then
    some (.feed ((pa - 0xFE_0800_0000) / 0x1000) (pa % 0x1000))
  else if 0xFE_1000_0000 ≤ pa ∧ pa < 0xFE_1001_0000 then some (.vset ((pa - 0xFE_1000_0000) / 64) (pa % 64))
  else if pa = 0xFE_2000_0000 then some .iltab
  else if 0xFE_3000_0000 ≤ pa ∧ pa < 0xFE_3000_2000 then
    (if pa % 0x100 = 0 then some (.engstat ((pa - 0xFE_3000_0000) / 0x100)) else none)
  else if 0xFE_4000_0000 ≤ pa ∧ pa < 0xFE_4001_0000 then gateReg (pa - 0xFE_4000_0000)
  else if 0xFE_5000_0000 ≤ pa ∧ pa < 0xFE_5002_0000 then some (.bauq ((pa - 0xFE_5000_0000) / 8))
  else if 0xFE_6000_0000 ≤ pa ∧ pa < 0xFE_6000_0800 then some (.ptroot ((pa - 0xFE_6000_0000) / 8))
  else if 0xFE_D000_0000 ≤ pa ∧ pa < 0xFE_D001_0108 then masterReg (pa - 0xFE_D000_0000)
  else if 0xFE_E000_0000 ≤ pa ∧ pa < 0xFE_E200_0000 then
    some (.peer ((pa - 0xFE_E000_0000) / 0x2_0000) (pa % 0x2_0000))
  else if 0xFE_E200_0000 ≤ pa ∧ pa < 0xFE_E200_0080 then
    some (.hostPeer ((pa - 0xFE_E200_0000) / 32) (pa % 32))
  else if 0xFE_F000_0000 ≤ pa ∧ pa < 0xFE_F000_0300 then mgmtReg (pa - 0xFE_F000_0000)
  else none

/-! ## Who may access a register (06 R139) -/

/-- Whether an accessor is firmware. -/
def whoFw (w : Who) : Bool := w.level == .firmware

/-- Whether an accessor is a supervisor thread of a job. -/
def whoSuperOf (w : Who) (j : Nat) : Bool := w.level == .supervisor && w.job == j

/-- Whether an accessor is a supervisor thread of any job. -/
def whoSuper (w : Who) : Bool := w.level == .supervisor

/-- The partition that holds a number (05 R105). -/
def State.partNo (s : State) (n : Nat) : Option Nat := (s.parts.find? (fun p => p.2.num == some n)).map (·.1)

/-- The schedule that ended last under a partition number. -/
def State.lastOf (s : State) (n : Nat) : Option LastSchedule := Store.get none n s.lastPctl

/-- The job that owns the partition of a number; for a free number, the owner of the schedule that ended there last, whose
FREEZE the register still shows (05 R136; 15 R471). -/
def State.partJob (s : State) (n : Nat) : Option Nat :=
  match s.partNo n with
  | some k => some (s.part k).job
  | none => (s.lastOf n).map (·.job)

/-- Who may read a register. -/
def State.mayRead (s : State) (w : Who) : Reg → Bool
  | .counter n _ => whoFw w || (match (s.counter n).owner with | some j => whoSuperOf w j | none => false)
  | .feed _ _ => true
  | .vset v _ => whoFw w || ((s.vset v).used && whoSuperOf w (s.vset v).owner)
  | .iltab => whoFw w
  | .engstat _ => whoFw w || whoSuper w
  | .gate j _ => whoFw w || whoSuperOf w j
  | .alloc j _ => whoFw w || whoSuperOf w j
  | .bauq _ => whoFw w || whoSuper w
  | .ptroot _ => false
  | .port j => whoFw w || whoSuperOf w j
  | .pctl p => whoFw w || (match s.partJob p with | some j => whoSuperOf w j | none => false)
  | .hangcfg => whoFw w || whoSuper w
  | .peer j _ => whoFw w || whoSuperOf w j
  | .hostPeer _ _ => whoFw w
  | .pwrcap => whoFw w || whoSuper w
  | .startstat => whoFw w || whoSuper w
  | .podcfg => whoFw w || whoSuper w
  | .ptpctl => whoFw w || whoSuper w
  | .ptpstat => whoFw w || whoSuper w
  | .ahq _ _ => whoFw w

/-- Who may write a register. -/
def State.mayWrite (s : State) (w : Who) : Reg → Bool
  | .counter _ _ => whoFw w
  | .feed _ _ => true
  | .vset _ _ => whoFw w
  | .iltab => whoFw w
  | .engstat _ => false
  | .gate j _ => whoFw w || whoSuperOf w j
  | .alloc j _ => whoFw w || whoSuperOf w j
  | .bauq _ => false
  | .ptroot _ => false
  | .port j => whoFw w || whoSuperOf w j
  | .pctl p => whoFw w || (match s.partJob p with | some j => whoSuperOf w j | none => false)
  | .hangcfg => whoFw w
  | .peer j _ => whoFw w || whoSuperOf w j
  | .hostPeer _ _ => whoFw w
  | .pwrcap => whoFw w
  | .startstat => whoFw w
  | .podcfg => whoFw w
  | .ptpctl => whoFw w
  | .ptpstat => whoFw w
  | .ahq _ _ => whoFw w

/-! ## What a register reads -/

/-- A field value placed at a bit. -/
def at' (v lo : Nat) : Nat := v * 2 ^ lo

/-- The counter's register at an offset (06 R163). -/
def Counter.read (c : Counter) (off : Nat) : Nat :=
  match off / 8 with
  | 0 => c.total.toNat
  | 1 => c.count.toNat + at' (b2n c.armed) 48 + at' (b2n c.fired) 49 + at' (b2n c.overran) 50 +
      at' (c.owner.getD 0) 52 + at' (b2n (c.owner.isSome || c.fw)) 60 + at' (b2n c.fw) 61
  | 2 => c.kind.toNat + at' c.arg.toNat 8
  | 7 => 0
  | k => (nth 0 c.lg (k - 3)).toNat

/-- The 64 bytes of a vintage-set descriptor (06 R164). -/
def VSet.record (v : VSet) : List Byte :=
  bytesOf 4 v.len ++ bytesOf 1 v.ncopy ++ bytesOf 1 v.pubcopy ++ bytesOf 2 v.owner ++ bytesOf 4 v.pub.toNat ++
    (List.range 4).flatMap (fun k => bytesOf 2 (nth 0 v.latch k).toNat) ++ List.replicate 12 0 ++
    (List.range 4).flatMap (fun k => bytesOf 8 (nth 0 v.copypa k))

/-- The set of a descriptor's 64 bytes. -/
def VSet.ofRecord (b : List Byte) : VSet :=
  { used := decide (field b 0 4 ≠ 0), len := field b 0 4, ncopy := field b 4 1, pubcopy := field b 5 1,
    owner := field b 6 2, pub := BitVec.ofNat 32 (field b 8 4),
    latch := (List.range 4).map (fun k => BitVec.ofNat 16 (field b (12 + 2 * k) 2)),
    copypa := (List.range 4).map (fun k => field b (32 + 8 * k) 8) }

/-- ENGSTAT (10 R297). -/
def Engine.stat (e : Engine) : Nat :=
  e.queue.length + at' (b2n (e.queue.any (·.started))) 5 + at' e.done.toNat 8 + at' e.errs.toNat 40

/-- The order-gate registers of a job (10 R298). -/
def Job.gateRead (j : Job) (off : Nat) : Nat :=
  match off / 8 with
  | 0 => j.logva.toNat + at' j.seglog2 48
  | 1 => j.digva.toNat + at' j.dseglog2 48
  | _ => b2n j.lost + at' (b2n j.dlost) 1

/-- ALCCFG of a job (13 R414). -/
def Job.allocRead (j : Job) (off : Nat) : Nat :=
  if off < 8 then j.sizelog2 + j.base.toNat else j.liveBlocks.length

/-- BAUQ of a bank (06 R176). DESIGN CHOICE: the command at the head of the FIFO counts as the one being performed, so BUSY is 1
while the FIFO holds any (log entry 159). -/
def Bank.stat (b : Bank) : Nat := b.fifo.length + at' (b2n (!b.fifo.isEmpty)) 5 + at' b.errs.toNat 8

/-- The code of a partition's state (05 R136). -/
def Partition.code (p : Partition) : Nat :=
  match p.st with
  | .free => 0
  | .loading => 1
  | .running => if p.frozen then 3 else 2
  | .frozen => 3
  | .faulted => 4
  | .preempted => 5

/-- PCTL of a partition (05 R136). -/
def Partition.pctl (p : Partition) : Nat :=
  at' p.code 4 + at' p.lastFault 8 + at' p.job 16 + at' (p.freezeCycles % 2 ^ 40) 24

/-- Whether this package is the pod's root: the one at pod coordinates 0, 0, 0 of a formed pod (03 R71, R72). -/
def Pod.isRoot (p : Pod) : Bool := p.form && p.px == 0 && p.py == 0 && p.pz == 0

/-- PODCFG (03 R71). -/
def Pod.read (p : Pod) : Nat :=
  p.dxm.toNat + at' p.dym.toNat 3 + at' p.dzm.toNat 6 + at' p.px.toNat 9 + at' p.py.toNat 12 + at' p.pz.toNat 15 +
    at' (b2n p.form) 18 + at' (b2n p.isRoot) 19 + at' p.tlat.toNat 20 +
    ((List.range 6).map (fun i => at' (b2n (Store.get Tendril.init i p.ports).up) (32 + i))).foldl (· + ·) 0 +
    at' (b2n p.locked) 38

/-- PWRCAP (02 R37). -/
def Power.read (p : Power) : Nat := p.cap + at' p.duty 16 + at' (b2n p.therm) 20

/-- STARTSTAT (02 R48). -/
def Starts.read (p : Starts) : Nat :=
  p.fails + at' (b2n p.safe) 2 + at' (b2n p.warm) 3 + at' (b2n p.trainKept) 4 + at' p.step 8

/-- PTPCTL (03 R76). -/
def Ptp.ctl (p : Ptp) : Nat :=
  p.epoch.toNat + at' p.port.toNat 48 + at' (b2n p.enable) 51 + at' p.domain.toNat 52

/-- PTPSTAT (03 R76). -/
def Ptp.stat (p : Ptp) : Nat :=
  p.offset.toNat + at' (b2n p.locked) 32 + at' (b2n p.outbound) 33 + at' (b2n p.stepped) 34

/-- An Ahnaux queue. -/
def State.queue (s : State) (q : Nat) : AhQueue := (Store.get none q s.pkg.queues).getD (AhQueue.init q)

/-- The state with an Ahnaux queue replaced. -/
def State.setQueue (s : State) (q : Nat) (x : AhQueue) : State :=
  s.setPkg { s.pkg with queues := Store.put none q (some x) s.pkg.queues }

/-- The registers of an Ahnaux queue (04 R79). -/
def State.queueRead (s : State) (q off : Nat) : Nat :=
  let x := s.queue q
  match off / 8 with
  | 0 => b2n x.enable + at' (b2n x.cerr) 1
  | 1 => x.base
  | 2 => x.ring.toNat
  | _ => x.nextseq.toNat + at' ((s.pkg.pendCmds.filter (fun c => c.q == q)).length % 256) 32

/-- What a register reads. -/
def State.regValue (s : State) : Reg → Nat
  | .counter n off => (s.counter n).read off
  | .feed n off => if off = 0 then (s.counter n).count.toNat else 0
  | .vset v off => field (s.vset v).record off 8
  | .iltab => s.iltab.toNat
  | .engstat e => (s.engine e).stat
  | .gate j off => (s.job j).gateRead off
  | .alloc j off => (s.job j).allocRead off
  | .bauq b => (s.bank b).stat
  | .ptroot j => Store.get 0 j s.ptroot
  | .port _ => 0
  | .pctl p =>
    match s.partNo p, s.lastOf p with
    | some k, _ => (s.part k).pctl
    | none, some l => at' l.fault 8 + at' l.job 16 + at' (l.freeze % 2 ^ 40) 24
    | none, none => 0
  | .hangcfg => s.hangMs
  | .peer j off => natOf (getBytes s.peers (0xFE_E000_0000 + j * 0x2_0000 + off) 8)
  | .hostPeer q off => natOf (getBytes s.peers (0xFE_E200_0000 + q * 32 + off) 8)
  | .pwrcap => s.pkg.power.read
  | .startstat => s.pkg.starts.read
  | .podcfg => s.pkg.pod.read
  | .ptpctl => s.pkg.ptp.ctl
  | .ptpstat => s.pkg.ptp.stat
  | .ahq q off => s.queueRead q off

/-- A read of an MMIO address: the value, or none where PROT is raised (06 R138, R139). -/
def State.mmioRead (s : State) (w : Who) (pa : Nat) : Option Word :=
  match regAt pa with
  | none => none
  | some r => if s.mayRead w r then some (BitVec.ofNat 64 (s.regValue r)) else none

/-! ## What a write does -/

/-- The counter's register written by firmware; TOTAL is COUNTER_TOTAL_WRITE's, and KIND keeps its value where 5 to 7, which are
reserved, are written (00 R7; 06 R161, R163). -/
def Counter.write (c : Counter) (off v : Nat) : Counter :=
  match off / 8 with
  | 2 => { c with kind := if v % 8 < 5 then BitVec.ofNat 3 v else c.kind, arg := BitVec.ofNat 56 (v / 256) }
  | 3 => { c with lg := setAt c.lg 0 (BitVec.ofNat 64 v) }
  | 4 => { c with lg := setAt c.lg 1 (BitVec.ofNat 64 v) }
  | 5 => { c with lg := setAt c.lg 2 (BitVec.ofNat 64 v) }
  | 6 => { c with lg := setAt c.lg 3 (BitVec.ofNat 64 v) }
  | _ => c

/-- Bytes of a record replaced. -/
def putSub (b : List Byte) (off : Nat) (d : List Byte) : List Byte := b.take off ++ d ++ b.drop (off + d.length)

/-- An order-gate register written; a SEGLOG2 outside 12 to 24 is a reserved value (10 R298; 00 R7). -/
def Job.gateWrite (j : Job) (off v : Nat) : Job :=
  let va : Word := BitVec.ofNat 64 (bits v 47 12 * 4096)
  let sg := bits v 52 48
  let ok := decide (12 ≤ sg) && decide (sg ≤ 24)
  match off / 8 with
  | 0 => { j with logva := va, seglog2 := if ok then sg else j.seglog2 }
  | 1 => { j with digva := va, dseglog2 := if ok then sg else j.dseglog2 }
  | _ => j

/-- Whether a user kernel of a job runs. -/
def State.userKernelRuns (s : State) (j : Nat) : Bool :=
  s.kernels.any (fun p => decide (p.1 / 2 ^ 32 = j) && p.2.level == .user && p.2.st == .running)

/-- The writable bits of byte `k` of a peer entry (03 R56). -/
def peerMask (k : Nat) : Byte := if k = 19 ∨ 24 ≤ k then 0 else if k = 21 then 3 else 255

/-- Eight bytes of a peer entry written, its reserved bits ignored (03 R56). -/
def State.peerWrite (s : State) (pa v : Nat) : State :=
  { s with peers := putBytes s.peers pa ((indexed (bytesOf 8 v)).map (fun p => p.2 &&& peerMask ((pa + p.1) % 32))) }

/-- PODCFG's fields written (03 R71). -/
def Pod.write (p : Pod) (v : Nat) : Pod :=
  if p.form then p
  else { p with dxm := BitVec.ofNat 3 v, dym := BitVec.ofNat 3 (v / 8), dzm := BitVec.ofNat 3 (v / 64),
                px := BitVec.ofNat 3 (v / 2 ^ 9), py := BitVec.ofNat 3 (v / 2 ^ 12), pz := BitVec.ofNat 3 (v / 2 ^ 15),
                tlat := if 24 ≤ bits v 31 20 then BitVec.ofNat 12 (v / 2 ^ 20) else p.tlat }

/-- PTPCTL written (03 R76). -/
def Ptp.write (p : Ptp) (v : Nat) : Ptp :=
  { p with epoch := BitVec.ofNat 48 v, port := BitVec.ofNat 3 (v / 2 ^ 48), enable := bit v 51,
           domain := BitVec.ofNat 7 (v / 2 ^ 52) }

/-- An Ahnaux queue's registers written, but for a rise of ENABLE (04 R79). -/
def AhQueue.write (x : AhQueue) (off v : Nat) : AhQueue :=
  match off / 8 with
  | 0 => { x with cerr := x.cerr && !bit v 1, enable := x.enable && bit v 0 }
  | 1 => if x.enable then x else { x with base := bits v 39 12 * 4096 }
  | 2 => { x with ring := BitVec.ofNat 64 v }
  | _ => x

/-- The event of its own that a write of a register is, where it is one. -/
def State.regEvent (s : State) (r : Reg) (v : Word) : Option (Instr × Arg) :=
  match r with
  | .counter n off => if off < 8 then some (.counterTotalWrite, Arg.ofNV n v) else none
  | .feed n off => if off = 0 then some (.counterFeedWrite, Arg.ofNV n v) else none
  | .alloc j off => if off < 8 then some (.alccfgWrite, Arg.ofNV j v) else none
  | .port j => some (.launchPort, Arg.ofNV j v)
  | .pctl p =>
    if v.toNat % 16 = 1 then some (.pctlContinue, Arg.ofN p)
    else if v.toNat % 16 = 2 then some (.pctlAbort, Arg.ofN p) else none
  | .podcfg =>
    if v.getLsbD 18 && !s.pkg.pod.form then some (.podForm, Arg.ofNV 0 v)
    else if !v.getLsbD 18 && s.pkg.pod.form then some (.podDissolve, Arg.ofNV 0 v) else none
  | .ahq q off => if off < 8 ∧ v.getLsbD 0 ∧ !(s.queue q).enable then some (.ahqctlEnable, Arg.ofNV q v) else none
  | _ => none

/-- The plain fields of a register written (00 R6, R7). -/
def State.regWrite (s : State) (r : Reg) (v : Word) : State :=
  let n := v.toNat
  match r with
  | .counter c off => s.setCounter c ((s.counter c).write off n)
  | .vset k off => s.setVset k (VSet.ofRecord (putSub (s.vset k).record (off / 8 * 8) (wordBytes v)))
  | .iltab => if s.jobOpened then s else { s with iltab := v }
  | .gate j off => if s.userKernelRuns j then s else s.setJob j ((s.job j).gateWrite off n)
  | .hangcfg => if 1 ≤ n % 2 ^ 32 ∧ n % 2 ^ 32 ≤ 3600000 then { s with hangMs := n % 2 ^ 32 } else s
  | .peer j off => s.peerWrite (0xFE_E000_0000 + j * 0x2_0000 + off) n
  | .hostPeer q off => s.peerWrite (0xFE_E200_0000 + q * 32 + off) n
  | .pwrcap =>
    if 1200 ≤ n % 4096 ∧ n % 4096 ≤ 3000 then
      s.setPkg { s.pkg with power := { s.pkg.power with cap := n % 4096 } }
    else s
  | .podcfg => s.setPkg { s.pkg with pod := s.pkg.pod.write n }
  | .ptpctl => s.setPkg { s.pkg with ptp := s.pkg.ptp.write n }
  | .ptpstat => s.setPkg { s.pkg with ptp := { s.pkg.ptp with stepped := s.pkg.ptp.stepped && !v.getLsbD 34 } }
  | .ahq q off => s.setQueue q ((s.queue q).write off n)
  | _ => s

/-- A write of a register that the accessor may write: its plain fields, and the event that the write is, which is
performed next. -/
def State.mmioWrite (s : State) (w : Who) (r : Reg) (v : Word) : State :=
  match s.regEvent r v with
  | some (i, a) => (s.regWrite r v).push i { a with who := w }
  | none => s.regWrite r v

/-- REGISTER_WRITE: `arg.who` writes `arg.v` at physical address `arg.n`. A write that R139 does not permit changes
nothing here: its thread has taken PROT. -/
def execRegisterWrite (s : State) : Out :=
  match regAt s.arg.n with
  | some r => .next (if s.mayWrite s.arg.who r then s.mmioWrite s.arg.who r s.arg.v else s)
  | none => .next s

/-! ## Registers whose write is an event of its own -/

/-- The allocator of a job with an empty arena (13 R414, R415). -/
def Job.clearArena (j : Job) : Job :=
  { j with freeBlocks := if j.sizelog2 = 0 then [] else [(0, j.sizelog2)], liveBlocks := [] }

/-- ALCCFG_WRITE: `arg.v` is written to ALCCFG of job `arg.n`; an improper value, or one written while a user kernel
runs, is ignored whole (10 R298; 13 R414). -/
def execAlccfgWrite (s : State) : Out :=
  let v := s.arg.v.toNat
  let sz := v % 64
  let base := bits v 47 12 * 4096
  if s.userKernelRuns s.arg.n ∨ !(sz == 0 || (decide (16 ≤ sz) && decide (sz ≤ 36))) ∨ base % 2 ^ sz ≠ 0 then .next s
  else
    .next (s.setJob s.arg.n ({ s.job s.arg.n with sizelog2 := sz, base := BitVec.ofNat 64 base }).clearArena)

end Sys2Proof.Machine
end

