-- ==== Sys2Proof/Machine/Agents.lean ====
section
/-! DEFINITION. Accesses to a job's space by agents that are no thread: engines, counters, the cellarmaster, Ethernet
(06 R146, R151, R152; 03 R59). -/

namespace Sys2Proof.Machine

open Sys2Proof

/-! ## Full and empty bits (06 R148) -/

/-- Key of the full/empty bit of a local-store address. -/
def feKey (c off : Nat) : Nat := c * 16384 + off / 8

/-- The full/empty bit of a local-store word. -/
def State.isFull (s : State) (c off : Nat) : Bool := Store.get false (feKey c off) s.fulls

/-- The full/empty bit of a local-store word set. -/
def State.setFull (s : State) (c off : Nat) (v : Bool) : State :=
  { s with fulls := Store.put false (feKey c off) v s.fulls }

/-- Core and offset of a local-store address. -/
def localOf (pa : Nat) : Nat × Nat :=
  match spaceOf pa with
  | .loc c o => (c, o)
  | .fe c o => (c, o)
  | _ => (0, 0)

/-- The gate of a core's ring tails: its local-store controller (10 R299). -/
def gateRing (c : Nat) : Nat := 512 + c

/-- The service event of a gate put next, where requests wait there. -/
def State.nudge (s : State) (g : Nat) : State :=
  if s.gateQueue.any (fun r => r.gate == g && !r.held) then s.push .gatedRequestService (Arg.ofN g) else s

/-! ## The home's bytes, the full/empty view included (06 R148) -/

/-- The byte that a home gives at an address. -/
def State.homeByte (s : State) (pa : Nat) : Byte :=
  match spaceOf pa with
  | .fe c o => if o % 8 = 0 ∧ s.isFull c o then 1 else 0
  | _ => s.byte pa

/-- Whether an address lies in the full/empty view. -/
def isView (pa : Nat) : Bool := decide (feBase ≤ pa) && decide (pa < 0x81_1000_0000)

/-- A store through the full/empty view: bit 0 of each word's first byte becomes the word's bit; a change offers the
word's gate to its waiting requests (06 R148). -/
def State.viewStore (s : State) (pa : Nat) (b : List Byte) : State :=
  ((indexed b).foldl (fun w p =>
    if (pa + p.1) % 8 = 0 then w.setFull (localOf (pa + p.1)).1 (localOf (pa + p.1)).2 (p.2.getLsbD 0) else w) s).nudge
    (gateRing (localOf pa).1)

/-- The bytes that a home answers a read with: those of memory, or of the full/empty view (06 R148). -/
def State.homeBytes (s : State) (pa n : Nat) : List Byte :=
  if isView pa then (List.range n).map (fun i => s.homeByte (pa + i)) else s.bytes pa n

/-- A write of an atomic or a region performed at its home, or made through the full/empty view (06 R148). -/
def State.putHome (s : State) (pa : Nat) (b : List Byte) (w : WTag) : State :=
  if isView pa then s.viewStore pa b else s.perform pa b w

/-- A buffered byte as a load of its address returns it: of the full/empty view bit 0 of each word alone (06 R148). -/
def viewByte (pa : Nat) (b : Byte) : Byte := if isView pa then (if pa % 8 = 0 then b &&& 1 else 0) else b

/-! ## Ranges of a job's space -/

/-- A range cut at every 256-byte boundary, which every home and page boundary is (06 R141, R151). -/
def cut256 : Nat → Nat → Nat → List (Nat × Nat)
  | 0, _, _ => []
  | fuel + 1, va, n =>
    if n = 0 then []
    else
      let a := Nat.min n (256 - va % 256)
      (va, a) :: cut256 fuel (va + a) (n - a)

/-- The pieces of a range. -/
def pieces (va n : Nat) : List (Nat × Nat) := cut256 (n / 256 + 2) va n

/-- Why an agent's range does not translate: a cause of R133, or 0 for a page that is migrating. -/
abbrev XErr := Nat

/-- The physical pieces of a range of a job's space, with the first failure otherwise (06 R142 to R145). -/
def State.vaPieces (s : State) (j : Nat) (lvl : Level) (need : Need) (tlb : List Leaf) :
    List (Nat × Nat) → Except XErr (List (Nat × Nat))
  | [] => .ok []
  | (va, n) :: t =>
    match s.xlateWalk j lvl va need tlb with
    | .miss => .error 0
    | .cause c => .error c
    | .pa a _ =>
      match s.vaPieces j lvl need tlb t with
      | .error e => .error e
      | .ok l => .ok ((a, n) :: l)

/-- The physical pieces of a range. -/
def State.vaRange (s : State) (j : Nat) (lvl : Level) (need : Need) (va n : Nat) (tlb : List Leaf := []) :
    Except XErr (List (Nat × Nat)) :=
  s.vaPieces j lvl need tlb (pieces va n)

/-- The cause of an answer that refuses; 0 for one that asks to wait or to come again. -/
def Ans.err : Ans → XErr
  | .ok => 0
  | .cause c => c
  | .held _ => 0
  | .moved => 0

/-- Whether an address is MMIO or none at all. -/
def noStorage (pa : Nat) : Bool := isMmio pa || isHole pa

/-- The bytes of physical pieces read at their homes by an agent of a job. -/
def State.readPieces (s : State) (j : Nat) : List (Nat × Nat) → Except XErr (List Byte)
  | [] => .ok []
  | (pa, n) :: t =>
    if noStorage pa then .error cProt
    else
      match s.readAns pa n j with
      | .ok =>
        match s.readPieces j t with
        | .error e => .error e
        | .ok l => .ok ((List.range n).map (fun i => s.homeByte (pa + i)) ++ l)
      | a => .error a.err

/-- A range of a job's space read by an agent at a level. -/
def State.readVa (s : State) (j : Nat) (lvl : Level) (va n : Nat) (tlb : List Leaf := []) : Except XErr (List Byte) :=
  match s.vaRange j lvl needRd va n tlb with
  | .error e => .error e
  | .ok ps => s.readPieces j ps

/-- The first refusal among physical pieces that an agent of a job would write. -/
def State.writeErr (s : State) (j : Nat) (ps : List (Nat × Nat)) : Option Ans :=
  (ps.map (fun p => if noStorage p.1 then Ans.cause cProt else s.writeAns p.1 p.2 j)).find? (fun a => a != .ok)

/-- Bytes written to physical pieces in order. -/
def State.writePieces (s : State) (w : WTag) (quiet : Bool) : List (Nat × Nat) → List Byte → State
  | [], _ => s
  | (pa, n) :: t, b =>
    let s1 := if isView pa then s.viewStore pa (b.take n)
      else if quiet then s.performQuiet pa (b.take n) w else s.perform pa (b.take n) w
    s1.writePieces w quiet t (b.drop n)

/-- A range of a job's space written by an agent, with nothing written where any piece refuses. -/
def State.writeVa (s : State) (j : Nat) (lvl : Level) (va : Nat) (b : List Byte) (w : WTag) (quiet : Bool)
    (tlb : List Leaf := []) : Except XErr State :=
  match s.vaRange j lvl needWr va b.length tlb with
  | .error e => .error e
  | .ok ps =>
    match s.writeErr j ps with
    | some a => .error a.err
    | none => .ok (s.writePieces w quiet ps b)

/-! ## Side-band flits (03 R67, R68) -/

/-- The 64 bytes of a side-band flit (03 R67). -/
def flitBytes (type id : Nat) (at_ : Word) (body : List Byte) : List Byte :=
  let b := bytesOf 1 type ++ bytesOf 1 id ++ List.replicate 6 0 ++ wordBytes at_ ++ (body ++ List.replicate 44 0).take 44
  b ++ bytesOf 4 (crc32c b).toNat

/-! ## The torus of a pod (03 R64, R72) -/

/-- The size of a dimension of the torus that PODCFG declares: 0 X, 1 Y, 2 Z. -/
def Pod.size (p : Pod) (dim : Nat) : Nat :=
  (if dim = 0 then p.dxm.toNat else if dim = 1 then p.dym.toNat else p.dzm.toNat) + 1

/-- A pod coordinate. -/
def Pod.coord (p : Pod) (dim : Nat) : Nat := if dim = 0 then p.px.toNat else if dim = 1 then p.py.toNat else p.pz.toNat

/-- Whether this package holds a spanning partition's origin block (09 R270). -/
def State.isAnchor (s : State) (p : Partition) : Bool :=
  p.ox / 4 == s.pkg.pod.px.toNat && p.oy / 4 == s.pkg.pod.py.toNat

/-- Whether this package holds a part of a spanning partition whose anchor is another. -/
def State.isPart (s : State) (p : Partition) : Bool := p.span && !s.isAnchor p

/-- Whether a tendril port's dimension has more than one package. -/
def Pod.portUsed (p : Pod) (port : Nat) : Bool := decide (1 < p.size (port / 2))

/-- A tendril port. -/
def Pod.port (p : Pod) (n : Nat) : Tendril := Store.get Tendril.init n p.ports

/-- The upstream port of a package other than the root (03 R72). -/
def Pod.upstream (p : Pod) : Option Nat :=
  ((List.range 3).find? (fun d => p.coord d != 0)).map (fun d => if p.coord d ≤ p.size d / 2 then 2 * d + 1 else 2 * d)

/-- Whether the way of a member's barrier arrivals to the root begins with a port that is up (03 R70). -/
def Pod.upstreamUp (p : Pod) : Bool :=
  match p.upstream with
  | some n => (p.port n).up
  | none => true

/-- Tendril ports that are up. -/
def Pod.livePorts (p : Pod) : List Nat := (List.range 6).filter (fun n => (p.port n).up)

/-- The span of a rectangle over packages in one dimension. -/
def spanOf (o n : Nat) : Nat × Nat := (o / 4, (o + n - 1) / 4)

/-- Whether a spanning partition has a route or a broadcast on a tendril port of this package (03 R70; 09 R270). -/
def State.usesPort (s : State) (p : Partition) (port : Nat) : Bool :=
  let pod := s.pkg.pod
  let x := spanOf p.ox p.w
  let y := spanOf p.oy p.h
  p.span &&
    (match port with
      | 0 => decide (pod.px.toNat < x.2)
      | 1 => decide (x.1 < pod.px.toNat)
      | 2 => decide (pod.py.toNat < y.2)
      | 3 => decide (y.1 < pod.py.toNat)
      | _ => false)

/-- Cycles between the side-band slots of a port (03 R65). -/
def slotGap : Nat := 8

/-- Cycles from now to the side-band slot that a port's next flit takes: a port has a slot at every eighth cycle of PTIME, and one
flit in each (03 R65). -/
def State.slotWait (s : State) (port : Nat) : Nat :=
  let first := (slotGap - s.ptime.toNat % slotGap) % slotGap
  let busy := (s.pkg.pod.port port).slotFree - s.cyc
  first + (busy - first + (slotGap - 1)) / slotGap * slotGap

/-- PTIME of that slot. -/
def State.slotTime (s : State) (port : Nat) : Word := s.ptime + BitVec.ofNat 64 (s.slotWait port)

/-- A side-band flit sent over one port: its type, ID, WHEN and body; it leaves in the port's next free slot (03 R65, R67,
R68). -/
def State.sidebandOn (s : State) (type id : Nat) (at_ : Word) (body : List Byte) (port : Nat) : State :=
  let pod := s.pkg.pod
  let leaves := s.cyc + s.slotWait port
  { s with
    outbox := s.outbox ++
      [{ kind := 6, op := type, job := 0, peer := port, va := s.slotTime port, data := flitBytes type id at_ body, rel := false,
         ports := BitVec.ofNat 8 (2 ^ port) }],
    pkg := { s.pkg with pod := { pod with
      ports := Store.put Tendril.init port { pod.port port with slotFree := leaves + slotGap } pod.ports } } }

/-- A side-band flit sent over ports, one copy on each. Which way a flit takes through a pod is not stated: one for a partition
leaves on the ports that the partition uses, one for the pod on every port that is up, a barrier's arrival on the upstream
port (log entry 150). -/
def State.sideband (s : State) (ports : List Nat) (type id : Nat) (at_ : Word) (body : List Byte) : State :=
  ports.foldl (fun (w : State) n => w.sidebandOn type id at_ body n) s

/-- The ports on which a partition's flits leave. -/
def State.partPorts (s : State) (p : Partition) : List Nat := s.pkg.pod.livePorts.filter (s.usesPort p)

/-- A value that a spanning partition's check point sends to its other packages: 0 a freeze, 1 a PTIME sample, 2 a vintage
sample, 3 a choice (03 R68; 09 R271). -/
def State.spread (s : State) (p : Partition) (kind : Nat) (at_ : Word) (value : List Byte) : State :=
  if p.span then s.sideband (s.partPorts p) 5 p.flitId at_ (bytesOf 1 kind ++ value) else s

/-- A member's arrival at a pod barrier sent over its upstream port, where that is up (03 R68, R70). -/
def State.tellRoot (s : State) (id : Nat) (body : List Byte) : State :=
  match s.pkg.pod.upstream with
  | some n => if s.pkg.pod.upstreamUp then s.sideband [n] 4 id s.ptime body else s
  | none => s

/-- The body of a link-management flit about a spanning partition: what it says (1 a claim, 2 its answer, 3 a claim given up, 4
a part's schedule over, 5 the partition ended), the answer, the job, the claim, the rectangle, and the sender's place (03 R68;
09 R270; log entry 156). -/
def State.linkBody (s : State) (what answer job no : Nat) (r : List Nat) : List Byte :=
  bytesOf 1 what ++ bytesOf 1 answer ++ bytesOf 2 job ++ bytesOf 4 no ++ r.flatMap (bytesOf 2) ++ bytesOf 1 s.pkg.pod.px.toNat ++
    bytesOf 1 s.pkg.pod.py.toNat

/-- A link-management flit about a spanning partition sent. -/
def State.tellPeers (s : State) (p : Partition) (what answer : Nat) : State :=
  s.sideband (s.partPorts p) 8 p.flitId s.ptime (s.linkBody what answer p.job p.claimNo [p.ox, p.oy, p.w, p.h])

/-! ## Packets that wait (03 R59; 05 R124) -/

/-- The event that a packet of a kind is: 0 write, 1 read, 2 fetch-add, 3 add. -/
def packetAct (p : Nat × Packet) : Act :=
  let i := match p.1 with
    | 0 => Instr.rmaWrite
    | 1 => .rmaRead
    | 2 => .fetchAdd
    | _ => .nonFetchingAtomicAdd
  .event i { Arg.init with pkt := p.2 }

end Sys2Proof.Machine
end

