-- ==== Sys2Proof/Machine/Flags.lean ====
section
/-! DEFINITION. Floating-point exceptions of a Newt thread: FSTAT, FCTL's enables, the FP trap, and the element operations
that raise them (08 R229 to R234, R239; 13 R375 to R379). -/

namespace Sys2Proof.Machine

open Sys2Proof

/-! ## FSTAT and the FP trap (08 R233, R234) -/

/-- FCTL's trap enables in the places of FSTAT's flags (08 R233). -/
def Thread.fpEnables (x : Thread) : Nat := bits x.fctl.toNat 12 8

/-- FSTAT with exceptions ORed in (08 R234). -/
def Thread.orFlags (x : Thread) (flags : Nat) : Thread := { x with fstat := x.fstat ||| BitVec.ofNat 64 flags }

/-- Whether some exception raised is enabled (08 R234). -/
def Thread.fpTraps (x : Thread) (flags : Nat) : Bool := Nat.land flags x.fpEnables != 0

/-- EVAL of an FP trap: the exceptions raised, and the lanes that raised an enabled one (08 R234). -/
def fpEval (flags lanes : Nat) : Word := BitVec.ofNat 64 (flags + lanes * 256)

/-- The end of an FP instruction: FSTAT is updated, and either FP is taken and nothing written, or `write` is done and
the instruction retires (08 R234). -/
def State.fpDone (s : State) (flags lanes : Nat) (write : Thread → Thread) : Except State State :=
  let s1 := s.setTh (s.th.orFlags flags)
  if s.th.fpTraps flags then .error (s1.trap cFp (fpEval flags lanes)) else .ok ((s1.setTh (write s1.th)).retire)

/-! ## Element operations with Newt NaN rules (08 R231; 13 R375, R376) -/

/-- NV where an operand is a signalling NaN (08 R231). -/
def snanFlag (f : Fmt) (ops : List Nat) : Nat := if ops.any f.isSnan then fNv else 0

/-- An operation on codes: a NaN operand is passed on quietened, an invalid operation gives the canonical NaN and NV, any
other value is rounded (13 R375). -/
def fpOp (f : Fmt) (mode : RMode) (ftz : Bool) (ops : List Nat) (f2 : List FVal → FVal) : FRes :=
  let cs := ops.map (f.ftzIn ftz)
  match cs.find? f.isNan with
  | some c => { code := f.quiet c, flags := snanFlag f cs }
  | none =>
    match f2 (cs.map f.dec) with
    | .nan => { code := f.canonNan, flags := fNv }
    | v => f.deliver mode ftz v

/-- Whether zero sums are −0 in a mode (08 R218). -/
def isRdn (mode : RMode) : Bool := mode == .rdn

/-- The first value of a list. -/
def fv (l : List FVal) (i : Nat) : FVal := nth .nan l i

/-- x + y. -/
def fpAdd (f : Fmt) (mode : RMode) (ftz : Bool) (a b : Nat) : FRes :=
  fpOp f mode ftz [a, b] (fun l => addV (isRdn mode) (fv l 0) (fv l 1))

/-- x − y. -/
def fpSub (f : Fmt) (mode : RMode) (ftz : Bool) (a b : Nat) : FRes :=
  fpOp f mode ftz [a, b] (fun l => addV (isRdn mode) (fv l 0) (negV (fv l 1)))

/-- x × y. -/
def fpMul (f : Fmt) (mode : RMode) (ftz : Bool) (a b : Nat) : FRes :=
  fpOp f mode ftz [a, b] (fun l => mulV (fv l 0) (fv l 1))

/-- Whether a division is of a finite non-zero value by zero (13 R375). -/
def isDivZero (f : Fmt) (ftz : Bool) (a b : Nat) : Bool :=
  match f.dec (f.ftzIn ftz a), f.dec (f.ftzIn ftz b) with
  | .fin _ m _, .fin _ n _ => m != 0 && n == 0
  | _, _ => false

/-- x ÷ y, with DZ (13 R375). -/
def fpDiv (f : Fmt) (mode : RMode) (ftz : Bool) (a b : Nat) : FRes :=
  let r := fpOp f mode ftz [a, b] (fun l => divV (f.m + 1) (fv l 0) (fv l 1))
  if isDivZero f ftz a b then { r with flags := fDz } else r

/-- √x. -/
def fpSqrt (f : Fmt) (mode : RMode) (ftz : Bool) (a : Nat) : FRes :=
  fpOp f mode ftz [a] (fun l => sqrtV (f.m + 1) (fv l 0))

/-- ±(x × y) ± z with one rounding (13 R374). -/
def fpFma (f : Fmt) (mode : RMode) (ftz : Bool) (negP negZ : Bool) (a b c : Nat) : FRes :=
  fpOp f mode ftz [a, b, c] (fun l =>
    let p := mulV (fv l 0) (fv l 1)
    addV (isRdn mode) (if negP then negV p else p) (if negZ then negV (fv l 2) else fv l 2))

/-- FMIN and FMAX: the other operand where one is a NaN, the first NaN quietened where both are (08 R231, R232;
13 R377). -/
def fpMinMax (f : Fmt) (isMax ftz : Bool) (a b : Nat) : FRes :=
  let x := f.ftzIn ftz a
  let y := f.ftzIn ftz b
  let r := if f.isNan x && f.isNan y then f.quiet x else if isMax then f.maxOf x y else f.minCode x y
  { code := r, flags := snanFlag f [x, y] }

/-- A NaN carried to another format: sign kept, payload aligned at the top, quiet (08 R231). -/
def convNan (src dst : Fmt) (c : Nat) : Nat :=
  let fr := c % 2 ^ src.m
  let g := if src.m ≤ dst.m then fr * 2 ^ (dst.m - src.m) else fr / 2 ^ (src.m - dst.m)
  dst.quiet (dst.signed (src.neg c) (dst.infCode + g % 2 ^ dst.m))

/-- A conversion between FP formats (13 R378). -/
def fpConv (src dst : Fmt) (mode : RMode) (ftz : Bool) (a : Nat) : FRes :=
  let x := src.ftzIn ftz a
  if src.isNan x then { code := convNan src dst x, flags := snanFlag src [x] } else dst.deliver mode ftz (src.dec x)

/-- An integer converted to FP (13 R378). -/
def intToFp (dst : Fmt) (mode : RMode) (ftz : Bool) (v : Int) : FRes := dst.deliver mode ftz (ofUnits v 0 false)

/-- An FP value converted to an integer of `b` bits, signed or not: a NaN gives 0 and NV, a value beyond the range its
nearer end and NV, an inexact one NX (08 R239). The code is the two's complement in `b` bits. -/
def fpToInt (src : Fmt) (mode : RMode) (ftz signed : Bool) (b a : Nat) : FRes :=
  let lo : Int := if signed then -(2 ^ (b - 1) : Nat) else 0
  let hi : Int := if signed then (2 ^ (b - 1) : Nat) - 1 else (2 ^ b : Nat) - 1
  match src.dec (src.ftzIn ftz a) with
  | .nan => { code := 0, flags := fNv }
  | .inf s => { code := ofSigned b (if s then lo else hi), flags := fNv }
  | .fin s m e =>
    let r := roundUnits mode s m e 0
    let y : Int := if s then -(r.1 : Int) else r.1
    if y < lo then { code := ofSigned b lo, flags := fNv }
    else if hi < y then { code := ofSigned b hi, flags := fNv }
    else { code := ofSigned b y, flags := if r.2 then fNx else 0 }

/-- FRND: an integral value of the same format; a zero result keeps the operand's sign (13 R379). -/
def fpRnd (f : Fmt) (mode : RMode) (ftz : Bool) (a : Nat) : FRes :=
  let x := f.ftzIn ftz a
  if f.isNan x then { code := f.quiet x, flags := snanFlag f [x] }
  else
    match f.dec x with
    | .fin s m e =>
      let r := roundUnits mode s m e 0
      { code := (f.round .rne false s r.1 0).code, flags := if r.2 then fNx else 0 }
    | _ => { code := x, flags := 0 }

/-! ## Comparisons (12 R346) -/

/-- Whether an FP condition holds, and the exceptions it raises (12 R346). -/
def fpCond (f : Fmt) (ftz : Bool) (cond : Nat) (a b : Nat) : Bool × Nat :=
  let x := f.ftzIn ftz a
  let y := f.ftzIn ftz b
  let un := f.isNan x || f.isNan y
  let c := cmpV (f.dec x) (f.dec y)
  let r := match cond % 8 with
    | 0 => !un && c == 0
    | 1 => un || c != 0
    | 2 => !un && decide (c < 0)
    | 3 => !un && decide (0 ≤ c)
    | 4 => !un && decide (c ≤ 0)
    | 5 => !un && decide (0 < c)
    | 6 => un
    | _ => !un
  let signalling := 2 ≤ cond % 8 && cond % 8 ≤ 5
  (r, if signalling then (if un then fNv else 0) else snanFlag f [x, y])

end Sys2Proof.Machine
end

