-- ==== Sys2Proof/Machine/IntOps.lean ====
section
/-! DEFINITION. Integer and bit operations, and compare and skip (12 R339 to R345, R347; 08 R238). -/

namespace Sys2Proof.Machine

open Sys2Proof

/-! ## The values (12 R339 to R344) -/

/-- MULH: bits [127:64] of the signed product. -/
def vMulh (a b : Word) : Word := BitVec.ofInt 64 (a.toInt * b.toInt / 2 ^ 64)

/-- MULHU: bits [127:64] of the unsigned product. -/
def vMulhu (a b : Word) : Word := BitVec.ofNat 64 (a.toNat * b.toNat / 2 ^ 64)

/-- DIV: truncated towards zero; all ones for a zero divisor, MIN for MIN ÷ −1 (08 R238). -/
def vDiv (a b : Word) : Word := if b = 0 then BitVec.allOnes 64 else BitVec.ofInt 64 (a.toInt.tdiv b.toInt)

/-- DIVU: all ones for a zero divisor (08 R238). -/
def vDivu (a b : Word) : Word := if b = 0 then BitVec.allOnes 64 else BitVec.ofNat 64 (a.toNat / b.toNat)

/-- REM: the dividend for a zero divisor, 0 for MIN ÷ −1 (08 R238). -/
def vRem (a b : Word) : Word := if b = 0 then a else BitVec.ofInt 64 (a.toInt.tmod b.toInt)

/-- REMU: the dividend for a zero divisor (08 R238). -/
def vRemu (a b : Word) : Word := if b = 0 then a else BitVec.ofNat 64 (a.toNat % b.toNat)

/-- A shift count: the low 6 bits. -/
def shamt (b : Word) : Nat := b.toNat % 64

/-- SHL. -/
def vShl (a : Word) (n : Nat) : Word := a <<< n

/-- SHR. -/
def vShr (a : Word) (n : Nat) : Word := a >>> n

/-- SAR. -/
def vSar (a : Word) (n : Nat) : Word := a.sshiftRight n

/-- ROT: towards the most significant bit. -/
def vRot (a : Word) (n : Nat) : Word := a.rotateLeft n

/-- CLZ: 64 minus the bits that the value needs. -/
def vClz (a : Word) : Word := BitVec.ofNat 64 (64 - bitLen a.toNat)

/-- Trailing zero bits of a value, `fuel` bits of it looked at. -/
def trailing : Nat → Nat → Nat
  | 0, _ => 0
  | fuel + 1, v => if v % 2 = 1 then 0 else trailing fuel (v / 2) + 1

/-- CTZ. -/
def vCtz (a : Word) : Word := BitVec.ofNat 64 (trailing 64 a.toNat)

/-- The 1 bits of a value, `fuel` bits of it looked at. -/
def ones : Nat → Nat → Nat
  | 0, _ => 0
  | fuel + 1, v => v % 2 + ones fuel (v / 2)

/-- POPC. -/
def vPopc (a : Word) : Word := BitVec.ofNat 64 (ones 64 a.toNat)

/-- BREV. -/
def vBrev (a : Word) : Word := a.reverse

/-- BSWP. -/
def vBswp (a : Word) : Word := wordOf (wordBytes a).reverse

/-- The mask of BEXT and BINS: len ones. -/
def lenMask (len : Nat) : Word := BitVec.ofNat 64 (2 ^ len - 1)

/-- BEXT. -/
def vBext (a : Word) (pos len1 : BitVec 6) : Word := (a >>> pos.toNat) &&& lenMask (len1.toNat + 1)

/-- BINS; the old destination is also a source. -/
def vBins (d a : Word) (pos len1 : BitVec 6) : Word :=
  (d &&& ~~~(lenMask (len1.toNat + 1) <<< pos.toNat)) ||| ((a &&& lenMask (len1.toNat + 1)) <<< pos.toNat)

/-- MIN. -/
def vMin (a b : Word) : Word := if a.toInt ≤ b.toInt then a else b

/-- MAX. -/
def vMax (a b : Word) : Word := if a.toInt ≤ b.toInt then b else a

/-- MINU. -/
def vMinu (a b : Word) : Word := if a ≤ b then a else b

/-- MAXU. -/
def vMaxu (a b : Word) : Word := if a ≤ b then b else a

/-- LIH. -/
def vLih (a : Word) (imm : BitVec 14) : Word := (a <<< 14) + imm.signExtend 64

/-- LEA. -/
def vLea (base idx : Word) (sc : BitVec 2) : Word := base + (idx <<< sc.toNat)

/-! ## Effects on a thread's registers, shared with atomic regions (12 R366) -/

/-- gd := f(g(a), g(b)). -/
def Thread.op3 (x : Thread) (d a b : BitVec 5) (f : Word → Word → Word) : Thread :=
  x.setGr d.toNat (f (x.gr a.toNat) (x.gr b.toNat))

/-- gd := f(g(a), sext(imm)). -/
def Thread.opI (x : Thread) (d a : BitVec 5) (imm : BitVec 14) (f : Word → Word → Word) : Thread :=
  x.setGr d.toNat (f (x.gr a.toNat) (imm.signExtend 64))

/-- gd := f(g(a)). -/
def Thread.op1 (x : Thread) (d a : BitVec 5) (f : Word → Word) : Thread := x.setGr d.toNat (f (x.gr a.toNat))

/-- The register effect of an integer or bit operation; any other instruction has none. -/
def intEffect (i : Instr) (x : Thread) : Thread :=
  match i with
  | .add d a b => x.op3 d a b (· + ·)
  | .sub d a b => x.op3 d a b (· - ·)
  | .addi d a imm => x.opI d a imm (· + ·)
  | .mul d a b => x.op3 d a b (· * ·)
  | .mulh d a b => x.op3 d a b vMulh
  | .mulhu d a b => x.op3 d a b vMulhu
  | .div d a b => x.op3 d a b vDiv
  | .divu d a b => x.op3 d a b vDivu
  | .rem d a b => x.op3 d a b vRem
  | .remu d a b => x.op3 d a b vRemu
  | .andR d a b => x.op3 d a b (· &&& ·)
  | .orR d a b => x.op3 d a b (· ||| ·)
  | .xorR d a b => x.op3 d a b (· ^^^ ·)
  | .andn d a b => x.op3 d a b (fun p q => p &&& ~~~q)
  | .lea d base idx sc => x.op3 d base idx (fun p q => vLea p q sc)
  | .andi d a imm => x.opI d a imm (· &&& ·)
  | .ori d a imm => x.opI d a imm (· ||| ·)
  | .xori d a imm => x.opI d a imm (· ^^^ ·)
  | .shl d a b => x.op3 d a b (fun p q => vShl p (shamt q))
  | .shr d a b => x.op3 d a b (fun p q => vShr p (shamt q))
  | .sar d a b => x.op3 d a b (fun p q => vSar p (shamt q))
  | .rot d a b => x.op3 d a b (fun p q => vRot p (shamt q))
  | .shli d a imm => x.opI d a imm (fun p q => vShl p (shamt q))
  | .shri d a imm => x.opI d a imm (fun p q => vShr p (shamt q))
  | .sari d a imm => x.opI d a imm (fun p q => vSar p (shamt q))
  | .roti d a imm => x.opI d a imm (fun p q => vRot p (shamt q))
  | .clz d a => x.op1 d a vClz
  | .ctz d a => x.op1 d a vCtz
  | .popc d a => x.op1 d a vPopc
  | .brev d a => x.op1 d a vBrev
  | .bswp d a => x.op1 d a vBswp
  | .bext d a pos len1 => x.op1 d a (fun p => vBext p pos len1)
  | .bins d a pos len1 => x.op3 d d a (fun p q => vBins p q pos len1)
  | .min d a b => x.op3 d a b vMin
  | .max d a b => x.op3 d a b vMax
  | .minu d a b => x.op3 d a b vMinu
  | .maxu d a b => x.op3 d a b vMaxu
  | .lih d a imm => x.op1 d a (fun p => vLih p imm)
  | _ => x

/-- An integer instruction: recorded, or its register effect and its retirement. -/
def intExec (i : Instr) (f : Thread → Thread) (s : State) : Out :=
  recordable i (fun r => (r.setTh (f r.th)).retire) s

/-! ## The instructions -/

/-- ADD (12 R339). -/
def execAdd (d a b : BitVec 5) (s : State) : Out :=
  intExec (.add d a b) (fun x => x.op3 d a b (· + ·)) s

/-- SUB (12 R339). -/
def execSub (d a b : BitVec 5) (s : State) : Out :=
  intExec (.sub d a b) (fun x => x.op3 d a b (· - ·)) s

/-- ADDI (12 R340). -/
def execAddi (d a : BitVec 5) (imm : BitVec 14) (s : State) : Out :=
  intExec (.addi d a imm) (fun x => x.opI d a imm (· + ·)) s

/-- MUL (12 R339). -/
def execMul (d a b : BitVec 5) (s : State) : Out :=
  intExec (.mul d a b) (fun x => x.op3 d a b (· * ·)) s

/-- MULH (12 R339). -/
def execMulh (d a b : BitVec 5) (s : State) : Out :=
  intExec (.mulh d a b) (fun x => x.op3 d a b vMulh) s

/-- MULHU (12 R339). -/
def execMulhu (d a b : BitVec 5) (s : State) : Out :=
  intExec (.mulhu d a b) (fun x => x.op3 d a b vMulhu) s

/-- DIV (12 R339). -/
def execDiv (d a b : BitVec 5) (s : State) : Out :=
  intExec (.div d a b) (fun x => x.op3 d a b vDiv) s

/-- DIVU (12 R339). -/
def execDivu (d a b : BitVec 5) (s : State) : Out :=
  intExec (.divu d a b) (fun x => x.op3 d a b vDivu) s

/-- REM (12 R339). -/
def execRem (d a b : BitVec 5) (s : State) : Out :=
  intExec (.rem d a b) (fun x => x.op3 d a b vRem) s

/-- REMU (12 R339). -/
def execRemu (d a b : BitVec 5) (s : State) : Out :=
  intExec (.remu d a b) (fun x => x.op3 d a b vRemu) s

/-- AND (12 R339). -/
def execAndR (d a b : BitVec 5) (s : State) : Out :=
  intExec (.andR d a b) (fun x => x.op3 d a b (· &&& ·)) s

/-- OR (12 R339). -/
def execOrR (d a b : BitVec 5) (s : State) : Out :=
  intExec (.orR d a b) (fun x => x.op3 d a b (· ||| ·)) s

/-- XOR (12 R339). -/
def execXorR (d a b : BitVec 5) (s : State) : Out :=
  intExec (.xorR d a b) (fun x => x.op3 d a b (· ^^^ ·)) s

/-- ANDN (12 R339). -/
def execAndn (d a b : BitVec 5) (s : State) : Out :=
  intExec (.andn d a b) (fun x => x.op3 d a b (fun p q => p &&& ~~~q)) s

/-- LEA (12 R344). -/
def execLea (d base idx : BitVec 5) (sc : BitVec 2) (s : State) : Out :=
  intExec (.lea d base idx sc) (fun x => x.op3 d base idx (fun p q => vLea p q sc)) s

/-- ANDI (12 R340). -/
def execAndi (d a : BitVec 5) (imm : BitVec 14) (s : State) : Out :=
  intExec (.andi d a imm) (fun x => x.opI d a imm (· &&& ·)) s

/-- ORI (12 R340). -/
def execOri (d a : BitVec 5) (imm : BitVec 14) (s : State) : Out :=
  intExec (.ori d a imm) (fun x => x.opI d a imm (· ||| ·)) s

/-- XORI (12 R340). -/
def execXori (d a : BitVec 5) (imm : BitVec 14) (s : State) : Out :=
  intExec (.xori d a imm) (fun x => x.opI d a imm (· ^^^ ·)) s

/-- SHL (12 R339). -/
def execShl (d a b : BitVec 5) (s : State) : Out :=
  intExec (.shl d a b) (fun x => x.op3 d a b (fun p q => vShl p (shamt q))) s

/-- SHR (12 R339). -/
def execShr (d a b : BitVec 5) (s : State) : Out :=
  intExec (.shr d a b) (fun x => x.op3 d a b (fun p q => vShr p (shamt q))) s

/-- SAR (12 R339). -/
def execSar (d a b : BitVec 5) (s : State) : Out :=
  intExec (.sar d a b) (fun x => x.op3 d a b (fun p q => vSar p (shamt q))) s

/-- ROT (12 R339). -/
def execRot (d a b : BitVec 5) (s : State) : Out :=
  intExec (.rot d a b) (fun x => x.op3 d a b (fun p q => vRot p (shamt q))) s

/-- SHLI (12 R340). -/
def execShli (d a : BitVec 5) (imm : BitVec 14) (s : State) : Out :=
  intExec (.shli d a imm) (fun x => x.opI d a imm (fun p q => vShl p (shamt q))) s

/-- SHRI (12 R340). -/
def execShri (d a : BitVec 5) (imm : BitVec 14) (s : State) : Out :=
  intExec (.shri d a imm) (fun x => x.opI d a imm (fun p q => vShr p (shamt q))) s

/-- SARI (12 R340). -/
def execSari (d a : BitVec 5) (imm : BitVec 14) (s : State) : Out :=
  intExec (.sari d a imm) (fun x => x.opI d a imm (fun p q => vSar p (shamt q))) s

/-- ROTI (12 R340). -/
def execRoti (d a : BitVec 5) (imm : BitVec 14) (s : State) : Out :=
  intExec (.roti d a imm) (fun x => x.opI d a imm (fun p q => vRot p (shamt q))) s

/-- CLZ (12 R342). -/
def execClz (d a : BitVec 5) (s : State) : Out :=
  intExec (.clz d a) (fun x => x.op1 d a vClz) s

/-- CTZ (12 R342). -/
def execCtz (d a : BitVec 5) (s : State) : Out :=
  intExec (.ctz d a) (fun x => x.op1 d a vCtz) s

/-- POPC (12 R342). -/
def execPopc (d a : BitVec 5) (s : State) : Out :=
  intExec (.popc d a) (fun x => x.op1 d a vPopc) s

/-- BREV (12 R342). -/
def execBrev (d a : BitVec 5) (s : State) : Out :=
  intExec (.brev d a) (fun x => x.op1 d a vBrev) s

/-- BSWP (12 R342). -/
def execBswp (d a : BitVec 5) (s : State) : Out :=
  intExec (.bswp d a) (fun x => x.op1 d a vBswp) s

/-- BEXT (12 R343). -/
def execBext (d a : BitVec 5) (pos len1 : BitVec 6) (s : State) : Out :=
  intExec (.bext d a pos len1) (fun x => x.op1 d a (fun p => vBext p pos len1)) s

/-- BINS (12 R343). -/
def execBins (d a : BitVec 5) (pos len1 : BitVec 6) (s : State) : Out :=
  intExec (.bins d a pos len1) (fun x => x.op3 d d a (fun p q => vBins p q pos len1)) s

/-- MIN (12 R339). -/
def execMin (d a b : BitVec 5) (s : State) : Out :=
  intExec (.min d a b) (fun x => x.op3 d a b vMin) s

/-- MAX (12 R339). -/
def execMax (d a b : BitVec 5) (s : State) : Out :=
  intExec (.max d a b) (fun x => x.op3 d a b vMax) s

/-- MINU (12 R339). -/
def execMinu (d a b : BitVec 5) (s : State) : Out :=
  intExec (.minu d a b) (fun x => x.op3 d a b vMinu) s

/-- MAXU (12 R339). -/
def execMaxu (d a b : BitVec 5) (s : State) : Out :=
  intExec (.maxu d a b) (fun x => x.op3 d a b vMaxu) s

/-- LIH (12 R341). -/
def execLih (d a : BitVec 5) (imm : BitVec 14) (s : State) : Out :=
  intExec (.lih d a imm) (fun x => x.op1 d a (fun p => vLih p imm)) s

/-! ## Compare and skip (12 R345, R347) -/

/-- The condition of SK and SKI (12 R345). -/
def skipCond (cond : BitVec 4) (a b : Word) : Bool :=
  match cond.toNat with
  | 0 => a == b
  | 1 => a != b
  | 2 => decide (a.toInt < b.toInt)
  | 3 => decide (b.toInt ≤ a.toInt)
  | 4 => decide (a < b)
  | 5 => decide (b ≤ a)
  | 6 => decide (a.toInt ≤ b.toInt)
  | 7 => decide (b.toInt < a.toInt)
  | 8 => decide (a ≤ b)
  | 9 => decide (b < a)
  | 10 => a.getLsbD (shamt b)
  | _ => !a.getLsbD (shamt b)

/-- Where the next issue goes after a compare and skip: past the n annulled words, or to PC + 4 (12 R347). -/
def skipTarget (pc : Word) (n : BitVec 2) (taken : Bool) : Word :=
  if taken then pc + BitVec.ofNat 64 (4 * (n.toNat + 1)) else pc + 4

/-- The comparison that a recorded SK or SKI makes on a thread's registers: how many instructions it annuls. -/
def skipCount (i : Instr) (x : Thread) : Nat :=
  match i with
  | .sk cond n a b => if skipCond cond (x.gr a.toNat) (x.gr b.toNat) then n.toNat else 0
  | .ski cond n a imm => if skipCond cond (x.gr a.toNat) (imm.signExtend 64) then n.toNat else 0
  | _ => 0

/-- SK (12 R345). -/
def execSk (cond : BitVec 4) (n : BitVec 2) (a b : BitVec 5) (s : State) : Out :=
  recordable (.sk cond n a b) (fun r => r.retireTo (skipTarget r.th.pc n (skipCond cond (r.g a) (r.g b)))) s

/-- SKI (12 R345). -/
def execSki (cond : BitVec 4) (n : BitVec 2) (a : BitVec 5) (imm : BitVec 13) (s : State) : Out :=
  recordable (.ski cond n a imm)
    (fun r => r.retireTo (skipTarget r.th.pc n (skipCond cond (r.g a) (imm.signExtend 64)))) s

end Sys2Proof.Machine
end

