-- ==== Sys2Proof/Machine/Gates.lean ====
section
/-! DEFINITION. The order gates: free, recording, ordered and replay modes, their logs, and what each gated request does
when it is served (07 R203 to R206; 10 R299; 12 R360 to R367; 13 R415, R416; 17 R487). -/

namespace Sys2Proof.Machine

open Sys2Proof

/-! ## Gate numbers and order logs (10 R299; 17 R487) -/

/-- The allocator's gate. -/
def gateAlloc : Nat := 2560
/-- The spawn unit's gate. -/
def gateSpawn : Nat := 2561

/-- Key of a job's log at a gate. -/
def glKey (j g : Nat) : Nat := j * 4096 + g

/-- A job's log at a gate. -/
def State.gateLog (s : State) (j g : Nat) : GateLog := Store.get GateLog.init (glKey j g) s.gateLogs

/-- The state with a job's log at a gate replaced. -/
def State.setGateLog (s : State) (j g : Nat) (x : GateLog) : State :=
  { s with gateLogs := Store.put GateLog.init (glKey j g) x s.gateLogs }

/-- First VA of a gate's segment. -/
def Job.segment (j : Job) (g : Nat) : Nat := j.logva.toNat + g * 2 ^ j.seglog2

/-- A job's segment at a gate closed: recording stops there and LOST is set (10 R298, R299). -/
def State.gateLost (s : State) (j g : Nat) (x : GateLog) : State :=
  (s.setGateLog j g { x with full := true, runLen := 0 }).setJob j { s.job j with lost := true }

/-- The open run of a gate written as a chunk, where one is open (10 R299; 17 R487). Log writes are not counted. -/
def State.closeRun (s : State) (j g : Nat) : State :=
  let x := s.gateLog j g
  let jb := s.job j
  if x.runLen = 0 ∨ x.full then s
  else if 8 + (x.chunks + 1) * 4 > 2 ^ jb.seglog2 then s.gateLost j g x
  else
    match s.writeVa j .firmware (jb.segment g + 8 + x.chunks * 4) (bytesOf 4 (x.runTid + x.runLen * 2 ^ 14)) tagPkg true with
    | .error _ => s.gateLost j g x
    | .ok s1 =>
      match s1.writeVa j .firmware (jb.segment g) (bytesOf 8 (x.chunks + 1)) tagPkg true with
      | .error _ => s.gateLost j g x
      | .ok s2 => s2.setGateLog j g { x with runLen := 0, chunks := x.chunks + 1 }

/-- One request of a thread recorded: its run grows, or the run before it is closed (10 R299; 17 R487). -/
def State.recordServed (s : State) (j g tid : Nat) : State :=
  let s1 := if (s.gateLog j g).runLen ≠ 0 ∧ (s.gateLog j g).runTid ≠ tid then s.closeRun j g else s
  let x := s1.gateLog j g
  if x.full then s1
  else
    let s2 := s1.setGateLog j g { x with runTid := tid, runLen := if x.runLen = 0 then 1 else x.runLen + 1 }
    if x.runLen + 1 ≥ 262143 then s2.closeRun j g else s2

/-- The head chunk of a replay log: thread and run length; none where the log has ended (07 R206). -/
def State.headChunk (s : State) (j g : Nat) : Option (Nat × Nat) :=
  let x := s.gateLog j g
  let jb := s.job j
  match s.readVa j .firmware (jb.segment g) 8 with
  | .error _ => none
  | .ok cb =>
    if natOf cb ≤ x.chunks then none
    else
      match s.readVa j .firmware (jb.segment g + 8 + x.chunks * 4) 4 with
      | .error _ => none
      | .ok b => some (natOf b % 2 ^ 14, natOf b / 2 ^ 14)

/-- One request of the head chunk served. -/
def State.replayServed (s : State) (j g : Nat) : State :=
  match s.headChunk j g with
  | none => s
  | some (_, n) =>
    let x := s.gateLog j g
    s.setGateLog j g (if x.served + 1 ≥ n then { x with chunks := x.chunks + 1, served := 0 }
      else { x with served := x.served + 1 })

/-- Whether a gate may serve a request of a thread now: in replay mode only where the log's head names it (07 R206). -/
def State.gateAllows (s : State) (j g tid : Nat) : Bool :=
  if (s.job j).gmode = 3 then
    match s.headChunk j g with
    | some (h, _) => h == tid
    | none => false
  else true

/-- What a gate notes after it has served a request of a thread (07 R204, R206). -/
def State.gateServed (s : State) (j g tid : Nat) : State :=
  match (s.job j).gmode with
  | 1 => s.recordServed j g tid
  | 3 => s.replayServed j g
  | _ => s

/-- Whether a logical id has quit: it holds no thread, running or saved, and has passed a digest point (17 R486). -/
def State.hasQuit (s : State) (j tid : Nat) : Bool :=
  !(s.threads.any (fun p => p.2.live && p.2.job == j && decide (p.2.tid.toNat = tid))) &&
  !(s.kernels.any (fun p => decide (p.1 / 2 ^ 32 = j) && p.2.savedThreads.any (fun x => decide (x.tid.toNat = tid)))) &&
  decide (Store.get 0 tid (s.job j).cursors ≠ 0)

/-- Whether a replay gate can serve nothing more: the log has ended or its head has quit (07 R206). -/
def State.gateDead (s : State) (j g : Nat) : Bool :=
  (s.job j).gmode == 3 &&
    (match s.headChunk j g with
     | none => true
     | some (h, _) => s.hasQuit j h)

/-! ## Ordering done by a served request -/

/-- Whether RPE falls due at an effective scope (12 R337). -/
def rpeDue (sc : Scope) : Bool := sc.atLeast .pkg

/-- The scope of an acquire widened by the writers and tags of the bytes it reads (07 R189). -/
def State.acqScope (s : State) (sc : Scope) (pa n : Nat) : Scope :=
  Scope.max sc (s.readScopeAt (threadPlace s.cur) pa n)

/-- The tag of a release's own write. -/
def State.relTag (s : State) (sc : Scope) : WTag := { place := threadPlace s.cur, tag := Scope.max sc s.th.carry }

/-! ## AMO and CAS (12 R361 to R363) -/

/-- round(old + b) of the fadd operations: subnormals kept, FCTL ignored, no flag (12 R362). -/
def amoFadd (f : Fmt) (old b : Nat) : Nat := (fpAdd f .rne false old b).code

/-- The new value of an AMO (12 R362). -/
def amoNew (fn size old b : Nat) : Nat :=
  let w := 8 * size
  match fn with
  | 0 => (old + b) % 2 ^ w
  | 1 => Nat.land old b
  | 2 => Nat.lor old b
  | 3 => Nat.xor old b
  | 4 => if toSigned w old ≤ toSigned w b then old else b
  | 5 => if toSigned w old ≤ toSigned w b then b else old
  | 6 => Nat.min old b
  | 7 => Nat.max old b
  | 8 => b
  | 9 => amoFadd fp32 old b
  | _ => amoFadd fp64 old b

/-- The register value of what an AMO or CAS read (12 R362). -/
def amoOld (fn size old : Nat) : Word :=
  if size = 8 ∨ fn = 9 then BitVec.ofNat 64 old else sextW 32 old

/-- The end of an access that its home refuses: the trap of the cause, or a parked walk while the page moves
(06 R156; 07 R198; 12 R358). -/
def State.refused (s : State) (a : Ans) (va : Word) (opc : Nat) : State :=
  match a with
  | .cause c => if c = cVintage then s.trap c va else s.trapFree c
  | .moved => s.parkWalk s.cur va.toNat opc
  | .held p => s.parkOn (.held p)
  | .ok => s

/-- The first answer of a list that refuses. -/
def bothOk (a b : Ans) : Ans := if a = .ok then b else a

/-- Whether the write of an atomic or a region is lost at its home: the copy has come to be latched since the address was
translated (06 R167). -/
def State.lateLatch (s : State) (a : Ans) : Bool := a == .cause cVintage && !s.th.latchSeen

/-- A write of the executing thread at its home, or VPE where it is lost (06 R167). -/
def State.writeOr (s : State) (lost : Bool) (va : Word) (pa : Nat) (b : List Byte) (w : WTag) : State :=
  if lost then s.deferFault s.cur 2 0 va else s.putHome pa b w

/-- An AMO at its home; one whose write is lost completes with the old value, and VPE is set (06 R167; log entry 163). -/
def State.serveAmo (s : State) (pa : Nat) (va : Word) (size fn : Nat) (operand : Word) (rlx : Bool) (d : Nat) : State :=
  let a := bothOk (s.readAns pa size s.th.job) (s.writeAns pa size s.th.job)
  let lost := s.lateLatch a
  match (if lost then .ok else a) with
  | .ok =>
    let old := natOf (s.homeBytes pa size)
    let new := amoNew fn size old (operand.toNat % 2 ^ (8 * size))
    let sc := s.th.effRelease (s.naturalScope pa)
    let acq := s.acqScope (s.naturalScope pa) pa size
    let tag := if rlx then s.plainTag else s.relTag sc
    let s1 := (s.noteRead pa size).writeOr lost va pa (bytesOf size new) tag
    let s2 := if rlx then s1.noteAccess pa else ((s1.noteAccess pa).release sc).acquire acq
    ((s2.digest va (bytesOf size new)).setTh
      ((s2.digest va (bytesOf size new)).th.setGr d (amoOld fn size old))).retire
  | a => s.refused a va 0x3B

/-- A CAS at its home: one that fails writes nothing and acquires only (12 R363). -/
def State.serveCas (s : State) (pa : Nat) (va : Word) (size : Nat) (expected new : Word) (rlx : Bool) (d : Nat) :
    State :=
  match s.readAns pa size s.th.job with
  | .ok =>
    let old := natOf (s.homeBytes pa size)
    let acq := s.acqScope (s.naturalScope pa) pa size
    if old = expected.toNat % 2 ^ (8 * size) then
      let lost := s.lateLatch (s.writeAns pa size s.th.job)
      match (if lost then .ok else s.writeAns pa size s.th.job) with
      | .ok =>
        let b := bytesOf size new.toNat
        let sc := s.th.effRelease (s.naturalScope pa)
        let s1 := (s.noteRead pa size).writeOr lost va pa b (if rlx then s.plainTag else s.relTag sc)
        let s2 := if rlx then s1.noteAccess pa else ((s1.noteAccess pa).release sc).acquire acq
        ((s2.digest va b).setTh ((s2.digest va b).th.setGr d (amoOld 0 size old))).retire
      | a => s.refused a va 0x3C
    else
      let s1 := (s.noteRead pa size).noteAccess pa
      let s2 := if rlx then s1 else s1.acquire acq
      (s2.setTh (s2.th.setGr d (amoOld 0 size old))).retire
  | a => s.refused a va 0x3C

/-! ## Atomic regions (12 R365 to R367) -/

/-- A region being run: the thread's copy, the line, its stores in program order, the bytes it read, the instructions
still to be annulled and those run. -/
structure RegRun where
  x : Thread
  line : List Byte
  stores : List (Nat × List Byte)
  reads : List (Nat × Nat)
  skip : Nat
  ran : Nat
  deriving DecidableEq, Repr

/-- Offset in the line of an ARL or ARS of a region. -/
def Region.offset (r : Region) (off : BitVec 9) (wc : BitVec 3) : Nat := (mAddr r.addr off (wcSize wc)).toNat % 128

/-- One recorded instruction run on the copy (12 R366). -/
def RegRun.stepOne (r : Region) (q : RegRun) (i : Instr) : RegRun :=
  if q.skip ≠ 0 then { q with skip := q.skip - 1 }
  else
    match i with
    | .arl d _ off wc =>
      let o := r.offset off wc
      { q with x := q.x.setGr d.toNat (loadValue wc (sub q.line o (wcSize wc))), reads := q.reads ++ [(o, wcSize wc)],
               ran := q.ran + 1 }
    | .ars v _ off wc =>
      let o := r.offset off wc
      let b := storeBytes (q.x.gr v.toNat) (wcSize wc)
      { q with line := putSub q.line o b, stores := q.stores ++ [(o, b)], ran := q.ran + 1 }
    | _ => { q with x := intEffect i q.x, skip := skipCount i q.x, ran := q.ran + 1 }

/-- A whole region run (12 R366). -/
def Region.run (r : Region) (x : Thread) (line : List Byte) : RegRun :=
  r.body.foldl (fun q i => q.stepOne r i) { x := x, line := line, stores := [], reads := [], skip := 0, ran := 0 }

/-- Whether a byte of the line is stored to. -/
def RegRun.writes (q : RegRun) (o : Nat) : Bool := q.stores.any (fun p => decide (p.1 ≤ o) && decide (o < p.1 + p.2.length))

/-- The bytes of the line that a region stores to, with their final values. -/
def RegRun.image (q : RegRun) : List (Nat × Byte) :=
  ((List.range 128).filter q.writes).map (fun o => (o, nth 0 q.line o))

/-- The home's answer to a region on a line: to its reads and to what it stores, of an abandoned one only by the windows and the
move of its page, as it writes nothing (12 R367). -/
def State.regionAns (s : State) (base : Nat) (q : RegRun) (abandoned : Bool) : Ans :=
  firstBad ((if s.migratingAt base then Ans.moved else .ok) :: q.reads.map (fun p => s.readAns (base + p.1) p.2 s.th.job) ++
    (q.image.map (fun p => s.writeAns (base + p.1) 1 s.th.job)).filter (fun a => !(abandoned && a == .cause cVintage)))

/-- A shipped region at its line's home (12 R366, R367). -/
def State.serveRegion (s : State) (pa : Nat) (va : Word) (status abandon : Nat) : State :=
  match s.th.region with
  | none => s.trap cRegionAbort 0
  | some r =>
    let base := pa / 128 * 128
    let q := r.run s.th (s.homeBytes base 128)
    let x0 := { s.th with region := none }
    let abandoned := decide (q.x.gr abandon ≠ 0)
    let bad := s.regionAns base q abandoned
    let lost := s.lateLatch bad
    if s.hasUe base 128 then s.trap cMemoryUe va
    else
      match (if lost then .ok else bad) with
      | .ok =>
        if abandoned then
          let s1 := s.setTh (x0.setGr status 1)
          s1.setTh (s1.th.go (s1.th.pc + 4) (q.ran + 2))
        else
          let sc := s.th.effRelease (s.naturalScope pa)
          let acq := q.reads.foldl (fun a p => s.acqScope a (base + p.1) p.2) (s.naturalScope pa)
          let s1 := if lost then s.deferFault s.cur 2 0 va
            else q.image.foldl (fun w p => w.putHome (base + p.1) [p.2] (s.relTag sc)) s
          let s2 := s1.setTh { s1.th with region := none, g := q.x.g }
          let s3 := q.stores.foldl (fun w p => w.digest (r.addr / 128 * 128 + BitVec.ofNat 64 p.1) p.2) s2
          let s4 := (((q.reads.foldl (fun w p => w.noteRead (base + p.1) p.2) s3).noteAccess pa).release sc).acquire acq
          let s5 := s4.setTh (s4.th.setGr status 0)
          s5.setTh (s5.th.go (s5.th.pc + 4) (q.ran + 2))
      | a => s.refused a va 0x40

/-! ## Full/empty accesses (07 R191; 12 R359, R360) -/

/-- Whether the word at a local-store address is full. -/
def State.wordFull (s : State) (pa : Nat) : Bool := s.isFull (localOf pa).1 (localOf pa).2

/-- A word's bit set. -/
def State.setWordFull (s : State) (pa : Nat) (v : Bool) : State := s.setFull (localOf pa).1 (localOf pa).2 v

/-- LDF or LDP at the home: none while the word is empty. -/
def State.serveTake (s : State) (pa : Nat) (d : Nat) (empties : Bool) : Option State :=
  if s.wordFull pa then
    some (
      if s.hasUe pa 8 then s.trapFree cMemoryUe
      else
        let acq := s.acqScope (s.naturalScope pa) pa 8
        let v := wordOf (s.bytes pa 8)
        let s1 := if empties then s.setWordFull pa false else s
        let s2 := ((s1.noteRead pa 8).noteAccess pa).acquire acq
        (s2.setTh (s2.th.setGr d v)).retire)
  else none

/-- STE or STF at the home: STE waits while the word is full. -/
def State.servePut (s : State) (pa : Nat) (va v : Word) (waits : Bool) : Option State :=
  if waits && s.wordFull pa then none
  else
    let sc := s.th.effRelease (s.naturalScope pa)
    let s1 := (s.perform pa (wordBytes v) (s.relTag sc)).setWordFull pa true
    some ((((s1.noteAccess pa).release sc).digest va (wordBytes v)).retire)

/-- FEC at the home. -/
def State.serveClear (s : State) (pa : Nat) : State := ((s.setWordFull pa false).noteAccess pa).retire

/-! ## The allocator (13 R415, R416) -/

/-- The exponent of the block that `n` bytes ask for: max(6, ceil(log2 n)). -/
def blockLog (n : Nat) : Nat := Nat.max 6 (bitLen (n - 1))

/-- The lowest-addressed of free blocks of one size. -/
def lowest (l : List (Nat × Nat)) : Option (Nat × Nat) :=
  match l with
  | [] => none
  | b :: t =>
    match lowest t with
    | none => some b
    | some c => if b.1 ≤ c.1 then some b else some c

/-- The smallest size from `k` upward, within `fuel` of it, that has a free block, and the lowest such block. -/
def pickBlock (blocks : List (Nat × Nat)) : Nat → Nat → Option (Nat × Nat)
  | 0, _ => none
  | fuel + 1, k =>
    match lowest (blocks.filter (fun b => b.2 == k)) with
    | some b => some b
    | none => pickBlock blocks fuel (k + 1)

/-- The upper halves freed by splitting a block at `off` from size `m` down to size `k` (13 R415). -/
def splitHalves (off k : Nat) : Nat → List (Nat × Nat)
  | 0 => []
  | m + 1 => if k ≤ m then (off + 2 ^ m, m) :: splitHalves off k m else []

/-- A block of `n` bytes taken from an arena: its offset and the job after it (13 R415). -/
def Job.allocate (j : Job) (n : Nat) : Option (Nat × Job) :=
  if n = 0 ∨ j.sizelog2 = 0 ∨ n > 2 ^ j.sizelog2 ∨ j.liveBlocks.length ≥ 65536 then none
  else
    let k := blockLog n
    match pickBlock j.freeBlocks (j.sizelog2 + 1 - k) k with
    | none => none
    | some b =>
      some (b.1, { j with freeBlocks := splitHalves b.1 k b.2 ++ j.freeBlocks.filter (fun f => f != b),
                          liveBlocks := (b.1, k) :: j.liveBlocks })

/-- A freed block joined with its free buddies, repeatedly (13 R416). -/
def joinBlocks : Nat → Nat → Nat → List (Nat × Nat) → List (Nat × Nat)
  | 0, off, k, l => (off, k) :: l
  | fuel + 1, off, k, l =>
    let bud := if off / 2 ^ k % 2 = 0 then off + 2 ^ k else off - 2 ^ k
    if l.contains (bud, k) then joinBlocks fuel (Nat.min off bud) (k + 1) (l.filter (fun f => f != (bud, k)))
    else (off, k) :: l

/-- A live block at an arena offset freed (13 R416). -/
def Job.release (j : Job) (off : Nat) : Option Job :=
  match j.liveBlocks.find? (fun b => b.1 == off) with
  | none => none
  | some b =>
    some { j with liveBlocks := j.liveBlocks.filter (fun f => f != b),
                  freeBlocks := joinBlocks (j.sizelog2 - b.2) b.1 b.2 j.freeBlocks }

/-- ALC at the allocator (13 R415). -/
def State.serveAlc (s : State) (n : Word) (d : Nat) : State :=
  match s.myJob.allocate n.toNat with
  | none => s.trap cAllocFail n
  | some (off, j) =>
    let s1 := s.setJob s.th.job j
    (s1.setTh (s1.th.setGr d (j.base + BitVec.ofNat 64 off))).retire

/-- FRE at the allocator (13 R416). -/
def State.serveFre (s : State) (a : Word) : State :=
  if a = 0 then s.retire
  else
    match (if s.myJob.base.toNat ≤ a.toNat then s.myJob.release (a.toNat - s.myJob.base.toNat) else none) with
    | none => s.trap cAllocFail a
    | some j => (s.setJob s.th.job j).retire

/-! ## Serving a request -/

/-- The executing thread's core with an address's line written through and dropped, as an atomic does first (06 R149). -/
def State.evictFor (s : State) (pa : Nat) : State := s.evictLine (coreOf s.cur) (pa / 128)

/-- A request served for the executing thread; none where it must wait (07 R191, R203). -/
def State.serveOp (s : State) (op : GateOp) : Option State :=
  match op with
  | .amo pa va size fn operand rlx d => some ((s.evictFor pa).serveAmo pa va size fn operand rlx d)
  | .cas pa va size e n rlx d => some ((s.evictFor pa).serveCas pa va size e n rlx d)
  | .region line va st ab => some ((s.evictFor line).serveRegion line va st ab)
  | .ldf pa d => s.serveTake pa d true
  | .ste pa va v => s.servePut pa va v true
  | .ldp pa d => s.serveTake pa d false
  | .stf pa va v => s.servePut pa va v false
  | .fec pa => some (s.serveClear pa)
  | .alc n d => some (s.serveAlc n d)
  | .fre a => some (s.serveFre a)

/-- A request of the executing thread that waits at its gate (07 R203; 10 R274). -/
def State.enqueue (s : State) (g : Nat) (op : GateOp) (held : Bool) : State :=
  let x := s.th
  let s1 := s.setTh { x with park := .gate g, qseq := x.qseq + 1 }
  { s1 with gateQueue := s1.gateQueue ++
      [{ gate := g, thr := s.cur, op := op, job := x.job, tid := x.tid, quantum := x.qnum, seq := x.qseq, held := held }] }

/-- A gated request of the executing thread: served at once where the mode and the state allow it, else left to wait
(07 R203 to R206). -/
def State.gateRequest (s : State) (g : Nat) (op : GateOp) : State :=
  if s.myJob.gmode = 2 then s.enqueue g op true
  else if s.gateAllows s.th.job g s.th.tid.toNat then
    match s.serveOp op with
    | some s1 => (s1.gateServed s.th.job g s.th.tid.toNat).nudge g
    | none => s.enqueue g op false
  else (s.enqueue g op false).push .gatedRequestService (Arg.ofN g)

/-- A waiting request served for its thread, and taken out of its queue. -/
def State.serveReq (s : State) (r : GateReq) : Option State :=
  match ({ s with cur := r.thr }).serveOp r.op with
  | none => none
  | some s1 =>
    let s2 := s1.gateServed r.job r.gate r.tid.toNat
    some { s2 with cur := s.cur, gateQueue := s2.gateQueue.filter (fun q => !(q.gate == r.gate && q.thr == r.thr)) }

/-- The first request of a list that its gate can serve now, served. -/
def State.serveFirst (s : State) : List GateReq → Option State
  | [] => none
  | r :: t =>
    if r.held || !s.gateAllows r.job r.gate r.tid.toNat then s.serveFirst t
    else
      match s.serveReq r with
      | some s1 => some s1
      | none => s.serveFirst t

/-- Whether a thread is stopped by a full send queue. -/
def Thread.sendStopped (x : Thread) : Bool := x.park == .blocked 0x65 || x.park == .blocked 0x67 || x.park == .blocked 0x68

/-- Whether a thread waits for a message or reply that a core's ring tail holds: its own call or reply, or one of its job
that keeps a place in its core's send queue (log entry 143). -/
def State.waitsAtRing (s : State) (dst : Nat) (t : Nat) (x : Thread) : Bool :=
  s.msgs.any (fun m => m.dst == dst && m.job == x.job &&
    ((m.call && x.park == .rpc m.token) || (x.sendStopped && m.src == coreOf t))) ||
  s.replies.any (fun m => m.token.toNat % 1024 == dst && m.job == x.job &&
    (x.park == .rpc m.token || (x.sendStopped && m.src == coreOf t)))

/-- The threads that wait at a gate which can serve their job nothing more (07 R206). -/
def State.deadWaiters (s : State) (g : Nat) : List Nat :=
  (s.gateQueue.filter (fun r => r.gate == g && s.gateDead r.job g)).map (·.thr) ++
  (if g = gateSpawn then
    s.spawns.filterMap (fun r => if s.gateDead r.job g then r.waiter.map (·.1) else none)
  else []) ++
  (if gateRing 0 ≤ g ∧ g < gateRing 1024 then
    (s.threads.filter (fun p => p.2.live && s.waitsAtRing (g - gateRing 0) p.1 p.2 && s.gateDead p.2.job g)).map (·.1)
  else [])

/-- Every thread that waits at a gate whose replay log can serve nothing more takes DIVERGE, and what it asked for is dropped
(07 R206). -/
def State.divergeAt (s : State) (g : Nat) : State :=
  let dead := s.deadWaiters g
  let calls := dead.filterMap (fun t =>
    match (s.thread t).park with
    | .rpc tok => some tok
    | _ => none)
  let s1 := dead.foldl (fun w t => w.trapOf t cDiverge (BitVec.ofNat 64 g) (w.thread t).pc) s
  { s1 with
    gateQueue := s1.gateQueue.filter (fun r => !(r.gate == g && s.gateDead r.job g)),
    spawns := s1.spawns.filter (fun r => !((r.waiter.map (fun w => dead.contains w.1)).getD false)),
    msgs := s1.msgs.filter (fun m => !(m.call && calls.contains m.token)) }

/-- The gates of a replay at which threads wait and that can serve them nothing more, those of the memory apart, whose
requests are always offered (07 R206). -/
def State.deadGates (s : State) : List Nat :=
  if s.jobs.any (fun p => p.2.gmode == 3) then
    ((gateSpawn :: ((s.msgs.map (fun m => gateRing m.dst)) ++ (s.replies.map (fun m => gateRing (m.token.toNat % 1024))))).eraseDups).filter
      (fun g => !(s.deadWaiters g).isEmpty)
  else []

/-- GATED_REQUEST_SERVICE: gate `arg.n` serves the first request that it can serve, and is offered again after it
(07 R203 to R206; 12 R360). -/
def execGatedRequestService (s : State) : Out :=
  let g := s.arg.n
  match s.serveFirst (s.gateQueue.filter (fun r => r.gate == g)) with
  | some s1 => .next (s1.nudge g)
  | none => .next (s.divergeAt g)

/-! ## Quanta of ordered mode (07 R205) -/

/-- Whether a thread counts as blocked at the end of a quantum (07 R205). -/
def Thread.blocked (x : Thread) : Bool :=
  match x.park with
  | .gate _ => true
  | .rpc _ => true
  | .bar _ => true
  | .qsc _ _ _ => true
  | .spawn => true
  | .blocked _ => true
  | .retry op => op == 0x66
  | _ => false

/-- Whether a thread has retired a whole quantum. -/
def State.quantumFull (s : State) (x : Thread) : Bool := decide (2 ^ (s.job x.job).qlog2 ≤ x.qcount)

/-- The threads of a job that pre-emption has saved (05 R127). -/
def State.savedThreads (s : State) (j : Nat) : List Thread :=
  (s.kernels.filter (fun p => decide (p.1 / 2 ^ 32 = j))).flatMap (fun p => p.2.savedThreads)

/-- Whether the present quantum of a job is over: its threads, those saved included, have all retired it or are blocked
(07 R205, R207). -/
def State.quantumOver (s : State) (j : Nat) : Bool :=
  (s.job j).gmode == 2 && !(s.jobThreads j).isEmpty &&
    ((s.jobThreads j).map s.thread ++ s.savedThreads j).all (fun x => s.quantumFull x || x.blocked)

/-- The order of service at the end of a quantum: logical core, slot, then quantum and sequence of issue, so that a request
offered again stands at its thread's place (07 R205). -/
def gateKey (quantum : Nat) (tid : BitVec 14) (seq : Nat) : Nat :=
  (tid.toNat * 2 ^ 64 + quantum) * 2 ^ 64 + seq

/-- An item put into a list that rises in `key`, after its equals. -/
def putSorted {α : Type} (key : α → Nat) (a : α) : List α → List α
  | [] => [a]
  | b :: t => if key a < key b then a :: b :: t else b :: putSorted key a t

/-- A list sorted by `key`, equals kept in order. -/
def sortBy {α : Type} (key : α → Nat) (l : List α) : List α := l.foldl (fun acc a => putSorted key a acc) []

/-- The requests of a quantum offered in order, each once. -/
def State.offerAll (s : State) : List GateReq → State
  | [] => s
  | r :: t =>
    match s.serveReq r with
    | some s1 => s1.offerAll t
    | none => s.offerAll t

/-- A thread at the start of the next quantum. -/
def Thread.nextQuantum (x : Thread) : Thread := { x with qcount := 0, qnum := x.qnum + 1, qseq := 0 }

end Sys2Proof.Machine
end

