-- ==== Sys2Proof/Machine/Memory.lean ====
section
/-! DEFINITION. Loads, stores, prefetch, full/empty accesses, atomics, atomic regions, fences, vector memory accesses,
and the events of store buffers, the remote line cache and page walks (06, 07, 10; 12 R353 to R370; 13 R387, R388). -/

namespace Sys2Proof.Machine

open Sys2Proof

/-! ## The store buffer (07 R181) -/

/-- The youngest buffered byte of an address, oldest entry first. -/
def sbByte (sb : List SbEntry) (pa : Nat) : Option Byte :=
  (sb.flatMap (·.parts)).foldl (fun r p =>
    if p.pa ≤ pa ∧ pa < p.pa + p.data.length then some (nth 0 p.data (pa - p.pa)) else r) none

/-- How the store buffer covers the bytes of some parts. -/
inductive Cover where
  | all (b : List Byte)
  | some
  | none
  deriving DecidableEq, Repr

/-- The addresses of an access's bytes. -/
def partBytes (ps : List Part) : List Nat := ps.flatMap (fun p => (List.range p.len).map (fun i => p.pa + i))

/-- The buffer's cover of an access (06 R148; 07 R181). -/
def coverOf (sb : List SbEntry) (ps : List Part) : Cover :=
  let l := (partBytes ps).map (sbByte sb)
  if l.all (·.isSome) && !l.isEmpty then .all (zipWith2 (fun pa b => viewByte pa (b.getD 0)) (partBytes ps) l)
  else if l.any (·.isSome) then .some else .none

/-- The parts of a load read one after another: the first refusal, or the bytes. -/
def State.loadParts (s : State) (fresh : Bool) : List Part → Ans × List Byte × State
  | [] => (.ok, [], s)
  | p :: t =>
    if isView p.pa then
      let r := s.loadParts fresh t
      (r.1, s.homeBytes p.pa p.len ++ r.2.1, r.2.2)
    else if isMmio p.pa then
      let r := s.loadParts fresh t
      (r.1, wordBytes ((s.mmioRead s.who p.pa).getD 0) ++ r.2.1, r.2.2)
    else
      match s.loadPart p fresh with
      | (.ok, b, s1) =>
        let r := s1.loadParts fresh t
        (r.1, b ++ r.2.1, r.2.2)
      | (a, _, s1) => (a, [], s1)

/-- The widest tag of the buffered stores that a load of some parts meets (07 R189). -/
def sbTag (sb : List SbEntry) (ps : List Part) : Scope :=
  (sb.filter (fun e => e.parts.any (fun p => ps.any (fun q => decide (overlap p.pa p.data.length q.pa q.len ≠ 0))))).foldl
    (fun a e => Scope.max a e.tag) .core

/-- A load served by the store buffer noted for scope widening (07 R189). -/
def State.noteBuffered (s : State) (ps : List Part) : State :=
  let s1 := s.setTh { s.th with readScope := Scope.max s.th.readScope (sbTag s.th.sb ps) }
  ps.foldl (fun w p => w.noteAccess p.pa) s1

/-- A load of some parts: from the store buffer, waiting for it, or from the homes and the RLC (07 R181, R182). -/
def State.loadAll (s : State) (opc : Nat) (va : Word) (ps : List Part) (fresh : Bool) :
    Except State (List Byte × State) :=
  match coverOf s.th.sb ps with
  | .all b => .ok (b, s.noteBuffered ps)
  | .some => .error (s.retry opc)
  | .none =>
    match s.loadParts fresh ps with
    | (.ok, b, s1) =>
      .ok (b, ps.foldl (fun w p => (w.noteLoad p fresh).noteAccess p.pa) s1)
    | (.cause c, _, _) => .error (s.trapFree c)
    | (a, _, _) => .error (s.refused a va opc)

/-! ## Scopes of an access -/

/-- Natural scope of an access of some parts (07 R185). -/
def State.partsScope (s : State) (ps : List Part) : Scope :=
  ps.foldl (fun a p => Scope.max a (s.naturalScope p.pa)) .core

/-- Effective scope of an acquire that reads some parts (07 R189). -/
def State.partsAcq (s : State) (ps : List Part) : Scope :=
  ps.foldl (fun a p => s.acqScope a p.pa p.len) (s.partsScope ps)

/-- The checks of an MMIO or unmapped access; none where all parts are storage (06 R138, R139; 12 R355). -/
def State.storageCheck (s : State) (va : Word) (size : Nat) (ps : List Part) : Except State Bool :=
  if ps.any (fun p => isHole p.pa || isHole (p.pa + p.len - 1)) then .error (s.trapFree cProt)
  else if ps.any (fun p => isMmio p.pa || isMmio (p.pa + p.len - 1)) then
    (if size ≠ 8 ∨ va.toNat % 8 ≠ 0 then .error (s.trapFree cMisalign) else .ok true)
  else .ok false

/-- A wait until the executing thread's store buffer is empty (07 R181, R186). -/
def State.sbEmpty (s : State) (opc : Nat) : Except State Unit :=
  if s.th.sb.isEmpty then .ok () else .error (s.retry opc)

/-! ## Scalar loads (12 R353 to R356) -/

/-- An MMIO load. -/
def State.mmioLoad (s : State) (opc : Nat) (pa : Nat) : Except State (List Byte × State) :=
  match s.sbEmpty opc with
  | .error e => .error e
  | .ok () =>
    match s.mmioRead s.who pa with
    | some v => .ok (wordBytes v, s.noteAccess pa)
    | none => .error (s.trapFree cProt)

/-- Whether an acquire that the store buffer covers must wait: its scope is die or wider, so that its own read is served at
the home (07 R187). -/
def State.acqWaits (s : State) (ps : List Part) : Bool :=
  coverOf s.th.sb ps != .none && (Scope.max (s.partsScope ps) (sbTag s.th.sb ps)).atLeast .die

/-- Effective scope of an acquire that reads some parts, from the buffer or at the homes (07 R189). -/
def State.acqEff (s : State) (ps : List Part) : Scope :=
  if coverOf s.th.sb ps = .none then s.partsAcq ps else Scope.max (s.partsScope ps) (sbTag s.th.sb ps)

/-- The bytes of a scalar load and the state after its ordering. -/
def State.scalarLoad (s : State) (opc : Nat) (va : Word) (size : Nat) (acq home : Bool) :
    Except State (List Byte × State) :=
  match s.xparts opc va.toNat size needRd with
  | .error e => .error e
  | .ok ps =>
    match s.storageCheck va size ps with
    | .error e => .error e
    | .ok true =>
      match s.mmioLoad opc ((ps.map (·.pa)).headD 0) with
      | .error e => .error e
      | .ok (b, s1) => .ok (b, if acq then s1.acquire (s.partsAcq ps) else s1)
    | .ok false =>
      if acq && s.acqWaits ps then .error (s.retry opc)
      else
        match s.loadAll opc va ps (home || (acq && (s.acqEff ps).atLeast .die)) with
        | .error e => .error e
        | .ok (b, s1) => .ok (b, if acq then s1.acquire (s.acqEff ps) else s1)

/-- A load instruction. -/
def loadInstr (opc : Nat) (d : BitVec 5) (va : Word) (wc : BitVec 3) (acq home : Bool) (s : State) :
    Except State State :=
  match s.scalarLoad opc va (wcSize wc) acq home with
  | .error e => .error e
  | .ok (b, s1) => .ok (s1.retireG d (loadValue wc b))

/-- LD (12 R353, R355). -/
def execLd (d base : BitVec 5) (ord : BitVec 2) (off : BitVec 9) (wc : BitVec 3) (s : State) : Out :=
  unrecorded (fun r => loadInstr 0x30 d (mAddr (r.g base) off (wcSize wc)) wc (ord == 2) false r) s

/-- LDX (12 R354, R355). -/
def execLdx (d base idx : BitVec 5) (wc : BitVec 3) (ord sc : BitVec 2) (s : State) : Out :=
  unrecorded (fun r => loadInstr 0x32 d (xAddr (r.g base) (r.g idx) sc) wc (ord == 2) false r) s

/-- LDC: served at the homes (12 R356). -/
def execLdc (d base : BitVec 5) (ord : BitVec 2) (off : BitVec 9) (wc : BitVec 3) (s : State) : Out :=
  unrecorded (fun r => loadInstr 0x34 d (mAddr (r.g base) off (wcSize wc)) wc (ord == 2) true r) s

/-- The physical address and leaf that a prefetch would use, by its TLBs or a walk; none where it would fault. -/
def State.prefetchAt (s : State) (va : Nat) : Option (Nat × Leaf) :=
  match s.xlate s.cur va needRd with
  | .pa a l => some (a, l)
  | .cause _ => none
  | .miss =>
    match s.walk s.th.job va with
    | .leaf l _ _ _ => if l.permits s.th.level needRd then some (l.at_ va, l) else none
    | _ => none

/-- PRF: the line of a far HBM address filled; nothing else, and no fault (12 R357). -/
def execPrf (base : BitVec 5) (off : BitVec 9) (s : State) : Out :=
  unrecorded (fun r =>
    match r.prefetchAt (mAddr (r.g base) off 8).toNat with
    | none => .ok r.retire
    | some (a, l) =>
      let line := a / 128 * 128
      if r.isFar (coreOf r.cur) a && !r.migratingAt a && !r.fillUe (coreOf r.cur) line 128 then
        .ok ((r.fillLine (coreOf r.cur) line 128 l.rox).retire)
      else .ok r.retire) s

/-! ## Scalar stores (12 R353 to R355) -/

/-- The bytes of a store divided among its parts. -/
def cutParts : List Part → List Byte → List SbPart
  | [], _ => []
  | p :: t, b => { va := BitVec.ofNat 64 p.va, pa := p.pa, data := b.take p.len } :: cutParts t (b.drop p.len)

/-- The refusal of a store known when it is translated: a latched vintage copy (06 R167). -/
def State.storeLatched (s : State) (ps : List Part) : Bool := ps.any (fun p => s.latchedAt p.pa || s.latchedAt (p.pa + p.len - 1))

/-- What comes before the effect of a request that may come to be a release: pending causes, the wait for the store buffer,
the RLC. Whether it is one, its home decides (07 R186, R192, R193; 12 R337). -/
def State.readyRelease (s : State) (opc : Nat) (sc : Scope) : Except State State :=
  match s.takeDeferred (rpeDue sc) with
  | some e => .error e
  | none =>
    match s.sbEmpty opc with
    | .error e => .error e
    | .ok () => .ok (s.writeThrough sc)

/-- What comes before a release's own effect: pending causes, the wait for the store buffer, the RLC, and the release
noted (07 R186; 12 R337). -/
def State.beforeRelease (s : State) (opc : Nat) (sc : Scope) : Except State State :=
  match s.readyRelease opc sc with
  | .error e => .error e
  | .ok s1 => .ok (s1.release sc)

/-- Stores entered in the buffer as one entry (07 R181). -/
def State.enterStore (s : State) (opc : Nat) (parts : List SbPart) (rel : Bool) (joint : Bool := false) : Except State State :=
  if s.th.sb.length ≥ 16 then .error (s.retry opc)
  else
    let s1 := s.setTh { s.th with sb := s.th.sb ++ [{ parts := parts, tag := s.plainTag.tag, rel := rel, joint := joint }] }
    .ok (parts.foldl (fun w p => w.noteAccess p.pa) s1)

/-- A write of a register whose rule permits it, by the executing thread: that of a launch port is a release at pkg scope (05 R114; 06
R139). -/
def State.mmioPut (s : State) (pa : Nat) (r : Reg) (v : Word) : State :=
  let s1 := match r with
    | .port _ => s.release .pkg
    | _ => s
  (s1.noteAccess pa).mmioWrite s1.who r v

/-- An MMIO store: it waits for the buffer, its register's rule is checked, and the write is performed (06 R139). -/
def State.mmioStore (s : State) (opc : Nat) (pa : Nat) (v : Word) (rel : Bool) : Except State State :=
  match s.sbEmpty opc with
  | .error e => .error e
  | .ok () =>
    match regAt pa with
    | none => .error (s.trapFree cProt)
    | some r =>
      if !s.mayWrite s.who r then .error (s.trapFree cProt)
      else
        match (if rel then s.beforeRelease opc (s.th.effRelease .pkg) else .ok s) with
        | .error e => .error e
        | .ok s1 => .ok (s1.mmioPut pa r v)

/-- A scalar store up to its entry in the buffer. -/
def State.scalarStore (s : State) (opc : Nat) (va : Word) (b : List Byte) (rel : Bool) : Except State State :=
  match s.xparts opc va.toNat b.length needWr with
  | .error e => .error e
  | .ok ps =>
    match s.storageCheck va b.length ps with
    | .error e => .error e
    | .ok true => s.mmioStore opc ((ps.map (·.pa)).headD 0) (wordOf b) rel
    | .ok false =>
      if s.storeLatched ps then .error (s.trap cVintage va)
      else
        match (if rel then s.beforeRelease opc (s.th.effRelease (s.partsScope ps)) else .ok s) with
        | .error e => .error e
        | .ok s1 => s1.enterStore opc (cutParts ps b) rel

/-- A store instruction. -/
def storeInstr (opc : Nat) (src : BitVec 5) (va : Word) (wc : BitVec 3) (rel : Bool) (s : State) : Except State State :=
  let b := storeBytes (s.g src) (wcSize wc)
  match s.scalarStore opc va b rel with
  | .error e => .error e
  | .ok s1 => .ok ((s1.digest va b).retire)

/-- ST (12 R353, R355). -/
def execSt (src base : BitVec 5) (ord : BitVec 2) (off : BitVec 9) (wc : BitVec 3) (s : State) : Out :=
  unrecorded (fun r => storeInstr 0x31 src (mAddr (r.g base) off (wcSize wc)) wc (ord == 1) r) s

/-- STX (12 R354, R355). -/
def execStx (src base idx : BitVec 5) (wc : BitVec 3) (ord sc : BitVec 2) (s : State) : Out :=
  unrecorded (fun r => storeInstr 0x33 src (xAddr (r.g base) (r.g idx) sc) wc (ord == 1) r) s

/-! ## The drain of the store buffer (06 R149; 07 R181; 12 R358) -/

/-- One byte-range of a drained store performed at its home. -/
def State.drainHome (s : State) (t : Nat) (va : Word) (pa : Nat) (b : List Byte) (tag : WTag) : State :=
  if isView pa then s.viewStore pa b
  else
    match s.writeAns pa b.length (s.thread t).job with
    | .ok => (s.perform pa b tag).updateCopy (coreOf t) pa b
    | .cause c => s.refuseStore t c va
    | _ => s

/-- A whole aligned word of a far store written into the RLC and marked dirty. -/
def State.drainWord (s0 : State) (t : Nat) (va : Word) (pa : Nat) (b : List Byte) (tag : WTag) (rox : Bool) : State :=
  let c := coreOf t
  let s := s0.makeRoom c (pa / 128)
  let l := ((s.core c).line (pa / 128)).getD (Line.empty (pa / 128) rox)
  let i := pa % 128 / 8
  s.setCore c ((s.core c).putLine
    { l with valid := l.valid ||| wordBit i, dirty := l.dirty ||| wordBit i, data := putBytes l.data (i * 8) b,
             who := Store.put none i (some (t, va, tag)) l.who, seen := Store.put .core i tag.tag l.seen })

/-- A part cut at the aligned words that it covers wholly: offset, length, whether a whole word. -/
def wordCuts : Nat → Nat → Nat → Nat → List (Nat × Nat × Bool)
  | 0, _, _, _ => []
  | fuel + 1, pa, o, n =>
    if n ≤ o then []
    else
      let a := Nat.min (n - o) (8 - (pa + o) % 8)
      (o, a, a == 8) :: wordCuts fuel pa (o + a) n

/-- The ranges of an entry that are one part of its access with another: of a VST those on its side of a home or page
boundary (06 R151; 13 R387). -/
def State.sideOf (s : State) (e : SbEntry) (p : SbPart) : List SbPart :=
  if e.joint then
    e.parts.filter (fun q => homeOf s.iltab q.pa == homeOf s.iltab p.pa && decide (q.va.toNat + p.pa = p.va.toNat + q.pa))
  else [p]

/-- A part of a drained store at its home: where one range of it is refused nothing of it is written, and it is refused once. -/
def State.drainSide (s : State) (t : Nat) (e : SbEntry) (p : SbPart) (tag : WTag) : State :=
  let side := s.sideOf e p
  match firstBad (side.map (fun q => s.writeAns q.pa q.data.length (s.thread t).job)) with
  | .cause c => if side.head? = some p then s.refuseStore t c p.va else s
  | _ => s.drainHome t p.va p.pa p.data tag

/-- One part of a drained store. -/
def State.drainPart (s : State) (t : Nat) (e : SbEntry) (p : SbPart) : State :=
  let tag : WTag := { place := threadPlace t, tag := e.tag }
  if s.isFar (coreOf t) p.pa && !e.rel then
    (wordCuts (p.data.length + 1) p.pa 0 p.data.length).foldl (fun w q =>
      let va := p.va + BitVec.ofNat 64 q.1
      if q.2.2 then w.drainWord t va (p.pa + q.1) (sub p.data q.1 8) tag
        (((w.tlbFind (coreOf t) (w.job (w.thread t).job).asid p.va.toNat).map (·.rox)).getD false)
      else w.drainHome t va (p.pa + q.1) (sub p.data q.1 q.2.1) tag) s
  else s.drainSide t e p tag

/-- The partition for whose suspended window a drained entry waits. -/
def State.heldFor (s : State) (t : Nat) (e : SbEntry) : Option Nat :=
  (e.parts.map (fun p =>
    match s.writeAns p.pa p.data.length (s.thread t).job with
    | .held q => some q
    | _ => none)).findSome? id

/-- The oldest entry of a thread's buffer performed at its homes or in the RLC. -/
def State.drainOldest (s : State) (t : Nat) : State :=
  match (s.thread t).sb with
  | [] => s
  | e :: rest => e.parts.foldl (fun w p => w.drainPart t e p) (s.setThread t { s.thread t with sb := rest })

/-- The oldest entry of a thread leaves, unless it meets a suspended window of a pre-empted partition or waits for a page that
moves. -/
def State.drainNext (s : State) (t : Nat) : State :=
  match (s.thread t).sb with
  | [] => s
  | e :: _ =>
    if e.parts.any (fun p => s.migratingAt p.pa) then s
    else
      match s.heldFor t e with
      | some q => s.setPart q { s.part q with heldStores := (s.part q).heldStores ++ [t] }
      | none => s.drainOldest t

/-- STORE_BUFFER_DRAIN: the oldest entry of thread `arg.n` leaves, unless it is held for a pre-empted partition or waits
for a page that moves (05 R124; 06 R156; 07 R181). -/
def execStoreBufferDrain (s : State) : Out :=
  .next (if s.parts.any (fun p => p.2.heldStores.contains s.arg.n) then s else s.drainNext s.arg.n)

/-- RLC_EVICTION: line `arg.m` of core `arg.n` is written through and dropped (06 R149). -/
def execRlcEviction (s : State) : Out := .next (s.evictLine s.arg.n s.arg.m)

/-! ## Page walks (06 R142 to R146) -/

/-- A leaf put first in a TLB of a capacity; the oldest entries leave. -/
def tlbPut (cap : Nat) (l : Leaf) (t : List Leaf) : List Leaf := (l :: t.filter (fun m => m != l)).take cap

/-- Sets of a quad's L2 TLB: 3,072 entries in 12 ways (06 R146). -/
def l2Sets : Nat := 256

/-- The set of a quad's L2 TLB that holds a leaf. DESIGN CHOICE: its page number modulo the number of sets (log entry 155). -/
def Leaf.set (l : Leaf) : Nat := l.va / l.size % l2Sets

/-- A leaf put first in a quad's L2 TLB: where its set holds 12 others, the oldest of them leaves (06 R146). -/
def tlbPutWay (l : Leaf) (t : List Leaf) : List Leaf :=
  let rest := t.filter (fun m => m != l)
  let mine := rest.filter (fun m => m.set == l.set)
  l :: (if mine.length < 12 then rest
    else match mine.getLast? with
      | some v => rest.filter (fun m => m != v)
      | none => rest)

/-- A translation filled into a core's TLBs. -/
def State.tlbFill (s : State) (c : Nat) (l : Leaf) : State :=
  let s1 := s.setCore c { s.core c with tlb := tlbPut 96 l (s.core c).tlb }
  { s1 with quadTlb := Store.put [] (quadOf c) (tlbPutWay l (Store.get [] (quadOf c) s1.quadTlb)) s1.quadTlb }

/-- A walk's end for one request: the entry filled and the thread free to issue again, or XLATE, or MEMORY_UE for an entry that
cannot be read (02 R43; 06 R144). EVAL is the lane's address for a lane, else not stated (13 R387, R388). -/
def State.walkDone (s : State) (q : WalkReq) (w : Walk) : State :=
  if (s.thread q.thr).park = .walk q.va ∧ (s.thread q.thr).live then
    match w with
    | .leaf l _ _ _ => (s.tlbFill q.core l).setThread q.thr { s.thread q.thr with park := .running }
    | .bad => s.drawn.trapOf q.thr cMemoryUe (q.eval.getD s.freeVal) (s.thread q.thr).pc
    | _ => s.drawn.trapOf q.thr cXlate (q.eval.getD s.freeVal) (s.thread q.thr).pc
  else s

/-- Whether a walk may be served now. -/
def State.walkReady (s : State) (q : WalkReq) : Bool :=
  match s.walk q.job q.va.toNat with
  | .migrating => false
  | _ => true

/-- PAGE_WALK: the first walk of die `arg.n` that meets no migrating page is served, with every request coalesced with
it (06 R144, R146). -/
def execPageWalk (s : State) : Out :=
  let d := s.arg.n
  match (s.walkQueue d).find? s.walkReady with
  | none => .next s
  | some q =>
    let same := fun (r : WalkReq) => r.job == q.job && decide (r.va.toNat / 4096 = q.va.toNat / 4096)
    let w := s.walk q.job q.va.toNat
    let s1 := { s with walks := Store.put [] d ((s.walkQueue d).filter (fun r => !same r)) s.walks }
    .next (((s.walkQueue d).filter same).foldl (fun z r => z.walkDone r w) s1)

/-- MOVED_REISSUE: the buffered stores of thread `arg.n` that name a page's old frame are translated again; a thread
that waits for the walk issues its request again when PAGE_WALK ends (06 R156). -/
def execMovedReissue (s : State) : Out :=
  let t := s.arg.n
  let x := s.thread t
  let fix := fun (p : SbPart) =>
    match s.walk x.job p.va.toNat with
    | .leaf l _ _ _ => { p with pa := l.at_ p.va.toNat }
    | _ => p
  .next (s.setThread t { x with sb := x.sb.map (fun e => { e with parts := e.parts.map fix }) })

/-! ## Full/empty instructions (12 R359, R360) -/

/-- The checks of a full/empty instruction: its word's physical address. -/
def State.feCheck (s : State) (opc : Nat) (va : Word) (need : Need) : Except State Nat :=
  if va.toNat % 8 ≠ 0 then .error (s.trapFree cMisalign)
  else
    match s.xpart opc va.toNat 8 need with
    | .error e => .error e
    | .ok p =>
      match spaceOf p.pa with
      | .loc _ _ => .ok p.pa
      | _ => .error (s.trapFree cProt)

/-- A wait until no buffered store overlaps a word (12 R360). -/
def State.sbClear (s : State) (opc : Nat) (pa n : Nat) : Except State Unit :=
  if s.th.sb.any (fun e => e.parts.any (fun p => decide (overlap p.pa p.data.length pa n ≠ 0))) then .error (s.retry opc)
  else .ok ()

/-- LDF and LDP. -/
def takeInstr (opc : Nat) (d base : BitVec 5) (off : BitVec 9) (need : Need) (op : Nat → Nat → GateOp) (s : State) :
    Except State State :=
  match s.feCheck opc (mAddr (s.g base) off 8) need with
  | .error e => .error e
  | .ok pa =>
    match s.sbClear opc pa 8 with
    | .error e => .error e
    | .ok () => .ok (s.gateRequest (homeOf s.iltab pa) (op pa d.toNat))

/-- STE and STF. -/
def putInstr (opc : Nat) (src base : BitVec 5) (off : BitVec 9) (op : Nat → Word → Word → GateOp) (s : State) :
    Except State State :=
  let va := mAddr (s.g base) off 8
  match s.feCheck opc va needWr with
  | .error e => .error e
  | .ok pa =>
    match s.readyRelease opc (s.th.effRelease (s.naturalScope pa)) with
    | .error e => .error e
    | .ok s1 => .ok (s1.gateRequest (homeOf s.iltab pa) (op pa va (s.g src)))

/-- LDF (12 R359, R360). -/
def execLdf (d base : BitVec 5) (off : BitVec 9) (s : State) : Out :=
  unrecorded (takeInstr 0x36 d base off needRw (fun pa k => .ldf pa k)) s

/-- STE (12 R359, R360). -/
def execSte (src base : BitVec 5) (off : BitVec 9) (s : State) : Out :=
  unrecorded (putInstr 0x37 src base off (fun pa va v => .ste pa va v)) s

/-- LDP (12 R359, R360). -/
def execLdp (d base : BitVec 5) (off : BitVec 9) (s : State) : Out :=
  unrecorded (takeInstr 0x38 d base off needRd (fun pa k => .ldp pa k)) s

/-- STF (12 R359, R360). -/
def execStf (src base : BitVec 5) (off : BitVec 9) (s : State) : Out :=
  unrecorded (putInstr 0x39 src base off (fun pa va v => .stf pa va v)) s

/-- FEC (12 R359, R360). -/
def execFec (base : BitVec 5) (off : BitVec 9) (s : State) : Out :=
  unrecorded (fun r =>
    match r.feCheck 0x3A (mAddr (r.g base) off 8) needWr with
    | .error e => .error e
    | .ok pa => .ok (r.gateRequest (homeOf r.iltab pa) (.fec pa))) s

/-! ## AMO and CAS (12 R361 to R363) -/

/-- Whether the copy of an address that an atomic or a region names is latched, noted as it is translated (06 R167). -/
def State.noteLatch (s : State) (pa : Nat) : State := s.setTh { s.th with latchSeen := s.latchedAt pa }

/-- The checks and waits that AMO and CAS share: the physical address, and the state once the request may leave. -/
def State.atomicStart (s : State) (opc : Nat) (va : Word) (size : Nat) (rlx : Bool) : Except State (Nat × State) :=
  if va.toNat % size ≠ 0 then .error (s.trapFree cMisalign)
  else
    match s.xpart opc va.toNat size needRw with
    | .error e => .error e
    | .ok p =>
      if noStorage p.pa then .error (s.trapFree cProt)
      else if rlx then
        match s.sbClear opc p.pa size with
        | .error e => .error e
        | .ok () => .ok (p.pa, s.noteLatch p.pa)
      else
        match s.readyRelease opc (s.th.effRelease (s.naturalScope p.pa)) with
        | .error e => .error e
        | .ok s1 => .ok (p.pa, s1.noteLatch p.pa)

/-- Size of a width bit: 0 for .w, 1 for .d. -/
def widthSize (w : BitVec 1) : Nat := if w = 1 then 8 else 4

/-- AMO (12 R361, R362). -/
def execAmo (d a b : BitVec 5) (w : BitVec 1) (ord : BitVec 2) (fn : BitVec 4) (s : State) : Out :=
  unrecorded (fun r =>
    match r.atomicStart 0x3B (r.g a) (widthSize w) (ord == 1) with
    | .error e => .error e
    | .ok (pa, r1) =>
      .ok (r1.gateRequest (homeOf r.iltab pa)
        (.amo pa (r.g a) (widthSize w) fn.toNat (r.g b) (ord == 1) d.toNat))) s

/-- CAS (12 R363). -/
def execCas (d a b c : BitVec 5) (w : BitVec 1) (ord : BitVec 2) (s : State) : Out :=
  unrecorded (fun r =>
    match r.atomicStart 0x3C (r.g a) (widthSize w) (ord == 1) with
    | .error e => .error e
    | .ok (pa, r1) =>
      .ok (r1.gateRequest (homeOf r.iltab pa)
        (.cas pa (r.g a) (widthSize w) (r.g b) (r.g c) (ord == 1) d.toNat))) s

/-! ## Atomic regions (12 R364 to R367) -/

/-- ARB (12 R365). -/
def execArb (a : BitVec 5) (s : State) : Out :=
  unrecorded (fun r =>
    let x := r.th
    .ok (r.setTh { x with region := some { pc := x.pc, base := a.toNat, addr := r.g a, body := [], accesses := 0 },
                          pc := x.pc + 4, park := .running })) s

/-- An ARL or ARS met: recorded, or the violation's cause (12 R365). -/
def recordAccess (i : Instr) (base : BitVec 5) (off : BitVec 9) (wc : BitVec 3) (s : State) : State :=
  match s.th.region with
  | none => s.trap cRegionAbort 0
  | some r =>
    let va := mAddr r.addr off (wcSize wc)
    if base.toNat ≠ r.base ∨ r.body.length ≥ regionMax ∨ r.accesses ≥ regionAccesses then s.trap cRegionAbort r.pc
    else if va.toNat % wcSize wc ≠ 0 ∨ va.toNat / 128 ≠ r.addr.toNat / 128 then s.trap cMisalign va
    else
      s.setTh { s.th with region := some { r with body := r.body ++ [i], accesses := r.accesses + 1 },
                          pc := s.th.pc + 4 }

/-- ARL (12 R365). -/
def execArl (d base : BitVec 5) (off : BitVec 9) (wc : BitVec 3) (s : State) : Out :=
  .next (recordAccess (.arl d base off wc) base off wc s)

/-- ARS (12 R365). -/
def execArs (src base : BitVec 5) (off : BitVec 9) (wc : BitVec 3) (s : State) : Out :=
  .next (recordAccess (.ars src base off wc) base off wc s)

/-- How many instructions a recorded skip could annul at most. -/
def skipReach (i : Instr) : Nat :=
  match i with
  | .sk _ n _ _ => n.toNat
  | .ski _ n _ _ => n.toNat
  | _ => 0

/-- Whether some recorded skip would reach the ARC or beyond (12 R366). -/
def Region.skipsOut (r : Region) : Bool :=
  (indexed r.body).any (fun p => decide (r.body.length < p.1 + 1 + skipReach p.2))

/-- Whether an instruction is an ARS. -/
def isArs (i : Instr) : Bool :=
  match i with
  | .ars .. => true
  | _ => false

/-- ARC (12 R366, R367). -/
def execArc (d a : BitVec 5) (s : State) : Out :=
  match s.th.region with
  | none => .next (s.trap cRegionAbort 0)
  | some r =>
    let need := if r.body.any isArs then needRw else needRd
    if r.skipsOut then .next (s.trap cRegionAbort r.pc)
    else
      match s.xpart 0x40 (r.addr.toNat / 128 * 128) 128 need with
      | .error e => .next e
      | .ok p =>
        if noStorage p.pa then .next (s.trapFree cProt)
        else
          match s.readyRelease 0x40 (s.th.effRelease (s.naturalScope p.pa)) with
          | .error e => .next e
          | .ok s1 =>
            .next ((s1.noteLatch p.pa).gateRequest (homeOf s.iltab p.pa)
              (.region p.pa (BitVec.ofNat 64 (r.addr.toNat / 128 * 128)) d.toNat a.toNat))

/-! ## Fences (12 R368 to R370) -/

/-- The executing thread's operations sent to a peer and not ended (13 R371). -/
def State.outstanding (s : State) : Nat :=
  (s.remotes.filter (fun r => r.thr == some s.cur && r.tid == s.th.tid && r.engine.isNone)).length

/-- Effective scope of a FENCE (07 R189). -/
def State.fenceScope (s : State) (sc : Scope) : Scope := Scope.max (s.th.effRelease sc) s.th.readScope

/-- FENCE (12 R368, R369). -/
def execFence (sc : BitVec 3) (s : State) : Out :=
  unrecorded (fun r =>
    let e := r.fenceScope (scopeOfCode sc.toNat)
    match r.sbEmpty 0x41 with
    | .error x => .error x
    | .ok () =>
      if e.atLeast .pkg ∧ r.outstanding ≠ 0 then .error (r.retry 0x41)
      else
        let r1 := r.writeThrough e
        match r1.takeDeferred (rpeDue e) with
        | some x => .error x
        | none =>
          let r2 := (r1.release e).acquire e
          .ok ((r2.setTh { r2.th with readScope := .core }).retire)) s

/-- The address that a BFENCE names, translated at its issue, or the state in which its checks end (12 R370). -/
def State.fencePa (s : State) (a : BitVec 5) (sc : BitVec 3) : Except State Nat :=
  match s.th.park with
  | .bank pa _ => .ok pa
  | _ =>
    if sc = 3 then .ok 0
    else
      match s.xpart 0x42 (s.g a).toNat 1 needRd with
      | .error e => .error e
      | .ok p => if tileBase ≤ p.pa then .error (s.trap cBauError 1) else .ok p.pa

/-- Whether a BFENCE of a scope at an address names a bank: 3 the package, 5 the address's bank, else its stack (12 R370). -/
def State.fenceHas (s : State) (sc : BitVec 3) (pa b : Nat) : Bool :=
  sc == 3 || (if sc = 5 then b == bankOf s.iltab pa else b / 2048 == stackOf s.iltab pa)

/-- The commands held by each bank of a set. -/
def State.queuedAt (s : State) (f : Nat → Bool) : List (Nat × Nat) :=
  (s.banks.filter (fun p => f p.1 && !p.2.fifo.isEmpty)).map (fun p => (p.1, p.2.fifo.length))

/-- The first of some errors. -/
def firstError (l : List (Nat × Nat)) : Option (Nat × Nat) :=
  l.foldl (fun a e =>
    match a with
    | some b => if e.1 < b.1 then some e else a
    | none => some e) none

/-- The first error of a thread that the banks of a set have not reported. -/
def State.bankError (s : State) (f : Nat → Bool) (key : Nat) : Option (Nat × Nat) :=
  firstError (s.banks.filterMap (fun p => if f p.1 then Store.get none key p.2.pend else none))

/-- The errors of a thread at the banks of a set reported. -/
def State.clearErrors (s : State) (f : Nat → Bool) (key : Nat) : State :=
  { s with banks := s.banks.map (fun p => if f p.1 then (p.1, { p.2 with pend := Store.put none key none p.2.pend }) else p) }

/-- BFENCE: it waits for the commands that its banks held when it issued, reports the first error of the thread there, the others
being counted only, then acquires (06 R174, R175; 12 R370). -/
def execBfence (a : BitVec 5) (sc : BitVec 3) (s : State) : Out :=
  unrecorded (fun r =>
    match r.fencePa a sc with
    | .error e => .error e
    | .ok pa =>
      let f := r.fenceHas sc pa
      let left := match r.th.park with
        | .bank _ l => l
        | _ => r.queuedAt f
      if left.any (fun p => p.2 != 0) then .error (r.parkOn (.bank pa left))
      else
        let key := threadKey r.th.job r.th.tid
        match r.bankError f key with
        | some e => .error ((r.clearErrors f key).trap cBauError (BitVec.ofNat 64 e.2))
        | none => .ok ((r.acquire .pkg).retire)) s

/-! ## Vector memory accesses (13 R387, R388) -/

/-- The cause that a lane in MMIO raises, if any: MISALIGN for one of a VLD or a VST and for one that is not aligned, PROT where the
register's rule refuses it (06 R139; 13 R387, R388). -/
def State.laneMmio (s : State) (wr whole : Bool) (va : Word) (pa : Nat) : Option Nat :=
  if whole ∨ va.toNat % 8 ≠ 0 then some cMisalign
  else if wr then (match regAt pa with
    | some r => if s.mayWrite s.who r then none else some cProt
    | none => some cProt)
  else if (s.mmioRead s.who pa).isSome then none else some cProt

/-- The parts of one lane's 8 bytes, or the state in which the access ends; EVAL is the lane's address. `whole` says that the lanes
are one access, as those of VLD and VST are. -/
def State.laneParts (s : State) (opc : Nat) (need : Need) (whole : Bool) (va : Word) : Except State (List Part) :=
  let n1 := Nat.min 8 (256 - va.toNat % 256)
  let one : Nat → Nat → Except State Part := fun v n =>
    match s.xlate s.cur v need with
    | .pa a l =>
      if isHole a then Except.error (s.trap cProt va)
      else if isMmio a then
        match s.laneMmio need.wr whole va a with
        | some c => Except.error (s.trap c va)
        | none => Except.ok { va := v, pa := a, len := n, leaf := l }
      else if need.wr && s.latchedAt a then Except.error (s.trap cVintage va)
      else Except.ok { va := v, pa := a, len := n, leaf := l }
    | .miss => Except.error (s.parkWalk s.cur v opc (some va))
    | .cause c => Except.error (s.trap c va)
  match one va.toNat n1 with
  | .error e => .error e
  | .ok p =>
    if n1 = 8 then .ok [p]
    else
      match one (va.toNat + n1) (8 - n1) with
      | .error e => .error e
      | .ok q => .ok [p, q]

/-- The parts of the active lanes in ascending order, each with its lane; every lane is checked before any is
performed. -/
def State.allLanes (s : State) (opc : Nat) (need : Need) (whole : Bool) (addr : Nat → Word) :
    List Nat → Except State (List (Nat × List Part))
  | [] => .ok []
  | i :: t =>
    match s.laneParts opc need whole (addr i) with
    | .error e => .error e
    | .ok ps =>
      match s.allLanes opc need whole addr t with
      | .error e => .error e
      | .ok l => .ok ((i, ps) :: l)

/-- The lanes read one by one; a refusal gives EVAL the lane's address. -/
def State.readLanes (s : State) (opc : Nat) (addr : Nat → Word) (fresh : Bool) :
    List (Nat × List Part) → Except State (List (Nat × Word) × State)
  | [] => .ok ([], s)
  | (i, ps) :: t =>
    match coverOf s.th.sb ps with
    | .all b =>
      match (s.noteBuffered ps).readLanes opc addr fresh t with
      | .error e => .error e
      | .ok (l, s1) => .ok ((i, wordOf b) :: l, s1)
    | _ =>
      match s.loadParts fresh ps with
      | (.ok, b, s1) =>
        match (ps.foldl (fun w p => (w.noteLoad p fresh).noteAccess p.pa) s1).readLanes opc addr fresh t with
        | .error e => .error e
        | .ok (l, s2) => .ok ((i, wordOf b) :: l, s2)
      | (.cause c, _, _) => .error (s.trap c (addr i))
      | (a, _, _) => .error (s.refused a (addr i) opc)

/-- The value of a lane in a list of lanes read. -/
def laneValue (l : List (Nat × Word)) (i : Nat) : Word := ((l.find? (fun p => p.1 == i)).map (·.2)).getD 0

/-- The destination of a vector load: active lanes take what was read. -/
def Thread.loadLanes (x : Thread) (vd : BitVec 3) (me : BitVec 1) (vm : BitVec 3) (pol : BitVec 1)
    (l : List (Nat × Word)) : Thread :=
  x.writeLanes vd me vm pol ((List.range 8).map (laneValue l))

/-- Whether the store buffer covers an access in part. -/
def State.halfCovered (s : State) (ps : List Part) : Bool := coverOf s.th.sb ps == .some

/-- VLD: one access; it waits while the buffer covers it in part (13 R387). -/
def execVld (vd : BitVec 3) (ga : BitVec 5) (me : BitVec 1) (vm : BitVec 3) (pol : BitVec 1) (ord : BitVec 2)
    (s : State) : Out :=
  unrecorded (fun r =>
    let addr := fun (i : Nat) => r.g ga + BitVec.ofNat 64 (8 * i)
    match r.allLanes 0x5D needRd true addr (r.th.activeLanes me vm) with
    | .error e => .error e
    | .ok ls =>
      let ps := ls.flatMap (·.2)
      if r.halfCovered ps then .error (r.retry 0x5D)
      else if ord == 2 && r.acqWaits ps then .error (r.retry 0x5D)
      else
        match r.readLanes 0x5D addr (ord == 2 && (r.partsAcq ps).atLeast .die) ls with
        | .error e => .error e
        | .ok (l, r1) =>
          let r2 := if ord = 2 then r1.acquire (Scope.max (r.partsAcq ps) (sbTag r.th.sb ps)) else r1
          .ok ((r2.setTh (r2.th.loadLanes vd me vm pol l)).retire)) s

/-- Whether a lane lies in MMIO. -/
def mmioLane (q : Nat × List Part) : Bool := q.2.any (fun p => isMmio p.pa)

/-- VGTH: each lane is its own access; one that reads a register waits for the store buffer (06 R139; 13 R388). -/
def execVgth (vd : BitVec 3) (ga : BitVec 5) (vc : BitVec 3) (me : BitVec 1) (vm : BitVec 3) (pol : BitVec 1)
    (sc : BitVec 2) (s : State) : Out :=
  unrecorded (fun r =>
    let addr := fun (i : Nat) => xAddr (r.g ga) (r.th.lane vc.toNat i) sc
    match r.allLanes 0x5F needRd false addr (r.th.activeLanes me vm) with
    | .error e => .error e
    | .ok ls =>
      if ls.any (fun q => r.halfCovered q.2) || (ls.any mmioLane && !r.th.sb.isEmpty) then .error (r.retry 0x5F)
      else
        match r.readLanes 0x5F addr false ls with
        | .error e => .error e
        | .ok (l, r1) => .ok ((r1.setTh (r1.th.loadLanes vd me vm pol l)).retire)) s

/-- Adjoining ranges of a vector store made one where they lie in one home; ranges that the mask parts are one part too, by
`SbEntry.joint` (13 R387). -/
def mergeParts : List SbPart → List SbPart
  | [] => []
  | p :: t =>
    match mergeParts t with
    | [] => [p]
    | q :: r =>
      if p.pa + p.data.length = q.pa ∧ p.va + BitVec.ofNat 64 p.data.length = q.va ∧ p.pa / 256 = q.pa / 256 then
        { p with data := p.data ++ q.data } :: r
      else p :: q :: r

/-- The buffered parts of the lanes of a vector store. -/
def Thread.laneStores (x : Thread) (vd : BitVec 3) (ls : List (Nat × List Part)) : List SbPart :=
  ls.flatMap (fun q => cutParts q.2 (wordBytes (x.lane vd.toNat q.1)))

/-- DIGEST of a vector store: each active lane in ascending order (10 R300). -/
def State.digestLanes (s : State) (vd : BitVec 3) (addr : Nat → Word) (ls : List (Nat × List Part)) : State :=
  ls.foldl (fun w q => w.digest (addr q.1) (wordBytes (w.th.lane vd.toNat q.1))) s

/-- VST: one store-buffer entry (13 R387). One without an active lane stores nothing and enters none. -/
def execVst (vd : BitVec 3) (ga : BitVec 5) (me : BitVec 1) (vm : BitVec 3) (_pol : BitVec 1) (ord : BitVec 2)
    (s : State) : Out :=
  unrecorded (fun r =>
    let addr := fun (i : Nat) => r.g ga + BitVec.ofNat 64 (8 * i)
    match r.allLanes 0x5E needWr true addr (r.th.activeLanes me vm) with
    | .error e => .error e
    | .ok ls =>
      match (if ord = 1 then r.beforeRelease 0x5E (r.th.effRelease (r.partsScope (ls.flatMap (·.2)))) else .ok r) with
      | .error e => .error e
      | .ok r1 =>
        match (if ls.isEmpty then .ok r1 else r1.enterStore 0x5E (mergeParts (r1.th.laneStores vd ls)) (ord == 1) true) with
        | .error e => .error e
        | .ok r2 => .ok ((r2.digestLanes vd addr ls).retire)) s

/-- The lanes of a scatter that lie in MMIO performed at their registers, in ascending order, once the store buffer is empty (06
R139; 13 R388). -/
def State.putLanes (s : State) (vd : BitVec 3) (ls : List (Nat × List Part)) : State :=
  (ls.filter mmioLane).foldl (fun (w : State) q =>
    let pa := (q.2.map (·.pa)).headD 0
    match regAt pa with
    | some r => w.mmioPut pa r (w.th.lane vd.toNat q.1)
    | none => w) s

/-- VSCT: one store-buffer entry whose lanes leave in ascending order (13 R388). -/
def execVsct (vd : BitVec 3) (ga : BitVec 5) (vc : BitVec 3) (me : BitVec 1) (vm : BitVec 3) (_pol : BitVec 1)
    (sc : BitVec 2) (s : State) : Out :=
  unrecorded (fun r =>
    let addr := fun (i : Nat) => xAddr (r.g ga) (r.th.lane vc.toNat i) sc
    match r.allLanes 0x60 needWr false addr (r.th.activeLanes me vm) with
    | .error e => .error e
    | .ok ls =>
      let mem := ls.filter (fun q => !mmioLane q)
      if ls.any mmioLane && !r.th.sb.isEmpty then .error (r.retry 0x60)
      else
        match (if mem.isEmpty then .ok r else r.enterStore 0x60 (r.th.laneStores vd mem) false) with
        | .error e => .error e
        | .ok r2 => .ok (((r2.putLanes vd ls).digestLanes vd addr ls).retire)) s

end Sys2Proof.Machine
end

