-- ==== Sys2Proof/Machine/Remote.lean ====
section
/-! DEFINITION. Remote operations: RST and RINC, what their packets do at this target, and how operations sent to a peer
end (03 R52 to R63; 13 R371, R405, R406). -/

namespace Sys2Proof.Machine

open Sys2Proof

/-! ## The peer table and packet delivery contexts (03 R54, R56, R57; 04 R77) -/

/-- The number under which the host's own entries stand: peer `q` of this "job" is queue q's entry (04 R77). -/
def hostJob : Nat := 256

/-- The 32 bytes of a peer entry (03 R56). -/
def State.peerEntry (s : State) (j i : Nat) : List Byte := getBytes s.peers (0xFE_E000_0000 + j * 0x2_0000 + i * 32) 32

/-- PORTS of an entry. -/
def entryPorts (e : List Byte) : Nat := field e 20 1

/-- Whether an entry may be used: VALID, a port, an association of the job (03 R57; 04 R78). -/
def State.entryUsable (s : State) (j i : Nat) : Bool :=
  let e := s.peerEntry j i
  let sas := if j = hostJob then Config.hostAssociations else (s.job j).associations
  bit (field e 21 1) 0 && entryPorts e != 0 && sas.contains (field e 22 2)

/-- The ports that carry the traffic of an entry now: those of PORTS that are up, the lowest alone for ROD (03 R61, R62). -/
def State.routeOf (s : State) (e : List Byte) : BitVec 8 :=
  let up := (List.range 8).filter (fun p => bit (entryPorts e) p && (Store.get EthPort.init p s.pkg.eth).up)
  let use := if bit (field e 21 1) 1 then up.take 1 else up
  BitVec.ofNat 8 ((use.map (fun p => 2 ^ p)).foldl (· + ·) 0)

/-- Open contexts at most (03 R54). -/
def pdcMax : Nat := 8192

/-- The context of a job and peer. -/
def State.pdcOf (s : State) (j i : Nat) : Option Pdc := s.pdcs.find? (fun p => p.job == j && p.peer == i)

/-- Whether an operation to a peer must wait for a context (03 R54). -/
def State.pdcFull (s : State) (j i : Nat) : Bool := (s.pdcOf j i).isNone && decide (pdcMax ≤ s.pdcs.length)

/-- A context opened for a peer where none is (03 R52). -/
def State.openPdc (s : State) (j i : Nat) : State :=
  match s.pdcOf j i with
  | some _ => s
  | none =>
    { s with pdcs := s.pdcs ++ [{ id := s.pdcSeq, job := j, peer := i, idleSince := s.cyc }], pdcSeq := s.pdcSeq + 1 }

/-- A wait for a context counted in the event log (03 R54). -/
def State.notePdcWait (s : State) (j i : Nat) : State := s.logEvent .pdcWait j i

/-- A packet on the wire; one for the host reaches its memory (03 R58; 04 R85). -/
def State.emit (s : State) (q : OutPkt) : State :=
  { s with
    outbox := s.outbox ++ [q],
    hostMem := if q.kind = 5 then putBytes s.hostMem q.va.toNat q.data else s.hostMem }

/-- A packet as it leaves egress: its peer entry is read whole now, which no later write of the table alters (03 R57). -/
def State.atEgress (s : State) (p : OutPkt) : OutPkt :=
  let e := s.peerEntry p.job p.peer
  { p with entry := e, ports := s.routeOf e }

/-- A packet sent to a usable peer, or left waiting for a context (03 R54). -/
def State.sendRemote (s : State) (thr : Option Nat) (tid : BitVec 14) (engine cmd : Option (Nat × Nat)) (p : OutPkt) :
    State :=
  let full := s.pdcFull p.job p.peer
  let q := if full then p else s.atEgress p
  let op : RemoteOp :=
    { id := s.remoteSeq, job := p.job, peer := p.peer, thr := thr, tid := tid, engine := engine, cmd := cmd, pkt := q,
      waiting := full }
  let s1 := { s with remotes := s.remotes ++ [op], remoteSeq := s.remoteSeq + 1 }
  if full then s1.notePdcWait p.job p.peer else (s1.openPdc p.job p.peer).emit q

/-! ## How an operation fails (03 R63) -/

/-- EVAL of a remote failure: the peer index and the cause (03 R63). -/
def remoteEval (peer cause : Nat) : Word := BitVec.ofNat 64 (peer % 4096 + cause * 4096)

/-- RPE for the thread that issued an operation, or REMOTE to the supervisor where the thread has ended (03 R63). -/
def State.failThread (s : State) (t : Nat) (job : Nat) (tid : BitVec 14) (eval : Word) : State :=
  let x := s.thread t
  if x.live ∧ x.job = job ∧ x.tid = tid then s.deferFault t 0 0 eval
  else s.sendRecord job (recordBytes cRemote 0 job tid.toNat s.ptime eval 0 0xFFFF 0xFF [])

/-- The transfer of an engine that a remote part belongs to, changed. -/
def State.mapTransfer (s : State) (e num : Nat) (f : Transfer → Transfer) : State :=
  s.setEngine e { s.engine e with queue := (s.engine e).queue.map (fun t => if t.num = num then f t else t) }

/-- A transfer that ends in error: its first error kept and the parts that were not sent abandoned (10 R295). -/
def State.failTransfer (s : State) (e num code : Nat) : State :=
  let mine := fun (r : RemoteOp) => r.engine == some (e, num) && r.waiting
  let dropped := (s.remotes.filter mine).length
  ({ s with remotes := s.remotes.filter (fun r => !mine r) }).mapTransfer e num (fun t =>
    { t with err := if t.err = 0 then code else t.err, remote := t.remote - dropped })

/-- An operation of a thread, an engine, a host buffer or a completion ended as a failure of a cause (03 R63; 04 R85,
R86). -/
def State.failRemote (s : State) (r : RemoteOp) (cause : Nat) : State :=
  match r.engine, r.cmd, r.thr with
  | some (e, num), _, _ =>
    (s.mapTransfer e num (fun t => { t with remote := t.remote - 1 })).failTransfer e num (if cause = 2 then 9 else 8)
  | none, some (q, n), _ =>
    if s.pkg.pendCmds.any (fun c => c.q == q && c.seq == n) then
      s.setPkg { s.pkg with pendCmds := s.pkg.pendCmds.map (fun c =>
        if c.q = q ∧ c.seq = n then { c with status := 11, result := List.replicate 16 0 } else c) }
    else (s.setQueue q { s.queue q with cerr := true }).logEvent .completionFailed q n
  | none, none, some t => s.failThread t r.job r.tid (remoteEval r.peer cause)
  | none, none, none => s

/-- The operation of a number taken out, with its context idle from now. -/
def State.dropRemote (s : State) (r : RemoteOp) : State :=
  { s with
    remotes := s.remotes.filter (fun o => o.id != r.id),
    pdcs := s.pdcs.map (fun p => if p.job = r.job ∧ p.peer = r.peer then { p with idleSince := s.cyc } else p) }

/-- The operation of a number that has been sent. -/
def State.sentRemote (s : State) (n : Nat) : Option RemoteOp :=
  s.remotes.find? (fun r => r.id == n && !r.waiting)

/-- REMOTE_ACK: operation `arg.n` is acknowledged (03 R63; 13 R371). -/
def execRemoteAck (s : State) : Out :=
  match s.sentRemote s.arg.n with
  | none => .next s
  | some r =>
    let s1 := s.dropRemote r
    .next (match r.engine with
      | some (e, num) => s1.mapTransfer e num (fun t => { t with remote := t.remote - 1 })
      | none => s1)

/-- RETRANSMISSION_LIMIT: operation `arg.n` fails with cause 1 (03 R63). -/
def execRetransmissionLimit (s : State) : Out :=
  match s.sentRemote s.arg.n with
  | none => .next s
  | some r => .next ((s.dropRemote r).failRemote r 1)

/-- NEGATIVE_ACKNOWLEDGEMENT: operation `arg.n` is refused by its target, or its response fails TSS here (`arg.b`)
(03 R59, R63). -/
def execNegativeAcknowledgement (s : State) : Out :=
  match s.sentRemote s.arg.n with
  | none => .next s
  | some r => .next ((s.dropRemote r).failRemote r (if s.arg.b then 3 else 2))

/-- Plane cycles of 10 ms (03 R52). -/
def pdcIdle : Nat := 10 * cyclesPerMs

/-- A waiting operation that leaves: its entry is read now, and it is sent over the ports that are up, or fails where the
entry cannot be used any more (03 R54, R57, R61 to R63). -/
def State.leaveEgress (s : State) (o : RemoteOp) : State :=
  if s.entryUsable o.job o.peer then
    let q := s.atEgress o.pkt
    State.emit { s with remotes := s.remotes.map (fun r => if r.id = o.id then { r with pkt := q, waiting := false } else r) } q
  else (s.dropRemote o).failRemote o 0

/-- The first waiting operation sent, with the others that its context serves, where a context is free (03 R54). -/
def State.sendWaiting (s : State) : State :=
  match s.remotes.find? (·.waiting) with
  | none => s
  | some r =>
    if s.pdcFull r.job r.peer then s
    else
      (s.remotes.filter (fun o => o.waiting && o.job == r.job && o.peer == r.peer)).foldl State.leaveEgress
        (s.openPdc r.job r.peer)

/-- Waiting operations sent while contexts are free (03 R54). -/
def State.sendAllWaiting (s : State) : State := s.remotes.foldl (fun w _ => w.sendWaiting) s

/-- PDC_IDLE_CLOSE: context `arg.n` closes once it has had no packet outstanding for 10 ms, and a waiting operation
proceeds (03 R52, R54). -/
def execPdcIdleClose (s : State) : Out :=
  match s.pdcs.find? (fun p => p.id == s.arg.n) with
  | none => .next s
  | some p =>
    let used := s.remotes.any (fun r => !r.waiting && r.job == p.job && r.peer == p.peer)
    if used ∨ s.cyc < p.idleSince + pdcIdle then .next s
    else .next ({ s with pdcs := s.pdcs.filter (fun q => q.id != p.id) }).sendWaiting

/-! ## RST and RINC (13 R371, R405, R406) -/

/-- Operations of one thread that may be outstanding (13 R371). -/
def remoteMax : Nat := 64

/-- A packet of the executing thread, or RPE where its peer entry cannot be used (03 R57, R63). -/
def State.threadRemote (s : State) (kind peer : Nat) (va : Word) (data : List Byte) (rel : Bool) : State :=
  if s.entryUsable s.th.job peer then
    s.sendRemote (some s.cur) s.th.tid none none
      { kind := kind, op := 0, job := s.th.job, peer := peer, va := va, data := data, rel := rel, ports := 0 }
  else s.deferFault s.cur 0 0 (remoteEval peer 0)

/-- Whether a remote operation of the executing thread must park: 64 outstanding, or no context (03 R54; 13 R371). -/
def State.remoteParks (s : State) (peer : Nat) : Bool :=
  decide (remoteMax ≤ s.outstanding) || (s.entryUsable s.th.job peer && s.pdcFull s.th.job peer)

/-- The executing thread parked for egress; a wait for a context is counted once. -/
def State.parkRemote (s : State) (peer opc : Nat) : State :=
  let s1 := if s.outstanding < remoteMax ∧ s.th.park ≠ .retry opc then s.notePdcWait s.th.job peer else s
  s1.retry opc

/-- RST (13 R405). -/
def execRst (a b c : BitVec 5) (w : BitVec 2) (s : State) : Out :=
  unrecorded (fun r =>
    let peer := (r.g a).toNat % 4096
    let data := storeBytes (r.g c) (2 ^ w.toNat)
    if r.remoteParks peer then .error (r.parkRemote peer 0x76)
    else .ok (((r.threadRemote 0 peer (r.g b) data false).digest (r.g b) data).retire)) s

/-- The packet that a RINC sends. -/
def State.rincSend (s : State) (peer : Nat) (va addend : Word) (rel kind : BitVec 1) : State :=
  if kind = 1 then s.threadRemote 2 peer (va &&& 0x3FFF) (wordBytes addend) (rel == 1)
  else s.threadRemote 1 peer va (wordBytes addend) (rel == 1)

/-- RINC (13 R406). -/
def execRinc (a b c : BitVec 5) (rel kind : BitVec 1) (s : State) : Out :=
  unrecorded (fun r =>
    let peer := (r.g a).toNat % 4096
    if kind = 0 ∧ (r.g b).toNat % 8 ≠ 0 then .error (r.trap cMisalign (r.g b))
    else
      match (if rel = 1 then r.beforeRelease 0x77 (r.th.effRelease .pod) else .ok r) with
      | .error e => .error e
      | .ok r1 =>
        if r1.remoteParks peer then .error (r1.parkRemote peer 0x77)
        else .ok (r1.rincSend peer (r.g b) (r.g c) rel kind).retire) s

/-! ## Packets at this target (03 R58, R59, R63; 07 R202) -/

/-- The job that a UET job identifier names, while it is open (03 R59; 04 R87). -/
def State.packetJob (s : State) (id : Nat) : Option Nat :=
  if 0x1000 ≤ id ∧ id < 0x1100 ∧ (s.job (id - 0x1000)).st ≠ .closed then some (id - 0x1000) else none

/-- The queue that a UET job identifier names (04 R77). -/
def packetQueue (id : Nat) : Option Nat := if 0xFFFF00 ≤ id ∧ id < 0xFFFF04 then some (id - 0xFFFF00) else none

/-- Bytes of payload that a packet carries at most (03 R51). -/
def payloadMax : Nat := 4096

/-- An answer to a packet: 0 done, 1 refused with a cause, 2 data; data in packets of at most 4,096 bytes (03 R51). -/
def State.answer (s : State) (p : Packet) (op : Nat) (data : List Byte) : State :=
  { s with outbox := s.outbox ++ (if data.isEmpty then [[]] else chunks payloadMax data).map (fun b =>
      { kind := 4, op := op, job := p.jobid, peer := 0, va := BitVec.ofNat 64 p.id, data := b, rel := false, ports := 0 }) }

/-- A packet refused (03 R59). -/
def State.refusePkt (s : State) (p : Packet) (cause : Nat) : State := s.answer p 1 (bytesOf 1 cause)

/-- What a packet's range waits for. -/
inductive Wait where
  | page
  | part (p : Nat)
  deriving DecidableEq, Repr

/-- What one answer of a home waits for. -/
def Ans.wait : Ans → Option Wait
  | .ok => none
  | .cause _ => none
  | .held p => some (.part p)
  | .moved => some .page

/-- What a range of a job's space waits for, if anything: a page that moves, or a window that pre-emption suspended. -/
def State.rangeWait (s : State) (j : Nat) (lvl : Level) (need : Need) (va n : Nat) (tlb : List Leaf := []) :
    Option Wait :=
  ((pieces va n).map (fun p =>
    match s.xlateWalk j lvl p.1 need tlb with
    | .miss => some .page
    | .cause _ => none
    | .pa a _ => (if need.wr then s.writeAns a p.2 j else s.readAns a p.2 j).wait)).findSome? id

/-- A packet kept until what it waits for ends (03 R59; 05 R124). -/
def State.holdPkt (s : State) (kind : Nat) (p : Packet) (w : Wait) : State :=
  match w with
  | .part k => s.setPart k { s.part k with heldPackets := (s.part k).heldPackets ++ [(kind, p)] }
  | .page =>
    match s.migrations with
    | [] => s
    | m :: t => { s with migrations := { m with held := m.held ++ [(kind, p)] } :: t }

/-- The end of a packet's access: its answer, a refusal, or a wait. -/
def State.endPkt (s : State) (kind : Nat) (p : Packet) (j : Nat) (need : Need) (n : Nat)
    (r : Except XErr (State × Nat × List Byte)) : State :=
  match s.rangeWait j .user need p.va.toNat n with
  | some w => s.holdPkt kind p w
  | none =>
    match r with
    | .error c => s.refusePkt p c
    | .ok (s1, op, data) => s1.answer p op data

/-- A packet of a job that is open, or a refusal (03 R59). -/
def State.forJob (s : State) (p : Packet) (f : Nat → State) : State :=
  match s.packetJob p.jobid with
  | some j => f j
  | none => s.refusePkt p cProt

/-! ## Connections at this target (03 R51, R53, R61) -/

/-- A connection as this target keeps it. -/
def State.conn (s : State) (n : Nat) : RxConn := Store.get RxConn.init n s.rx

/-- A connection replaced. -/
def State.setConn (s : State) (n : Nat) (x : RxConn) : State := { s with rx := Store.put RxConn.init n x s.rx }

/-- Whether two packets have one number of one connection. -/
def samePkt (p q : Packet) : Bool := p.conn == q.conn && p.ordered == q.ordered && p.psn == q.psn

/-- Whether a packet is held here for a page that moves or a suspended window. -/
def State.pktHeld (s : State) (p : Packet) : Bool :=
  s.migrations.any (fun m => m.held.any (fun q => samePkt q.2 p)) || s.parts.any (fun x => x.2.heldPackets.any (fun q => samePkt q.2 p))

/-- Whether a packet's effect has been performed, or it has come and waits: it is then a retransmitted duplicate (03 R53). -/
def State.dupPkt (s : State) (p : Packet) : Bool :=
  let c := s.conn p.conn
  (if p.ordered then decide (p.psn < c.next) else c.done.contains p.psn) || c.early.any (fun q => samePkt q.2 p) || s.pktHeld p

/-- A packet performed or refused: its number is taken, and the next of a ROD connection, where it has come, is performed
next (03 R53, R61). -/
def State.donePkt (s : State) (p : Packet) : State :=
  let c := s.conn p.conn
  if p.ordered then
    let isNext := fun (q : Nat × Packet) => q.2.ordered && q.2.psn == p.psn + 1
    let s1 := s.setConn p.conn { c with next := p.psn + 1, early := c.early.filter (fun q => !isNext q) }
    { s1 with agenda := ((c.early.filter isNext).take 1).map packetAct ++ s1.agenda }
  else s.setConn p.conn { c with done := p.psn :: c.done }

/-- Bytes of a frame that a port accepts at most (03 R51). -/
def frameMax : Nat := 9216

/-- A packet that arrives: in the off state, or in a frame that is too long, nothing is received; one that fails TSS
authentication is discarded and counted; a duplicate is discarded; one of a ROD connection waits for those before it; else it
is performed or refused, unless it is held (03 R51, R53, R61, R63; 04 R101). -/
def State.receive (s : State) (kind : Nat) (p : Packet) (f : State → State) : State :=
  if s.pkg.power.st = .off ∨ frameMax < p.data.length then s
  else if !p.auth then s.setPkg { s.pkg with tssDiscards := s.pkg.tssDiscards + 1 }
  else if s.dupPkt p then s
  else if p.ordered ∧ p.psn ≠ (s.conn p.conn).next then
    s.setConn p.conn { s.conn p.conn with early := (s.conn p.conn).early ++ [(kind, p)] }
  else
    let w := f s
    if w.pktHeld p then w else w.donePkt p

/-- A write of 8 bytes to a register that any agent may write: a counter's feed page (06 R163). -/
def State.feedWrite (s : State) (pa : Nat) (b : List Byte) : Except XErr State :=
  match regAt pa with
  | some (.feed n off) =>
    if b.length = 8 ∧ pa % 8 = 0 then
      .ok (if off = 0 then s.push .counterFeedWrite (Arg.ofNV n (wordOf b)) else s)
    else .error cMisalign
  | _ => .error cProt

/-- The physical address of a range's first byte, where it lies in MMIO. -/
def State.mmioAt (s : State) (j : Nat) (va : Nat) (need : Need) : Option Nat :=
  match s.xlateWalk j .user va need with
  | .pa a _ => if isMmio a then some a else none
  | _ => none

/-- The element format and size of an accumulate's type (10 R292). -/
def atyFmt (ty : Nat) : Fmt := if ty = 1 then bf16 else if ty = 3 then fp64 else fp32

/-- Bytes of an element of an accumulate's type (10 R292). -/
def atySize (ty : Nat) : Nat := if ty = 1 then 2 else if ty = 3 then 8 else 4

/-- Accumulate-on-write of one element: add, min or max (08 R237). -/
def accumulate (ty fn d x : Nat) : Nat :=
  if ty = 2 then
    if fn = 0 then (d + x) % 2 ^ 32
    else if fn = 1 then (if toSigned 32 d ≤ toSigned 32 x then d else x)
    else if toSigned 32 d ≤ toSigned 32 x then x else d
  else
    let f := atyFmt ty
    if fn = 0 then f.rne (addV false (f.dec d) (f.dec x))
    else if fn = 1 then f.minCode d x else f.maxOf d x

/-- A run of elements accumulated into old bytes (08 R237). -/
def accumBytes (ty fn : Nat) (old new : List Byte) : List Byte :=
  let n := atySize ty
  (zipWith2 (fun a b => bytesOf a.length (accumulate ty fn (natOf a) (natOf b))) (chunks n old) (chunks n new)).flatten

/-- An accumulate performed on physical pieces (08 R237): each must be readable and writable at its home. -/
def State.accumVa (s : State) (j : Nat) (lvl : Level) (va ty fn : Nat) (b : List Byte) (w : WTag) (tlb : List Leaf := []) :
    Except XErr State :=
  match s.vaRange j lvl needWr va b.length tlb with
  | .error e => .error e
  | .ok ps =>
    match s.writeErr j ps with
    | some a => .error a.err
    | none =>
      if ps.any (fun p => s.hasUe p.1 p.2) then .error cMemoryUe
      else .ok (s.writePieces w false ps (accumBytes ty fn (ps.flatMap (fun p => s.bytes p.1 p.2)) b))

/-- The effect of an RMA write packet in a job's space. -/
def State.writePkt (s : State) (p : Packet) (j : Nat) : Except XErr State :=
  match s.mmioAt j p.va.toNat needWr with
  | some pa => s.feedWrite pa p.data
  | none =>
    match p.accum with
    | some (fn, ty) => s.accumVa j .user p.va.toNat ty.toNat fn.toNat p.data tagPkg
    | none => s.writeVa j .user p.va.toNat p.data tagPkg false

/-- A host's write into a queue's command region, refused where it would write a granule in error in part (02 R43; 04 R77,
R79). While ENABLE is 0 the queue accepts no record, so the packet is
refused; DESIGN CHOICE: the rules give no cause, PROT is taken (log entry 148). -/
def State.regionWrite (s : State) (q : Nat) (p : Packet) : State :=
  let n := p.data.length
  let ps := pieces ((s.queue q).base + p.va.toNat) n
  if p.va.toNat + n ≤ 4096 ∧ (s.queue q).enable ∧ p.accum.isNone then
    if ps.any (fun r => s.partialUe r.1 r.2) then s.refusePkt p cMemoryUe
    else (s.writePieces tagPkg false ps p.data).answer p 0 []
  else s.refusePkt p cProt

/-- The effect of an RMA write (03 R58, R59; 04 R77). -/
def State.rmaWrite (s : State) (p : Packet) : State :=
  match packetQueue p.jobid with
  | some q => s.regionWrite q p
  | none =>
    s.forJob p (fun j => s.endPkt 0 p j needWr p.data.length ((s.writePkt p j).map (fun s1 => (s1, 0, []))))

/-- RMA_WRITE: packet `arg.pkt` is checked whole and performed once, or refused (03 R53, R59). -/
def execRmaWrite (s : State) : Out := .next (s.receive 0 s.arg.pkt (fun w => w.rmaWrite s.arg.pkt))

/-- The effect of an RMA read (03 R58; 07 R202). -/
def State.rmaRead (s : State) (p : Packet) : State :=
  s.forJob p (fun j =>
    s.endPkt 1 p j needRd p.len
      (match s.mmioAt j p.va.toNat needRd with
      | some pa =>
        if p.len = 8 ∧ pa % 8 = 0 then
          match s.mmioRead { level := .user, job := j } pa with
          | some v => .ok (s, 2, wordBytes v)
          | none => .error cProt
        else .error cMisalign
      | none => (s.readVa j .user p.va.toNat p.len).map (fun b => (s, 2, b))))

/-- RMA_READ: bytes read at the homes are returned (03 R58; 07 R202). -/
def execRmaRead (s : State) : Out := .next (s.receive 1 s.arg.pkt (fun w => w.rmaRead s.arg.pkt))

/-- A 64-bit add at a word's home: the old value and the state after it (03 R58). -/
def State.addWord (s : State) (j : Nat) (va : Nat) (addend : Word) : Except XErr (State × Word) :=
  if va % 8 ≠ 0 then .error cMisalign
  else
    match s.xlateWalk j .user va needRw with
    | .miss => .error 0
    | .cause c => .error c
    | .pa a _ =>
      if noStorage a || isView a then .error cProt
      else
        match bothOk (s.readAns a 8 j) (s.writeAns a 8 j) with
        | .ok =>
          let old := BitVec.ofNat 64 (s.value a 8)
          .ok (s.perform a (wordBytes (old + addend)) tagPkg, old)
        | e => .error e.err

/-- The effect of a fetch-add (03 R58). -/
def State.fetchAddPkt (s : State) (p : Packet) : State :=
  s.forJob p (fun j =>
    s.endPkt 2 p j needRw 8 ((s.addWord j p.va.toNat p.addend).map (fun r => (r.1, 2, wordBytes r.2))))

/-- FETCH_ADD: the old value is returned; a duplicate adds nothing (03 R53, R58). -/
def execFetchAdd (s : State) : Out := .next (s.receive 2 s.arg.pkt (fun w => w.fetchAddPkt s.arg.pkt))

/-- The effect of a non-fetching add: to a word, or to the feed of a counter that the job owns (03 R58; 13 R406). -/
def State.addPkt (s : State) (p : Packet) : State :=
  s.forJob p (fun j =>
    match p.counter with
    | some n =>
      if (s.counter n).owner = some j then (s.answer p 0 []).push .counterFeedWrite (Arg.ofNV n p.addend)
      else s.refusePkt p cProt
    | none => s.endPkt 3 p j needRw 8 ((s.addWord j p.va.toNat p.addend).map (fun r => (r.1, 0, []))))

/-- NON_FETCHING_ATOMIC_ADD: a duplicate adds nothing (03 R53, R58; 13 R406). -/
def execNonFetchingAtomicAdd (s : State) : Out := .next (s.receive 3 s.arg.pkt (fun w => w.addPkt s.arg.pkt))

end Sys2Proof.Machine
end

