-- ==== Sys2Proof/Machine/Control.lean ====
section
/-! DEFINITION. Branches, calls and register windows (10 R276, R277; 12 R348 to R352). -/

namespace Sys2Proof.Machine

open Sys2Proof

/-! ## Register windows (10 R276, R277) -/

/-- g16 to g23. -/
def Thread.frame (x : Thread) : List Word := (List.range 8).map (fun i => x.gr (16 + i))

/-- g24 to g31. -/
def Thread.outs (x : Thread) : List Word := (List.range 8).map (fun i => x.gr (24 + i))

/-- Eight zeros. -/
def zeroFrame : List Word := List.replicate 8 0

/-- The window change of a call that finds room (10 R276). -/
def Thread.callWin (x : Thread) (ret : Word) : Thread :=
  { ((x.setGrs 16 x.outs).setGrs 24 zeroFrame).setGr 23 ret with older := x.frame :: x.older }

/-- The window change of a return that need not wait (10 R276). -/
def Thread.retWin (x : Thread) : Thread :=
  { (x.setGrs 24 x.frame).setGrs 16 (x.older.headD zeroFrame) with older := x.older.tail }

/-- Physical address that a job's tables give a VA, if any. -/
def State.paOf (s : State) (j va : Nat) : Option Nat :=
  match s.walk j va with
  | .leaf l _ _ _ => some (l.pa + (va - l.va))
  | _ => none

/-- Physical address of `n` bytes at a VA of a job where they lie wholly in a kernel's local-store region on a core; it runs over
two pages at most (10 R277, R291). -/
def State.regionAt (s : State) (j : Nat) (k : Kernel) (c va n : Nat) : Option Nat :=
  match s.paOf j va, s.paOf j (va + n - 1) with
  | some a, some z =>
    let base := localPa c k.lsoff
    if base ≤ a ∧ a + n ≤ base + k.lslen ∧ z + 1 = a + n then some a else none
  | _, _ => none

/-- Physical address of a frame at a VA of a thread, where it lies in its kernel's region on its own core (10 R277). -/
def State.framePa (s : State) (t va : Nat) : Option Nat :=
  let x := s.thread t
  s.regionAt x.job (s.kernel x.job x.kid) (coreOf t) va 64

/-- Whether 64 bytes at a VA may hold a frame, and the cause otherwise (10 R277). -/
def State.frameCause (s : State) (t va : Nat) : Option Nat :=
  if va % 64 ≠ 0 then some cMisalign
  else if (s.framePa t va).isSome then none
  else some cProt

/-- Why a frame at a VA cannot be filled: as it may not be held there, or for an uncorrectable error in its bytes (02 R43; 10
R277). -/
def State.fillCause (s : State) (t va : Nat) : Option Nat :=
  match s.frameCause t va with
  | some c => some c
  | none => if s.hasUe ((s.framePa t va).getD 0) 64 then some cMemoryUe else none

/-- Physical address of a frame that may be held at a VA. -/
def State.regionPa (s : State) (t va : Nat) : Nat := (s.framePa t va).getD 0

/-- VA at which a spill of a thread writes its frame, modulo 2^64. -/
def Thread.spillVa (x : Thread) : Nat := (x.wsp - 64).toNat

/-- Whether a spill is due (10 R277). -/
def Thread.spillDue (x : Thread) : Bool := x.older.length == 3

/-- Whether a fill is due (10 R277). -/
def Thread.fillDue (x : Thread) : Bool := x.older.isEmpty && x.nspill != 0

/-- WINDOW_SPILL: the oldest resident frame of thread `arg.n` goes to the window stack (10 R277). One that is not due, or
whose 64 bytes are refused, does nothing; the CALL that waits on it takes the cause. -/
def execWindowSpill (s : State) : Out :=
  let t := s.arg.n
  let x := s.thread t
  if x.live ∧ x.spillDue ∧ s.frameCause t x.spillVa = none then
    let pa := s.regionPa t x.spillVa
    let s1 := s.performQuiet pa ((x.older.getLastD zeroFrame).flatMap wordBytes) { place := threadPlace t, tag := .core }
    .next (s1.setThread t { x with older := x.older.dropLast, wsp := x.wsp - 64, nspill := x.nspill + 1 })
  else .next s

/-- WINDOW_FILL: the newest frame of the window stack of thread `arg.n` becomes resident (10 R277). -/
def execWindowFill (s : State) : Out :=
  let t := s.arg.n
  let x := s.thread t
  if x.live ∧ x.fillDue ∧ s.fillCause t x.wsp.toNat = none then
    let pa := s.regionPa t x.wsp.toNat
    let f := (chunks 8 (s.bytes pa 64)).map wordOf
    .next (s.setThread t { x with older := [f], wsp := x.wsp + 64, nspill := x.nspill - 1 })
  else .next s

/-- A call to `target`: it waits for a spill while three older frames are resident (10 R276, R277; 12 R350). -/
def State.call (s : State) (target : Word) (opc : Nat) : Except State State :=
  let x := s.th
  if x.spillDue then
    match s.frameCause s.cur x.spillVa with
    | some c => .error (s.trap c x.wsp)
    | none => .error (s.retry opc)
  else .ok ((s.setTh (x.callWin (x.pc + 4))).retireTo target)

/-! ## Instructions -/

/-- BR (12 R348). -/
def execBr (imm : BitVec 24) (s : State) : Out :=
  unrecorded (fun r => .ok (r.retireTo (r.th.pc + (imm.signExtend 64 <<< 2)))) s

/-- JR (12 R349). -/
def execJr (a : BitVec 5) (s : State) : Out :=
  unrecorded (fun r =>
    let t := r.g a
    if t.toNat % 4 ≠ 0 then .error (r.trap cMisalign t) else .ok (r.retireTo t)) s

/-- CALL (12 R350). -/
def execCall (imm : BitVec 24) (s : State) : Out :=
  unrecorded (fun r => r.call (r.th.pc + (imm.signExtend 64 <<< 2)) 0x2C) s

/-- CALLR: its target is read before the window moves (12 R350). -/
def execCallr (a : BitVec 5) (s : State) : Out :=
  unrecorded (fun r =>
    let t := r.g a
    if t.toNat % 4 ≠ 0 then .error (r.trap cMisalign t) else r.call t 0x2D) s

/-- RET (12 R351): it waits for a fill while no older frame is resident and some lie on the window stack. -/
def execRet (s : State) : Out :=
  unrecorded (fun r =>
    let x := r.th
    let t := x.gr 23
    if t.toNat % 4 ≠ 0 then .error (r.trap cMisalign t)
    else if x.fillDue then
      match r.fillCause r.cur x.wsp.toNat with
      | some c => .error (r.trap c x.wsp)
      | none => .error (r.retry 0x2E)
    else .ok ((r.setTh x.retWin).retireTo t)) s

/-- DBNZ: with d = 0 the value is all ones, so it always branches (12 R352). -/
def execDbnz (d : BitVec 5) (imm : BitVec 14) (s : State) : Out :=
  unrecorded (fun r =>
    let v := r.g d - 1
    let s1 := r.setG d v
    .ok (s1.retireTo (if v ≠ 0 then r.th.pc + (imm.signExtend 64 <<< 2) else r.th.pc + 4))) s

end Sys2Proof.Machine
end

