-- ==== Sys2Proof/Machine/Threads.lean ====
section
/-! DEFINITION. Messages, rings, calls, spawns, barriers, quiescence, timed waits, thread ends and the allocator's
instructions (05 R110 to R119; 10 R278, R283 to R290, R301; 13 R390 to R398, R415, R416). -/

namespace Sys2Proof.Machine

open Sys2Proof

/-! ## Slots, logical ids and thread starts (05 R110, R119; 10 R278) -/

/-- Slots reserved to a kernel on a core. -/
def State.slotMask (s : State) (job kid c : Nat) : BitVec 16 := Store.get 0 c (s.kernel job kid).masks

/-- The reserved slots of a kernel on a core that hold no thread, within a mask, lowest first. -/
def State.freeSlots (s : State) (job kid c : Nat) (among : BitVec 16) : List Nat :=
  (List.range 16).filter (fun i =>
    (s.slotMask job kid c &&& among).getLsbD i && !(s.thread (c * 16 + i)).live)

/-- The logical ids that the kernels of a job hold. -/
def State.idsOf (s : State) (job : Nat) : List Nat :=
  (s.kernels.filter (fun p => decide (p.1 / 2 ^ 32 = job))).flatMap (fun p => p.2.ids)

/-- The lowest free logical id of a job (05 R119). -/
def State.freeId (s : State) (job : Nat) : Option Nat :=
  let l := s.idsOf job
  (List.range (Nat.min 16384 (l.length + 1))).find? (fun i => !l.contains i)

/-- What the banks hold of an ended thread whose logical id another takes: its errors are dropped, and its commands report to
none (06 R175). -/
def Bank.disown (k : Bank) (key : Nat) : Bank :=
  { k with
    pend := Store.put none key none k.pend,
    fifo := k.fifo.map (fun (c : BauCmd) => if c.thr = key then { c with thr := 0 } else c) }

/-- A new thread placed in a slot (10 R278). The slot keeps its RPC sequence number (10 R288); an earlier thread's
errors at the banks are dropped. -/
def State.startThread (s : State) (t job kid id : Nat) (pc : Word) (regs : List Word) (fctl tvec seed : Word) : State :=
  let k := s.kernel job kid
  let x : Thread :=
    { Thread.init with
        live := true, job := job, kid := kid, level := k.level, tid := BitVec.ofNat 14 id, pc := pc, fctl := fctl, tvec := tvec, seed := seed, rpcSeq := (s.thread t).rpcSeq, qnum := (s.job job).quantum,
        wsp := BitVec.ofNat 64 (k.lsview + coreOf t * localSize + k.lsoff + (slotOf t + 1) * k.wstack) }
  let s1 := s.setThread t (x.setGrs 16 regs)
  { s1.setKernel job kid { k with ids := k.ids ++ [id] } with
    banks := s1.banks.map (fun p => (p.1, p.2.disown (threadKey job (BitVec.ofNat 14 id)))) }

/-- An acquire performed for a thread other than the executing one. -/
def State.acquireFor (s : State) (t : Nat) (sc : Scope) : State := { ({ s with cur := t }).acquire sc with cur := s.cur }

/-! ## Digest points (10 R301; 17 R486) -/

/-- VA of an entry of a logical id's digest segment. -/
def Job.digestVa (j : Job) (id c : Nat) : Nat := j.digva.toNat + id * 2 ^ j.dseglog2 + 8 + 8 * c

/-- Recording of a logical id stopped and DLOST set (10 R301). -/
def State.digestLost (s : State) (j id : Nat) : State :=
  s.setJob j { s.job j with dlost := true, digFull := Store.put false id true (s.job j).digFull }

/-- The executing thread's digest point: written, compared, or nothing, by its job's gate mode; DIVERGE otherwise
(10 R301; 17 R486). An area that is unset or unmapped counts as a full segment while recording (DESIGN CHOICE, log entry 29). In
replay a mismatch advances the cursor, as R486 compares and advances, and a missing entry, which is not compared, leaves it (DEDUCED,
log entry 181). -/
def State.digestPoint (s : State) : Except State State :=
  let j := s.th.job
  let jb := s.job j
  let id := s.th.tid.toNat
  let c := Store.get 0 id jb.cursors
  let va := jb.digestVa id c
  if jb.gmode = 1 then
    if Store.get false id jb.digFull then .ok s
    else if 8 + 8 * (c + 1) > 2 ^ jb.dseglog2 then .ok (s.digestLost j id)
    else
      match s.writeVa j .firmware va (wordBytes s.th.digest) tagPkg true with
      | .error _ => .ok (s.digestLost j id)
      | .ok s1 =>
        match s1.writeVa j .firmware (jb.digestVa id 0 - 8) (bytesOf 8 (c + 1)) tagPkg true with
        | .error _ => .ok (s.digestLost j id)
        | .ok s2 => .ok (s2.setJob j { s2.job j with cursors := Store.put 0 id (c + 1) jb.cursors })
  else if jb.gmode = 3 then
    match s.readVa j .firmware (jb.digestVa id 0 - 8) 8, s.readVa j .firmware va 8 with
    | .ok n, .ok d =>
      if natOf n ≤ c then .error (s.trap cDiverge (BitVec.ofNat 64 va))
      else
        let s1 := s.setJob j { jb with cursors := Store.put 0 id (c + 1) jb.cursors }
        if wordOf d = s.th.digest then .ok s1 else .error (s1.trap cDiverge (BitVec.ofNat 64 va))
    | _, _ => .error (s.trap cDiverge (BitVec.ofNat 64 va))
  else .ok s

/-! ## Sending (10 R284, R288; 13 R390, R392) -/

/-- Messages and replies of a core that hold places in its send queue. -/
def State.sendQueue (s : State) (c : Nat) : Nat :=
  (s.msgs.filter (fun m => m.src == c)).length + (s.replies.filter (fun m => m.src == c)).length

/-- The scope of a release towards a core (07 R185). -/
def State.towards (s : State) (c : Nat) : Scope := joinScope (threadPlace s.cur) (.core c)

/-- What a release without pending causes waits for and does (07 R186). -/
def State.plainRelease (s : State) (opc : Nat) (sc : Scope) : Except State State :=
  match s.sbEmpty opc with
  | .error e => .error e
  | .ok () => .ok (s.release sc)

/-- The operand of SEND and RPC checked: core, handler index and length (13 R390, R392). -/
def State.sendCheck (s : State) (w : Word) (most : Nat) : Except State (Nat × Nat × Nat) :=
  let n := w.toNat
  let len := bits n 22 16
  if n / 2 ^ 23 ≠ 0 ∨ len > most then .error (s.trap cIllegal w)
  else if bits n 15 10 = 63 ∧ s.th.level = .user then .error (s.trapFree cPriv)
  else .ok (n % 1024, bits n 15 10, len)

/-- Whether a gated act of the executing thread is held for its quantum (07 R205). -/
def State.holds (s : State) : Bool := s.myJob.gmode == 2

/-- The executing thread's next sequence number in its quantum taken. -/
def State.bumpSeq (s : State) : State := s.setTh { s.th with qseq := s.th.qseq + 1 }

/-- A message of the executing thread put on its way. -/
def State.sendMsg (s : State) (dst hidx len : Nat) (payload : List Byte) (call : Bool) (token : BitVec 32)
    (tag : Scope) : State :=
  let m : Msg :=
    { src := coreOf s.cur, slot := slotOf s.cur, dst := dst, hidx := hidx, len := len, payload := payload, call := call,
      engine := false, sys := false, token := token, tid := s.th.tid, job := s.th.job, tag := tag, num := s.msgSeq,
      quantum := s.th.qnum, seq := s.th.qseq, held := s.holds }
  { s.bumpSeq with msgs := s.msgs ++ [m], msgSeq := s.msgSeq + 1 }

/-- The 64 bytes of g24 to g31. -/
def Thread.outBytes (x : Thread) : List Byte := x.outs.flatMap wordBytes

/-- Bytes cut to a length and filled with zeros to `n`. -/
def padTo (n len : Nat) (b : List Byte) : List Byte := (b.take len ++ List.replicate n 0).take n

/-- SEND (13 R390). -/
def execSend (a : BitVec 5) (s : State) : Out :=
  unrecorded (fun r =>
    match r.sendCheck (r.g a) 64 with
    | .error e => .error e
    | .ok (dst, hidx, len) =>
      let sc := r.th.effRelease (r.towards dst)
      match r.plainRelease 0x65 sc with
      | .error e => .error e
      | .ok r1 =>
        if r1.sendQueue (coreOf r.cur) ≥ 16 then .error (r.parkOn (.blocked 0x65))
        else .ok ((r1.sendMsg dst hidx len (padTo 64 len r.th.outBytes) false 0 (Scope.max sc r.th.carry)).retire)) s

/-- The reply token of a call (10 R288). -/
def replyToken (t : Nat) (seq : BitVec 18) : BitVec 32 := BitVec.ofNat 32 (coreOf t + slotOf t * 2 ^ 10 + seq.toNat * 2 ^ 14)

/-- RPC: a CALL message is sent and the caller parks (13 R392). -/
def execRpc (a : BitVec 5) (s : State) : Out :=
  unrecorded (fun r =>
    match r.sendCheck (r.g a) 56 with
    | .error e => .error e
    | .ok (dst, hidx, len) =>
      let sc := r.th.effRelease (r.towards dst)
      match r.plainRelease 0x67 sc with
      | .error e => .error e
      | .ok r1 =>
        if r1.sendQueue (coreOf r.cur) ≥ 16 then .error (r.parkOn (.blocked 0x67))
        else
          let tok := replyToken r.cur r.th.rpcSeq
          let b := padTo 56 len r.th.outBytes ++ bytesOf 4 tok.toNat ++ [0, 0, 0, 0]
          let r2 := r1.sendMsg dst hidx len b true tok (Scope.max sc r.th.carry)
          .ok (r2.setTh { r2.th with park := .rpc tok, rpcSeq := r2.th.rpcSeq + 1 })) s

/-- RPLY (13 R392). -/
def execRply (a : BitVec 5) (s : State) : Out :=
  unrecorded (fun r =>
    let tok : BitVec 32 := (r.g a).setWidth 32
    let sc := r.th.effRelease (r.towards (tok.toNat % 1024))
    match r.plainRelease 0x68 sc with
    | .error e => .error e
    | .ok r1 =>
      if r1.sendQueue (coreOf r.cur) ≥ 16 then .error (r.parkOn (.blocked 0x68))
      else
        let p : Reply :=
          { token := tok, src := coreOf r.cur, payload := r.th.outBytes, job := r.th.job, tid := r.th.tid,
            tag := Scope.max sc r.th.carry, num := r1.msgSeq, quantum := r1.th.qnum, seq := r1.th.qseq, held := r1.holds }
        .ok { (r1.bumpSeq).retire with replies := r1.replies ++ [p], msgSeq := r1.msgSeq + 1 }) s

/-! ## Rings (10 R283, R284) -/

/-- Physical address of a ring's HEAD. -/
def Ring.headPa (r : Ring) (c : Nat) : Nat := localPa c (r.base - 16)

/-- Physical address of a ring's TAIL. -/
def Ring.tailPa (r : Ring) (c : Nat) : Nat := localPa c (r.base - 8)

/-- A ring of a core. -/
def State.ring (s : State) (c r : Nat) : Ring := Store.get Ring.init r (s.core c).rings

/-- TAIL − HEAD of a ring, free-running. -/
def State.ringCount (s : State) (c : Nat) (r : Ring) : Nat :=
  (wordOf (s.bytes (r.tailPa c) 8) - wordOf (s.bytes (r.headPa c) 8)).toNat

/-- Effective scope of the acquire of a RECV: that of TAIL and of every entry and meta word that it reports (07 R189, R194,
R195). -/
def State.recvScope (s : State) (c : Nat) (q : Ring) : Scope :=
  let n := 2 ^ q.log2n
  let head := (wordOf (s.bytes (q.headPa c) 8)).toNat
  (List.range (Nat.min n (s.ringCount c q))).foldl (fun sc i =>
    let e := (head + i) % n
    s.acqScope (s.acqScope sc (localPa c (q.base + e * 64)) 64) (localPa c (q.base + n * 64 + e * 8)) 8)
    (s.acqScope .core (q.tailPa c) 8)

/-- RECV: it parks until the ring holds an entry (13 R391). -/
def execRecv (d a : BitVec 5) (s : State) : Out :=
  unrecorded (fun r =>
    let n := (r.g a).toNat
    let c := coreOf r.cur
    if n > 15 then .error (r.trapFree cIllegal)
    else
      let q := r.ring c n
      if !q.en || (r.core c).ringJob != some r.th.job then .error (r.trapFree cProt)
      else if r.ringCount c q = 0 then .error (r.retry 0x66)
      else
        let t := q.tailPa c
        let r1 := (r.noteRead t 8).acquire (r.recvScope c q)
        .ok (r1.retireG d (wordOf (r.bytes t 8)))) s

/-- Entries of the enabled rings of a kernel on a core, one ring left out. -/
def State.ringEntries (s : State) (c kid but : Nat) : Nat :=
  (((s.core c).rings.filter (fun p => p.1 != but && p.2.en && p.2.kid == kid)).map (fun p => 2 ^ p.2.log2n)).foldl
    (· + ·) 0

/-- HTW of a handler entry (10 R285; 13 R393). -/
def State.writeHandler (s : State) (n : Nat) (lo hi : Word) : Except State State :=
  let v := lo.toNat
  if v / 2 ^ 22 ≠ 0 ∨ hi.toNat / 2 ^ 48 ≠ 0 ∨ v % 4 = 3 then .error (s.trapFree cIllegal)
  else if (s.core (coreOf s.cur)).ringJob ≠ some s.th.job then .error (s.trapFree cProt)
  else
    let c := s.core (coreOf s.cur)
    let h : HEntry :=
      { kind := BitVec.ofNat 2 v, ring := bits v 5 2, slots := BitVec.ofNat 16 (v / 64), pc := hi, job := s.th.job,
        kid := s.th.kid, fctl := s.th.fctl, tvec := s.th.tvec, seed := s.th.seed, level := s.th.level }
    .ok ((s.setCore (coreOf s.cur) { c with handlers := Store.put HEntry.init n h c.handlers }).retire)

/-- HTW of a ring descriptor (10 R283; 13 R393). -/
def State.writeRing (s : State) (n : Nat) (w : Word) : Except State State :=
  let v := w.toNat
  let base := v % 2 ^ 17
  let lg := bits v 20 17
  let c := coreOf s.cur
  let q := s.ring c n
  let k := s.kernel s.th.job s.th.kid
  let en := bit v 21
  if v / 2 ^ 22 ≠ 0 ∨ base % 64 ≠ 0 ∨ lg > 10 then .error (s.trapFree cIllegal)
  else if (s.core c).ringJob ≠ some s.th.job then .error (s.trapFree cProt)
  else if q.en ∧ (q.base ≠ base ∨ q.log2n ≠ lg) then .error (s.trapFree cProt)
  else if base = 0 ∨ base - 16 < k.lsoff ∨ base + 72 * 2 ^ lg > k.lsoff + k.lslen then .error (s.trapFree cProt)
  else if en ∧ s.ringEntries c s.th.kid n + 2 ^ lg > k.rings then .error (s.trapFree cReserve)
  else
    let x := s.core c
    let q1 : Ring := { base := base, log2n := lg, en := en, kid := s.th.kid }
    .ok ((s.setCore c { x with rings := Store.put Ring.init n q1 x.rings }).retire)

/-- HTW (13 R393). -/
def execHtw (a b c : BitVec 5) (s : State) : Out :=
  unrecorded (fun r =>
    let n := (r.g a).toNat
    if n > 79 then .error (r.trapFree cIllegal)
    else if n < 64 then r.writeHandler n (r.g b) (r.g c)
    else r.writeRing (n - 64) (r.g b)) s

/-! ## Delivery of messages (10 R284 to R286; 07 R194) -/

/-- The meta word of an entry (10 R284). The message of a copy engine, which has no sending slot or handler, holds zeros in SRCCORE,
SRCSLOT and HIDX. DESIGN CHOICE: the rule states them zero for SYS alone (log entry 180). -/
def Msg.meta (m : Msg) (unhandled : Bool) : Nat :=
  let hi := if m.call then m.token.toNat else if m.sys then 0 else m.tid.toNat + m.job * 2 ^ 14
  (if m.sys || m.engine then 0 else m.src + m.slot * 2 ^ 10) + m.hidx * 2 ^ 14 + m.len * 2 ^ 20 +
    at' (b2n unhandled) 27 + at' (b2n m.call) 28 + at' (b2n m.engine) 29 + at' (b2n m.sys) 30 + hi * 2 ^ 32

/-- Where the sender of a message lies. -/
def Msg.place (m : Msg) : Place := if m.src < 1024 then .core m.src else if m.engine then .die ((m.src - 2048) / 8) else .pkg

/-- A message written into a ring: entry, meta word, then TAIL; none while the ring is full or disabled (10 R284). -/
def State.landIn (s : State) (m : Msg) (r : Nat) (unhandled : Bool) : Option State :=
  let q := s.ring m.dst r
  let n := 2 ^ q.log2n
  if !q.en || decide (n ≤ s.ringCount m.dst q) then none
  else
    let tail := wordOf (s.bytes (q.tailPa m.dst) 8)
    let i := tail.toNat % n
    let w : WTag := { place := m.place, tag := m.tag }
    let s1 := s.performQuiet (localPa m.dst (q.base + i * 64)) (padTo 64 64 m.payload) w
    let s2 := s1.performQuiet (localPa m.dst (q.base + n * 64 + i * 8)) (bytesOf 8 (m.meta unhandled)) w
    some (s2.performQuiet (q.tailPa m.dst) (wordBytes (tail + 1)) w)

/-- HANDLER_EMPTY to the supervisor of the core's ring-owning job (05 R133; 10 R286). -/
def State.handlerEmpty (s : State) (c : Nat) : State :=
  match (s.core c).ringJob with
  | some j => s.drawn.sendRecord j (recordBytes cHandlerEmpty 2 j c s.ptime s.freeVal 0 0xFFFF 0xFF [])
  | none => s

/-- A message landing in ring 0 with UNHANDLED (10 R286). -/
def State.landUnhandled (s : State) (m : Msg) : Option State :=
  match s.landIn m 0 true with
  | none => none
  | some s1 => some (if m.sys then s1 else s1.handlerEmpty m.dst)

/-- Free slots of a handler entry's kernel that no request under way will take. -/
def State.spawnRoom (s : State) (c : Nat) (h : HEntry) : Bool :=
  decide ((s.spawns.filter (fun r => r.core == c && r.job == h.job && r.kid == h.kid)).length <
    (s.freeSlots h.job h.kid c h.slots).length)

/-- Source number of spawn requests that no thread sends: those of handler entries and of ullage counters. -/
def srcUnit : Nat := 4095

/-- The spawn request that a message to a spawn entry makes (10 R285). The task acquires what the message's sender released
(07 R185, R194). -/
def spawnOf (m : Msg) (h : HEntry) (c : Nat) : SpawnReq :=
  { core := c, waiter := none, counter := none, job := h.job, kid := h.kid, level := h.level, slots := h.slots, pc := h.pc,
    regs := (chunks 8 (padTo 64 64 m.payload)).map wordOf, fctl := h.fctl, tvec := h.tvec, seed := h.seed,
    tid := m.tid, src := srcUnit, num := 0, tag := Scope.max (joinScope m.place (.core c)) m.tag,
    quantum := m.quantum, seq := m.seq, held := m.held }

/-- A deferred fault of a thread that is known by its job and logical id, wherever it now is: in a slot, or saved by
pre-emption; one that has quit takes nothing (10 R281, R286). -/
def State.deferFor (s : State) (job : Nat) (tid : BitVec 14) (c kind : Nat) (wkind : BitVec 2) (detail : Word) : State :=
  match s.threads.find? (fun p => p.2.live && p.2.job == job && p.2.tid == tid) with
  | some (t, _) => s.deferFault t kind wkind detail
  | none =>
    let mine := fun (x : Thread) => x.job == job && x.tid == tid
    match s.kernels.find? (fun k => k.2.savedThreads.any mine) with
    | none => s
    | some (key, k) =>
      if k.savedThreads.any (fun x => mine x && x.defers kind) then
        s.setCore c { s.core c with deferredLost := (s.core c).deferredLost + 1 }
      else
        let k1 := { k with
          savedThreads := k.savedThreads.map (fun x => if mine x then x.putDeferred kind wkind detail else x) }
        { s with kernels := Store.put Kernel.init key k1 s.kernels }

/-- What delivery of a message does; none while it must wait (10 R284 to R286). -/
def State.deliver (s : State) (m : Msg) : Option State :=
  let c := s.core m.dst
  match c.ringJob with
  | none =>
    if m.src < 1024 then
      some (s.deferFor m.job m.tid m.src 1 2 (BitVec.ofNat 64 m.dst))
    else none
  | some _ =>
    if m.engine then s.landIn m 0 false
    else
      let h := Store.get HEntry.init m.hidx c.handlers
      if h.kind = 1 then
        (if (s.ring m.dst h.ring).en then s.landIn m h.ring false else s.landUnhandled m)
      else if h.kind = 2 then
        (if s.spawnRoom m.dst h then some { s with spawns := s.spawns ++ [spawnOf m h m.dst] } else none)
      else s.landUnhandled m

/-- Whether a message, reply or spawn request of the same source to the same core was sent before one, and comes first: in
replay mode only where it is of the same thread (07 R194, R206; 10 R287). -/
def State.behind (s : State) (src dst num : Nat) (job : Nat) (tid : BitVec 14) : Bool :=
  let mine := fun (j : Nat) (t : BitVec 14) => (s.job job).gmode != 3 || (j == job && t == tid)
  s.msgs.any (fun m => m.src == src && m.dst == dst && decide (m.num < num) && mine m.job m.tid) ||
  s.replies.any (fun m => m.src == src && m.token.toNat % 1024 == dst && decide (m.num < num) && mine m.job m.tid) ||
  s.spawns.any (fun m => m.src == src && m.core == dst && decide (m.num < num) && mine m.job m.tid)

/-- MESSAGE_DELIVERY: message `arg.n` among those in flight is delivered, unless it waits for its ring, its gate, its
slot or an earlier message of its source (07 R194, R203; 10 R284). -/
def execMessageDelivery (s : State) : Out :=
  match s.msgs[s.arg.n]? with
  | none => .next s
  | some m =>
    let gated := m.src < 1024
    if m.held ∨ s.behind m.src m.dst m.num m.job m.tid ∨ (gated ∧ !s.gateAllows m.job (gateRing m.dst) m.tid.toNat) then
      .next s
    else
      match s.deliver m with
      | none => .next s
      | some s1 =>
        let s2 := if gated then s1.gateServed m.job (gateRing m.dst) m.tid.toNat else s1
        .next { s2 with msgs := dropAt s2.msgs s.arg.n }

/-! ## Delivery of replies (10 R288) -/

/-- A reply's effect on its caller. -/
def Thread.takeReply (x : Thread) (b : List Byte) : Thread :=
  (x.setGrs 24 ((chunks 8 (padTo 64 64 b)).map wordOf)).go (x.pc + 4) 1

/-- A reply applied to a caller saved by pre-emption, where it waits for it (10 R288). Its acquire widens what its later
writes carry; its core's RLC is filled anew after the restore (07 R187, R194). -/
def State.replySaved (s : State) (p : Reply) : Option State :=
  let waits := fun (x : Thread) => x.park == .rpc p.token
  let took := fun (x : Thread) => { x.takeReply p.payload with carry := Scope.max x.carry (Scope.max p.tag .pkg) }
  match s.kernels.find? (fun k => k.2.savedThreads.any waits) with
  | none => none
  | some (key, k) =>
    let k1 := { k with savedThreads := k.savedThreads.map (fun x => if waits x then took x else x) }
    some { s with kernels := Store.put Kernel.init key k1 s.kernels }

/-- A reply that reaches its caller, running or saved, or is discarded and counted. -/
def State.serveReply (s : State) (p : Reply) : State :=
  let dst := p.token.toNat % 1024
  match s.threads.find? (fun x => x.2.live && x.2.park == .rpc p.token) with
  | some (t, x) =>
    (s.setThread t (x.takeReply p.payload)).acquireFor t (Scope.max (joinScope (threadPlace t) (.core p.src)) p.tag)
  | none =>
    match s.replySaved p with
    | some s1 => s1
    | none => s.setCore dst { s.core dst with strayReplies := (s.core dst).strayReplies + 1 }

/-- RPLY_DELIVERY: reply `arg.n` among those in flight reaches its caller, or is discarded and counted (10 R288). -/
def execRplyDelivery (s : State) : Out :=
  match s.replies[s.arg.n]? with
  | none => .next s
  | some p =>
    let dst := p.token.toNat % 1024
    if p.held ∨ s.behind p.src dst p.num p.job p.tid ∨ !s.gateAllows p.job (gateRing dst) p.tid.toNat then .next s
    else
      .next (State.serveReply { s.gateServed p.job (gateRing dst) p.tid.toNat with replies := dropAt s.replies s.arg.n } p)

/-! ## Spawns (10 R287; 13 R394) -/

/-- SPWN: a request to a core's spawn unit; the thread parks until it has an answer (13 R394). -/
def execSpwn (d a b c : BitVec 5) (s : State) : Out :=
  unrecorded (fun r =>
    let n := (r.g a).toNat
    if n > 1023 then .error (r.trapFree cIllegal)
    else
      let sc := r.th.effRelease (r.towards n)
      match r.plainRelease 0x6A sc with
      | .error e => .error e
      | .ok r1 =>
        let x := r1.th
        let q : SpawnReq :=
          { core := n, waiter := some (r1.cur, d.toNat), counter := none, job := x.job, kid := x.kid, level := x.level,
            slots := BitVec.allOnes 16, pc := r.g b,
            regs := (List.range 4).map (fun i => x.gr (c.toNat + i)), fctl := x.fctl, tvec := x.tvec, seed := x.seed,
            tid := x.tid, src := coreOf r1.cur, num := r1.msgSeq, tag := Scope.max sc x.carry, quantum := x.qnum,
            seq := x.qseq, held := r1.holds }
        let r2 := r1.bumpSeq
        .ok { r2.setTh { r2.th with park := .spawn } with spawns := r2.spawns ++ [q], msgSeq := r2.msgSeq + 1 }) s

/-- The answer to a thread that waits on its SPWN. -/
def State.spawnAnswer (s : State) (w : Option (Nat × Nat)) (id : Nat) : State :=
  match w with
  | none => s
  | some (t, d) =>
    let x := (s.thread t).setGr d (BitVec.ofNat 64 id)
    s.setThread t (x.go (x.pc + 4) 1)

/-- A request served: the lowest free slot and logical id taken, the thread started after an acquire at the scope of the
request's release (07 R185, R189). -/
def State.spawnNow (s : State) (r : SpawnReq) (slot id : Nat) : State :=
  let t := r.core * 16 + slot
  let s1 := s.startThread t r.job r.kid id r.pc r.regs r.fctl r.tvec r.seed
  ((s1.acquireFor t r.tag).spawnAnswer r.waiter id).gateServed r.job gateSpawn r.tid.toNat

/-- A request served by the spawn unit, taken out already: without a free slot a SPWN takes RESERVE, and any other
request waits (05 R110, R119; 10 R287). -/
def State.serveSpawn (s : State) (r : SpawnReq) : Option State :=
  match s.freeSlots r.job r.kid r.core r.slots, r.waiter with
  | [], some (t, _) => some ((s.drawn.trapOf t cReserve s.freeVal (s.thread t).pc).gateServed r.job gateSpawn r.tid.toNat)
  | [], none => none
  | slot :: _, _ => (s.freeId r.job).map (s.spawnNow r slot)

/-- SPAWN_SERVICE: the spawn unit serves request `arg.n` among those in flight. -/
def execSpawnService (s : State) : Out :=
  match s.spawns[s.arg.n]? with
  | none => .next s
  | some r =>
    if r.held ∨ s.behind r.src r.core r.num r.job r.tid ∨ !s.gateAllows r.job gateSpawn r.tid.toNat then .next s
    else .next ((State.serveSpawn { s with spawns := dropAt s.spawns s.arg.n } r).getD s)

/-! ## The end of a quantum (07 R205) -/

/-- A gated request that is on its way to its gate as a message. -/
inductive Sent where
  | msg (m : Msg)
  | reply (p : Reply)
  | spawn (r : SpawnReq)
  deriving DecidableEq, Repr

/-- The place of a spawn request in the order of service. An ullage launch, which no thread issued, comes after every
thread's, by counter; DESIGN CHOICE: the rule gives it no place (log entry 48). -/
def SpawnReq.key (r : SpawnReq) : Nat :=
  match r.counter with
  | some n => (2 ^ 14 + n) * 2 ^ 128
  | none => gateKey r.quantum r.tid r.seq

/-- The place of a held message, reply or spawn request in the order of service (07 R205). -/
def Sent.key : Sent → Nat
  | .msg m => gateKey m.quantum m.tid m.seq
  | .reply p => gateKey p.quantum p.tid p.seq
  | .spawn r => r.key

/-- The messages, replies and spawn requests of a job that its gates hold, in the order of service. -/
def State.heldSent (s : State) (j : Nat) : List Sent :=
  sortBy Sent.key
    ((s.msgs.filter (fun m => m.held && m.job == j)).map .msg ++ (s.replies.filter (fun m => m.held && m.job == j)).map .reply ++
      (s.spawns.filter (fun m => m.held && m.job == j)).map .spawn)

/-- A held spawn request offered to the spawn unit; one that finds no slot or id stays held. -/
def State.offerSpawn (s : State) (r : SpawnReq) : State :=
  (State.serveSpawn { s with spawns := s.spawns.erase r } r).getD s

/-- A held message, reply or spawn request offered to its gate; one that cannot be satisfied, or whose source has an
earlier one waiting for the same core, stays held. -/
def State.offerSent (s : State) : Sent → State
  | .msg m =>
    if s.behind m.src m.dst m.num m.job m.tid then s
    else (State.deliver { s with msgs := s.msgs.filter (fun x => x.num != m.num) } m).getD s
  | .reply p =>
    if s.behind p.src (p.token.toNat % 1024) p.num p.job p.tid then s
    else State.serveReply { s with replies := s.replies.filter (fun x => x.num != p.num) } p
  | .spawn r => if s.behind r.src r.core r.num r.job r.tid then s else s.offerSpawn r

/-- Those held numbered anew in the order of service, so that each source's come in it. -/
def State.renumber (s : State) (j : Nat) : State :=
  let keys := (s.heldSent j).map Sent.key
  let num := fun (k : Nat) => s.msgSeq + keys.findIdx (fun x => x == k)
  { s with
    msgSeq := s.msgSeq + keys.length,
    msgs := s.msgs.map (fun m => if m.held && m.job == j then { m with num := num (Sent.key (.msg m)) } else m),
    replies := s.replies.map (fun m => if m.held && m.job == j then { m with num := num (Sent.key (.reply m)) } else m),
    spawns := s.spawns.map (fun m => if m.held && m.job == j then { m with num := num m.key } else m) }

/-- The spawn requests of a job that handler entries made of the messages just delivered, offered in order (07 R203,
R205). -/
def State.offerTasks (s : State) (j : Nat) : State :=
  (sortBy SpawnReq.key (s.spawns.filter (fun r => r.held && r.job == j && r.waiter.isNone && r.counter.isNone))).foldl
    State.offerSpawn s

/-- The barriers of a job that have all their arrivals and that this package decides (07 R205; 03 R68). -/
def State.fullEpisodes (s : State) (j : Nat) : List Nat :=
  (s.episodes.filter (fun e => e.job == some j && (decide (e.key / 2 ^ 16 ≠ 4) || s.pkg.pod.isRoot) &&
    (match e.count with
      | some n => decide (n ≤ e.arrivals)
      | none => false))).map (·.key)

/-- The threads of a job that wait in QSC. -/
def State.qscThreads (s : State) (j : Nat) : List Nat :=
  (s.jobThreads j).filter (fun t =>
    match (s.thread t).park with
    | .qsc _ _ _ => true
    | _ => false)

/-- The threads of a job that pre-emption has saved at the start of the next quantum. -/
def State.nextQuantumSaved (s : State) (j : Nat) : State :=
  { s with kernels := s.kernels.map (fun p =>
      if p.1 / 2 ^ 32 = j then (p.1, { p.2 with savedThreads := p.2.savedThreads.map Thread.nextQuantum }) else p) }

/-- QUANTUM_END: the gates serve what job `arg.n` issued in the quantum, its threads enter the next one, and the barriers
and quiescence waits that are satisfied end (07 R205). -/
def execQuantumEnd (s : State) : Out :=
  let j := s.arg.n
  if s.quantumOver j then
    let rs := sortBy (fun (r : GateReq) => gateKey (s.job j).quantum r.tid r.seq)
      (s.gateQueue.filter (fun r => r.job == j))
    let s0 := (s.offerAll rs).renumber j
    let s1 := ((s0.heldSent j).foldl State.offerSent s0).offerTasks j
    let s2 := s1.setJob j { s1.job j with quantum := (s1.job j).quantum + 1 }
    let s3 := ((s2.jobThreads j).foldl (fun w t => w.setThread t (w.thread t).nextQuantum) s2).nextQuantumSaved j
    .next { s3 with agenda :=
      (s3.fullEpisodes j).map (fun k => Act.event .barrierEpisodeComplete (Arg.ofN k)) ++
        (s.qscThreads j).map (fun t => Act.event .qscQuietCheck { Arg.ofN t with b := true }) ++ s3.agenda }
  else .next s

/-! ## QUIT (10 R287; 13 R395) -/

/-- Whether the executing thread is the last of its kernel on every core. -/
def State.lastOfKernel (s : State) : Bool :=
  (s.kernelThreads s.th.job s.th.kid).all (fun t => t == s.cur) &&
    !(s.spawns.any (fun r => r.job == s.th.job && r.kid == s.th.kid))

/-- Whether a kernel has a copy transfer queued or running. -/
def State.copying (s : State) (job kid : Nat) : Bool :=
  s.engines.any (fun p => p.2.queue.any (fun t => t.job == job && t.kid == kid))

/-- The executing thread's slot freed. -/
def State.freeSlot (s : State) : State :=
  let x := s.th
  let k := s.kernel x.job x.kid
  let s1 := s.setKernel x.job x.kid { k with tid0 := if k.tid0 = some x.tid.toNat then none else k.tid0 }
  s1.setTh { Thread.init with rpcSeq := x.rpcSeq }

/-- Whether a thread's MEMORY_UE of a drained store is to be taken next. -/
def State.ueDue (s : State) (t : Nat) : Bool :=
  s.agenda.any (fun a =>
    match a with
    | .storeUe u _ => u == t
    | _ => false)

/-- QUIT: it waits until every drained store has been performed or refused at its home and for remote operations, takes what
is pending, waits for its kernel's transfers, and frees the slot; the kernel then completes if nothing holds it (05 R112; 10
R287; 13 R395). -/
def execQuit (s : State) : Out :=
  unrecorded (fun r0 =>
    match r0.sbEmpty 0x6B with
    | .error e => .error e
    | .ok () =>
      let r := r0.writeThrough .pkg
      if r.outstanding ≠ 0 ∨ r.ueDue r.cur then .error (r.retry 0x6B)
      else
        match r.takeDeferred true with
        | some e => .error e
        | none =>
          if r.lastOfKernel && r.copying r.th.job r.th.kid then .error (r.retry 0x6B)
          else
            match r.digestPoint with
            | .error e => .error e
            | .ok r1 =>
              let last := r.lastOfKernel
              let r2 := r1.freeSlot
              .ok (if last then r2.push .kernelComplete (Arg.ofNM r.th.job r.th.kid) else r2)) s

/-! ## Barriers (10 R289; 13 R396) -/

/-- Scope that BAR acts at: pod is pkg outside a pod (01 R29). -/
def State.barScope (s : State) (sc : BitVec 3) : Scope :=
  if sc = 4 ∧ !s.pkg.pod.form then .pkg else scopeOfCode sc.toNat

/-- Number of the scope instance that contains a core (01 R30). -/
def scopeInst (sc : Scope) (c : Nat) : Nat :=
  match sc with
  | .core => c
  | .quad => quadOf c
  | .die => dieOf c
  | .pkg => 0
  | .pod => 0

/-- Key of a barrier: scope, instance and id. -/
def barKey (sc : Scope) (inst id : Nat) : Nat := sc.rank * 2 ^ 16 + inst * 8 + id

/-- Scope of a barrier's key. -/
def barKeyScope (key : Nat) : Scope := scopeOfCode (key / 2 ^ 16)

/-- The episode open at a barrier. -/
def State.episode (s : State) (key : Nat) : Option Episode := s.episodes.find? (fun e => e.key == key)

/-- An episode replaced or added. -/
def State.putEpisode (s : State) (e : Episode) : State :=
  { s with episodes := e :: s.episodes.filter (fun f => f.key != e.key) }

/-- Whether an episode has all its arrivals. -/
def Episode.complete (e : Episode) : Bool :=
  match e.count with
  | some n => decide (n ≤ e.arrivals)
  | none => false

/-- An arrival at a barrier added to its episode. -/
def Episode.arrive (e : Episode) (count : Option Nat) (who : Option Nat) (tag : Scope) : Episode :=
  { e with arrivals := e.arrivals + 1, parked := e.parked ++ who.toList, tag := Scope.max e.tag tag,
           count := match e.count with | some n => some n | none => count }

/-- An episode with no arrival yet. -/
def Episode.fresh (key job : Nat) : Episode :=
  { key := key, job := some job, count := none, arrivals := 0, parked := [], tag := .core, ports := [] }

/-- An episode with the job of a thread that arrives, where none of its arrivals here has told it: those were other
packages' or a counter's, and the first thread that arrives here gives it (10 R289; log entry 142). -/
def Episode.adopt (e : Episode) (job : Nat) : Episode :=
  { e with job := match e.job with | some j => some j | none => some job }

/-- The completion event of a barrier put next, where its episode is complete and this package decides it: in ordered
mode a quantum's end does, and in a pod the root (03 R68; 07 R205). -/
def State.barCheck (s : State) (key : Nat) : State :=
  match s.episode key with
  | none => s
  | some e =>
    let ordered := match e.job with
      | some j => (s.job j).gmode == 2
      | none => false
    if e.complete && !ordered && (barKeyScope key != .pod || s.pkg.pod.isRoot) then
      s.push .barrierEpisodeComplete (Arg.ofN key)
    else s

/-- BAR: pending causes, release, arrival and the wait (10 R289; 13 R396). In a pod a member's arrival goes to the root, unless
its port there is down (03 R68, R70). -/
def execBar (a : BitVec 5) (id sc : BitVec 3) (s : State) : Out :=
  unrecorded (fun r =>
    let n := (r.g a).toNat
    let scope := r.barScope sc
    let key := barKey scope (scopeInst scope (coreOf r.cur)) id.toNat
    if n = 0 ∨ n > 16384 then .error (r.trapFree cIllegal)
    else if scope.atLeast .pkg ∧ r.outstanding ≠ 0 then .error (r.retry 0x6C)
    else
      match r.takeDeferred (scope.atLeast .pkg) with
      | some e => .error e
      | none =>
        let eff := r.th.effRelease scope
        match r.plainRelease 0x6C eff with
        | .error e => .error e
        | .ok r1 =>
          let e := ((r1.episode key).getD (Episode.fresh key r1.th.job)).adopt r1.th.job
          if e.job ≠ some r1.th.job ∨ e.complete then .error (r.parkOn (.blocked 0x6C))
          else if e.count.isSome ∧ e.count ≠ some n then .error (r.trapFree cIllegal)
          else
            let r2 := r1.putEpisode (e.arrive (some n) (some r1.cur) (Scope.max eff r1.th.carry))
            let r3 := r2.parkOn (.bar key)
            .ok (if scope = .pod ∧ !r.pkg.pod.isRoot then
                r3.tellRoot id.toNat (bytesOf 2 n ++ [0])
              else r3.barCheck key)) s

/-- One participant's departure: its digest point, an acquire, and the next issue (10 R289, R301). -/
def State.depart (s : State) (t : Nat) (sc : Scope) : State :=
  let s0 := { s with cur := t }
  if s0.th.live then
    match s0.digestPoint with
    | .error e => { e with cur := s.cur }
    | .ok s1 => { (s1.acquire sc).retire with cur := s.cur }
  else s

/-- An episode ended and its participants released. -/
def State.endEpisode (s : State) (e : Episode) : State :=
  let s1 := { s with episodes := s.episodes.filter (fun f => f.key != e.key) }
  e.parked.foldl (fun w t => w.depart t (Scope.max (barKeyScope e.key) e.tag)) s1

/-- Whether every port over which a pod barrier's arrivals came is up (03 R70). -/
def State.pathsUp (s : State) (e : Episode) : Bool := e.ports.all (fun n => (s.pkg.pod.port n).up)

/-- BARRIER_EPISODE_COMPLETE: the episode of barrier `arg.n` ends, where all its arrivals have come and its paths are up (03
R70; 10 R289). In a pod the root tells the other packages. -/
def execBarrierEpisodeComplete (s : State) : Out :=
  match s.episode s.arg.n with
  | none => .next s
  | some e =>
    if e.complete ∧ s.pathsUp e then
      let s1 := s.endEpisode e
      .next (if barKeyScope e.key = .pod then
        s1.sideband s1.pkg.pod.livePorts 4 (e.key % 8) s1.ptime (bytesOf 2 (e.count.getD 0) ++ [1]) else s1)
    else .next s

/-- An arrival that came over a tendril port. -/
def Episode.arriveBy (e : Episode) (count : Option Nat) (port : Nat) : Episode :=
  { e.arrive count none .pkg with ports := (port :: e.ports).eraseDups }

/-- SIDEBAND_BAR over tendril port `arg.v`: an arrival at pod barrier `arg.n` with count `arg.m` (0 from an ullage counter), or
with `arg.b` its release (03 R68, R70). -/
def execSidebandBar (s : State) : Out :=
  let count := if s.arg.m = 0 then none else some s.arg.m
  let key := barKey .pod 0 (s.arg.n % 8)
  let port := s.arg.v.toNat
  if !(s.pkg.pod.port port).up then .next s
  else
    match s.episode key with
    | none =>
      if s.arg.b then .next s
      else .next ((s.putEpisode ({ Episode.fresh key 0 with job := none }.arriveBy count port)).barCheck key)
    | some e =>
      if s.arg.b then .next (s.endEpisode e)
      else .next ((s.putEpisode (e.arriveBy count port)).barCheck key)

/-! ## Quiescence (10 R290; 13 R397) -/

/-- Whether a core lies in the instance of a scope that contains another core. -/
def sameInst (sc : Scope) (c d : Nat) : Bool := scopeInst sc c == scopeInst sc d

/-- Whether a request that waits at its gate can be served as things stand. -/
def State.servable (s : State) (r : GateReq) : Bool :=
  !r.held && s.gateAllows r.job r.gate r.tid.toNat && (s.serveReq r).isSome

/-- Whether an access of a job is in flight from an agent of the instance: at a gate that holds it for its quantum or can serve it,
waiting for a walk, on its way to tiles or to a peer, queued at a bank, or a granule of a tile (07 R194). -/
def State.inFlight (s : State) (sc : Scope) (c job : Nat) : Bool :=
  let inn := fun (d : Nat) => sameInst sc c d
  s.gateQueue.any (fun r => r.job == job && inn (coreOf r.thr) && (r.held || s.servable r)) ||
  s.walks.any (fun w => w.2.any (fun r => r.job == job && inn r.core)) ||
  s.posts.any (fun q => (s.thread q.thr).job == job && inn (coreOf q.thr)) ||
  s.remotes.any (fun r => r.job == job && ((r.thr.map (fun t => inn (coreOf t))).getD (sc.atLeast .pkg))) ||
  s.banks.any (fun p => sc.atLeast .die && (sc.atLeast .pkg || p.1 / 4096 == dieOf c) &&
    p.2.fifo.any (fun k => k.job == job)) ||
  s.parts.any (fun p => p.2.job == job && p.2.tiles.any (fun t =>
    inn t && (s.tile t).part == some p.1 && !(s.tile t).gran.isEmpty))

/-- QSC: the thread parks until QSC_QUIET_CHECK finds its scope quiet (10 R290). -/
def execQsc (sc : BitVec 3) (s : State) : Out :=
  unrecorded (fun r => .ok (r.parkOn (.qsc (scopeOfCode sc.toNat) none false))) s

/-! ## WFT, ALC, FRE -/

/-- WFT (13 R398). -/
def execWft (a : BitVec 5) (s : State) : Out :=
  unrecorded (fun r => if r.g a ≤ r.ptime then .ok r.retire else .error (r.parkOn (.wft (r.g a)))) s

/-- WFT_RELEASE: thread `arg.n` goes on once PTIME has reached its target (13 R398). -/
def execWftRelease (s : State) : Out :=
  let x := s.thread s.arg.n
  match x.park with
  | .wft target => .next (if target ≤ s.ptime then s.setThread s.arg.n (x.go (x.pc + 4) 1) else s)
  | _ => .next s

/-- ALC (13 R415). -/
def execAlc (d a : BitVec 5) (s : State) : Out :=
  unrecorded (fun r => .ok (r.gateRequest gateAlloc (.alc (r.g a) d.toNat))) s

/-- FRE (13 R416). -/
def execFre (a : BitVec 5) (s : State) : Out :=
  unrecorded (fun r => .ok (r.gateRequest gateAlloc (.fre (r.g a)))) s

end Sys2Proof.Machine
end

