-- ==== Sys2Proof/Machine/Engines.lean ====
section
/-! DEFINITION. Copy engines, buffer handles and ullage counters (06 R157 to R163, R494; 10 R291 to R297; 13 R399 to
R404). -/

namespace Sys2Proof.Machine

open Sys2Proof

/-! ## CPS and CPL (10 R291, R295, R296; 13 R399, R400) -/

/-- The value that a shadow register takes: ELT's reserved bits stay 0 (00 R7; 10 R292). -/
def shadowWord (n : Nat) (v : Word) : Word := if n = 11 then v &&& 0xF_FFFF_F7FF else v

/-- CPS (13 R399). -/
def execCps (a : BitVec 5) (sel : BitVec 14) (s : State) : Out :=
  unrecorded (fun r => .ok (r.setTh { r.th with
    shadows := Store.put 0 sel.toNat (shadowWord sel.toNat (r.g a)) r.th.shadows }).retire) s

/-- A shadow register. -/
def shadow (m : Store Word) (n : Nat) : Word := Store.get 0 n m

/-- The handles that a transfer's ELT names: destination and source (10 R292). -/
def dstHandle (elt : Nat) : Option Nat := if bit elt 29 then some (bits elt 28 24) else none

/-- The source handle. -/
def srcHandle (elt : Nat) : Option Nat := if bit elt 35 then some (bits elt 34 30) else none

/-- A core's handle. -/
def Core.handle (c : Core) (h : Nat) : Handle := Store.get Handle.init h c.handles

/-- A core with a handle replaced. -/
def Core.setHandle (c : Core) (h : Nat) (x : Handle) : Core := { c with handles := Store.put Handle.init h x c.handles }

/-- Handles of a core that a kernel has claimed. -/
def Core.claimed (c : Core) (job kid : Nat) : Nat := (c.handles.filter (fun p => p.2.owner == some (job, kid))).length

/-- Transfers of a kernel outstanding from a core (05 R110). -/
def State.outTransfers (s : State) (c job kid : Nat) : Nat :=
  (s.engines.map (fun p => (p.2.queue.filter (fun t => t.core == c && t.job == job && t.kid == kid)).length)).foldl
    (· + ·) 0

/-- The checks of CPL: ownership of its handles, then the reservations (05 R110; 13 R400). -/
def State.cplCheck (s : State) (hs : List Nat) : Option Nat :=
  let c := s.core (coreOf s.cur)
  let me := (s.th.job, s.th.kid)
  let k := s.kernel s.th.job s.th.kid
  let fresh := hs.filter (fun h => (c.handle h).owner.isNone)
  if hs.any (fun h => (c.handle h).owner.isSome && (c.handle h).owner != some me) then some cProt
  else if s.outTransfers (coreOf s.cur) s.th.job s.th.kid ≥ k.tids then some cReserve
  else if !fresh.isEmpty && decide (c.claimed s.th.job s.th.kid + fresh.length > k.handles) then some cReserve
  else none

/-- Whether the states of the handles let a CPL act (10 R296); naming one handle as both never does. -/
def Core.handlesReady (c : Core) (d sr : Option Nat) : Bool :=
  (match d with
    | some h => (c.handle h).st == .free || (c.handle h).st == .full
    | none => true) &&
  (match sr with
    | some h => (c.handle h).st == .full && d != some h
    | none => true)

/-- Handles claimed by a kernel, against its reservation; their states stay (10 R296). -/
def Core.claimHandles (c : Core) (hs : List Nat) (me : Nat × Nat) : Core :=
  hs.foldl (fun x h => x.setHandle h { x.handle h with owner := some me }) c

/-- The handles that an executing CPL names claimed for its kernel. -/
def State.claimHandles (s : State) (hs : List Nat) : State :=
  s.setCore (coreOf s.cur) ((s.core (coreOf s.cur)).claimHandles hs (s.th.job, s.th.kid))

/-- The handles taken by a CPL (10 R296). -/
def Core.takeHandles (c : Core) (d sr : Option Nat) (me : Nat × Nat) : Core :=
  let c1 := match d with
    | some h => c.setHandle h { st := .filling, owner := some me }
    | none => c
  match sr with
  | some h => c1.setHandle h { st := .draining, owner := some me }
  | none => c1

/-- The engine of a die with the fewest queued transfers, the lower of equals; none where all are full (10 R291). -/
def State.pickEngine (s : State) (d : Nat) : Option Nat :=
  let len := fun (e : Nat) => (s.engine e).queue.length
  let l := (List.range 8).map (fun i => d * 8 + i)
  match l.foldl (fun (b : Option Nat) e =>
    match b with
    | none => some e
    | some f => if len e < len f then some e else some f) none with
  | some e => if len e < 16 then some e else none
  | none => none

/-- Statuses that a kernel's CPLs still hold after one more CPL, its number known: the 64th later one lets go
(10 R295). -/
def Core.keepTids (c : Core) (job kid n : Nat) : Core :=
  { c with tids := c.tids.filter (fun p =>
      match p.2 with
      | some r => !(r.job == job && r.kid == kid && decide (r.nth + 64 ≤ n))
      | none => false) }

/-- The next TID of a core: in increasing order, skipping 0 and those held (10 R295). -/
def Core.pickTid (c : Core) : Nat :=
  let l := (List.range 65536).map (fun i => (c.nextTid.toNat + i) % 65536)
  (l.find? (fun t => t != 0 && (Store.get none t c.tids).isNone)).getD 0

/-- The latest transfer of a thread that has not completed. -/
def State.lastTransfer (s : State) (t : Nat) (tid : BitVec 14) : Option Nat :=
  ((s.engines.flatMap (fun p => p.2.queue.filter (fun x => x.thr == t && x.tid == tid))).map (·.num)).foldl
    (fun (b : Option Nat) n => match b with | none => some n | some m => some (Nat.max m n)) none

/-- A transfer queued by the executing thread and its TID (10 R291). -/
def State.launchCopy (s : State) (e : Nat) (d : BitVec 5) : State :=
  let x := s.th
  let cn := coreOf s.cur
  let elt := (shadow x.shadows 11).toNat
  let key := unitKey x.job x.kid
  let n := Store.get 0 key (s.core cn).cpls + 1
  let c1 := ((s.core cn).takeHandles (dstHandle elt) (srcHandle elt) (x.job, x.kid)).keepTids x.job x.kid n
  let tid := c1.pickTid
  let c2 := { c1 with
    nextTid := BitVec.ofNat 16 (tid + 1), cpls := Store.put 0 key n c1.cpls,
    tids := Store.put none tid (some { job := x.job, kid := x.kid, nth := n, status := 0 }) c1.tids }
  let t : Transfer :=
    { job := x.job, kid := x.kid, core := cn, slot := slotOf s.cur, thr := s.cur, tidNum := tid, shadows := x.shadows,
      tid := x.tid, level := x.level, num := s.msgSeq, after := s.lastTransfer s.cur x.tid, started := false, err := 0,
      oor := 0, clipped := false, remote := 0 }
  let s1 := { s.setCore cn c2 with msgSeq := s.msgSeq + 1 }
  (s1.setEngine e { s1.engine e with queue := (s1.engine e).queue ++ [t] }).retireG d (BitVec.ofNat 64 tid)

/-- CPL: the checks, the claim of the handles, a release towards the engine, and the transfer queued; while it waits it has
released nothing, but holds its claim (10 R291, R296; 13 R400). -/
def execCpl (d : BitVec 5) (s : State) : Out :=
  unrecorded (fun r =>
    let elt := (shadow r.th.shadows 11).toNat
    let hs := (dstHandle elt).toList ++ (srcHandle elt).toList
    match r.cplCheck hs with
    | some c => .error (r.trapFree c)
    | none =>
      match (r.claimHandles hs).plainRelease 0x70 (r.th.effRelease .die) with
      | .error e => .error e
      | .ok r1 =>
        if !(r1.core (coreOf r1.cur)).handlesReady (dstHandle elt) (srcHandle elt) then
          .error ((r.claimHandles hs).retry 0x70)
        else
          match r1.pickEngine (dieOf (coreOf r1.cur)) with
          | none => .error ((r.claimHandles hs).retry 0x70)
          | some e => .ok (r1.launchCopy e d)) s

/-- The status word of a TID for the executing thread's kernel; STATE 3 for one that it does not hold (10 R295). -/
def State.tidStatus (s : State) (tid : Nat) : Word :=
  match Store.get none tid (s.core (coreOf s.cur)).tids with
  | some r => if r.job = s.th.job ∧ r.kid = s.th.kid then r.status else 3
  | none => 3

/-- CPQ: a status of done or error acquires the transfer's writes (07 R195; 13 R401). -/
def execCpq (d a : BitVec 5) (s : State) : Out :=
  unrecorded (fun r =>
    let st := r.tidStatus ((r.g a).toNat % 65536)
    let r1 := if st.toNat % 4 = 1 ∨ st.toNat % 4 = 2 then r.acquire .pkg else r
    .ok (r1.retireG d st)) s

/-- The handle state that HWT names (13 R402). -/
def handleOf (st : BitVec 2) : HState :=
  if st = 0 then .free else if st = 1 then .filling else if st = 2 then .full else .draining

/-- HWT: it waits for the state; full and free acquire (10 R296; 13 R402). -/
def execHwt (st : BitVec 2) (h : BitVec 5) (s : State) : Out :=
  unrecorded (fun r =>
    if ((r.core (coreOf r.cur)).handle h.toNat).st = handleOf st then
      .ok ((if st = 0 ∨ st = 2 then r.acquire .pkg else r)).retire
    else .error (r.retry 0x72)) s

/-- HRL: free and unclaimed, once the handle is neither filling nor draining (10 R296; 13 R402). -/
def execHrl (h : BitVec 5) (s : State) : Out :=
  unrecorded (fun r =>
    let c := r.core (coreOf r.cur)
    let x := c.handle h.toNat
    if x.owner.isSome ∧ x.owner ≠ some (r.th.job, r.th.kid) then .error (r.trapFree cProt)
    else if x.st = .filling ∨ x.st = .draining then .error (r.retry 0x73)
    else .ok (r.setCore (coreOf r.cur) (c.setHandle h.toNat Handle.init)).retire) s

/-! ## Transfers (10 R292 to R295; 07 R195) -/

/-- Element sizes, counts and the other fields of a transfer's shadows (10 R291, R292). -/
def elemSize (m : Store Word) : Nat := 2 ^ ((shadow m 11).toNat % 4)

/-- OP of ELT. -/
def xferOp (m : Store Word) : Nat := bits (shadow m 11).toNat 4 2

/-- n0 to n3 of DIM. -/
def dimN (m : Store Word) (j : Nat) : Nat := bits (shadow m 2).toNat (16 * j + 15) (16 * j)

/-- o0 to o3 of ORG, signed. -/
def orgN (m : Store Word) (j : Nat) : Int := toSigned 16 (bits (shadow m 9).toNat (16 * j + 15) (16 * j))

/-- e0 to e3 of EXT. -/
def extN (m : Store Word) (j : Nat) : Nat := bits (shadow m 10).toNat (16 * j + 15) (16 * j)

/-- Whether a transfer gathers, scatters or accumulates. -/
def isIndexed (op : Nat) : Bool := op == 2 || op == 3 || op == 5

/-- Whether a transfer accumulates. -/
def isAccum (op : Nat) : Bool := op == 4 || op == 5

/-- An invalid combination of a transfer's fields (10 R292). -/
def badDesc (m : Store Word) : Bool :=
  let elt := (shadow m 11).toNat
  let op := xferOp m
  let sz := elemSize m
  decide (6 ≤ op) ||
  (isAccum op && (decide (bits elt 6 5 = 3) || atySize (bits elt 8 7) != sz ||
    [1, 6, 7, 8].any (fun i => decide ((shadow m i).toNat % sz ≠ 0)))) ||
  (List.range 4).any (fun j => dimN m j == 0) ||
  (isIndexed op && (dimN m 2 != 1 || dimN m 3 != 1)) ||
  (op == 2 && bit elt 10)

/-- The address of an element: a base and strides 1 to 3 from shadow `st` (10 R293). -/
def elemAddr (m : Store Word) (base st : Nat) (i : Nat × Nat × Nat × Nat) : Word :=
  shadow m base + BitVec.ofNat 64 (i.1 * elemSize m) + BitVec.ofNat 64 i.2.1 * shadow m st +
    BitVec.ofNat 64 i.2.2.1 * shadow m (st + 1) + BitVec.ofNat 64 i.2.2.2 * shadow m (st + 2)

/-- Bounds of the in-tensor box in one dimension (10 R293). -/
def boxDim (m : Store Word) (j : Nat) : Nat × Nat :=
  let n := dimN m j
  let o := orgN m j
  let e := extN m j
  if e = 0 then (0, n)
  else (Nat.min n (-o).toNat, Nat.min n ((e : Int) - o).toNat)

/-- Whether the box leaves any element out. -/
def isClipped (m : Store Word) : Bool :=
  xferOp m == 1 && (List.range 4).any (fun j => (boxDim m j).1 != 0 || (boxDim m j).2 != dimN m j)

/-- Whether an element lies in the box. -/
def inBox (m : Store Word) (i : Nat × Nat × Nat × Nat) : Bool :=
  let ok := fun (j v : Nat) => decide ((boxDim m j).1 ≤ v) && decide (v < (boxDim m j).2)
  ok 0 i.1 && ok 1 i.2.1 && ok 2 i.2.2.1 && ok 3 i.2.2.2

/-- ERR of a failure's cause (10 R295). -/
def xferErr (c : Nat) : Nat :=
  if c = cXlate then 2
  else if c = cProt then 3
  else if c = cMemoryUe then 4
  else if c = cWindow then 5
  else if c = cWindowLate then 6
  else if c = cVintage then 7
  else 3

/-- A transfer as it runs: its engine, the state, its first error, out-of-range indices, the part being gathered for its
destination, remote bytes to send, and whether it met something that it must wait for. -/
structure XferRun where
  eng : Nat
  st : State
  err : Nat
  oor : Nat
  part : Option (Word × List Byte)
  sends : List (Word × List Byte)
  waits : Option Wait
  deriving DecidableEq, Repr

/-- Entries of a copy engine's TLB (06 R146). -/
def engineEntries : Nat := 32

/-- The entry for an address walked into an engine's TLB, the oldest leaving it (06 R146; log entry 19). -/
def State.engineFill (s : State) (e j : Nat) (va : Nat) : State :=
  if (s.engine e).tlb.any (fun l => l.hits (s.job j).asid va) then s
  else
    match s.walk j va with
    | .leaf l _ _ _ => s.setEngine e { s.engine e with tlb := tlbPut engineEntries l (s.engine e).tlb }
    | _ => s

/-- The entries for a range walked into a run's engine (06 R146). -/
def XferRun.touch (r : XferRun) (t : Transfer) (va n : Nat) : XferRun :=
  { r with st := (pieces va n).foldl (fun w p => w.engineFill r.eng t.job p.1) r.st }

/-- The TLB of a run's engine. -/
def XferRun.tlb (r : XferRun) : List Leaf := (r.st.engine r.eng).tlb

/-- Bytes at the end of the last remote packet, or a new packet: contiguous bytes up to 4,096 (03 R58). -/
def addSend (l : List (Word × List Byte)) (va : Word) (b : List Byte) : List (Word × List Byte) :=
  match l with
  | (a, d) :: t =>
    if a + BitVec.ofNat 64 d.length = va ∧ d.length + b.length ≤ 4096 then (a, d ++ b) :: t else (va, b) :: (a, d) :: t
  | [] => [(va, b)]

/-- A run that meets a failure over a range: an error, or a wait. -/
def XferRun.fail (r : XferRun) (t : Transfer) (need : Need) (va n : Nat) (c : XErr) : XferRun :=
  let r0 := { r with part := none }
  if c = 0 then { r0 with waits := some ((r.st.rangeWait t.job t.level need va n r.tlb).getD .page) }
  else { r0 with err := xferErr c }

/-- The part gathered so far written to its destination in one act (02 R43; 10 R293). -/
def XferRun.flush (r : XferRun) (t : Transfer) : XferRun :=
  match r.part with
  | none => r
  | some (va, b) =>
    let r1 := { r with part := none }.touch t va.toNat b.length
    match r1.st.writeVa t.job t.level va.toNat b (tagDie (dieOf t.core)) false r1.tlb with
    | .error c => r1.fail t needWr va.toNat b.length c
    | .ok s1 => { r1 with st := s1 }

/-- Whether bytes for a place go on with the part gathered so far: contiguous, and within one 256-byte block, which one home
holds (06 R141). -/
def joinsPart (p : Word × List Byte) (va : Word) (n : Nat) : Bool :=
  p.1 + BitVec.ofNat 64 p.2.length == va && decide (p.1.toNat % 256 + p.2.length + n ≤ 256)

/-- Bytes for the destination added to the part gathered so far, which is written first where they do not go on with it. -/
def XferRun.gather (r : XferRun) (t : Transfer) (va : Word) (b : List Byte) : XferRun :=
  match r.part with
  | some p =>
    if joinsPart p va b.length then { r with part := some (p.1, p.2 ++ b) }
    else
      let r1 := r.flush t
      if r1.err ≠ 0 ∨ r1.waits.isSome then r1 else { r1 with part := some (va, b) }
  | none => { r with part := some (va, b) }

/-- Bytes written to an element's place: into the part gathered, accumulated, or into the packets for the peer. -/
def XferRun.write (r : XferRun) (t : Transfer) (va : Word) (b : List Byte) : XferRun :=
  let elt := (shadow t.shadows 11).toNat
  if bit elt 10 then { r with sends := addSend r.sends va b }
  else if isAccum (xferOp t.shadows) then
    let r1 := r.touch t va.toNat b.length
    match r1.st.accumVa t.job t.level va.toNat (bits elt 8 7) (bits elt 6 5) b (tagDie (dieOf t.core)) r1.tlb with
    | .error c => r1.fail t needWr va.toNat b.length c
    | .ok s1 => { r1 with st := s1 }
  else r.gather t va b

/-- The part gathered so far written first where a read would meet its bytes. -/
def XferRun.before (r : XferRun) (t : Transfer) (va n : Nat) : XferRun :=
  match r.part with
  | some p => if overlap p.1.toNat p.2.length va n ≠ 0 then r.flush t else r
  | none => r

/-- Bytes that a transfer reads, for what is to be done with them. -/
def XferRun.read (r : XferRun) (t : Transfer) (va n : Nat) (k : XferRun → List Byte → XferRun) : XferRun :=
  let r1 := (r.before t va n).touch t va n
  if r1.err ≠ 0 ∨ r1.waits.isSome then r1
  else
    match r1.st.readVa t.job t.level va n r1.tlb with
    | .error c => r1.fail t needRd va n c
    | .ok b => k r1 b

/-- One element moved. -/
def XferRun.move (r : XferRun) (t : Transfer) (src dst : Word) : XferRun :=
  if r.err ≠ 0 ∨ r.waits.isSome then r
  else r.read t src.toNat (elemSize t.shadows) (fun r1 b => r1.write t dst b)

/-- A copy, tensor copy or accumulate: every element in ascending order, clipped elements left out (10 R293). -/
def XferRun.dense (r : XferRun) (t : Transfer) : XferRun :=
  let m := t.shadows
  (List.range (dimN m 3)).foldl (fun r3 i3 =>
    (List.range (dimN m 2)).foldl (fun r2 i2 =>
      (List.range (dimN m 1)).foldl (fun r1 i1 =>
        (List.range (dimN m 0)).foldl (fun r0 i0 =>
          let i := (i0, i1, i2, i3)
          if xferOp m = 1 ∧ !inBox m i then r0 else r0.move t (elemAddr m 0 3 i) (elemAddr m 1 6 i)) r1) r2) r3) r

/-- One row of a gather or scatter by its index (10 R294). -/
def XferRun.row (r : XferRun) (t : Transfer) (i1 k : Nat) : XferRun :=
  let m := t.shadows
  let gather := xferOp m == 2
  let skip := k == 0xFFFFFFFF
  let out := !skip && extN m 1 != 0 && decide (extN m 1 ≤ k)
  let r1 := if out then { r with oor := r.oor + 1 } else r
  if skip || out then
    if gather then
      (List.range (dimN m 0)).foldl (fun r0 i0 =>
        if r0.err ≠ 0 ∨ r0.waits.isSome then r0
        else r0.write t (elemAddr m 1 6 (i0, i1, 0, 0)) (storeBytes (shadow m 12) (elemSize m))) r1
    else r1
  else
    (List.range (dimN m 0)).foldl (fun r0 i0 =>
      if gather then r0.move t (elemAddr m 0 3 (i0, k, 0, 0)) (elemAddr m 1 6 (i0, i1, 0, 0))
      else r0.move t (elemAddr m 0 3 (i0, i1, 0, 0)) (elemAddr m 1 6 (i0, k, 0, 0))) r1

/-- A gather or scatter: rows in ascending order, each index read as its row comes (10 R294). -/
def XferRun.sparse (r : XferRun) (t : Transfer) : XferRun :=
  (List.range (dimN t.shadows 1)).foldl (fun r1 i1 =>
    if r1.err ≠ 0 ∨ r1.waits.isSome then r1
    else
      r1.read t (shadow t.shadows 13 + BitVec.ofNat 64 (4 * i1)).toNat 4 (fun r2 b => r2.row t i1 (natOf b))) r

/-- A whole transfer (10 R292 to R294). -/
def State.runTransfer (s : State) (e : Nat) (t : Transfer) : XferRun :=
  let r : XferRun := { eng := e, st := s, err := 0, oor := 0, part := none, sends := [], waits := none }
  if badDesc t.shadows then { r with err := 1 }
  else (if isIndexed (xferOp t.shadows) then r.sparse t else r.dense t).flush t

/-- The packets of a transfer's remote parts sent; ERR 8 where the peer entry cannot be used (03 R57, R58, R63). -/
def State.sendParts (s : State) (e : Nat) (t : Transfer) : List (Word × List Byte) → State
  | [] => s
  | (va, b) :: rest =>
    let elt := (shadow t.shadows 11).toNat
    let peer := bits elt 23 12
    if s.entryUsable t.job peer then
      let p : OutPkt :=
        { kind := if isAccum (xferOp t.shadows) then 3 else 0, op := bits elt 8 5, job := t.job, peer := peer, va := va,
          data := b, rel := false, ports := 0 }
      (((s.sendRemote none t.tid (some (e, t.num)) none p).mapTransfer e t.num (fun x =>
        { x with remote := x.remote + 1 })).sendParts e t rest)
    else s.mapTransfer e t.num (fun x => { x with err := if x.err = 0 then 8 else x.err })

/-- Whether a transfer of an engine waits for a suspended window of a pre-empted partition (05 R124). -/
def State.engineHeld (s : State) (e num : Nat) : Bool := s.parts.any (fun p => p.2.heldEngines.contains (e, num))

/-- Whether the transfer launched before it by the same thread has completed (07 R195). -/
def State.ordReady (s : State) (t : Transfer) : Bool :=
  if bit (shadow t.shadows 11).toNat 9 then
    match t.after with
    | some n => !(s.engines.any (fun p => p.2.queue.any (fun x => x.num == n)))
    | none => true
  else true

/-- A transfer of an engine run: it reads its source and writes its parts; one that meets a page that moves or a suspended
window waits (05 R124; 06 R156; 10 R291). -/
def State.startTransfer (s : State) (e : Nat) (t : Transfer) : State :=
  let r := s.runTransfer e t
  match r.waits with
  | some .page => s
  | some (.part k) => s.setPart k { s.part k with heldEngines := (s.part k).heldEngines ++ [(e, t.num)] }
  | none =>
    let s1 := r.st.mapTransfer e t.num (fun x =>
      { x with started := true, err := r.err, oor := r.oor, clipped := isClipped x.shadows && r.err != 1 })
    s1.sendParts e t r.sends.reverse

/-- The transfer that an engine runs next: the first that waits for no suspended window, once none that it has started is
unfinished (05 R124; 07 R195). -/
def State.nextTransfer (s : State) (e : Nat) : Option Transfer :=
  if (s.engine e).queue.any (·.started) then none
  else
    match (s.engine e).queue.find? (fun t => !s.engineHeld e t.num) with
    | some t => if s.ordReady t then some t else none
    | none => none

/-- COPY_TRANSFER_START: engine `arg.n` runs its next transfer. -/
def execCopyTransferStart (s : State) : Out :=
  match s.nextTransfer s.arg.n with
  | some t => .next (s.startTransfer s.arg.n t)
  | none => .next s

/-- A transfer's status word when it ends (10 R295). -/
def Transfer.status (t : Transfer) : Word :=
  BitVec.ofNat 64 ((if t.err = 0 then 1 else 2) + at' t.err 8 + at' t.oor 16)

/-- The message that reports a clipped box (10 R293). -/
def Transfer.boxMsg (t : Transfer) (e num : Nat) : Msg :=
  { src := 2048 + e, slot := t.slot, dst := t.core, hidx := 0, len := 24,
    payload := bytesOf 2 t.tidNum ++ List.replicate 6 0 ++
      (List.range 4).flatMap (fun j => bytesOf 2 (boxDim t.shadows j).1) ++
      (List.range 4).flatMap (fun j => bytesOf 2 (boxDim t.shadows j).2),
    call := false, engine := true, sys := false, token := 0, tid := t.tid, job := t.job, tag := .pkg, num := num,
    quantum := 0, seq := 0, held := false }

/-- The handles of a completed transfer: its destination full, its source free (10 R296). -/
def Core.endHandles (c : Core) (elt : Nat) : Core :=
  let c1 := match dstHandle elt with
    | some h => c.setHandle h { c.handle h with st := .full }
    | none => c
  match srcHandle elt with
  | some h => c1.setHandle h { c1.handle h with st := .free }
  | none => c1

/-- A transfer taken off its engine: status, handles, counts and the clipped-box message (10 R293, R295 to R297). -/
def State.endTransfer (s : State) (e : Nat) (t : Transfer) : State :=
  let g := s.engine e
  let bad := t.err != 0
  let s1 := s.setEngine e
    { g with
      queue := g.queue.filter (fun x => x.num != t.num), done := g.done + 1,
      errs := if bad && g.errs != BitVec.allOnes 16 then g.errs + 1 else g.errs }
  let c := (s1.core t.core).endHandles (shadow t.shadows 11).toNat
  let c1 := match Store.get none t.tidNum c.tids with
    | some r => if r.job = t.job ∧ r.kid = t.kid then
        { c with tids := Store.put none t.tidNum (some { r with status := t.status }) c.tids } else c
    | none => c
  let s2 := s1.setCore t.core c1
  if t.clipped then { s2 with msgs := s2.msgs ++ [t.boxMsg e s2.msgSeq], msgSeq := s2.msgSeq + 1 } else s2

/-- COPY_TRANSFER_COMPLETE: the started transfer of engine `arg.n` ends once every remote part is acknowledged or has
failed (07 R195). -/
def execCopyTransferComplete (s : State) : Out :=
  let e := s.arg.n
  match (s.engine e).queue.find? (fun t => t.started && t.remote == 0) with
  | some t => .next (s.endTransfer e t)
  | none => .next s

/-! ## Ullage counters: counts and actions (06 R159 to R163, R494) -/

/-- The job whose rights a counter's action has: its owner. -/
def Counter.job (c : Counter) : Nat := c.owner.getD 0

/-- A record about a counter: to its owner's supervisor, or to firmware for a counter that firmware owns, which keeps it
(04 R82; 06 R160, R494; log entry 132). -/
def State.counterRecord (s : State) (n code : Nat) (eval : Word) : State :=
  let rec_ := fun (j : Nat) => recordBytes code 3 j n s.ptime eval 0 0xFFFF 0xFF []
  if (s.counter n).fw then { s with pkg := { s.pkg with fwRecords := s.pkg.fwRecords ++ [rec_ 0xFFFF] } }
  else
    match (s.counter n).owner with
    | some j => s.sendRecord j (rec_ j)
    | none => s

/-- An ullage arrival at a barrier: held until a thread fixes the count (10 R289). -/
def State.ullageArrive (s : State) (c : Counter) : State :=
  let a := c.arg.toNat
  let sc := scopeOfCode (bits a 5 3)
  let scope := if sc = .pod ∧ !s.pkg.pod.form then Scope.pkg else sc
  let key := barKey scope (bits a 15 6) (bits a 2 0)
  if scope = .pod ∧ !s.pkg.pod.isRoot then s.tellRoot (bits a 2 0) (bytesOf 2 0 ++ [0])
  else
    let e := (s.episode key).getD (Episode.fresh key c.job)
    (s.putEpisode (e.arrive none none .pkg)).barCheck key

/-- The kernel's entry on a core (11 R331). -/
def Kernel.entryAt (k : Kernel) (c : Nat) : Word := BitVec.ofNat 64 (k.entry + c * localSize)

/-- The kernel's trap vector on a core, 0 where it has none (11 R331). -/
def Kernel.tvecAt (k : Kernel) (c : Nat) : Word :=
  match k.tvecoff with
  | some t => BitVec.ofNat 64 (t + c * localSize)
  | none => 0

/-- The request that a KIND 2 action makes of the spawn unit (05 R110; 10 R278). -/
def Counter.launchReq (c : Counter) (s : State) (n : Nat) : SpawnReq :=
  let k := s.kernel c.job c.kid
  let pid := c.arg.toNat % 1024
  { core := pid, waiter := none, counter := some n, job := c.job, kid := c.kid, level := k.level,
    slots := BitVec.allOnes 16, pc := k.entryAt pid, regs := c.lg, fctl := 0, tvec := k.tvecAt pid, seed := k.seed, tid := 0,
    src := srcUnit, num := 0, tag := .pkg, quantum := (s.job c.job).quantum, seq := 0, held := (s.job c.job).gmode == 2 }

/-- The physical address of a KIND 3 action. -/
def Counter.incPa (c : Counter) : Nat := bits c.arg.toNat 39 3 * 8

/-- How the home answers a KIND 3 action of a job (06 R494), which needs of a window only that it lets write; PROT too for a page
that the job does not map and some other job does (01 R23; log entry 153). -/
def State.incAns (s : State) (pa job : Nat) : Ans :=
  if noStorage pa ∨ s.foreign job pa 8 then .cause cProt
  else
    match s.writeAns pa 8 job with
    | .ok => if s.hasUe pa 8 then .cause cMemoryUe else .ok
    | a => a

/-- The 8 bytes that a KIND 3 action writes: the word that the home reads, plus one. -/
def State.incBytes (s : State) (pa : Nat) : List Byte :=
  wordBytes (BitVec.ofNat 64 (natOf ((List.range 8).map (fun i => s.homeByte (pa + i))) + 1))

/-- A KIND 3 increment at an address, of counter `n` and with a job's rights: performed, or the record of why it failed (06 R148,
R161, R494). The writer is the counter's own die, and the action releases at pkg scope (01 R28; 07 R196). At a suspended window it is
held until the partition resumes, as every cellar access there is (05 R124). DEDUCED: R494 names no failure there (log entry 174). -/
def State.incAct (s : State) (n pa job : Nat) : State :=
  match s.incAns pa job with
  | .cause k => s.counterRecord n k (BitVec.ofNat 64 pa)
  | .held p => s.setPart p { s.part p with heldIncs := (s.part p).heldIncs ++ [(n, pa)] }
  | _ =>
    if isView pa then s.viewStore pa (s.incBytes pa)
    else s.perform pa (s.incBytes pa) (tagDie (counterDie n))

/-- A counter's KIND 3 action (06 R161). -/
def State.ullageInc (s : State) (n : Nat) (c : Counter) : State := s.incAct n c.incPa c.job

/-- The queue and slot of an Ahnaux counter (04 R77). -/
def ahnauxSlot (n : Nat) : Option (Nat × Nat) :=
  if 3840 ≤ n ∧ n < 4096 then some ((n - 3840) / 64, (n - 3840) % 64) else none

/-- A counter's action (06 R161); an Ahnaux counter starts its command thread (04 R81). -/
def State.ullageAction (s : State) (n : Nat) : State :=
  let c := s.counter n
  if c.fw then
    match ahnauxSlot n with
    | some (q, sl) => s.push .commandThread (Arg.ofNM q sl)
    | none => s
  else
    match c.kind.toNat with
    | 1 => s.ullageArrive c
    | 2 => { s with spawns := s.spawns ++ [c.launchReq s n] }
    | 3 => s.ullageInc n c
    | _ => s

/-- Bytes added to a counter's COUNT: the action at TOTAL, ULLAGE_OVER beyond it (06 R160). -/
def State.ullageAdd (s : State) (n : Nat) (v : Nat) : State :=
  let c := s.counter n
  if !c.armed then s
  else
    let count := c.count + BitVec.ofNat 48 v
    let fires := !c.fired && decide (c.total.toNat ≤ count.toNat)
    let above := !c.overran && decide (c.total.toNat < count.toNat)
    let s1 := s.setCounter n { c with count := count, fired := c.fired || fires, overran := c.overran || above }
    let s2 := if fires then s1.ullageAction n else s1
    if above then (s2.drawn).counterRecord n cUllageOver s2.freeVal else s2

/-- ULLAGE_COUNT_REPORT: home `arg.n` reports what it has counted for counter `arg.m` (06 R159, R160). -/
def execUllageCountReport (s : State) : Out :=
  let c := s.counter s.arg.m
  let v := Store.get 0 s.arg.n c.frags
  .next ((s.setCounter s.arg.m { c with frags := Store.put 0 s.arg.n 0 c.frags }).ullageAdd s.arg.m v)

/-- COUNTER_FEED_WRITE: `arg.v` is added to COUNT of counter `arg.n` (06 R163). -/
def execCounterFeedWrite (s : State) : Out := .next (s.ullageAdd s.arg.n s.arg.v.toNat)

/-- COUNTER_TOTAL_WRITE: TOTAL of counter `arg.n` is written; for an armed, unfired counter it is a report of zero bytes
(06 R163). -/
def execCounterTotalWrite (s : State) : Out :=
  let c := s.counter s.arg.n
  let s1 := s.setCounter s.arg.n { c with total := BitVec.ofNat 48 s.arg.v.toNat }
  .next (if c.armed && !c.fired then s1.ullageAdd s.arg.n 0 else s1)

/-- ULLAGE_LAUNCH: the task of counter `arg.n` starts once a slot of the arming kernel's reservation is free, in ordered mode
at the end of a quantum (05 R110; 06 R161; 07 R205). -/
def execUllageLaunch (s : State) : Out :=
  match (indexed s.spawns).find? (fun p => p.2.counter == some s.arg.n) with
  | none => .next s
  | some (i, r) =>
    if r.held ∨ !s.gateAllows r.job gateSpawn r.tid.toNat then .next s
    else
      match s.freeSlots r.job r.kid r.core r.slots, s.freeId r.job with
      | slot :: _, some id => .next (({ s with spawns := dropAt s.spawns i }).spawnNow r slot id)
      | _, _ => .next s

/-! ## ULS and ULR (06 R157, R158, R162; 13 R403, R404) -/

/-- `n` ordinary 8-byte loads of the executing thread, in order. -/
def State.loadWords (s : State) (opc : Nat) (va : Word) : Nat → Except State (List Word × State)
  | 0 => .ok ([], s)
  | n + 1 =>
    match s.scalarLoad opc va 8 false false with
    | .error e => .error e
    | .ok (b, s1) =>
      match s1.loadWords opc (va + 8) n with
      | .error e => .error e
      | .ok (l, s2) => .ok (wordOf b :: l, s2)

/-- Whether ARG breaks the rules of its KIND (06 R161). -/
def badAction (kind arg : Nat) : Bool :=
  match kind with
  | 0 => arg != 0
  | 1 =>
    let sc := bits arg 5 3
    let most := match sc with
      | 0 => 1024
      | 1 => 256
      | 2 => 4
      | _ => 1
    decide (5 ≤ sc) || decide (most ≤ bits arg 15 6) || decide (arg / 2 ^ 16 ≠ 0)
  | 2 => decide (arg / 2 ^ 10 ≠ 0)
  | 3 => decide (arg % 8 ≠ 0) || decide (arg / 2 ^ 40 ≠ 0)
  | 4 => arg != 0
  | _ => true

/-- Whether the fields of a ULS descriptor break its rules (13 R403). -/
def badUls (w : List Word) : Bool :=
  let f := fun (i : Nat) => (nth 0 w i).toNat
  f 0 % 8 != 0 || f 1 % 8 != 0 || decide (f 1 < 8) || decide (f 1 > 2 ^ 36) || decide (f 2 / 2 ^ 48 ≠ 0) ||
    bits (f 3) 7 3 != 0 || badAction (f 3 % 8) (f 3 / 256)

/-- A region's physical ranges, leaf by leaf; an error of 0 where a page moves (06 R158). -/
def State.bindFrom (s : State) (j : Nat) : Nat → Nat → Nat → Except XErr (List (Nat × Nat))
  | 0, _, n => if n = 0 then .ok [] else .error cXlate
  | fuel + 1, va, n =>
    if n = 0 then .ok []
    else
      match s.walk j va with
      | .fail => .error cXlate
      | .bad => .error cMemoryUe
      | .migrating => .error 0
      | .leaf l _ _ _ =>
        let k := Nat.min n (l.va + l.size - va)
        match s.bindFrom j fuel (va + k) (n - k) with
        | .error e => .error e
        | .ok t => .ok ((l.at_ va, k) :: t)

/-- A region's physical ranges. -/
def State.bindRange (s : State) (j va n : Nat) : Except XErr (List (Nat × Nat)) := s.bindFrom j (n / 4096 + 2) va n

/-- The homes that hold bytes of a range: placement repeats every 128 KiB of HBM (06 R141, R150). -/
def State.homesOf (s : State) (r : Nat × Nat) : List Nat :=
  let n := if r.1 < tileBase then Nat.min r.2 (2 ^ 17 + 256) else r.2
  ((pieces r.1 n).map (fun p => homeOf s.iltab p.1)).dedup

/-- Fragment slots of a home's controller (06 R158). -/
def fragSlots (home : Nat) : Nat := if home < 512 then 64 else 16

/-- The other armed counters and their ranges. -/
def State.otherRanges (s : State) (n : Nat) : List (List (Nat × Nat)) :=
  (s.counters.filter (fun p => p.1 != n && p.2.armed)).map (fun p => p.2.ranges)

/-- Whether a byte would be covered by a fifth counter: the cover can only peak where some range begins (06 R158). -/
def fifthCover (mine : List (Nat × Nat)) (others : List (List (Nat × Nat))) : Bool :=
  let starts := mine.map (·.1) ++ (others.flatten.map (·.1)).filter (fun a =>
    mine.any (fun r => decide (r.1 ≤ a) && decide (a < r.1 + r.2)))
  starts.any (fun a =>
    decide (4 ≤ (others.filter (fun l => l.any (fun r => decide (r.1 ≤ a) && decide (a < r.1 + r.2)))).length))

/-- ULS's status for ranges (06 R158). -/
def State.ulsStatus (s : State) (n : Nat) (mine : List (Nat × Nat)) : Nat :=
  let others := s.otherRanges n
  if fifthCover mine others then 1
  else
    let hs := (mine.flatMap s.homesOf).dedup
    let used := others.map (fun l => (l.flatMap s.homesOf).dedup)
    if hs.any (fun h => decide (fragSlots h ≤ (used.filter (fun l => l.contains h)).length)) then 2 else 0

/-- A counter armed in one step (06 R162). -/
def Counter.arm (c : Counter) (job kid : Nat) (w : List Word) (ranges : List (Nat × Nat)) : Counter :=
  let f := fun (i : Nat) => (nth 0 w i).toNat
  { c with
    total := BitVec.ofNat 48 (f 2), count := 0, armed := true, fired := false, overran := false, owner := some job,
    kind := BitVec.ofNat 3 (f 3), arg := BitVec.ofNat 56 (f 3 / 256), lg := (w.drop 4).take 4, kid := kid,
    ranges := ranges }

/-- A counter disarmed and freed from its job (06 R162; 13 R403). -/
def Counter.disarm (c : Counter) : Counter :=
  { c with total := 0, armed := false, owner := none, ranges := [], frags := [] }

/-- Whether a counter is not the executing thread's to arm or read: another job's, or firmware's, as every Ahnaux counter is
(04 R77; 06 R162). -/
def State.notMine (s : State) (n : Nat) : Bool :=
  let c := s.counter n
  c.fw || (ahnauxSlot n).isSome || (c.owner.isSome && c.owner != some s.th.job)

/-- ULS after its descriptor has been read (13 R403). -/
def State.ulsArm (s : State) (n : Nat) (at_ : Word) (w : List Word) (d : BitVec 5) : Except State State :=
  let off := nth 0 w 2 == 0
  if !off && badUls w then .error (s.trap cIllegal at_)
  else if s.notMine n then .error (s.trapFree cProt)
  else
    match s.sbEmpty 0x74 with
    | .error e => .error e
    | .ok () =>
      if off then .ok ((s.setCounter n (s.counter n).disarm).retireG d 0)
      else
        match s.bindRange s.th.job (nth 0 w 0).toNat (nth 0 w 1).toNat with
        | .error e => if e = 0 then .error (s.retry 0x74) else .error (s.trapFree e)
        | .ok rs =>
          let s1 := s.flushRlc (coreOf s.cur)
          let st := s1.ulsStatus n rs
          if st ≠ 0 then .ok (s1.retireG d (BitVec.ofNat 64 st))
          else .ok ((s1.setCounter n ((s1.counter n).arm s1.th.job s1.th.kid w rs)).retireG d 0)

/-- ULS (13 R403). -/
def execUls (d a b : BitVec 5) (s : State) : Out :=
  unrecorded (fun r =>
    let n := (r.g a).toNat
    if n > 16383 then .error (r.trapFree cIllegal)
    else if (r.g b).toNat % 8 ≠ 0 then .error (r.trap cMisalign (r.g b))
    else
      match r.loadWords 0x74 (r.g b) 8 with
      | .error e => .error e
      | .ok (w, r1) => r1.ulsArm n (r.g b) w d) s

/-- ULR: the counter's second word; it acquires the counted bytes (07 R196; 13 R404). -/
def execUlr (d a : BitVec 5) (s : State) : Out :=
  unrecorded (fun r =>
    let n := (r.g a).toNat
    let c := r.counter n
    if n > 16383 then .error (r.trapFree cIllegal)
    else if r.notMine n then .error (r.trapFree cProt)
    else .ok ((r.acquire .pkg).retireG d (BitVec.ofNat 64 (c.read 8)))) s

end Sys2Proof.Machine
end

