-- ==== Sys2Proof/Machine/Bau.lean ====
section
/-! DEFINITION. Bank arithmetic units (06 R169 to R175; 13 R411). -/

namespace Sys2Proof.Machine

open Sys2Proof

/-! ## Which ranges an operation uses (06 R170, R171; 13 R411) -/

/-- Whether an operation uses A: all but FILL. -/
def bauUsesA (op : Nat) : Bool := op != 11

/-- Whether an operation uses B: ADD, MUL, FMA, MOM and ADW. -/
def bauUsesB (op : Nat) : Bool := [2, 3, 4, 6, 7].contains op

/-- Whether an operation reads its destination: AXPY, FMA, MOM and ADW. -/
def bauReadsD (op : Nat) : Bool := [0, 4, 6, 7].contains op

/-- Whether an operation gives one FP32 result: SSQ and MAXABS. -/
def bauReduces (op : Nat) : Bool := op == 8 || op == 9

/-- The permissions that D needs. -/
def bauNeedD (op : Nat) : Need := { rd := bauReadsD op, wr := true, x := false }

/-- The permissions that A needs: MOM writes it as well. -/
def bauNeedA (op : Nat) : Need := { rd := true, wr := op == 6, x := false }

/-! ## BCMD (13 R411) -/

/-- The fields of a descriptor. -/
structure BauDesc where
  op : Nat
  fmt : Nat
  nsec : Nat
  va : List Word
  s1 : Word
  s2 : Word
  bad : Bool
  deriving DecidableEq, Repr

/-- A descriptor from its six words. -/
def bauDesc (w : List Word) : BauDesc :=
  let h := (nth 0 w 0).toNat
  { op := h % 16, fmt := bits h 15 8, nsec := bits h 23 16, va := (w.drop 1).take 3, s1 := nth 0 w 4, s2 := nth 0 w 5,
    bad := decide (1 < bits h 15 8) || bits h 23 16 == 0 || decide (8 < bits h 23 16) || bits h 7 4 != 0 ||
      decide (h / 2 ^ 24 ≠ 0) }

/-- The ranges that a command uses, in the order D, A, B: virtual address, bytes, permissions, alignment. -/
def BauDesc.ranges (d : BauDesc) : List (Nat × Nat × Need × Nat) :=
  let n := 32 * d.nsec
  let red := bauReduces d.op
  [((nth 0 d.va 0).toNat, if red then 4 else n, bauNeedD d.op, if red then 4 else 32)] ++
    (if bauUsesA d.op then [((nth 0 d.va 1).toNat, n, bauNeedA d.op, 32)] else []) ++
    (if bauUsesB d.op then [((nth 0 d.va 2).toNat, n, needRd, 32)] else [])

/-- The ranges translated and checked for permission in order (06 R170 step 4): physical address and bytes. -/
def State.bauXlate (s : State) : List (Nat × Nat × Need × Nat) → Except State (List (Nat × Nat))
  | [] => .ok []
  | (va, n, need, _) :: t =>
    match s.xparts 0x7C va n need with
    | .error e => .error e
    | .ok ps =>
      match s.bauXlate t with
      | .error e => .error e
      | .ok l => .ok (((ps.map (·.pa)).headD 0, n) :: l)

/-- Steps 5 to 7 of 06 R170: the cause and EVAL of the first check that fails; EVAL is not stated for MISALIGN. -/
def State.bauCheck (s : State) (rs : List (Nat × Nat × Need × Nat)) (ps : List (Nat × Nat)) : Option (Option Nat) :=
  if rs.any (fun r => decide (r.1 % r.2.2.2 ≠ 0)) then some none
  else if ps.any (fun p => decide (tileBase ≤ p.1)) then some (some 1)
  else if ps.any (fun p => decide (p.1 % 256 + p.2 > 256)) then some (some 2)
  else if ps.any (fun p => bankOf s.iltab p.1 != bankOf s.iltab ((ps.map (·.1)).headD 0)) then some (some 3)
  else none

/-- The sectors of 32 bytes that a range touches: first byte and length (06 R172). -/
def sectorsOf (p : Nat × Nat) : Nat × Nat := (p.1 / 32 * 32, (p.1 + p.2 + 31) / 32 * 32 - p.1 / 32 * 32)

/-- Whether the executing thread has a buffered store to any sector of some ranges (13 R411). -/
def State.storesPending (s : State) (ps : List (Nat × Nat)) : Bool :=
  s.th.sb.any (fun e => e.parts.any (fun q => (ps.map sectorsOf).any (fun p => decide (overlap q.pa q.data.length p.1 p.2 ≠ 0))))

/-- The lines of the executing thread's core over some ranges written through. -/
def State.flushRanges (s : State) (ps : List (Nat × Nat)) : State :=
  (ps.flatMap (fun p => [p.1 / 128, (p.1 + p.2 - 1) / 128])).foldl (fun r n => r.flushLine (coreOf s.cur) n) s

/-- A checked command queued at its bank, or its thread parked (06 R173). -/
def State.queueBau (s : State) (d : BauDesc) (ps : List (Nat × Nat)) : Except State State :=
  if s.storesPending ps then .error (s.retry 0x7C)
  else
    let pa := fun (i : Nat) => ((ps.map (·.1))[i]?).getD ((ps.map (·.1)).headD 0)
    let b := bankOf s.iltab (pa 0)
    if 16 ≤ (s.bank b).fifo.length then .error (s.retry 0x7C)
    else
      let c : BauCmd :=
        { op := d.op, bf16 := d.fmt == 1, nsec := d.nsec, d := pa 0, a := pa 1, b := pa 2, s1 := d.s1, s2 := d.s2,
          thr := threadKey s.th.job s.th.tid, tid := s.th.tid, job := s.th.job }
      let s1 := s.flushRanges ps
      .ok ((s1.setBank b { s1.bank b with fifo := (s1.bank b).fifo ++ [c] }).retire)

/-- BCMD: its checks in the order of 06 R170, and the command queued (13 R411). -/
def execBcmd (a : BitVec 5) (s : State) : Out :=
  unrecorded (fun r =>
    if (r.g a).toNat % 8 ≠ 0 then .error (r.trap cMisalign (r.g a))
    else
      match r.loadWords 0x7C (r.g a) 6 with
      | .error e => .error e
      | .ok (w, r1) =>
        let d := bauDesc w
        if d.bad then .error (r1.trap cBauError 5)
        else if 12 ≤ d.op then .error (r1.trap cBauError 4)
        else
          match r1.bauXlate d.ranges with
          | .error e => .error e
          | .ok ps =>
            match r1.bauCheck d.ranges ps with
            | some none => .error (r1.trapFree cMisalign)
            | some (some v) => .error (r1.trap cBauError (BitVec.ofNat 64 v))
            | none => r1.queueBau d ps) s

/-! ## The arithmetic (06 R171, R172) -/

/-- rnd: round_fp32 in RNE, as a value. -/
def rnd32 (v : FVal) : FVal := fp32.dec (fp32.rne v)

/-- A rounded product. -/
def rmul (x y : FVal) : FVal := rnd32 (mulV x y)

/-- A rounded sum. -/
def radd (x y : FVal) : FVal := rnd32 (addV false x y)

/-- CLAMP's value: canonical NaN for a NaN x, else min(max(x, a), b). -/
def bauClamp (x a b : FVal) : FVal :=
  if x = .nan then .nan
  else fp32.dec (fp32.minCode (fp32.maxOf (fp32.rne x) (fp32.rne a)) (fp32.rne b))

/-- The new element of D for elements x of A, y of B and z of D, and scalars a, b, c, e. -/
def bauElem (op : Nat) (a b c e x y z : FVal) : FVal :=
  match op with
  | 0 => radd (rmul a x) z
  | 1 => rmul a x
  | 2 => radd x y
  | 3 => rmul x y
  | 4 => rnd32 (addV false (mulV x y) z)
  | 5 => bauClamp x a b
  | 6 => radd (rmul a z) (rmul b y)
  | 7 =>
    let d := radd (rnd32 (sqrtV 32 (rmul c y))) e
    let u := rnd32 (divV 32 (rmul a x) d)
    radd (radd z (negV u)) (negV (rmul b z))
  | 11 => a
  | _ => x

/-- The new element of A for MOM. -/
def bauMomA (c e x y : FVal) : FVal := radd (rmul c x) (rmul (rmul e y) y)

/-- The elements of a sector as values. -/
def BauCmd.elems (c : BauCmd) (b : List Byte) : List FVal :=
  if c.bf16 then (chunks 2 b).map (fun q => Sys2Proof.Machine.bf16.dec (natOf q)) else (chunks 4 b).map (fun q => fp32.dec (natOf q))

/-- Values written as a sector's elements, rounded once. -/
def BauCmd.write (c : BauCmd) (l : List FVal) : List Byte :=
  if c.bf16 then l.flatMap (fun v => bytesOf 2 (Sys2Proof.Machine.bf16.rne v)) else l.flatMap (fun v => bytesOf 4 (fp32.rne v))

/-- A scalar's low or high FP32 half. -/
def half32 (w : Word) (hi : Bool) : FVal := fp32.dec (if hi then w.toNat / 2 ^ 32 else w.toNat % 2 ^ 32)

/-- FILL's value: S1 as FP32, or its low 16 bits as BF16 (06 R171). -/
def BauCmd.fill (c : BauCmd) : FVal :=
  if c.bf16 then Sys2Proof.Machine.bf16.dec (c.s1.toNat % 2 ^ 16) else half32 c.s1 false

/-- The new bytes of one sector of D from those of A, B and D. -/
def BauCmd.sector (c : BauCmd) (a b d : List Byte) : List Byte :=
  if c.op = 10 then a
  else if c.op = 11 then c.write (c.fill :: List.replicate (if c.bf16 then 15 else 7) c.fill)
  else
    let n := if c.bf16 then 16 else 8
    let f := bauElem c.op (half32 c.s1 false) (half32 c.s1 true) (half32 c.s2 false) (half32 c.s2 true)
    c.write ((List.range n).map (fun i =>
      f (nth .nan (c.elems a) i) (nth .nan (c.elems b) i) (nth .nan (c.elems d) i)))

/-- The new bytes of one sector of A for MOM. -/
def BauCmd.sectorA (c : BauCmd) (a b : List Byte) : List Byte :=
  c.write (zipWith2 (bauMomA (half32 c.s2 false) (half32 c.s2 true)) (c.elems a) (c.elems b))

/-- The absolute value. -/
def absV : FVal → FVal
  | .nan => .nan
  | .inf _ => .inf false
  | .fin _ m e => .fin false m e

/-- SSQ or MAXABS over elements. -/
def bauReduce (op : Nat) (l : List FVal) : FVal :=
  if l.any (fun v => v == .nan) then .nan
  else if op = 8 then l.foldl (fun acc x => radd acc (rmul x x)) (.fin false 0 0)
  else l.foldl (fun acc x => if cmpV acc (absV x) < 0 then absV x else acc) (.fin false 0 0)

/-! ## Performing a command (06 R173, R175) -/

/-- A sector left unwritten in a cycle: counted, and the first such error of the thread kept (06 R175, R176). -/
def Bank.error (k : Bank) (thr pa cyc : Nat) : Bank :=
  { k with
    errs := if k.errs = BitVec.allOnes 16 then k.errs else k.errs + 1,
    pend := if thr = 0 ∨ (Store.get none thr k.pend).isSome then k.pend else Store.put none thr (some (cyc, pa)) k.pend }

/-- An error of a command noted at its bank. -/
def State.bauError (s : State) (b : Nat) (c : BauCmd) (pa : Nat) : State := s.setBank b ((s.bank b).error c.thr pa s.cyc)

/-- Bytes of a command written, or an error where the page's vintage copy is latched or a granule in error would be
written in part. DESIGN CHOICE: EVAL of a 4-byte result that cannot be written is the result's own address (log entry 159). -/
def State.bauWrite (s : State) (b : Nat) (c : BauCmd) (pa : Nat) (d : List Byte) : State :=
  if s.latchedAt pa || s.partialUe pa d.length then s.bauError b c pa
  else s.perform pa d (tagBank (stackOf s.iltab pa / 2))

/-- One sector of an element-wise command; where a source cannot be read, none of its results is written (06 R175). -/
def State.bauSector (s : State) (b : Nat) (c : BauCmd) (i : Nat) : State :=
  let d := c.d + 32 * i
  let a := c.a + 32 * i
  let y := c.b + 32 * i
  if (bauUsesA c.op && s.hasUe a 32) || (bauUsesB c.op && s.hasUe y 32) || (bauReadsD c.op && s.hasUe d 32) then
    let s1 := s.bauError b c d
    if c.op = 6 then s1.bauError b c a else s1
  else
    let s1 := s.bauWrite b c d (c.sector (s.bytes a 32) (s.bytes y 32) (s.bytes d 32))
    if c.op = 6 then s1.bauWrite b c a (c.sectorA (s.bytes a 32) (s.bytes y 32)) else s1

/-- A whole command. -/
def State.bauPerform (s : State) (b : Nat) (c : BauCmd) : State :=
  if bauReduces c.op then
    match (List.range c.nsec).find? (fun i => s.hasUe (c.a + 32 * i) 32) with
    | some i => s.bauError b c (c.a + 32 * i)
    | none => s.bauWrite b c c.d (bytesOf 4 (fp32.rne (bauReduce c.op (c.elems (s.bytes c.a (32 * c.nsec))))))
  else (List.range c.nsec).foldl (fun r i => r.bauSector b c i) s

/-- The wait of a BFENCE with one command of a bank done (06 R174). -/
def Park.bankDone (p : Park) (b : Nat) : Park :=
  match p with
  | .bank pa l => .bank pa (l.map (fun q => if q.1 = b then (q.1, q.2 - 1) else q))
  | q => q

/-- BAU_COMMAND: bank `arg.n` performs the command at the head of its FIFO (06 R173). -/
def execBauCommand (s : State) : Out :=
  let b := s.arg.n
  match (s.bank b).fifo with
  | [] => .next s
  | c :: rest =>
    let s1 := s.bauPerform b c
    let s2 := s1.setBank b { s1.bank b with fifo := rest }
    .next { s2 with threads := s2.threads.map (fun p => (p.1, { p.2 with park := p.2.park.bankDone b })) }

end Sys2Proof.Machine
end

