-- ==== Sys2Proof/Machine/Fetch.lean ====
section
/-! DEFINITION. How a thread's next word and a stream's next halfwords are fetched and decoded. -/

namespace Sys2Proof.Machine

open Sys2Proof

/-! ## Jalgal-N (10 R279; 11 R315) -/

/-- The physical address that a thread fetches from, or the state in which the fetch ends (10 R279). -/
def State.fetchPa (s : State) : Except State Nat :=
  let pc := s.th.pc.toNat
  if pc % 4 ≠ 0 then .error (s.trap cMisalign s.th.pc)
  else
    match s.xlate s.cur pc needX with
    | .miss => .error (s.parkWalk s.cur pc 0)
    | .cause c => .error (s.trapFree c)
    | .pa a _ =>
      match spaceOf a with
      | .loc c _ => if c = coreOf s.cur then .ok a else .error (s.trapFree cProt)
      | _ => .error (s.trapFree cProt)

/-- The word at an address. -/
def State.word32 (s : State) (pa : Nat) : Word32 :=
  newtWordOfBytes (s.byte pa) (s.byte (pa + 1)) (s.byte (pa + 2)) (s.byte (pa + 3))

/-- The instruction that the executing thread issues next, or the state in which its fetch ends: a fetch fault, a parked
walk, MEMORY_UE, or ILLEGAL with EVAL holding the word (10 R279; 11 R315). -/
def State.fetchNewt (s : State) : Except State Instr :=
  match s.fetchPa with
  | .error e => .error e
  | .ok a =>
    if s.hasUe a 4 then .error (s.trapFree cMemoryUe)
    else
      match decodeNewt (s.word32 a) with
      | .ok i => .ok i
      | .error _ => .error (s.trap cIllegal ((s.word32 a).setWidth 64))

/-! ## Jalgal-T (09 R241, R245; 11 R324) -/

/-- A tile's stream. -/
def Tile.stream (t : Tile) : StreamId → Stream
  | .x => t.sx
  | .f => t.sf
  | .m => t.sm

/-- A tile with a stream replaced. -/
def Tile.setStream (t : Tile) (st : StreamId) (v : Stream) : Tile :=
  match st with
  | .x => { t with sx := v }
  | .f => { t with sf := v }
  | .m => { t with sm := v }

/-- The byte of the schedule store that a fetch in schedule cycle `f` reads: what stood there before every write of
cycle `f` or later (09 R241, R242). -/
def storeByteAt (log : List (Int × Nat × Byte)) (off : Nat) (f : Int) (now : Byte) : Byte :=
  match log.find? (fun e => decide (f ≤ e.1) && e.2.1 == off) with
  | some e => e.2.2
  | none => now

/-- A halfword of the schedule store of a tile, as fetched for an issue in schedule cycle `cyc`, 8 cycles before it
(09 R241). -/
def State.storeHalf (s : State) (t : Nat) (off : Nat) (cyc : Int) : Half :=
  let tl := s.tile t
  let p := s.part (tl.part.getD 0)
  let o := p.storeOff + 2 * off
  let rd := fun (i : Nat) => storeByteAt tl.storeLog (o + i) (cyc - 8) (s.byte (tilePa t (p.fb + o + i)))
  halfOfBytes (rd 0) (rd 1)

/-- Whether an offset lies in a block that the loop buffer holds (09 R245). -/
def Stream.inHeld (v : Stream) (off : Nat) : Bool :=
  let f := fun (l : Option Loop) =>
    match l with
    | some b => b.held && decide (b.start - 2 ≤ off) && decide (off < b.start + b.len)
    | none => false
  f v.outer || f v.inner

/-- The halfword that a stream in a given place fetches at an offset: from the loop buffer where it is held there, else
from the schedule store. -/
def State.halfIn (s : State) (t : Nat) (v : Stream) (off : Nat) (cyc : Int) : Half :=
  match (if v.inHeld off then Store.get none off v.buf else none) with
  | some h => h
  | none => s.storeHalf t off cyc

/-- The halfword that a tile's stream fetches at an offset. -/
def State.fetchHalf (s : State) (t : Nat) (st : StreamId) (off : Nat) (cyc : Int) : Half :=
  s.halfIn t ((s.tile t).stream st) off cyc

/-- The instruction at an offset for a stream in a given place, with its length in halfwords. -/
def State.instrIn (s : State) (t : Nat) (v : Stream) (off : Nat) (cyc : Int) : Option (Instr × Nat) :=
  (decodeTrellis (s.halfIn t v off cyc) (s.halfIn t v (off + 1) cyc)).toOption

/-- The instruction at an offset of a stream, with its length in halfwords. -/
def State.instrAt (s : State) (t : Nat) (st : StreamId) (off : Nat) (cyc : Int) : Option (Instr × Nat) :=
  s.instrIn t ((s.tile t).stream st) off cyc

/-- The instruction that a tile's stream issues next. -/
def State.fetchStream (s : State) (t : Nat) (st : StreamId) : Option Instr :=
  let v := (s.tile t).stream st
  (s.instrAt t st v.spc v.next).map (·.1)

end Sys2Proof.Machine
end

