-- ==== Sys2Proof/Machine/Trellis.lean ====
section
/-! DEFINITION. What every stream instruction shares: k registers, the footprint, results that take effect later, blocks,
occupancies and issue (09 R240 to R246; 14 R423 to R427). -/

namespace Sys2Proof.Machine

open Sys2Proof

/-! ## Tiles, streams and k registers -/

/-- Code of a stream: 0 X, 1 F, 2 M (08 R220; 05 R134). -/
def StreamId.code : StreamId → Nat
  | .x => 0
  | .f => 1
  | .m => 2

/-- The executing tile. -/
def State.ct (s : State) : Tile := s.tile s.curTile

/-- The executing stream. -/
def State.cs (s : State) : Stream := s.ct.stream s.curSt

/-- The partition of a tile. -/
def State.partOf (s : State) (t : Nat) : Partition := s.part ((s.tile t).part.getD 0)

/-- The partition of the executing tile. -/
def State.cp (s : State) : Partition := s.partOf s.curTile

/-- The executing tile replaced. -/
def State.setCt (s : State) (x : Tile) : State := s.setTile s.curTile x

/-- The executing stream replaced. -/
def State.setCs (s : State) (v : Stream) : State := s.setCt (s.ct.setStream s.curSt v)

/-- The executing tile's partition replaced. -/
def State.setCp (s : State) (p : Partition) : State := s.setPart (s.ct.part.getD 0) p

/-- k(n) of a stream: k0 reads as zero (14 R424). -/
def Stream.kr (v : Stream) (n : Nat) : Word32 := if n = 0 then 0 else Store.get 0 n v.k

/-- setk(n, v): a write to k0 is discarded (14 R424). -/
def Stream.setKr (v : Stream) (n : Nat) (x : Word32) : Stream := if n = 0 then v else { v with k := Store.put 0 n x v.k }

/-- k(n) of the executing stream. -/
def State.kr (s : State) (n : BitVec 4) : Word32 := s.cs.kr n.toNat

/-- setk(n, v) of the executing stream: the write of an instruction of latency 1, read as new one cycle later
(14 R426). -/
def State.setKr (s : State) (n : BitVec 4) (v : Word32) : State := s.setCs (s.cs.setKr n.toNat v)

/-! ## The footprint (14 R425) -/

/-- Physical address of a footprint offset of a tile, taken modulo FLEN. -/
def Partition.footPa (p : Partition) (t off : Nat) : Nat := tilePa t (p.fb + off % p.flen)

/-- A range of the footprint cut where it wraps: offset and length of each part. -/
def footRuns (flen : Nat) : Nat → Nat → Nat → List (Nat × Nat)
  | 0, _, _ => []
  | fuel + 1, off, n =>
    if n = 0 then []
    else
      let o := off % flen
      let a := if flen = 0 then n else Nat.min n (flen - o)
      (o, a) :: footRuns flen fuel (o + a) (n - a)

/-- The parts of a range of a partition's footprint. -/
def Partition.runs (p : Partition) (off n : Nat) : List (Nat × Nat) := footRuns p.flen (n + 1) off n

/-- sram(o, b) of a tile (14 R424, R425). A read of a window's region before its check point sees the cellar writes performed so
far, those of its own cycle not among them (09 R242; log entry 157). -/
def State.sramOf (s : State) (t off n : Nat) : List Byte :=
  ((s.partOf t).runs off n).flatMap (fun r => s.bytes (tilePa t ((s.partOf t).fb + r.1)) r.2)

/-- sram(o, b) of the executing tile. -/
def State.sram (s : State) (off n : Nat) : List Byte := s.sramOf s.curTile off n

/-- Whether a range of a tile's footprint holds an uncorrectable error (02 R43). -/
def State.sramUe (s : State) (t off n : Nat) : Bool :=
  ((s.partOf t).runs off n).any (fun r => s.hasUe (tilePa t ((s.partOf t).fb + r.1)) r.2)

/-- The bytes of the schedule store that a write of cycle `cyc` replaces, noted for later fetches (09 R241). -/
def State.noteStore (s : State) (t off n : Nat) (cyc : Int) : State :=
  let p := s.partOf t
  let hit := (List.range n).filter (fun i => decide (p.storeOff ≤ off + i) && decide (off + i < p.storeOff + p.storeLen))
  let tl := s.tile t
  let old := tl.storeLog.filter (fun e => decide (cyc - 8 ≤ e.1))
  let new := hit.map (fun i => (cyc, off + i, s.byte (tilePa t (p.fb + off + i))))
  if hit.isEmpty then s else s.setTile t { tl with storeLog := old ++ new }

/-- Bytes written to a tile's footprint in schedule cycle `cyc`, counted by ullage counters or not (06 R159). -/
def State.sramPut (s : State) (t off : Nat) (b : List Byte) (cyc : Int) (counted : Bool) : State :=
  let w := s.tagTile t
  (((s.partOf t).runs off b.length).foldl (fun (q : State × List Byte) r =>
    let pa := tilePa t ((s.partOf t).fb + r.1)
    let s1 := q.1.noteStore t r.1 r.2 cyc
    (if counted then s1.perform pa (q.2.take r.2) w else s1.performQuiet pa (q.2.take r.2) w, q.2.drop r.2)) (s, b)).1

/-! ## Results that take effect later (09 R242, R243; 14 R426) -/

/-- Whether a result takes effect before another: by cycle, then X, F, M, then issue. -/
def Pend.before (a b : Pend) : Bool :=
  if a.cyc = b.cyc then
    if a.st.code = b.st.code then decide (a.seq ≤ b.seq) else decide (a.st.code < b.st.code)
  else decide (a.cyc < b.cyc)

/-- A result put in its place among those that wait. -/
def addPend (p : Pend) : List Pend → List Pend
  | [] => [p]
  | q :: t => if q.before p then q :: addPend p t else p :: q :: t

/-- A result of the executing instruction that takes effect as an event of schedule cycle issue + `n` (14 R426). -/
def State.later (s : State) (n : Nat) (e : Eff) : State :=
  let tl := s.ct
  s.setCt { tl with pend := addPend { cyc := s.cp.scyc + n, st := s.curSt, seq := tl.seq, eff := e } tl.pend }

/-- The 256 bytes of an accumulator row (09 R240). -/
def Tile.row (t : Tile) (bank : Bool) (r : Nat) : List Byte := getBytes (if bank then t.accB else t.accA) (r * 256) 256

/-- Bytes put into an accumulator bank. -/
def Tile.putAcc (t : Tile) (bank : Bool) (off : Nat) (b : List Byte) : Tile :=
  if bank then { t with accB := putBytes t.accB off b } else { t with accA := putBytes t.accA off b }

/-- The 256 bytes of a y register. -/
def Tile.yreg (t : Tile) (r : Nat) : List Byte := getBytes t.y (r * 256) 256

/-- The bytes of a y register from one on replaced. -/
def Tile.putY (t : Tile) (r off : Nat) (b : List Byte) : Tile := { t with y := putBytes t.y (r * 256 + off) b }

/-- The token FIFO of a code. -/
def Tile.fifo (t : Tile) (f : Nat) : List Token := Store.get [] f t.fifos

/-- A token FIFO replaced. -/
def Tile.setFifo (t : Tile) (f : Nat) (l : List Token) : Tile := { t with fifos := Store.put [] f l t.fifos }

/-! ## Issue (09 R243, R247) -/

/-- Whether the executing stream issues in this cycle: its partition runs, is not frozen, and the schedule cycle is that
of its next issue (09 R247, R250). -/
def State.mayIssue (s : State) : Bool :=
  s.ct.part.isSome && s.cp.st == .running && !s.cp.frozen && !s.cs.ended && decide (s.cs.next = s.cp.scyc)

/-- The loop buffer with the halfwords of the issuing instruction, in a block that it holds (09 R241, R245). -/
def State.loaded (s : State) (len : Nat) : State :=
  let v := s.cs
  let b := (List.range len).foldl (fun (m : Store (Option Half)) i =>
    if v.inHeld (v.spc + i) then
      Store.put none (v.spc + i) (some (s.fetchHalf s.curTile s.curSt (v.spc + i) v.next)) m
    else m) v.buf
  let s1 := s.setCs { v with buf := b }
  s1.setCt { s1.ct with seq := s1.ct.seq + 1 }

/-- The stream with its loop buffer dropped once no block that it holds is open. -/
def Stream.trim (v : Stream) : Stream :=
  if (v.outer.map (·.held)).getD false || (v.inner.map (·.held)).getD false then v else { v with buf := [] }

/-- The outer block's end: back to its start, or out of it (09 R244). -/
def Stream.wrapOuter (v : Stream) : Stream :=
  match v.outer with
  | some l =>
    if v.spc = l.start + l.len then
      if 1 < l.left then { v with spc := l.start, outer := some { l with left := l.left - 1 } }
      else { v with outer := none }
    else v
  | none => v

/-- The ends of blocks at the present place: a repeat costs no cycle (09 R244). -/
def Stream.wrap (v : Stream) : Stream :=
  (match v.inner with
    | some l =>
      if v.spc = l.start + l.len then
        if 1 < l.left then { v with spc := l.start, inner := some { l with left := l.left - 1 } }
        else { v with inner := none }.wrapOuter
      else v
    | none => v.wrapOuter).trim

/-- The stream past an instruction of `len` halfwords and an occupancy (09 R243). -/
def Stream.advance (v : Stream) (len occ : Nat) : Stream :=
  { v with spc := v.spc + len, next := v.next + occ }.wrap

/-- A BLK entered: its body opened, or skipped for a count of 0 (09 R244, R245). -/
def Stream.enter (v : Stream) (len count : Nat) : Stream :=
  if count = 0 then v.advance (2 + len) 1
  else
    let outerHeld := (v.outer.map (·.held)).getD false
    let l : Loop := { start := v.spc + 2, len := len, left := count, held := decide (2 + len ≤ 1024) || outerHeld }
    let v1 := { v with spc := v.spc + 2, next := v.next + 1 }
    if v.outer.isSome then { v1 with inner := some l } else { v1 with outer := some l }

/-- The halfwords that a skipping BRC passes: the BLK or END that follows it (14 R432). -/
def skipLen (i : Option Instr) : Nat :=
  match i with
  | some (.blk len _ _) => 2 + len.toNat
  | _ => 1

/-- The stream ended (09 R246). -/
def Stream.stop (v : Stream) : Stream := { v with ended := true }

/-- The stream past a BRC that skips: the BLK or END that stands after it and comes next is passed (09 R260; 14 R432). Where the
BRC ends a block that is to run again, nothing stands next to pass (log entry 86). -/
def Stream.skip (v : Stream) (i : Option Instr) : Stream :=
  let w := v.advance 2 1
  if w.spc = v.spc + 2 then w.advance (skipLen i) 0 else w

/-- The decision made for the executing stream's issue of this cycle. -/
def State.decision (s : State) : Option Decision :=
  (s.cp.decided.find? (fun d =>
    decide (d.cyc = s.cp.scyc) && d.tile == s.curTile && d.st == s.curSt)).map (·.dec)

/-- The decision of the executing issue taken out. -/
def State.undecide (s : State) : State :=
  s.setCp { s.cp with decided := s.cp.decided.filter (fun d =>
    !(decide (d.cyc = s.cp.scyc) && d.tile == s.curTile && d.st == s.curSt)) }

/-! ## Room for posts (09 R253, R262) -/

/-- The FIFO of a token POST: X→F or X→M (13 R407; 14 R431). -/
def Post.fifo (p : Post) : Nat := if p.sel = 0 then 0 else 4

/-- Whether a tile has room for a POST: 8 tokens in a FIFO, 16 staged entries. -/
def Tile.room (t : Tile) (p : Post) : Bool :=
  if p.form = 1 then decide ((t.fifo p.fifo).length < 8)
  else if p.form = 2 then decide (t.staged.length < 16)
  else true

/-- Whether a POST finds room on every tile that it is for. -/
def State.postRoom (s : State) (p : Post) : Bool := p.tiles.all (fun t => (s.tile t).room p)

/-- The POSTs held in a partition that are for a tile: the tile they are held at, their place there, and the POST. -/
def State.postsHeldFor (s : State) (t : Nat) : List (Nat × Nat × Post) :=
  match (s.tile t).part with
  | some pk => (s.part pk).tiles.flatMap (fun h => (indexed (s.tile h).heldPosts).filterMap (fun x =>
      if x.2.tiles.contains t then some (h, x) else none))
  | none => []

/-- The first held POST for a tile that has room now is performed next (09 R253, R262). -/
def State.retryPosts (s : State) (t : Nat) : State :=
  match (s.postsHeldFor t).find? (fun x => s.postRoom x.2.2) with
  | some (h, i, p) =>
    let tl := s.tile h
    let s1 := s.setTile h { tl with heldPosts := dropAt tl.heldPosts i }
    ({ s1 with posts := p :: s1.posts }).push .postArrival (Arg.ofN 0)
  | none => s

/-! ## Partition faults (05 R135; 09 R251) -/

/-- A partition fault noted for a schedule cycle; its EVAL is not stated (log entry 10) but where it is given: the address of a
write that a latched copy refuses (06 R167). -/
def State.noteHere (s : State) (pk : Nat) (cyc : Int) (code : Nat) (tile : Option Nat) (st : Option StreamId)
    (detail : List Byte) (eval : Option Word := none) : State :=
  let p := s.part pk
  s.drawn.setPart pk { p with faults := p.faults ++
    [{ cyc := cyc, code := code, tile := tile, st := st, eval := eval.getD s.freeVal, detail := detail }] }

/-- A partition fault noted, with a FAULT flit to the other packages of a spanning partition (03 R68; 09 R271). -/
def State.noteFault (s : State) (pk : Nat) (cyc : Int) (code : Nat) (tile : Option Nat) (st : Option StreamId)
    (detail : List Byte) (eval : Option Word := none) : State :=
  let p := s.part pk
  let s1 := s.noteHere pk cyc code tile st detail eval
  if p.span then s1.sideband (s.partPorts p) 7 p.flitId s.ptime (bytesOf 1 code ++ wordBytes (BitVec.ofInt 64 cyc)) else s1

/-- SLIP_TIMEOUT (05 R135). -/
def fSlip : Nat := 0x40
/-- TOKEN_OVERFLOW (05 R135). -/
def fTokenOverflow : Nat := 0x41
/-- DIVERGE_CHOICE (05 R135). -/
def fDivergeChoice : Nat := 0x42
/-- BLOCKMAP (05 R135). -/
def fBlockmap : Nat := 0x43
/-- TRAILER (05 R135). -/
def fTrailer : Nat := 0x44
/-- VINTAGE (05 R135). -/
def fVintage : Nat := 0x45
/-- MEMORY_UE (05 R135). -/
def fMemoryUe : Nat := 0x46
/-- LINK (05 R135). -/
def fLink : Nat := 0x47

/-- Whether the halfwords of the executing stream's next instruction, fetched from the schedule store, hold an uncorrectable
error (02 R43). -/
def State.fetchUe (s : State) (len : Nat) : Bool :=
  let v := s.cs
  (List.range len).any (fun i =>
    let held := v.inHeld (v.spc + i) && (Store.get none (v.spc + i) v.buf).isSome
    !held && s.sramUe s.curTile (s.cp.storeOff + 2 * (v.spc + i)) 2)

/-- A stream that would consume an uncorrectable error: MEMORY_UE at its issue, which freezes the partition there
(02 R43; log entry 50). -/
def State.ueStop (s : State) : State :=
  (s.noteFault (s.ct.part.getD 0) s.cp.scyc fMemoryUe (some s.curTile) (some s.curSt) []).push .freezeTakesEffect
    (Arg.ofN (s.ct.part.getD 0))

/-! ## Occupancies (14 R427) -/

/-- The count of an F-stream conversion: at most 65,536 (14 R446). -/
def fCount (k : Word32) : Nat := Nat.min k.toNat 65536

/-- 16 × n16: the bytes of an instruction's range. -/
def n16Bytes (n16 : BitVec 14) : Nat := 16 * n16.toNat

/-- c0 of an MMA: 6 where an operand is an MX format (14 R427). -/
def mmaLead (af wf : BitVec 5) : Nat := if isMx af.toNat || isMx wf.toNat then 6 else 4

/-- K of a format's row (08 R225). -/
def kOf (c : Nat) : Nat :=
  if c = 0x09 ∨ c = 0x14 then 256
  else if c = 0x05 ∨ c = 0x06 ∨ c = 0x07 ∨ c = 0x08 ∨ c = 0x0A ∨ c = 0x17 ∨ c = 0x10 ∨ c = 0x11 ∨ c = 0x12 ∨ c = 0x13 then 64
  else if c = 0x0B ∨ c = 0x16 then 32
  else if c = 0x0C ∨ c = 0x15 ∨ c = 0x04 then 16
  else if c = 0x03 then 8
  else if c = 0x02 then 2
  else 1

/-- N of a format's row (08 R225). -/
def nOf (c : Nat) : Nat := if c = 0x01 then 16 else 64

/-- Bytes of a weight tile of a format (14 R454): K × N elements packed. -/
def wldBytes (c : Nat) : Nat := packedLen (elemOf c).bits (kOf c * nOf c)

/-- The occupancy of an instruction, with k registers given where they are known: `none` where it depends on one that is
not. A conversion of no elements has occupancy 0: its stream issues the next instruction in the same cycle (log entry 51). -/
def occupancy (k : Nat → Option Word32) (i : Instr) : Option Nat :=
  match i with
    | .dly n1 => some (n1.toNat + 1)
    | .hld _ _ n16 => some (ceilDiv (n16Bytes n16) 64)
    | .hst _ _ n16 => some (ceilDiv (n16Bytes n16) 64)
    | .hac _ _ n16 _ => some (ceilDiv (n16Bytes n16) 64)
    | .tld _ _ n16 _ => some (ceilDiv (n16Bytes n16) 64)
    | .lks _ _ _ n1 => some (n1.toNat + 1)
    | .scp _ _ n16 => some (2 * ceilDiv (n16Bytes n16) 256)
    | .qnt _ _ _ _ _ _ kn => (k kn.toNat).map (fun c => 2 * ceilDiv (fCount c) 32 + 1)
    | .dqn _ _ _ _ _ _ kn => (k kn.toNat).map (fun c => 2 * ceilDiv (fCount c) 32)
    | .cvt _ _ _ _ _ _ kn => (k kn.toNat).map (fun c => 2 * ceilDiv (fCount c) 32)
    | .srs _ _ _ _ _ kn => (k kn.toNat).map (fun c => 2 * ceilDiv (fCount c) 32)
    | .pak _ _ _ _ kn => (k kn.toNat).map (fun c => 2 * ceilDiv (fCount c) 256)
    | .trn _ _ sz => some (32 * 2 ^ sz.toNat)
    | .fmt _ _ n16 => some (ceilDiv (n16Bytes n16) 256)
    | .wld _ _ f => some (2 * ceilDiv (wldBytes f.toNat) 256)
    | .mma _ _ af wf _ m1 => some (mmaLead af wf + m1.toNat + 1)
    | .acr _ kr _ _ _ _ _ => (k kr.toNat).map (fun (r : Word32) => bits r.toNat 13 8 + 2)
    | _ => some 1

/-- The occupancy of an instruction at its issue. -/
def State.occ (s : State) (i : Instr) : Nat := (occupancy (fun n => some (s.cs.kr n)) i).getD 1

/-! ## The forms of an issue -/

/-- The executing stream past its instruction: the decision for the issue is done with, and after an occupancy of 0 the next
instruction issues in this cycle too (09 R243; 14 R427). -/
def State.passed (s : State) (len occ : Nat) : State :=
  let s1 := s.setCs (s.cs.advance len occ)
  if occ = 0 then { s1 with agenda := .stream s.curTile s.curSt :: s1.agenda } else s1.undecide

/-- An instruction that goes on to the next after its occupancy: `f` is its effect (09 R243). -/
def issued (i : Instr) (len : Nat) (f : State → State) (s : State) : Out :=
  if s.mayIssue then
    if s.fetchUe len then .next s.ueStop
    else
      .next ((f (s.loaded len)).passed len (s.occ i))
  else .next s

/-- The bytes at the ends of a range of tile SRAM that lie in a granule of 8 bytes which the range covers only in part: a write of
the range needs the rest of it, and consumes an error there (02 R43), at its issue as a read does (log entry 50). -/
def brokenEnds (off n : Nat) : List (Nat × Nat) :=
  if n = 0 then []
  else (if off % 8 = 0 then [] else [(off, 1)]) ++ (if (off + n) % 8 = 0 then [] else [(off + n - 1, 1)])

/-- An instruction that reads ranges of tile SRAM at its issue. -/
def issuedFrom (i : Instr) (len : Nat) (src : State → List (Nat × Nat)) (f : State → State) (s : State) : Out :=
  if s.mayIssue && (src s).any (fun r => s.sramUe s.curTile r.1 r.2) then .next s.ueStop else issued i len f s

/-- An instruction that moves its stream itself. -/
def issuedControl (len : Nat) (f : State → Stream → Stream) (s : State) : Out :=
  if s.mayIssue then
    if s.fetchUe len then .next s.ueStop
    else
      let s1 := s.loaded len
      .next (s1.setCs (f s s1.cs)).undecide
  else .next s

end Sys2Proof.Machine
end

