-- ==== Sys2Proof/Machine/TControl.lean ====
section
/-! DEFINITION. Control and register instructions of the streams (14 R428 to R433). -/

namespace Sys2Proof.Machine

open Sys2Proof

/-- The count of a BLK: its field, or a k register read at the entry (09 R244). -/
def blkCount (v : Stream) (kind : BitVec 1) (count : BitVec 13) : Nat :=
  if kind = 0 then count.toNat else (v.kr (count.toNat % 16)).toNat

/-- BLK (14 R428; 09 R244, R245). -/
def execBlk (len : BitVec 12) (kind : BitVec 1) (count : BitVec 13) (s : State) : Out :=
  issuedControl 2 (fun _ v => v.enter len.toNat (blkCount v kind count)) s

/-- NOP (14 R428). -/
def execNop (s : State) : Out := issued .nop 1 (fun r => r) s

/-- DLY (14 R428). -/
def execDly (n1 : BitVec 10) (s : State) : Out := issued (.dly n1) 1 (fun r => r) s

/-- WUT (14 R433): its freeze was decided at its check point. -/
def execWut (ka kb : BitVec 4) (s : State) : Out := issued (.wut ka kb) 2 (fun r => r) s

/-- TKP (14 R431): the token is visible one cycle after issue. -/
def execTkp (fifo : BitVec 3) (ks : BitVec 4) (s : State) : Out :=
  issued (.tkp fifo ks) 1 (fun r => r.later 0 (.token fifo.toNat (r.kr ks))) s

/-- The oldest token popped into a register; a POST held for its place comes again (09 R252, R253). -/
def State.popToken (s : State) (f : Nat) (kd : BitVec 4) : State :=
  match s.ct.fifo f with
  | k :: rest => ((s.setCt (s.ct.setFifo f rest)).setKr kd k.v).retryPosts s.curTile
  | [] => s

/-- TKW (14 R431). Where no token is there the stream stays at it: the check point froze the partition here
(09 R252). -/
def execTkw (fifo : BitVec 3) (kd : BitVec 4) (s : State) : Out :=
  if (s.ct.fifo fifo.toNat).isEmpty then .next s
  else issued (.tkw fifo kd) 1 (fun r => r.popToken fifo.toNat kd) s

/-- What a BRC's post register decides: the visible bit equals the sense (14 R432). -/
def Tile.brcRuns (t : Tile) (w : BitVec 4) (bit : BitVec 6) (sense : BitVec 1) : Bool :=
  (Store.get 0 w.toNat t.visible).getLsbD bit.toNat == (sense == 1)

/-- BRC (14 R432; 09 R260): the decision of its check point runs or skips the BLK or END that follows. -/
def execBrc (w : BitVec 4) (bit : BitVec 6) (sense : BitVec 1) (s : State) : Out :=
  issuedControl 2 (fun r v =>
    let run := match r.decision with
      | some (.brc b) => b
      | _ => r.ct.brcRuns w bit sense
    if run then v.advance 2 1
    else v.skip ((r.instrAt r.curTile r.curSt (v.spc + 2) (v.next + 1)).map (·.1))) s

/-- KLI, op 0 (14 R429). -/
def execKli (kd : BitVec 4) (imm : BitVec 20) (s : State) : Out :=
  issued (.kli kd imm) 2 (fun r => r.setKr kd (imm.signExtend 32)) s

/-- KLI hi (14 R429): bits [31:16] set, [15:0] kept. -/
def execKliHi (kd : BitVec 4) (imm : BitVec 16) (s : State) : Out :=
  issued (.kliHi kd imm) 2 (fun r => r.setKr kd (imm ++ (r.kr kd).setWidth 16)) s

/-- KLI add (14 R429). -/
def execKliAdd (kd ks : BitVec 4) (imm : BitVec 16) (s : State) : Out :=
  issued (.kliAdd kd ks imm) 2 (fun r => r.setKr kd (r.kr ks + imm.signExtend 32)) s

/-- KLI mul (14 R429). -/
def execKliMul (kd ks : BitVec 4) (imm : BitVec 16) (s : State) : Out :=
  issued (.kliMul kd ks imm) 2 (fun r => r.setKr kd (r.kr ks * imm.setWidth 32)) s

/-- KOP's result (14 R430). -/
def kopValue (op : BitVec 2) (a b : Word32) (e : BitVec 4) : Word32 :=
  if op = 0 then a + b else if op = 1 then a - b else if op = 2 then b else a + e.signExtend 32

/-- KOP (14 R430). -/
def execKop (op : BitVec 2) (kd ks : BitVec 4) (s : State) : Out :=
  issued (.kop op kd ks) 1 (fun r => r.setKr kd (kopValue op (r.kr kd) (r.kr ks) ks)) s

/-- END (14 R428; 09 R246): the stream issues no more. -/
def execEndT (s : State) : Out := issuedControl 1 (fun _ v => v.stop) s

end Sys2Proof.Machine
end

