-- ==== Sys2Proof/Machine/TExchange.lean ====
section
/-! DEFINITION. The exchange stream: HBM, the timed mesh, windows, posts, latches and copies (14 R434 to R445; 09 R261 to
R268). -/

namespace Sys2Proof.Machine

open Sys2Proof

/-! ## HBM through the block map (09 R261, R262; 14 R434) -/

/-- A translated range of an HBM instruction: physical address, length, and the vintages that a read's check accepts, each of
one set or of any. -/
abbrev HbmRange := Nat × Nat × List (Option Nat × Nat)

/-- The vintages that a partition has latched, each with its slot's set (09 R269). -/
def Partition.vintages (p : Partition) : List (Option Nat × Nat) :=
  (indexed p.latches).filterMap (fun l => if l.2.latched then some (some (nth 0 p.sets l.1), l.2.vint.toNat) else none)

/-- One part of a view range translated through a tile's block-map entry and a partition's latches, `none` for BLOCKMAP
(09 R262). An entry with VT = 0 that names a page which some other job maps and the partition's does not is BLOCKMAP too
(01 R23; log entry 153). -/
def State.viewPart (s : State) (p : Partition) (tl : Tile) (va n : Nat) : Option HbmRange :=
  let e := (Store.get 0 (va / 2 ^ 25) tl.bmap).toNat
  let slot := bits e 13 12
  let l := nth Latch.init p.latches slot
  let v := s.vset (nth 0 p.sets slot)
  let pa := bits e 13 0 * 2 ^ 25 + va % 2 ^ 25
  if !bit e 15 then none
  else if !bit e 14 then (if s.foreign p.job pa n then none else some (pa, n, p.vintages))
  else if !l.latched || decide (v.len * 2 ^ 21 ≤ bits e 11 0 * 2 ^ 25) then none
  else some (nth 0 v.copypa l.copy + bits e 11 0 * 2 ^ 25 + va % 2 ^ 25, n, [(none, l.vint.toNat)])

/-- A view range translated, in two parts where it crosses a block (09 R262; 14 R434). -/
def State.viewRange (s : State) (p : Partition) (tl : Tile) (va n : Nat) : Option (List HbmRange) :=
  if 2 ^ 34 < va + n then none
  else
    let n1 := Nat.min n (2 ^ 25 - va % 2 ^ 25)
    if n1 = n then (s.viewPart p tl va n).map (fun r => [r])
    else
      match s.viewPart p tl va n1, s.viewPart p tl (va + n1) (n - n1) with
      | some a, some b => some [a, b]
      | _, _ => none

/-- The footprint offset and HBM ranges of an HBM instruction from a stream's registers, `none` for BLOCKMAP
(14 R434). -/
def State.hbmPlan (s : State) (p : Partition) (tl : Tile) (v : Stream) (kt kv : BitVec 4) (n16 : BitVec 14) :
    Option (Nat × List HbmRange) :=
  let k := (v.kr kv.toNat).toNat
  let off := (v.kr kt.toNat).toNat / 16 * 16
  if 2 ^ 30 ≤ k then none else (s.viewRange p tl (16 * k) (n16Bytes n16)).map (fun r => (off, r))

/-- What the check point of the executing HBM instruction decided (09 R248). -/
def State.hbmChoice (s : State) (kt kv : BitVec 4) (n16 : BitVec 14) : Option (Nat × List HbmRange) :=
  match s.decision with
  | some (.hbm off pas _) => some (off, pas)
  | _ => s.hbmPlan s.cp s.ct s.cs kt kv n16

/-- Slot 0's latch as the check point of the executing HBM instruction found it (09 R268). -/
def State.hbmLatch (s : State) : Latch :=
  match s.decision with
  | some (.hbm _ _ l) => l
  | _ => nth Latch.init s.cp.latches 0

/-- Ranges without their first `n` bytes. -/
def dropRange : Nat → List HbmRange → List HbmRange
  | _, [] => []
  | n, (pa, len, sl) :: t => if n < len then (pa + n, len - n, sl) :: t else dropRange (n - len) t

/-- The first `n` bytes of ranges. -/
def takeRange : Nat → List HbmRange → List HbmRange
  | _, [] => []
  | n, (pa, len, sl) :: t =>
    if n = 0 then [] else if len < n then (pa, len, sl) :: takeRange (n - len) t else [(pa, n, sl)]

/-- The bytes at their homes. -/
def State.rangeBytes (s : State) (l : List HbmRange) : List Byte := l.flatMap (fun r => s.bytes r.1 r.2.1)

/-- Granules of 64 bytes of a transfer, due at issue + 640 + j (14 R427, R435). -/
def State.granules (s : State) (load : Bool) (acum : Option Nat) (off : Nat) (pas : List HbmRange)
    (trailer : Option (List Byte × Bool × Option Latch)) : List Granule :=
  let n := (pas.map (·.2.1)).foldl (· + ·) 0
  let g := ceilDiv n 64
  (List.range g).map (fun j =>
    let r := takeRange 64 (dropRange (64 * j) pas)
    let len := Nat.min 64 (n - 64 * j)
    { cyc := s.cp.scyc + 640 + j, seq := s.ct.seq, load := load, acum := acum, off := off + 64 * j, pas := r,
      data := if load then s.rangeBytes r else s.sram (off + 64 * j) len,
      trailer := if j + 1 = g then trailer else none, passed := none })

/-- The granules of the executing instruction added. A read of an HLD's destination until they land sees the earlier bytes (09
R263; log entry 158). -/
def State.addGranules (s : State) (l : List Granule) : State := s.setCt { s.ct with gran := s.ct.gran ++ l }

/-- A BLOCKMAP fault at the executing instruction, which stays to be checked again (14 R434; 09 R262). -/
def State.blockmapStop (s : State) : State :=
  (s.noteFault (s.ct.part.getD 0) s.cp.scyc fBlockmap (some s.curTile) (some s.curSt) []).push .freezeTakesEffect
    (Arg.ofN (s.ct.part.getD 0))

/-- HLD (14 R435). -/
def execHld (kt kv : BitVec 4) (n16 : BitVec 14) (s : State) : Out :=
  match s.hbmChoice kt kv n16 with
  | some (off, pas) => issued (.hld kt kv n16) 2 (fun r => r.addGranules (r.granules true none off pas none)) s
  | none => .next (if s.mayIssue then s.blockmapStop else s)

/-- The trailer of a TLD's range, whether its CRC is right, and with VCHK the latch that it is checked against (09 R268; 14
R436). -/
def State.tldTrailer (s : State) (pas : List HbmRange) (vchk : BitVec 1) : List Byte × Bool × Option Latch :=
  let b := s.rangeBytes pas
  let n := b.length - 16
  (b.drop n, crc32c (b.take n) == BitVec.ofNat 32 (field (b.drop n) 8 4), if vchk = 1 then some s.hbmLatch else none)

/-- TLD (14 R436). -/
def execTld (kt kv : BitVec 4) (n16 : BitVec 14) (vchk : BitVec 1) (s : State) : Out :=
  match s.hbmChoice kt kv n16 with
  | some (off, pas) =>
    issued (.tld kt kv n16 vchk) 2 (fun r =>
      r.addGranules (r.granules true none off pas (some (r.tldTrailer pas vchk)))) s
  | none => .next (if s.mayIssue then s.blockmapStop else s)

/-- HST and HAC: the bytes are read at issue (14 R437). -/
def State.hbmStore (s : State) (i : Instr) (acum : Option Nat) (kt kv : BitVec 4) (n16 : BitVec 14) : Out :=
  match s.hbmChoice kt kv n16 with
  | some (off, pas) =>
    issuedFrom i 2 (fun _ => [(off, n16Bytes n16)]) (fun r => r.addGranules (r.granules false acum off pas none)) s
  | none => .next (if s.mayIssue then s.blockmapStop else s)

/-- HST (14 R437). -/
def execHst (kt kv : BitVec 4) (n16 : BitVec 14) (s : State) : Out := s.hbmStore (.hst kt kv n16) none kt kv n16

/-- HAC (14 R437): its types are 0 FP32, 1 BF16, 2 INT32, 3 FP64. -/
def execHac (kt kv : BitVec 4) (n16 : BitVec 14) (aty : BitVec 2) (s : State) : Out :=
  s.hbmStore (.hac kt kv n16 aty) (some aty.toNat) kt kv n16

/-! ## The timed mesh (09 R264 to R267; 14 R438 to R441) -/

/-- Package-grid column of a partition's west edge and row of its north edge, relative to this package (09 R270). -/
def State.edgeOf (s : State) (p : Partition) : Int × Int :=
  let px : Int := if p.span then 32 * s.pkg.pod.px.toNat else 0
  let py : Int := if p.span then 32 * s.pkg.pod.py.toNat else 0
  (8 * (p.ox : Int) - px, 8 * (p.oy : Int) - py)

/-- Column of a tile in its partition (09 R240). -/
def State.colOf (s : State) (p : Partition) (t : Nat) : Int := gridX t - (s.edgeOf p).1

/-- Row of a tile in its partition (09 R240). -/
def State.rowOf (s : State) (p : Partition) (t : Nat) : Int := gridY t - (s.edgeOf p).2

/-- What lies at a hop from a tile: the partition's edge, a tile of another package, or a tile. -/
inductive Hop where
  | edge
  | away
  | tile (t : Nat)
  deriving DecidableEq, Repr

/-- The hop from a tile in a direction: 0 N, 1 E, 2 S, 3 W. -/
def State.hop (s : State) (p : Partition) (t d : Nat) : Hop :=
  let dx : Int := if d = 1 then 1 else if d = 3 then -1 else 0
  let dy : Int := if d = 2 then 1 else if d = 0 then -1 else 0
  let c := s.colOf p t + dx
  let r := s.rowOf p t + dy
  let x := (gridX t : Int) + dx
  let y := (gridY t : Int) + dy
  if c < 0 ∨ 8 * (p.w : Int) ≤ c ∨ r < 0 ∨ 8 * (p.h : Int) ≤ r then .edge
  else if x < 0 ∨ 32 ≤ x ∨ y < 0 ∨ 32 ≤ y then .away
  else .tile (posAt x.toNat y.toNat)

/-- Cycles of a hop within the package: 2 on one die, 8 across a die boundary (09 R264; 01 R20). -/
def hopCycles (a b : Nat) : Nat := if dieOf a = dieOf b then 2 else 8

/-- The opposite direction. -/
def oppositeDir (d : Nat) : Nat := (d + 2) % 4

/-- A use of a tile's outgoing link in a cycle; a second use of one link in one cycle is LINK (09 R265; 14 R441). -/
def State.useLink (s : State) (pk t d : Nat) (cyc : Int) : State :=
  let p := s.part pk
  if p.links.any (fun l => l.1 == t && l.2.1 == d && decide (l.2.2 = cyc)) then
    s.noteFault pk (cyc + p.lead) fLink (some t) (some .x) []
  else s.setPart pk { p with links := (t, d, cyc) :: p.links.filter (fun l => decide (p.scyc ≤ l.2.2)) }

/-- A flit given to a tile of the partition. -/
def State.addFlit (s : State) (pk : Nat) (f : Flit) : State :=
  s.setPart pk { s.part pk with flits := (s.part pk).flits ++ [f] }

/-- The timed slot that the crossing table gives a hop of a tile in a direction, if it lists the hop (03 R66; 11 R334). -/
def State.crossSlot (s : State) (p : Partition) (t d : Nat) : Option Nat :=
  (p.crossing.find? (fun c =>
    decide ((c.1 : Int) = s.colOf p t) && decide ((c.2.1 : Int) = s.rowOf p t) && c.2.2.1 == d)).map (·.2.2.2)

/-- A flit that is to leave the package from a tile in a direction, in its slot at its departure cycle (03 R65, R66). A hop that
the crossing table does not list raises LINK. DEDUCED: a load checks the hops only of tiles that the tile map names (log entry
177). -/
def State.leaving (s : State) (pk t d : Nat) (dep : Int) (multi : Bool) (data : List Byte) : State :=
  match s.crossSlot (s.part pk) t d with
  | some slot =>
    s.addFlit pk { tile := t, dir := d, cyc := dep, data := data, away := some (slot + (if multi then 4 else 0)) }
  | none => s.noteFault pk (dep + (s.part pk).lead) fLink (some t) (some .x) []

/-- A flit leaves through a tendril port at the present PTIME, in a timed slot of that cycle of the frame: direction, with 4 for
a multicast copy, sending tile and slot (03 R65, R66). -/
def State.flitAway (s : State) (pk : Nat) (f : Flit) (slot : Nat) : State :=
  { s with outbox := s.outbox ++ [{ kind := 8, op := f.dir + slot / 4 * 4, job := (s.part pk).job, peer := f.tile,
                                    va := s.ptime, data := f.data, rel := false, ports := BitVec.ofNat 8 (slot % 4) }] }

/-- A flit sent to a neighbour at a departure cycle; one towards the partition's edge is LINK (09 R264, R265). -/
def State.sendOne (s : State) (pk t d : Nat) (dep : Int) (data : List Byte) : State :=
  let p := s.part pk
  match s.hop p t d with
  | .edge => s.noteFault pk (dep + p.lead) fLink (some t) (some .x) []
  | .away => (s.useLink pk t d dep).leaving pk t d dep false data
  | .tile u =>
    (s.useLink pk t d dep).addFlit pk
      { tile := u, dir := oppositeDir d, cyc := dep + hopCycles t u, data := data, away := none }

/-- The copies of a multicast along one direction: each tile takes one and passes it on in the cycle of its arrival
(14 R441). -/
def State.sendAlong (pk d : Nat) (data : List Byte) : Nat → State → Nat → Int → State
  | 0, s, _, _ => s
  | fuel + 1, s, t, dep =>
    match s.hop (s.part pk) t d with
    | .edge => s
    | .away => (s.useLink pk t d dep).leaving pk t d dep true data
    | .tile u =>
      let at1 := dep + hopCycles t u
      State.sendAlong pk d data fuel
        ((s.useLink pk t d dep).addFlit pk { tile := u, dir := oppositeDir d, cyc := at1, data := data, away := none }) u at1

/-- One flit of an LKS sent in its form: 0 one, 1 row, 2 column (14 R438). -/
def State.sendFlit (s : State) (form dir : Nat) (dep : Int) (data : List Byte) : State :=
  let pk := s.ct.part.getD 0
  let t := s.curTile
  if form = 0 then s.sendOne pk t dir dep data
  else if form = 1 then State.sendAlong pk 3 data 32 (State.sendAlong pk 1 data 32 s t dep) t dep
  else State.sendAlong pk 2 data 32 (State.sendAlong pk 0 data 32 s t dep) t dep

/-- LKS (14 R438): flit j departs at issue + 1 + j. -/
def execLks (ks : BitVec 4) (form dir : BitVec 2) (n1 : BitVec 10) (s : State) : Out :=
  let off := (s.kr ks).toNat / 64 * 64
  issuedFrom (.lks ks form dir n1) 2 (fun _ => [(off, 64 * (n1.toNat + 1))]) (fun r =>
    (List.range (n1.toNat + 1)).foldl (fun (q : State) (j : Nat) =>
      q.sendFlit form.toNat dir.toNat (r.cp.scyc + 1 + j) (r.sram (off + 64 * j) 64)) r) s

/-- A receive of a tile added; those whose cycles have passed are dropped. -/
def State.addRecv (s : State) (v : Recv) : State :=
  let live := s.ct.recvs.filter (fun r => decide (s.cp.scyc ≤ r.first + r.n))
  s.setCt { s.ct with recvs := live ++ [v] }

/-- LKR (14 R439): it covers issue + 1 to issue + n. -/
def execLkr (kt : BitVec 4) (dir : BitVec 2) (n1 : BitVec 10) (s : State) : Out :=
  issued (.lkr kt dir n1) 2 (fun r =>
    r.addRecv { dir := dir.toNat, first := r.cp.scyc + 1, n := n1.toNat + 1, seq := r.ct.seq, kind := 0, ty := 0,
                off := (r.kr kt).toNat / 64 * 64, dst := 0 }) s

/-- LKA (14 R440): the types are 0 FP32, 1 FP64, 2 INT32. -/
def execLka (kl : BitVec 4) (dir : BitVec 2) (out : BitVec 1) (n1 : BitVec 10) (ty : BitVec 2) (kd : BitVec 4)
    (s : State) : Out :=
  issued (.lka kl dir out n1 ty kd) 2 (fun r =>
    r.addRecv { dir := dir.toNat, first := r.cp.scyc + 1, n := n1.toNat + 1, seq := r.ct.seq,
                kind := if out = 0 then 1 else 2, ty := ty.toNat, off := (r.kr kl).toNat / 64 * 64,
                dst := (r.kr kd).toNat / 64 * 64 }) s

/-! ## Windows, posts and latches (14 R442 to R444) -/

/-- The window of an id that a WCL's check point has met before the window's WIN: it opens after it closes for the cellar. -/
def Tile.early (t : Tile) (wid : Nat) : Option Win :=
  t.wins.find? (fun w => w.defn.wid == wid && !w.isOpen && (w.close.map (fun c => decide (c < w.opens))).getD false)

/-- The window that a WIN of an id with a duration opens (14 R442). -/
def State.newWin (s : State) (d : WinDef) (n : Nat) : Win :=
  let opens := s.cp.scyc + 1
  match s.ct.early d.wid with
  | some w => { w with opens := opens, byWcl := n == 0 }
  | none =>
    { defn := d, opens := opens, isOpen := false, close := if n = 0 then none else some (s.cp.scyc + n), passed := false,
      missing := false, byWcl := n == 0 }

/-- WIN (14 R442; 09 R254): the window of the image's table opens at issue + 1 and closes at issue + N. -/
def execWin (id : BitVec 4) (n : BitVec 22) (s : State) : Out :=
  issued (.win id n) 2 (fun r =>
    match r.cp.winDefs.find? (fun d => d.wid == id.toNat) with
    | some d => r.setCt { r.ct with wins := r.ct.wins.filter (fun x => x.defn.wid != id.toNat) ++ [r.newWin d n.toNat] }
    | none => r) s

/-- WCL (14 R442): the window closes at this issue. -/
def execWcl (id : BitVec 4) (s : State) : Out :=
  issued (.wcl id) 2 (fun r =>
    let ws := r.ct.wins.map (fun (w : Win) =>
      if w.defn.wid = id.toNat then { w with close := some r.cp.scyc } else w)
    (r.setCt { r.ct with wins := ws }).push .windowClose (Arg.ofNM r.curTile id.toNat)) s

/-- What PRD reads (14 R443): the low or high half of a visible copy, or its posted bit. -/
def Tile.prd (t : Tile) (w : BitVec 4) (part : BitVec 2) : Word32 :=
  let v := Store.get 0 w.toNat t.visible
  if part = 0 then v.setWidth 32
  else if part = 1 then v.extractLsb' 32 32
  else if t.visPosted.getLsbD w.toNat then 1 else 0

/-- PRD (14 R443). -/
def execPrd (kd w : BitVec 4) (part : BitVec 2) (s : State) : Out :=
  issued (.prd kd w part) 2 (fun r => r.setKr kd (r.ct.prd w part)) s

/-- VLT (14 R444; 09 R268): the latch that its check point took governs accesses checked after this issue. -/
def execVlt (slot : BitVec 2) (s : State) : Out :=
  issued (.vlt slot) 2 (fun r =>
    match s.decision with
    | some (.vlt sl l) => r.setCp { r.cp with latches := setAt r.cp.latches sl l }
    | _ => r) s

/-- SCP (14 R445): the source is read whole at issue. -/
def execScp (kt ks : BitVec 4) (n16 : BitVec 14) (s : State) : Out :=
  let n := n16Bytes n16
  let src := (s.kr ks).toNat / 16 * 16
  issuedFrom (.scp kt ks n16) 2 (fun _ => [(src, n)]) (fun r =>
    r.later (2 * ceilDiv n 256 - 1) (.sram ((r.kr kt).toNat / 16 * 16) (r.sram src n) false)) s

end Sys2Proof.Machine
end

