-- ==== Sys2Proof/Machine/TFormat.lean ====
section
/-! DEFINITION. The format stream, and the quantising that ACR shares with QNT (14 R446 to R453; 08 R214, R215, R220 to
R224). -/

namespace Sys2Proof.Machine

open Sys2Proof

/-! ## Random words of a stream (08 R220) -/

/-- A tile's stream id: 0xF, the launch id, the tile's row and column (08 R220). -/
def State.srStream (s : State) : Nat :=
  let p := s.cp
  0xF * 2 ^ 44 + p.launch % 2 ^ 20 * 2 ^ 24 + (s.rowOf p s.curTile).toNat % 2 ^ 12 * 2 ^ 12 +
    (s.colOf p s.curTile).toNat % 2 ^ 12

/-- The random word of element `e` of the executing instruction (08 R220). -/
def State.srWord (s : State) (e : Nat) : Nat :=
  let n := s.cs.sr
  nth 0 (philox s.cp.seed s.srStream (n % 2 ^ 40) (s.curSt.code * 2 ^ 38 + n / 2 ^ 40 % 2 ^ 18 * 2 ^ 20 + e / 4 % 2 ^ 20))
    (e % 4)

/-- The rounding of element `e` under a mode code. -/
def State.roundOf (s : State) (rm : BitVec 3) (e : Nat) : RMode :=
  rmodeOf rm.toNat (if rm = 4 then s.srWord e else 0)

/-- An SR instruction counted once (14 R446). -/
def State.countSr (s : State) (rm : BitVec 3) : State :=
  if rm = 4 then s.setCs { s.cs with sr := s.cs.sr + 1 } else s

/-! ## Elements -/

/-- The source and destination types of QNT and DQN (14 R447): f32, bf16, f16, f64. -/
def qtype (ty : BitVec 2) : NumFmt :=
  .flt (if ty = 0 then fp32 else if ty = 1 then bf16 else if ty = 2 then fp16 else fp64)

/-- The values of packed elements. -/
def decodeList (f : NumFmt) (b : List Byte) (c : Nat) : List FVal :=
  (List.range c).map (fun i => f.dec (packedGet b f.bits i))

/-- Zero bytes added to a multiple of 16. -/
def pad16 (b : List Byte) : List Byte := b ++ List.replicate ((16 - b.length % 16) % 16) 0

/-- The largest finite magnitude of some values, as a value; zero where none is finite. -/
def amaxOf (l : List FVal) : FVal :=
  l.foldl (fun a v =>
    match v with
    | .fin _ m e => if 0 < cmpV (.fin false m e) a then .fin false m e else a
    | _ => a) (.fin false 0 0)

/-- Whether a value is infinite. -/
def FVal.isInf : FVal → Bool
  | .inf _ => true
  | _ => false

/-- A finite value divided by 2^k. -/
def FVal.downBy (k : Int) : FVal → FVal
  | .fin s m e => .fin s m (e - k)
  | v => v

/-- An MX block quantised: its scale byte and elements (08 R222); element 0 has index `e0`. -/
def mxBlock (f : NumFmt) (mode : Nat → RMode) (sat : Bool) (e0 : Nat) (l : List FVal) : Byte × List Narrow :=
  if l.any (fun v => v == .nan) then
    (0xFF, l.map (fun v => { code := 0, sat := false, nan := v == .nan, inf := v.isInf }))
  else
    let k : Int := match amaxOf l with
      | .fin _ m e => if m = 0 then -127 else max (-127) (min 127 (topExp m e - mxEmax f))
      | _ => -127
    (BitVec.ofNat 8 (k + 127).toNat,
      (indexed l).map (fun p => roundNarrow f (mode (e0 + p.1)) sat (p.2.downBy k)))

/-- The elements of a plain format, or the scales and elements of an MX format. -/
def quantise (fc : Nat) (mode : Nat → RMode) (sat : Bool) (l : List FVal) : List Byte × List Narrow :=
  let f := elemOf fc
  if isMx fc then
    let bs := (indexed (chunks 32 l)).map (fun p => mxBlock f mode sat (32 * p.1) p.2)
    (bs.map (·.1), bs.flatMap (·.2))
  else ([], (indexed l).map (fun p => roundNarrow f (mode p.1) sat p.2))

/-- The payload of some elements: packed, padded to whole blocks with the scales after them for an MX format, then to 16
bytes (14 R446; 08 R214, R215). -/
def payload (fc : Nat) (scales : List Byte) (codes : List Nat) : List Byte :=
  let b := (elemOf fc).bits
  if isMx fc then
    pad16 (packCodes b (codes ++ List.replicate ((32 - codes.length % 32) % 32) 0) ++ scales)
  else pad16 (packCodes b codes)

/-- AMAX of a trailer, rounded RUP with SAT = 0, so that a finite value above the largest FP32 number gives infinity. DEDUCED: AMAX is
not what the instruction's SAT governs (08 R217, R223; log entry 182). -/
def trailerAmax (l : List FVal) : Nat :=
  if l.any FVal.isInf then fp32.infCode
  else
    match amaxOf l with
    | .fin _ m e => (fp32.round .rup false false m e).code
    | _ => 0

/-- A trailer (08 R223, R224). -/
def trailerBytes (fc : Nat) (vals : List FVal) (el : List Narrow) (sr nosat : Bool) (vint : Option (BitVec 32))
    (pay : List Byte) : List Byte :=
  let flags := b2n (el.any (·.nan)) + 2 * b2n (el.any (·.inf)) + 4 * b2n sr + 8 * b2n nosat + 16 * b2n vint.isSome
  bytesOf 4 (trailerAmax vals) ++ bytesOf 2 (Nat.min 0xFFFF (el.filter (·.sat)).length) ++ bytesOf 1 fc ++
    bytesOf 1 flags ++ bytesOf 4 (crc32c pay).toNat ++ bytesOf 4 (vint.getD 0).toNat

/-- Slot 0's vintage, where slot 0 is latched (09 R268). -/
def State.slot0 (s : State) : Option (BitVec 32) :=
  let l := nth Latch.init s.cp.latches 0
  if l.latched then some l.vint else none

/-- Values quantised with payload and trailer, as QNT and ACR write them (14 R447, R458). -/
def State.quantTile (s : State) (fc : Nat) (rm : BitVec 3) (nosat : BitVec 1) (vals : List FVal) : List Byte :=
  let q := quantise fc (s.roundOf rm) (nosat == 0) vals
  let pay := payload fc q.1 (q.2.map (·.code))
  pay ++ trailerBytes fc vals q.2 (rm == 4) (nosat == 1) s.slot0 pay

/-! ## The conversions -/

/-- An F-stream offset: bits [3:0] ignored (14 R446). -/
def State.fOff (s : State) (k : BitVec 4) : Nat := (s.kr k).toNat / 16 * 16

/-- The count of an F-stream conversion (14 R446). -/
def State.fCnt (s : State) (kn : BitVec 4) : Nat := fCount (s.kr kn)

/-- QNT (14 R447). -/
def execQnt (kt ks : BitVec 4) (f : BitVec 5) (rm : BitVec 3) (nosat : BitVec 1) (ty : BitVec 2) (kn : BitVec 4)
    (s : State) : Out :=
  let c := s.fCnt kn
  let n := packedLen (qtype ty).bits c
  issuedFrom (.qnt kt ks f rm nosat ty kn) 2 (fun r => [(r.fOff ks, n)]) (fun r =>
    (r.later (2 * ceilDiv c 32 + 1) (.sram (r.fOff kt)
      (r.quantTile f.toNat rm nosat (decodeList (qtype ty) (r.sram (r.fOff ks) n) c)) false)).countSr rm) s

/-- Bytes of a DQN source: packed elements, or whole MX blocks with the scales after them (14 R448). -/
def dqnLen (fc c : Nat) : Nat :=
  let b := (elemOf fc).bits
  if isMx fc then ceilDiv c 32 * (4 * b) + ceilDiv c 32 else packedLen b c

/-- The values of a DQN source (14 R448; 08 R214). -/
def dqnValues (fc c : Nat) (b : List Byte) : List FVal :=
  let f := elemOf fc
  let at0 := ceilDiv c 32 * (4 * f.bits)
  if isMx fc then (indexed (decodeList f b c)).map (fun p => scaled (field b (at0 + p.1 / 32) 1) p.2)
  else decodeList f b c

/-- Converted elements of a destination type, packed and padded (14 R446). -/
def State.convTo (s : State) (f : NumFmt) (rm : BitVec 3) (sat : Bool) (vals : List FVal) : List Byte :=
  pad16 (packCodes f.bits ((indexed vals).map (fun p => (roundNarrow f (s.roundOf rm p.1) sat p.2).code)))

/-- DQN (14 R448). -/
def execDqn (kt ks : BitVec 4) (f : BitVec 5) (rm : BitVec 3) (nosat : BitVec 1) (ty : BitVec 2) (kn : BitVec 4)
    (s : State) : Out :=
  let c := s.fCnt kn
  let n := dqnLen f.toNat c
  issuedFrom (.dqn kt ks f rm nosat ty kn) 2 (fun r => [(r.fOff ks, n)]) (fun r =>
    (r.later (2 * ceilDiv c 32) (.sram (r.fOff kt)
      (r.convTo (qtype ty) rm (nosat == 0) (dqnValues f.toNat c (r.sram (r.fOff ks) n))) false)).countSr rm) s

/-- CVT (14 R449). -/
def execCvt (kt ks : BitVec 4) (df sf : BitVec 5) (rm : BitVec 3) (nosat : BitVec 1) (kn : BitVec 4) (s : State) : Out :=
  let c := s.fCnt kn
  let n := packedLen (elemOf sf.toNat).bits c
  issuedFrom (.cvt kt ks df sf rm nosat kn) 2 (fun r => [(r.fOff ks, n)]) (fun r =>
    (r.later (2 * ceilDiv c 32) (.sram (r.fOff kt)
      (r.convTo (elemOf df.toNat) rm (nosat == 0) (decodeList (elemOf sf.toNat) (r.sram (r.fOff ks) n) c))
      false)).countSr rm) s

/-- SRS (14 R450): x / 2^sh rounded to the destination's range. -/
def execSrs (kt ks : BitVec 4) (f : BitVec 5) (rm : BitVec 3) (sh : BitVec 5) (kn : BitVec 4) (s : State) : Out :=
  let c := s.fCnt kn
  issuedFrom (.srs kt ks f rm sh kn) 2 (fun r => [(r.fOff ks, 4 * c)]) (fun r =>
    let vals := (decodeList (.int 32) (r.sram (r.fOff ks) (4 * c)) c).map (FVal.downBy sh.toNat)
    (r.later (2 * ceilDiv c 32) (.sram (r.fOff kt) (r.convTo (elemOf f.toNat) rm true vals) false)).countSr rm) s

/-- The transpose of 64 × 64 elements of `n` bytes (14 R451). -/
def transpose64 (n : Nat) (b : List Byte) : List Byte :=
  (List.range 64).flatMap (fun j => (List.range 64).flatMap (fun i => sub b ((64 * i + j) * n) n))

/-- TRN (14 R451). -/
def execTrn (kt ks : BitVec 4) (sz : BitVec 2) (s : State) : Out :=
  let n := 2 ^ sz.toNat
  issuedFrom (.trn kt ks sz) 2 (fun r => [(r.fOff ks, 4096 * n)]) (fun r =>
    r.later (32 * n) (.sram (r.fOff kt) (transpose64 n (r.sram (r.fOff ks) (4096 * n))) false)) s

/-- Bits of a PAK element: 4 or 6. -/
def pakBits (op : BitVec 2) : Nat := if op.toNat < 2 then 4 else 6

/-- Bytes of a PAK source (14 R452). -/
def pakLen (op : BitVec 2) (c : Nat) : Nat := if op.toNat % 2 = 0 then c else packedLen (pakBits op) c

/-- PAK's result (14 R452): bytes packed, or elements widened. -/
def pakBytes (op : BitVec 2) (sx : BitVec 1) (c : Nat) (b : List Byte) : List Byte :=
  let w := pakBits op
  if op.toNat % 2 = 0 then packCodes w ((b.take c).map (·.toNat))
  else (List.range c).map (fun i =>
    let e := packedGet b w i
    if sx = 1 then BitVec.ofInt 8 (toSigned w e) else BitVec.ofNat 8 e)

/-- PAK (14 R452). -/
def execPak (kt ks : BitVec 4) (op : BitVec 2) (sx : BitVec 1) (kn : BitVec 4) (s : State) : Out :=
  let c := s.fCnt kn
  let out := fun (r : State) => pakBytes op sx c (r.sram (r.fOff ks) (pakLen op c))
  issuedFrom (.pak kt ks op sx kn) 2 (fun r => (r.fOff ks, pakLen op c) :: brokenEnds (r.fOff kt) (out r).length) (fun r =>
    r.later (2 * ceilDiv c 256) (.sram (r.fOff kt) (out r) false)) s

/-- FMT (14 R453): a 32-bit value repeated over a range. -/
def execFmt (kt kp : BitVec 4) (n16 : BitVec 14) (s : State) : Out :=
  issued (.fmt kt kp n16) 2 (fun r =>
    r.later (ceilDiv (n16Bytes n16) 256 - 1) (.sram (r.fOff kt)
      ((List.range (4 * n16.toNat)).flatMap (fun _ => bytesOf 4 (r.kr kp).toNat)) false)) s

end Sys2Proof.Machine
end

