-- ==== Sys2Proof/Machine/TMath.lean ====
section
/-! DEFINITION. The math stream: the matrix unit and the vector unit (14 R454 to R466; 08 R225 to R228, R235). -/

namespace Sys2Proof.Machine

open Sys2Proof

/-! ## The matrix unit -/

/-- A weight tile laid n-major: element (k, n) of K × N moved to index n × K + k (14 R454). -/
def wldLayout (fc : Nat) (b : List Byte) : List Byte :=
  let w := (elemOf fc).bits
  let kk := kOf fc
  packCodes w ((List.range (nOf fc)).flatMap (fun n => (List.range kk).map (fun k => packedGet b w (k * nOf fc + n))))

/-- WLD (14 R454). -/
def execWld (kt ks : BitVec 4) (f : BitVec 5) (s : State) : Out :=
  let n := wldBytes f.toNat
  issuedFrom (.wld kt ks f) 2 (fun r => ((r.kr ks).toNat, n) :: brokenEnds (r.kr kt).toNat n) (fun r =>
    r.later (2 * ceilDiv n 256) (.sram (r.kr kt).toNat (wldLayout f.toNat (r.sram (r.kr ks).toNat n)) false)) s

/-- The value of element `i` of `n` packed elements, with the MX scale that byte i / 32 of the bytes after them gives
(14 R455). -/
def mmaValue (fc n : Nat) (b : List Byte) (i : Nat) : FVal :=
  let f := elemOf fc
  let v := f.dec (packedGet b f.bits i)
  if isMx fc then scaled (field b (packedLen f.bits n + i / 32) 1) v else v

/-- Bytes of `n` packed elements of an operand, its MX scales included. -/
def mmaLen (fc n : Nat) : Nat := packedLen (elemOf fc).bits n + (if isMx fc then ceilDiv n 32 else 0)

/-- Whether a format is a plain integer. -/
def isPlainInt (fc : Nat) : Bool :=
  !isMx fc && (match elemOf fc with
    | .int _ => true
    | _ => false)

/-- The integer of element `i` of packed elements. -/
def intElem (fc : Nat) (b : List Byte) (i : Nat) : Int :=
  toSigned (elemOf fc).bits (packedGet b (elemOf fc).bits i)

/-- One accumulator element after a pass: mma_element, or the wrapping sum of an integer pair (08 R227, R228). -/
def mmaElement (af wf acc : Nat) (a w : List Byte) (n : Nat) : Nat :=
  let kk := kOf af
  if isPlainInt af then
    ofSigned 32 (toSigned 32 acc +
      ((List.range kk).map (fun k => intElem af a k * intElem wf w (n * kk + k))).foldl (· + ·) 0)
  else
    let f := if af = 1 then fp64 else fp32
    f.rne (exactSum (f.dec acc :: (List.range kk).map (fun k =>
      mulV (mmaValue af kk a k) (mmaValue wf (kk * nOf af) w (n * kk + k)))))

/-- An accumulator row after a pass; in the FP64 row its upper half is left (14 R455, R456). -/
def mmaRow (af wf : Nat) (row a w : List Byte) : List Byte :=
  let n := if af = 1 then 8 else 4
  (List.range (nOf af)).flatMap (fun j => bytesOf n (mmaElement af wf (field row (n * j) n) a w j)) ++
    row.drop (n * nOf af)

/-- The bytes of activation row `m` with its scales after them. -/
def actRow (af rows m : Nat) (b : List Byte) : List Byte :=
  let kk := kOf af
  let len := packedLen (elemOf af).bits kk
  sub b (m * len) len ++
    (if isMx af then sub b (packedLen (elemOf af).bits (rows * kk) + m * kk / 32) (ceilDiv kk 32) else [])

/-- MMA (14 R455, R456): row m is read and written as one event at issue + c0 + m + 6. -/
def execMma (ka kw : BitVec 4) (af wf : BitVec 5) (bank : BitVec 1) (m1 : BitVec 6) (s : State) : Out :=
  let rows := m1.toNat + 1
  let a0 := s.fOff ka
  let w0 := s.fOff kw
  let an := mmaLen af.toNat (rows * kOf af.toNat)
  let wn := mmaLen wf.toNat (kOf af.toNat * nOf af.toNat)
  issuedFrom (.mma ka kw af wf bank m1) 2 (fun _ => [(a0, an), (w0, wn)]) (fun r =>
    let a := r.sram a0 an
    let w := r.sram w0 wn
    (List.range rows).foldl (fun (q : State) (m : Nat) =>
      q.later (mmaLead af wf + m + 6) (.mma (bank == 1) m af.toNat wf.toNat (actRow af.toNat rows m a) w)) r) s

/-- ACZ (14 R457): an event of its issue cycle. -/
def execAcz (bank : BitVec 1) (row0 m1 : BitVec 6) (s : State) : Out :=
  issued (.acz bank row0 m1) 2 (fun r =>
    r.later 0 (.acc (bank == 1) (256 * row0.toNat) (List.replicate (256 * (m1.toNat + 1)) 0))) s

/-- The source values of an ACR: 64 elements a row, or 16 of FP64 (14 R458). -/
def acrValues (t : Tile) (bank : Bool) (aty row0 rows : Nat) : List FVal :=
  let f : NumFmt := if aty = 0 then .flt fp32 else if aty = 1 then .int 32 else .flt fp64
  (List.range rows).flatMap (fun i => decodeList f (t.row bank ((row0 + i) % 64)) (if aty = 2 then 16 else 64))

/-- ACR (14 R458). -/
def execAcr (kt kr : BitVec 4) (bank : BitVec 1) (aty : BitVec 2) (f : BitVec 5) (rm : BitVec 3) (nosat : BitVec 1)
    (s : State) : Out :=
  let rows := bits (s.kr kr).toNat 13 8 + 1
  let out := fun (r : State) =>
    r.quantTile f.toNat rm nosat (acrValues r.ct (bank == 1) aty.toNat ((r.kr kr).toNat % 64) rows)
  issuedFrom (.acr kt kr bank aty f rm nosat) 2 (fun r => brokenEnds (r.kr kt).toNat (out r).length) (fun r =>
    (r.later (rows + 2) (.sram (r.kr kt).toNat (out r) false)).countSr rm) s

/-! ## The vector unit -/

/-- Bits of an element type: 0 i32, 1 i64, 2 f32, 3 f64 (14 R459). -/
def etBits (et : BitVec 2) : Nat := if et.toNat % 2 = 0 then 32 else 64

/-- The format of an FP element type. -/
def etFmt (et : BitVec 2) : Fmt := if et = 2 then fp32 else fp64

/-- Elements of a y register. -/
def etCount (et : BitVec 2) : Nat := 2048 / etBits et

/-- Element `i` of a register's bytes. -/
def yElem (et : BitVec 2) (b : List Byte) (i : Nat) : Nat := field b (i * (etBits et / 8)) (etBits et / 8)

/-- The elements of a register. -/
def yElems (et : BitVec 2) (b : List Byte) : List Nat := (List.range (etCount et)).map (yElem et b)

/-- Elements as register bytes. -/
def yPack (et : BitVec 2) (l : List Nat) : List Byte := l.flatMap (fun v => bytesOf (etBits et / 8) v)

/-- An FP operation of the vector unit: RNE, canonical NaN, subnormals by FTZ (14 R459; 08 R229, R230). -/
def vuFp (f : Fmt) (ftz : Bool) (op : List FVal → FVal) (l : List Nat) : Nat :=
  (f.deliver .rne ftz (op (l.map (fun c => f.dec (f.ftzIn ftz c))))).code

/-- A sign operation: a NaN gives the canonical NaN (14 R461). -/
def vuSign (f : Fmt) (ftz : Bool) (op : Bool → Bool) (a : Nat) : Nat :=
  let x := f.ftzIn ftz a
  if f.isNan x then f.canonNan else f.signed (op (f.neg x)) (x % f.signBit)

/-- The FP operations of VAR (14 R461). -/
def varFp (f : Fmt) (ftz : Bool) (op a b c : Nat) : Nat :=
  match op with
  | 0 => vuFp f ftz (fun l => addV false (fv l 0) (fv l 1)) [a, b]
  | 1 => vuFp f ftz (fun l => addV false (fv l 0) (negV (fv l 1))) [a, b]
  | 2 => vuFp f ftz (fun l => mulV (fv l 0) (fv l 1)) [a, b]
  | 3 => vuFp f ftz (fun l => addV false (mulV (fv l 0) (fv l 1)) (fv l 2)) [a, b, c]
  | 4 => f.minCode (f.ftzIn ftz a) (f.ftzIn ftz b)
  | 5 => f.maxOf (f.ftzIn ftz a) (f.ftzIn ftz b)
  | 6 => vuFp f ftz (fun l => divV (f.m + 1) (fv l 0) (fv l 1)) [a, b]
  | 7 => vuFp f ftz (fun l => sqrtV (f.m + 1) (fv l 0)) [a]
  | 8 => vuSign f ftz (fun _ => false) a
  | 9 => vuSign f ftz (fun n => !n) a
  | 10 => Nat.land a b
  | 11 => Nat.lor a b
  | _ => Nat.xor a b

/-- The integer operations of VAR, modulo 2^n (14 R461). -/
def varInt (n op a b c : Nat) : Nat :=
  match op with
  | 0 => (a + b) % 2 ^ n
  | 1 => ofSigned n ((a : Int) - b)
  | 2 => a * b % 2 ^ n
  | 3 => (a * b + c) % 2 ^ n
  | 4 => if toSigned n a ≤ toSigned n b then a else b
  | 5 => if toSigned n a ≤ toSigned n b then b else a
  | 8 => ofSigned n (toSigned n a).natAbs
  | 9 => ofSigned n (-(a : Int))
  | 10 => Nat.land a b
  | 11 => Nat.lor a b
  | 12 => Nat.xor a b
  | 13 => a * 2 ^ (b % n) % 2 ^ n
  | _ => ofSigned n (toSigned n a / (2 ^ (b % n) : Nat))

/-- One element of VAR but for cvt. -/
def varElem (et : BitVec 2) (ftz : Bool) (op a b c : Nat) : Nat :=
  if etFp et then varFp (etFmt et) ftz op a b c else varInt (etBits et) op a b c

/-- One converted element (14 R462): an integer to a narrower one wraps (log entry 52). -/
def varConv (src dst : BitVec 2) (ftz : Bool) (a : Nat) : Nat :=
  match etFp src, etFp dst with
  | true, true => ((etFmt dst).deliver .rne ftz ((etFmt src).dec ((etFmt src).ftzIn ftz a))).code
  | true, false => (fpToInt (etFmt src) .rne ftz true (etBits dst) a).code
  | false, true => ((etFmt dst).deliver .rne ftz (ofUnits (toSigned (etBits src) a) 0 false)).code
  | false, false => ofSigned (etBits dst) (toSigned (etBits src) a)

/-- cvt: the destination's byte offset and the bytes written there (14 R462). -/
def varCvt (src dst : BitVec 2) (h : Nat) (ftz : Bool) (b : List Byte) : Nat × List Byte :=
  let conv := fun i => bytesOf (etBits dst / 8) (varConv src dst ftz (yElem src b i))
  if etBits src < etBits dst then (0, (List.range 32).flatMap (fun i => conv (i + 32 * h)))
  else if etBits dst < etBits src then (128 * h, (List.range 32).flatMap conv)
  else (0, (List.range (etCount dst)).flatMap conv)

/-- VAR (14 R461, R462). -/
def execVar (yd ya yb yc : BitVec 5) (et : BitVec 2) (op : BitVec 4) (s : State) : Out :=
  issued (.var yd ya yb yc et op) 2 (fun r =>
    let t := r.ct
    let a := t.yreg ya.toNat
    if op = 15 then
      let q := varCvt (yb.setWidth 2) et (yc.toNat % 2) t.ftz a
      r.later 3 (.yreg yd.toNat q.1 q.2)
    else
      let b := t.yreg yb.toNat
      let c := t.yreg yc.toNat
      r.later (if op = 6 ∨ op = 7 then 15 else 3) (.yreg yd.toNat 0 (yPack et ((List.range (etCount et)).map (fun i =>
        varElem et t.ftz op.toNat (yElem et a i) (yElem et b i) (yElem et c i)))))) s

/-- Address of VLY and VSY: k(kb) with bits [2:0] cleared, plus e (14 R460). -/
def State.yAddr (s : State) (kb : BitVec 4) (off : BitVec 16) : Nat := (s.kr kb).toNat / 8 * 8 + 8 * off.toNat

/-- VLY (14 R460). -/
def execVly (kb : BitVec 4) (y : BitVec 5) (off : BitVec 16) (s : State) : Out :=
  issuedFrom (.vly kb y off) 2 (fun r => [(r.yAddr kb off, 256)]) (fun r =>
    r.later 2 (.yreg y.toNat 0 (r.sram (r.yAddr kb off) 256))) s

/-- VSY (14 R460). -/
def execVsy (kb : BitVec 4) (y : BitVec 5) (off : BitVec 16) (s : State) : Out :=
  issued (.vsy kb y off) 2 (fun r => r.later 0 (.sram (r.yAddr kb off) (r.ct.yreg y.toNat) false)) s

/-- Whether a VCM condition holds for two elements (14 R463). -/
def vcmHolds (et : BitVec 2) (ftz : Bool) (cond a b : Nat) : Bool :=
  let f := etFmt et
  let x := if etFp et then f.dec (f.ftzIn ftz a) else ofUnits (toSigned (etBits et) a) 0 false
  let y := if etFp et then f.dec (f.ftzIn ftz b) else ofUnits (toSigned (etBits et) b) 0 false
  let un := x == .nan || y == .nan
  let c := cmpV x y
  match cond with
  | 0 => !un && c == 0
  | 1 => un || c != 0
  | 2 => !un && decide (c < 0)
  | 3 => !un && decide (0 ≤ c)
  | 4 => !un && decide (c ≤ 0)
  | 5 => !un && decide (0 < c)
  | 6 => decide (a < b)
  | 7 => decide (b ≤ a)
  | 8 => un
  | _ => !un

/-- VCM (14 R463). -/
def execVcm (yd ya yb : BitVec 5) (cond : BitVec 4) (et : BitVec 2) (s : State) : Out :=
  issued (.vcm yd ya yb cond et) 2 (fun r =>
    let t := r.ct
    r.later 1 (.yreg yd.toNat 0 (yPack et ((List.range (etCount et)).map (fun i =>
      if vcmHolds et t.ftz cond.toNat (yElem et (t.yreg ya.toNat) i) (yElem et (t.yreg yb.toNat) i)
      then 2 ^ etBits et - 1 else 0))))) s

/-- The elements of sel, up, down and bcast (14 R464). -/
def vslElem (et : BitVec 2) (op sh : Nat) (a b c : List Byte) (i : Nat) : Nat :=
  let n := etCount et
  match op with
  | 0 => if yElem et c i % 2 = 1 then yElem et a i else yElem et b i
  | 1 => if sh ≤ i then yElem et a (i - sh) else yElem et b (n - sh + i)
  | 2 => if i + sh < n then yElem et a (i + sh) else yElem et b (i + sh - n)
  | _ => yElem et a sh

/-- VSL (14 R464). -/
def execVsl (yd ya yb yc : BitVec 5) (et : BitVec 2) (op : BitVec 3) (s : State) : Out :=
  issued (.vsl yd ya yb yc et op) 2 (fun r =>
    if op = 4 then r.later 1 (.ftz (yc.getLsbD 0))
    else
      let t := r.ct
      r.later 1 (.yreg yd.toNat 0 (yPack et ((List.range (etCount et)).map
        (vslElem et op.toNat yc.toNat (t.yreg ya.toNat) (t.yreg yb.toNat) (t.yreg yc.toNat)))))) s

/-- The operation of a VRD on two elements (14 R465). -/
def vrdOp (et : BitVec 2) (ftz : Bool) (op a b : Nat) : Nat :=
  if op = 0 then varElem et ftz 0 a b 0
  else if op = 1 then varElem et ftz 4 a b 0
  else if op = 2 then varElem et ftz 5 a b 0
  else if op = 3 then Nat.min a b
  else Nat.max a b

/-- VRD (14 R465; 08 R235): element 0 takes the result, the others zero. -/
def execVrd (yd ya : BitVec 5) (op : BitVec 3) (et : BitVec 2) (s : State) : Out :=
  issued (.vrd yd ya op et) 2 (fun r =>
    let t := r.ct
    let v := treeReduce (vrdOp et t.ftz op.toNat) 0 6 (yElems et (t.yreg ya.toNat))
    r.later 7 (.yreg yd.toNat 0 (bytesOf 256 v))) s

/-- VTR (14 R466): the copy is visible from issue + 2. -/
def execVtr (dir bank : BitVec 1) (row : BitVec 6) (y : BitVec 5) (s : State) : Out :=
  issued (.vtr dir bank row y) 2 (fun r =>
    if dir = 0 then r.later 1 (.yreg y.toNat 0 (r.ct.row (bank == 1) row.toNat))
    else r.later 1 (.acc (bank == 1) (256 * row.toNat) (r.ct.yreg y.toNat))) s

end Sys2Proof.Machine
end

