-- ==== Sys2Proof/Machine/Units.lean ====
section
/-! DEFINITION. How units and commands end: completions, latches, held accesses, partitions and kernels (04 R81, R85; 05
R110 to R113, R124, R135). -/

namespace Sys2Proof.Machine

open Sys2Proof

/-! ## Command completions (04 R85, R86) -/

/-- STATUS codes of 04 R86. -/
def stOk : Nat := 0
/-- BADREC. -/
def stBadRec : Nat := 1
/-- BADSEQ. -/
def stBadSeq : Nat := 2
/-- BADOP. -/
def stBadOp : Nat := 3
/-- BADJOB. -/
def stBadJob : Nat := 4
/-- BADARG. -/
def stBadArg : Nat := 5
/-- NORES. -/
def stNoRes : Nat := 6
/-- BADSTATE. -/
def stBadState : Nat := 7
/-- AUTH. -/
def stAuth : Nat := 8
/-- REFUSED. -/
def stRefused : Nat := 9
/-- CLOSED. -/
def stClosed : Nat := 10
/-- HOSTIO. -/
def stHostIo : Nat := 11
/-- DEGRADED. -/
def stDegraded : Nat := 12

/-- Sixteen bytes of RESULT. -/
def result16 (b : List Byte) : List Byte := (b ++ List.replicate 16 0).take 16

/-- A result with bytes placed at an offset of the completion record's bytes 16 to 31. -/
def resultAt (off : Nat) (b : List Byte) (r : List Byte) : List Byte :=
  r.take (off - 16) ++ b ++ r.drop (off - 16 + b.length)

/-- The empty result. -/
def noResult : List Byte := List.replicate 16 0

/-- Whether a pending command is the one named. -/
def PendCmd.isCmd (c : PendCmd) (q n : Nat) : Bool := c.q == q && c.seq == n

/-- A command whose wait is over: its completion may be sent (04 R81, R85). One that has completed early, or that no
host command started, changes nothing. -/
def State.finish (s : State) (cmd : Option (Nat × Nat)) (status : Nat) (result : List Byte) : State :=
  match cmd with
  | none => s
  | some (q, n) =>
    s.setPkg { s.pkg with pendCmds := s.pkg.pendCmds.map (fun c =>
      if c.isCmd q n && !c.ready then { c with ready := true, status := status, result := result16 result } else c) }

/-- NEXTSEQ of a queue past a sequence number (04 R81). -/
def State.passSeq (s : State) (q seq : Nat) : State :=
  s.setQueue q { s.queue q with nextseq := BitVec.ofNat 32 (seq + 1) }

/-- The effect point of a command of a queue passed: NEXTSEQ goes on, and a command with EARLY completes (04 R81, R87). -/
def State.effect (s : State) (q seq : Nat) (result : List Byte) : State :=
  let s1 := s.passSeq q seq
  if s1.pkg.pendCmds.any (fun c => c.isCmd q seq && c.early) then s1.finish (some (q, seq)) stOk result else s1

/-- The effect point of a command that has not passed it. -/
def State.effectOnce (s : State) (cmd : Nat × Nat) : State :=
  if (s.queue cmd.1).nextseq.toNat = cmd.2 then s.effect cmd.1 cmd.2 noResult else s

/-- A launch completed: dependences of kind 2 that name it hold (05 R116). -/
def State.launchDone (s : State) (job id : Nat) : State :=
  { s with completed := Store.put false (unitKey job id) true s.completed }

/-- Bytes added to what a PREEMPT or RESUME has moved. -/
def State.addSum (s : State) (cmd : Nat × Nat) (n : Nat) : State :=
  s.setPkg { s.pkg with pendCmds := s.pkg.pendCmds.map (fun c =>
    if c.isCmd cmd.1 cmd.2 then { c with sum := c.sum + n } else c) }

/-- Whether a unit still has to move for a command. -/
def State.unitWaits (s : State) (cmd : Nat × Nat) : Bool :=
  s.parts.any (fun p => p.2.pcmds.contains cmd) || s.kernels.any (fun p => p.2.pcmds.contains cmd)

/-- The commands of a unit that has moved, or has ended: each completes with its byte count once no other unit has to, and has
then passed its effect point (04 R81, R87). -/
def State.settle (s : State) (cmds : List (Nat × Nat)) : State :=
  cmds.foldl (fun w c =>
    if w.unitWaits c then w
    else
      match w.pkg.pendCmds.find? (fun x => x.isCmd c.1 c.2) with
      | some x =>
        let r := if (w.queue c.1).nextseq.toNat = c.2 then w.passSeq c.1 c.2 else w
        r.finish (some c) stOk (bytesOf 8 x.sum)
      | none => w) s

/-! ## What ends with a partition (05 R124, R135; 09 R246, R268) -/

/-- A latch count lowered by 1. -/
def VSet.unlatch (v : VSet) (k : Nat) : VSet := { v with latch := setAt v.latch k (nth 0 v.latch k - 1) }

/-- A latch count raised by 1. -/
def VSet.relatch (v : VSet) (k : Nat) : VSet := { v with latch := setAt v.latch k (nth 0 v.latch k + 1) }

/-- The latch of a slot as the latest VLT decided it. -/
def Partition.latchNow (p : Partition) (sl : Nat) : Latch :=
  p.decided.foldl (fun l d =>
    match d.dec with
    | .vlt k x => if k = sl then x else l
    | _ => l) (nth Latch.init p.latches sl)

/-- The latches of a partition dropped, one that a VLT has decided and not issued among them (09 R268). -/
def State.dropLatches (s : State) (pk : Nat) : State :=
  let p := s.part pk
  (List.range p.latches.length).foldl (fun w sl =>
    if (p.latchNow sl).latched then
      let v := nth 0 p.sets sl
      w.setVset v ((w.vset v).unlatch (p.latchNow sl).copy)
    else w) s

/-- WINDOW taken precisely by a thread that waits at its instruction. -/
def State.windowTrap (s : State) (t : Nat) : State := s.drawn.trapOf t cWindow s.freeVal (s.thread t).pc

/-- The oldest buffered store of a thread refused with WINDOW: discarded, with WPE (05 R124). -/
def State.refuseOldest (s : State) (t : Nat) : State :=
  let x := s.thread t
  match x.sb with
  | [] => s
  | e :: rest =>
    (s.setThread t { x with sb := rest }).refuseStore t cWindow ((e.parts.map (·.va)).headD 0)

/-- A held transfer, by its engine and number, ended with ERR 5 (05 R124). -/
def State.refuseTransfer (s : State) (h : Nat × Nat) : State :=
  match (s.engine h.1).queue.find? (fun t => t.num == h.2) with
  | some t => s.endTransfer h.1 { t with err := 5 }
  | none => s

/-- Threads parked at a POST that a partition holds. -/
def State.heldPosters (s : State) (pk : Nat) : List Nat :=
  let p := s.part pk
  (p.tiles.flatMap (fun t => (s.tile t).heldPosts ++ (Store.get Tile.init t p.saved).heldPosts)).filter
    (fun q => q.part == pk) |>.map (·.thr)

/-- Everything held for a partition that ends refused with WINDOW (05 R124; 09 R258). -/
def State.refuseHeld (s : State) (pk : Nat) : State :=
  let p := s.part pk
  let s1 := p.heldStores.foldl State.refuseOldest s
  let s2 := p.heldEngines.foldl State.refuseTransfer s1
  let s3 := p.heldPackets.foldl (fun w q => (w.refusePkt q.2 cWindow).donePkt q.2) s2
  let s4 := p.heldIncs.foldl (fun w q => w.counterRecord q.1 cWindow (BitVec.ofNat 64 q.2)) s3
  let loads := (s.threads.filter (fun x => x.2.park == .held pk)).map (·.1)
  (loads ++ s.heldPosters pk).eraseDups.foldl State.windowTrap s4

/-- The tiles of a partition that it runs on, freed. -/
def State.freeTiles (s : State) (pk : Nat) : State :=
  (s.part pk).tiles.foldl (fun w t => if (w.tile t).part = some pk then w.setTile t Tile.init else w) s

/-- A partition ended: held accesses refused, latches dropped, tiles, held bytes and number freed, and its command
completed (05 R124, R135); the end of a spanning one goes to its other packages (09 R270). -/
def State.endPartition (s0 : State) (pk status : Nat) (result : List Byte) : State :=
  let p := s0.part pk
  let s := if p.span && s0.isAnchor p then s0.tellPeers p 5 0
    else if s0.isPart p && !p.reported then s0.tellPeers p 4 0 else s0
  let s1 := ((s.refuseHeld pk).dropLatches pk).freeTiles pk
  (({ s1.setPart pk Partition.init with
      lastPctl := match p.num with
        | some n => Store.put none n (some { job := p.job, fault := p.lastFault, freeze := p.freezeCycles }) s1.lastPctl
        | none => s1.lastPctl,
      posts := s1.posts.filter (fun q => q.part != pk),
      launches := s1.launches.filter (fun l => l.resumes != some (false, pk)) }).finish p.cmd status result).settle p.pcmds

/-- RESULT of a SCHED.LOAD: partition number, freeze lead and launch id (04 R87). -/
def Partition.result (p : Partition) : List Byte :=
  result16 (bytesOf 1 (p.num.getD 0) ++ [0] ++ bytesOf 2 p.lead ++ List.replicate 4 0 ++ bytesOf 4 p.launch)

/-! ## What ends with a kernel (05 R110 to R113; 17 R487) -/

/-- What a kernel held on a core freed (05 R112). -/
def Core.release (c : Core) (job kid : Nat) : Core :=
  { c with
    tids := c.tids.filter (fun p => !((p.2.map (fun r => r.job == job && r.kid == kid)).getD false)),
    cpls := Store.erase (unitKey job kid) c.cpls,
    handles := c.handles.filter (fun p => p.2.owner != some (job, kid)),
    rings := if c.ringJob = some job then c.rings.filter (fun p => p.2.kid != kid) else c.rings }

/-- A core's handler table and rings given up (05 R111). -/
def Core.noRings (c : Core) : Core := { c with handlers := [], rings := [], ringJob := none }

/-- Whether a kernel of a job other than one is on a core. -/
def State.otherKernelOn (s : State) (job kid c : Nat) : Bool :=
  s.kernels.any (fun p => decide (p.1 / 2 ^ 32 = job) && p.1 != unitKey job kid && p.2.cores.contains c)

/-- A core left by a kernel of a job. -/
def State.leaveCore (s : State) (job kid c : Nat) : State :=
  let x := (s.core c).release job kid
  s.setCore c (if x.ringJob = some job ∧ !s.otherKernelOn job kid c then x.noRings else x)

/-- Every open run of a job's order log written, where no kernel of it runs any more (17 R487). -/
def State.closeRuns (s : State) (job : Nat) : State :=
  if s.kernels.any (fun p => decide (p.1 / 2 ^ 32 = job) && p.2.st == .running) then s
  else
    (s.gateLogs.filter (fun p => decide (p.1 / 4096 = job))).foldl (fun w p => w.closeRun job (p.1 % 4096)) s

/-- A kernel ended: its reservations, ids and core state freed (05 R112). -/
def State.endKernel (s : State) (job kid status : Nat) : State :=
  let k := s.kernel job kid
  let s1 := k.cores.foldl (fun w c => w.leaveCore job kid c) s
  let gone := s1.launches.filter (fun l => !(l.job == job && l.resumes == some (true, kid)))
  ((({ s1 with launches := gone }.setKernel job kid Kernel.init).closeRuns job).finish k.cmd status (bytesOf 4 kid)).settle
    k.pcmds

/-- Whether a counter armed with KIND 2 by a kernel, and not fired, holds it (05 R113). -/
def State.counterHolds (s : State) (job kid : Nat) : Bool :=
  s.counters.any (fun p =>
    p.2.armed && !p.2.fired && p.2.kind == 2 && p.2.owner == some job && p.2.kid == kid)

end Sys2Proof.Machine
end

