-- ==== Sys2Proof/Machine/TPlane.lean ====
section
/-! DEFINITION. The events of the trellis plane: schedule start and end, check points, freezes, windows, posts, HBM landings
and flits (09 R246 to R268; 07 R199, R200; 05 R123, R135). -/

namespace Sys2Proof.Machine

open Sys2Proof

/-! ## Looking ahead along a stream (09 R248; log entry 54) -/

/-- A stream in a place that it will reach, with the registers whose value there is not known, and the FIFOs that it will have
popped, once for each token. -/
structure Ahead where
  v : Stream
  unknown : List Nat
  pops : List Nat
  /-- A WIN lies between, so posts may change. -/
  win : Bool
  deriving DecidableEq, Repr

/-- A register's value, where it is known. -/
def Ahead.k (q : Ahead) (n : Nat) : Option Word32 :=
  if n = 0 then some 0 else if q.unknown.contains n then none else some (q.v.kr n)

/-- A register set to a value, or to none that is known. -/
def Ahead.setK (q : Ahead) (n : BitVec 4) (x : Option Word32) : Ahead :=
  match x with
  | some w => { q with v := q.v.setKr n.toNat w, unknown := q.unknown.filter (· != n.toNat) }
  | none => { q with unknown := n.toNat :: q.unknown }

/-- Whether the visible copy of a post register may change before a stream reads it. -/
def Tile.postMayChange (t : Tile) (w : BitVec 4) : Bool :=
  t.wins.any (fun x => !x.passed && x.defn.mask.getLsbD w.toNat)

/-- The registers after an instruction that the stream will pass. -/
def Ahead.regs (q : Ahead) (t : Tile) (i : Instr) : Ahead :=
  match i with
  | .kli kd imm => q.setK kd (some (imm.signExtend 32))
  | .kliHi kd imm => q.setK kd ((q.k kd.toNat).map (fun a => imm ++ a.setWidth 16))
  | .kliAdd kd ks imm => q.setK kd ((q.k ks.toNat).map (fun a => a + imm.signExtend 32))
  | .kliMul kd ks imm => q.setK kd ((q.k ks.toNat).map (fun a => a * imm.setWidth 32))
  | .kop op kd ks =>
    match q.k kd.toNat, q.k ks.toNat with
    | some a, some b => q.setK kd (some (kopValue op a b ks))
    | _, _ => q.setK kd none
  | .tkw f kd =>
    let r := q.setK kd (((t.fifo f.toNat)[q.pops.count f.toNat]?).map (·.v))
    { r with pops := f.toNat :: r.pops }
  | .prd kd w part => if q.win || t.postMayChange w then q.setK kd none else q.setK kd (some (t.prd w part))
  | .win _ _ => { q with win := true }
  | _ => q

/-- What a BRC that is not yet decided, or is decided, does. -/
def State.brcAhead (s : State) (t : Nat) (st : StreamId) (cyc : Int) (w : BitVec 4) (bit : BitVec 6) (sense : BitVec 1) :
    Bool :=
  match (s.partOf t).decided.find? (fun d => decide (d.cyc = cyc) && d.tile == t && d.st == st) with
  | some { dec := .brc b, .. } => b
  | _ => (s.tile t).brcRuns w bit sense

/-- The stream past an instruction that it will issue, where its next place is known. -/
def State.aheadPast (s : State) (t : Nat) (st : StreamId) (q : Ahead) (i : Instr) (len : Nat) : Option Ahead :=
  match i with
  | .endT => some { q with v := q.v.stop }
  | .blk blen kind count =>
    if kind = 0 then some { q with v := q.v.enter blen.toNat count.toNat }
    else (q.k (count.toNat % 16)).map (fun c => { q with v := q.v.enter blen.toNat c.toNat })
  | .brc w bit sense =>
    if s.brcAhead t st q.v.next w bit sense then some { q with v := q.v.advance 2 1 }
    else
      some { q with v := q.v.skip ((s.instrIn t q.v (q.v.spc + 2) (q.v.next + 1)).map (·.1)) }
  | i => (occupancy q.k i).map (fun o => let r := q.regs (s.tile t) i; { r with v := r.v.advance len o })

/-- An issue that a stream will make. -/
structure Seen where
  cyc : Int
  tile : Nat
  st : StreamId
  spc : Nat
  i : Instr
  deriving DecidableEq, Repr

/-- The issues of a stream up to a schedule cycle, as far as they are known. -/
def State.lookAhead (s : State) (t : Nat) (st : StreamId) (limit : Int) : Nat → Ahead → List Seen
  | 0, _ => []
  | fuel + 1, q =>
    if q.v.ended || decide (limit < q.v.next) then []
    else
      match s.instrIn t q.v q.v.spc q.v.next with
      | none => []
      | some (i, len) =>
        { cyc := q.v.next, tile := t, st := st, spc := q.v.spc, i := i } ::
          (match s.aheadPast t st q i len with
            | some r => s.lookAhead t st limit fuel r
            | none => [])

/-- The streams of a tile. -/
def allStreams : List StreamId := [.x, .f, .m]

/-- Whether an issue has been decided, or has faulted. -/
def Partition.settled (p : Partition) (x : Seen) : Bool :=
  p.decided.any (fun d => decide (d.cyc = x.cyc) && d.tile == x.tile && d.st == x.st) ||
    p.faults.any (fun f => decide (f.cyc = x.cyc) && f.tile == some x.tile && f.st == some x.st)

/-- The issues that a check point decides: those of the schedule cycle a freeze lead ahead, and any before it that could
not be foreseen until now, in order of cycle, tile and stream. -/
def State.toDecide (s : State) (pk : Nat) : List Seen :=
  let p := s.part pk
  let limit := p.scyc + p.lead
  let l := p.tiles.flatMap (fun t => allStreams.flatMap (fun st =>
    let v := (s.tile t).stream st
    s.lookAhead t st limit (1024 * (limit - v.next + 1).toNat) { v := v, unknown := [], pops := [], win := false }))
  (List.range (p.lead + 1)).flatMap (fun (c : Nat) =>
    l.filter (fun x => decide (x.cyc = p.scyc + c) && !p.settled x))

/-! ## Freezes (09 R249, R250) -/

/-- A decision seen by a check point that is kept, where that decides after it and the issue comes no earlier (09 R248). -/
def PastPoint.withDecision (x : PastPoint) (lead : Nat) (d : Decided) : PastPoint :=
  if d.cyc - lead ≤ x.scyc ∧ x.scyc ≤ d.cyc then { x with decided := x.decided ++ [d] } else x

/-- A decision noted, also with the check points that are kept, for one that is made late. -/
def State.addDecision (s : State) (pk : Nat) (x : Seen) (d : Decision) : State :=
  let p := s.part pk
  let e : Decided := { cyc := x.cyc, tile := x.tile, st := x.st, spc := x.spc, dec := d }
  s.setPart pk { p with decided := p.decided ++ [e], past := p.past.map (fun q => q.withDecision p.lead e) }

/-- A freeze added to a partition. -/
def State.addFreeze (s : State) (pk : Nat) (cyc : Int) (c : Cause) (ends : Option Nat) : State :=
  let p := s.part pk
  s.setPart pk { p with freezes := p.freezes ++ [{ cyc := cyc, cause := c, ends := ends }] }

/-- The end of a freeze of a schedule cycle told to the other packages of a spanning partition: the plane cycle as a PTIME
(09 R271). -/
def State.castEnd (s : State) (p : Partition) (cyc : Int) (e : Nat) : State :=
  s.spread p 0 (s.ptime + BitVec.ofNat 64 (e - s.cyc)) (wordBytes (BitVec.ofInt 64 cyc))

/-- A freeze decided for a schedule cycle, which the other packages of a spanning partition are told of, with its end where that
is known (09 R271). -/
def State.freezeAt (s : State) (pk : Nat) (cyc : Int) (c : Cause) (ends : Option Nat) : State :=
  let p := s.part pk
  let s1 := (s.addFreeze pk cyc c ends).spread p 0 0 (wordBytes (BitVec.ofInt 64 cyc))
  match ends with
  | some e => s1.castEnd p cyc e
  | none => s1

/-- PTIME as WUT compares it: less the pre-emption offset, and on a package other than a spanning partition's anchor the
anchor's, as last sampled (03 R74; 05 R126; 14 R433). -/
def State.partTime (s : State) (p : Partition) : Nat :=
  match s.isPart p, p.sample with
  | true, some x => x.1 + (s.cyc - x.2)
  | _, _ => (s.ptime - p.offset).toNat

/-- What a partition's check point in this cycle looks at. -/
def State.pointNow (s : State) (p : Partition) : PastPoint :=
  { scyc := p.scyc, cyc := s.cyc, latches := p.latches, tiles := p.tiles.map (fun t => (t, s.tile t)), time := s.partTime p,
    vsets := p.sets.map s.vset, decided := p.decided }

/-- What the check point of a schedule cycle looks at: the partition as it stood at the schedule cycle a freeze lead before, for an
issue that could not be foreseen then (09 R248; log entry 54). -/
def State.pointFor (s : State) (p : Partition) (cyc : Int) : PastPoint :=
  (p.past.find? (fun x => decide (x.scyc = cyc - p.lead))).getD (s.pointNow p)

/-- A tile as it stood at a check point. -/
def PastPoint.tile (x : PastPoint) (t : Nat) : Tile := ((x.tiles.find? (fun p => p.1 == t)).map (·.2)).getD Tile.init

/-- The present point kept with those of the freeze lead before it. -/
def State.keepPoint (s : State) (pk : Nat) : State :=
  let p := s.part pk
  s.setPart pk { p with past := s.pointNow p :: p.past.filter (fun x => decide (p.scyc ≤ x.scyc + p.lead) && decide (x.scyc < p.scyc)) }

/-- TKWs of a FIFO decided for issues before a cycle and not yet issued. -/
def Partition.claims (p : Partition) (t f : Nat) (cyc : Int) : Nat :=
  (p.decided.filter (fun d => d.tile == t && d.dec == .tkw f && decide (d.cyc < cyc))).length

/-- Whether a stack serves its slots without delay (02 R46; 05 R130). -/
def State.stackReady (s : State) (k : Nat) : Bool :=
  let x := Store.get Stack.init k s.pkg.hbm
  !x.retraining && decide (x.disturbed ≤ s.cyc)

/-- Whether a stack runs below its full rate, so that each access is a disturbed slot (05 R130). -/
def State.stackSlow (s : State) (k : Nat) : Bool := (Store.get Stack.init k s.pkg.hbm).rate != 128

/-- The end of a freeze, once its cause lets it be known (09 R249). -/
def State.freezeEnd (s : State) (p : Partition) (f : Freeze) : Option Nat :=
  match f.ends, f.cause with
  | some e, _ => some e
  | none, .tkw t k => (((s.tile t).fifo k)[p.claims t k f.cyc]?).map (fun x => x.vis + p.lead)
  | none, .wut target => if target.toNat ≤ s.partTime p then some s.cyc else none
  | none, .hbm k => if s.stackReady k then some ((Store.get Stack.init k s.pkg.hbm).disturbed + p.lead) else none
  | none, _ => none

/-- The ends of a partition's freezes brought up to date; those newly known go to its other packages (09 R271). -/
def State.resolve (s : State) (pk : Nat) : State :=
  let p := s.part pk
  let fresh := p.freezes.filterMap (fun f => if f.ends.isNone then (s.freezeEnd p f).map (fun e => (f.cyc, e)) else none)
  let s1 := s.setPart pk { p with freezes := p.freezes.map (fun f => { f with ends := s.freezeEnd p f }) }
  fresh.foldl (fun w x => w.castEnd p x.1 x.2) s1

/-! ## Windows (09 R254 to R257; 07 R199, R200) -/

/-- Posts that a window expects and its tile lacks. -/
def Tile.missingFor (t : Tile) (w : Win) : Bool := w.defn.mask &&& ~~~t.arrPosted != 0

/-- The visible copies of a mask taken from the arrival copies of a tile as a check point saw it (09 R256). -/
def Tile.takeFrom (t at_ : Tile) (mask : BitVec 16) : Tile :=
  { t with
    visible := (List.range 16).foldl (fun m i =>
      if mask.getLsbD i then Store.put 0 i (Store.get 0 i at_.arrival) m else m) t.visible,
    visPosted := (t.visPosted &&& ~~~mask) ||| (at_.arrPosted &&& mask) }

/-- The visible copies taken from the arrival copies of a mask (09 R256). -/
def Tile.takePosts (t : Tile) (mask : BitVec 16) : Tile := t.takeFrom t mask

/-- Staged block-map entries applied in arrival order (09 R262). -/
def Tile.applyStaged (t : Tile) : Tile :=
  { t with bmap := t.staged.foldl (fun m e => Store.put 0 e.1 e.2 m) t.bmap, staged := [] }

/-- Those of the staged entries applied that a check point saw. -/
def Tile.applySeen (t : Tile) (seen : List (Nat × BitVec 16)) : Tile :=
  { t with
    bmap := (t.staged.filter seen.contains).foldl (fun m e => Store.put 0 e.1 e.2 m) t.bmap,
    staged := t.staged.filter (fun e => !seen.contains e) }

/-- A window of a tile replaced: the one of its id that opens when it does. -/
def Tile.putWin (t : Tile) (w : Win) : Tile :=
  { t with wins := t.wins.map (fun x => if x.defn.wid = w.defn.wid ∧ x.opens = w.opens then w else x) }

/-- The plane cycle from which on the posts of a STALL window are all present: the first check point since the window's own
that saw them, for a close that could not be foreseen at its own, or now. -/
def State.presentSince (s : State) (p : Partition) (t : Nat) (w : Win) : Nat :=
  let from_ := (w.close.getD p.scyc) - p.lead
  ((p.past.filter (fun x => decide (from_ ≤ x.scyc) && !(x.tile t).missingFor w)).map (·.cyc)).foldl Nat.min s.cyc

/-- STALL windows of a tile whose posts are now all present: their check point is here, and the freeze ends a lead after the last
post was present (07 R200). -/
def State.stallCheck (s : State) (pk t : Nat) : State :=
  let tl := s.tile t
  (tl.wins.filter (fun w => w.missing && !tl.missingFor w)).foldl (fun r w =>
    let x := (r.tile t).applyStaged
    let p := r.part pk
    let e := r.presentSince p t w + p.lead
    let mine := fun (f : Freeze) => f.cause == .stall t w.defn.wid && f.ends.isNone
    let r1 := (r.setTile t ((x.takePosts w.defn.mask).putWin { w with passed := true, missing := false })).setPart pk
      { p with freezes := p.freezes.map (fun f => if mine f then { f with ends := some e } else f) }
    ((p.freezes.filter mine).foldl (fun q f => q.castEnd p f.cyc e) r1).retryPosts t) s

/-- The check point of a window's close: a STALL window with posts missing freezes the partition at its close, where its check
point moves; any other takes its posts, and staged entries are applied, as they stood a lead before the close (09 R248, R256,
R257, R262; 07 R200). -/
def State.windowCheck (s : State) (pk t : Nat) (w : Win) (close : Int) : State :=
  let tl := s.tile t
  let at_ := (s.pointFor (s.part pk) close).tile t
  if w.defn.stall && at_.missingFor w then
    ((s.setTile t (tl.putWin { w with close := some close, missing := true })).freezeAt pk close (.stall t w.defn.wid)
      none).stallCheck pk t
  else
    (s.setTile t (((tl.applySeen at_.staged).takeFrom at_ w.defn.mask).putWin
      { w with close := some close, passed := true })).retryPosts t

/-- The windows of a tile whose check point has come. -/
def Tile.dueWins (t : Tile) (limit : Int) : List (Win × Int) :=
  t.wins.filterMap (fun w =>
    match w.close with
    | some c => if !w.passed && !w.missing && decide (c ≤ limit) then some (w, c) else none
    | none => none)

/-- The check points of a partition's windows. -/
def State.checkWindows (s : State) (pk : Nat) : State :=
  let p := s.part pk
  p.tiles.foldl (fun w t =>
    ((w.tile t).dueWins (p.scyc + p.lead)).foldl (fun r x => r.windowCheck pk t x.1 x.2) w) s

/-- Whether a WCL at a schedule cycle closes a window: one that no earlier cycle closes. -/
def Win.closedBy (w : Win) (cyc : Int) : Bool :=
  match w.close with
  | none => true
  | some c => decide (cyc < c)

/-- A WCL decided: the close of its id, checked with the others. A window that opens only after this check point is put with
the tile's windows, to open at its WIN (09 R248, R254; 14 R442). -/
def State.decideWcl (s : State) (pk : Nat) (x : Seen) (wid : Nat) : State :=
  let tl := s.tile x.tile
  let s1 := s.addDecision pk x (.wcl wid)
  match tl.wins.find? (fun w => w.defn.wid == wid && w.closedBy x.cyc) with
  | some w => s1.setTile x.tile (tl.putWin { w with close := some x.cyc })
  | none =>
    match (s.part pk).winDefs.find? (fun d => d.wid == wid) with
    | some d =>
      let w : Win :=
        { defn := d, opens := x.cyc + 1, isOpen := false, close := some x.cyc, passed := false, missing := false, byWcl := true }
      s1.setTile x.tile { tl with wins := tl.wins ++ [w] }
    | none => s1

/-! ## The decisions of a check point (09 R248 to R252, R260 to R262, R268; 14 R433) -/

/-- A TKW: its token is claimed, or the partition will freeze at its issue (09 R252). -/
def State.decideTkw (s : State) (pk : Nat) (x : Seen) (f : Nat) : State :=
  let p := s.part pk
  let at_ := (s.pointFor p x.cyc).cyc
  let present := (((s.tile x.tile).fifo f).filter (fun k => decide (k.vis ≤ at_))).length
  let s1 := if p.claims x.tile f x.cyc < present then s else s.freezeAt pk x.cyc (.tkw x.tile f) none
  s1.addDecision pk x (.tkw f)

/-- A TKP: TOKEN_OVERFLOW where the tokens and the pushes decided, as its check point finds them, number 8 (09 R248, R251). -/
def State.decideTkp (s : State) (pk : Nat) (x : Seen) (f : Nat) : State :=
  let at_ := s.pointFor (s.part pk) x.cyc
  let pushes := (at_.decided.filter (fun d => d.tile == x.tile && d.dec == .push f && decide (d.cyc < x.cyc))).length
  let s1 := if 8 ≤ ((at_.tile x.tile).fifo f).length + pushes then
    s.noteFault pk x.cyc fTokenOverflow (some x.tile) (some x.st) [] else s
  s1.addDecision pk x (.push f)

/-- A WUT: a freeze of the cycle after it until its target; the anchor of a spanning partition sends its sample (03 R74; 14
R433). -/
def State.decideWut (s : State) (pk : Nat) (x : Seen) (ka kb : BitVec 4) : State :=
  let p := s.part pk
  let at_ := s.pointFor p x.cyc
  let v := (at_.tile x.tile).stream x.st
  let tgt := (v.kr kb.toNat).toNat * 2 ^ 32 + (v.kr ka.toNat).toNat
  let s1 := if at_.time + p.lead + 1 < tgt then
    s.freezeAt pk (x.cyc + 1) (.wut (BitVec.ofNat 64 tgt)) none else s
  (if s.isAnchor p then s1.spread p 1 s.ptime (wordBytes (s.ptime - p.offset)) else s1).addDecision pk x .wut

/-- An HBM instruction: its registers read and its range translated, or BLOCKMAP (09 R248, R262). -/
def State.decideHbm (s : State) (pk : Nat) (x : Seen) (kt kv : BitVec 4) (n16 : BitVec 14) : State :=
  let p := s.part pk
  let at_ := s.pointFor p x.cyc
  let tl := at_.tile x.tile
  match s.hbmPlan { p with latches := at_.latches } tl (tl.stream x.st) kt kv n16 with
  | some (off, pas) => s.addDecision pk x (.hbm off pas (nth Latch.init at_.latches 0))
  | none => s.noteFault pk x.cyc fBlockmap (some x.tile) (some x.st) []

/-- A VLT: PUB and PUBCOPY sampled as its check point finds them, the sample sent to a spanning partition's other packages, and the counts moved, or VINTAGE
(09 R248, R268, R271). -/
def State.decideVlt (s : State) (pk : Nat) (x : Seen) (sl : Nat) : State :=
  let p := s.part pk
  let n := nth 0 p.sets sl
  let v := nth VSet.init (s.pointFor p x.cyc).vsets sl
  let set := s.vset n
  let old := p.latchNow sl
  if v.pub = 0 then s.noteFault pk x.cyc fVintage (some x.tile) (some x.st) []
  else
    let s1 := s.spread p 2 s.ptime (bytesOf 1 sl ++ bytesOf 4 v.pub.toNat ++ wordBytes (BitVec.ofInt 64 x.cyc))
    if old.latched && old.vint == v.pub then s1.addDecision pk x (.vlt sl old)
    else
      let v1 := if old.latched then set.unlatch old.copy else set
      (s1.setVset n (v1.relatch v.pubcopy)).addDecision pk x
        (.vlt sl { latched := true, vint := v.pub, copy := v.pubcopy })

/-- One issue decided; a WCL and a BRC are decided apart from the others. -/
def State.decideOne (s : State) (pk : Nat) (x : Seen) : State :=
  match x.i with
  | .tkw f _ => s.decideTkw pk x f.toNat
  | .tkp f _ => s.decideTkp pk x f.toNat
  | .wut ka kb => s.decideWut pk x ka kb
  | .hld kt kv n => s.decideHbm pk x kt kv n
  | .hst kt kv n => s.decideHbm pk x kt kv n
  | .hac kt kv n _ => s.decideHbm pk x kt kv n
  | .tld kt kv n _ => s.decideHbm pk x kt kv n
  | .vlt sl => s.decideVlt pk x sl.toNat
  | .brc w b sense => s.addDecision pk x (.brc (((s.pointFor (s.part pk) x.cyc).tile x.tile).brcRuns w b sense))
  | _ => s

/-- The BRCs decided for a schedule cycle, one way or the other: tile and stream. -/
def Partition.choices (p : Partition) (cyc : Int) (run : Bool) : List (Nat × StreamId) :=
  p.decided.filterMap (fun d => if d.cyc = cyc ∧ d.dec = .brc run then some (d.tile, d.st) else none)

/-- DIVERGE_CHOICE for a schedule cycle, once, with the counts of tiles of this package that decided to run and to skip and those
of others: TILE the lowest here that decided to run, STREAM its BRC's (09 R260, R271). -/
def State.diverge (s : State) (pk : Nat) (cyc : Int) (runs skips : Nat) (here : Bool) : State :=
  let p := s.part pk
  let run := p.choices cyc true
  let tile := (run.map (·.1)).foldl Nat.min ((run.headD (0xFFFF, .x)).1)
  let st := ((run.filter (fun q => q.1 == tile)).map (·.2)).foldl (fun (a : Option StreamId) b =>
    match a with
    | some y => if b.code < y.code then some b else a
    | none => some b) none
  let tl := if run.isEmpty then none else some tile
  let d := List.replicate 8 0 ++ bytesOf 4 ((run.map (·.1)).dedup.length + runs) ++
    bytesOf 4 (((p.choices cyc false).map (·.1)).dedup.length + skips)
  if p.faults.any (fun f => decide (f.cyc = cyc) && f.code == fDivergeChoice) then s
  else if here then s.noteFault pk cyc fDivergeChoice tl st d
  else s.noteHere pk cyc fDivergeChoice tl st d

/-- The agreement of the BRCs that the tiles issue in one cycle: DIVERGE_CHOICE where they differ; their counts go to a spanning
partition's other packages (09 R260, R271). -/
def State.agree (s : State) (pk : Nat) (cyc : Int) : State :=
  let p := s.part pk
  let runs := ((p.choices cyc true).map (·.1)).dedup.length
  let skips := ((p.choices cyc false).map (·.1)).dedup.length
  let s1 := s.spread p 3 s.ptime (wordBytes (BitVec.ofInt 64 cyc) ++ bytesOf 4 runs ++ bytesOf 4 skips)
  if runs = 0 ∨ skips = 0 then s1 else s1.diverge pk cyc 0 0 true

/-! ## Landing checks (09 R250, R263, R269; 06 R167, R168) -/

/-- Whether a trellis read of an HBM address passes its vintage check: the vintages latched at its check point, each of one set or
of any, hold its page's tag (06 R168; 09 R268, R269). -/
def State.vintageOk (s : State) (ok : List (Option Nat × Nat)) (pa : Nat) : Bool :=
  let tag := s.pageTag pa
  match tag.member with
  | none => true
  | some (v, _) => ok.any (fun e => (e.1.isNone || e.1 == some v) && e.2 == tag.tag.toNat)

/-- The fault that a granule's own checks find, if any, with its EVAL where that is stated: the address of a write that a latched
copy refuses (06 R167, R168; 02 R43). -/
def State.granuleFault (s : State) (g : Granule) : Option (Nat × Option Word) :=
  let ends := g.pas.flatMap (fun r => [(r.1, r.2.2), (r.1 + r.2.1 - 1, r.2.2)])
  if g.load then
    if ends.any (fun e => !s.vintageOk e.2 e.1) then some (fVintage, none)
    else if g.pas.any (fun r => s.hasUe r.1 r.2.1) then some (fMemoryUe, none)
    else none
  else
    match ends.find? (fun e => s.latchedAt e.1) with
    | some e => some (fVintage, some (BitVec.ofNat 64 e.1))
    | none =>
      if g.pas.any (fun r => if g.acum.isSome then s.hasUe r.1 r.2.1 else s.partialUe r.1 r.2.1) then some (fMemoryUe, none)
      else none

/-- Whether a TLD's trailer passes, with VCHK against slot 0's latch as at the TLD's check point (09 R268; 14 R436). -/
def trailerOk (t : List Byte × Bool × Option Latch) : Bool :=
  let flags := field t.1 7 1
  t.2.1 && (fmtOfCode (field t.1 6 1)).isSome && flags / 32 == 0 &&
    (match t.2.2 with
      | some l => l.latched && bit flags 4 && decide (field t.1 12 4 = l.vint.toNat)
      | none => true)

/-- Plane cycles of a turn of the slot wheel: 64 slots of 1.25 ns (06 R153). -/
def wheelTurn : Nat := 152

/-- Requests of a partition that a turn of the wheels serves. -/
def Partition.slotsUsed (p : Partition) (turn : Nat) : Nat := ((p.slotUse.find? (fun u => u.1 == turn)).map (·.2)).getD 0

/-- The first turn of the wheels, from one on, in which a claimed slot of a partition is free. The claimed slots of the 512
pseudo-channels are counted together, as the worked schedule counts them (15 R471), and not channel by channel, as 09 R263 can be
read. DEDUCED (06 R154; log entry 35). -/
def Partition.turnFrom (p : Partition) : Nat → Nat → Nat
  | 0, turn => turn
  | fuel + 1, turn => if p.slotsUsed turn < 512 * p.ts then turn else p.turnFrom fuel (turn + 1)

/-- Turns of the wheels that a request may wait from its issue to its landing, 640 cycles later. -/
def turnsAhead : Nat := 5

/-- A claimed slot taken in a turn; what was taken in turns that no request reaches back to any more is forgotten. -/
def Partition.takeSlot (p : Partition) (turn now : Nat) : Partition :=
  { p with slotUse := (turn, p.slotsUsed turn + 1) :: p.slotUse.filter (fun u => decide (now ≤ u.1 + turnsAhead) && u.1 != turn) }

/-- The claimed slots that the requests of a granule take, each from the turn of its issue on, and the turn in which the last of
them is served. -/
def State.claimSlots (s : State) (p : Partition) (g : Granule) (land : Nat) : Partition × Nat :=
  g.pas.foldl (fun x _ =>
    let turn := x.1.turnFrom (x.1.slotUse.length + 1) ((land - 640) / wheelTurn)
    (x.1.takeSlot turn (s.cyc / wheelTurn), Nat.max x.2 turn)) (p, land / wheelTurn)

/-- The freeze of a granule that is not ready at its landing cycle: a stack that does not serve, one below its full rate or a
partition without a claimed slot, for a time that is not stated, or claimed slots that are all taken (02 R46; 05 R130; 09 R249,
R263; log entry 35). -/
def State.slotFreeze (s : State) (pk : Nat) (g : Granule) : State :=
  let p := s.part pk
  let land := s.cyc + (g.cyc - p.scyc).toNat
  let st := stackOf s.iltab ((g.pas.headD (0, 0, [])).1)
  match g.pas.find? (fun r => !s.stackReady (stackOf s.iltab r.1)) with
  | some r => s.freezeAt pk g.cyc (.hbm (stackOf s.iltab r.1)) none
  | none =>
    if p.ts = 0 ∨ g.pas.any (fun r => s.stackSlow (stackOf s.iltab r.1)) then
      s.drawn.freezeAt pk g.cyc (.hbm st) (some (s.cyc + Config.freeChoice s.free))
    else
      let (q, turn) := s.claimSlots p g land
      let s1 := s.setPart pk q
      if land / wheelTurn < turn then s1.freezeAt pk g.cyc (.hbm st) (some (turn * wheelTurn + p.lead)) else s1

/-- The landing check point of one granule: its faults, and a freeze where it is not ready; of a partition that pre-emption has
stopped only the faults (05 R123; 09 R250, R263). -/
def State.granuleCheck (s : State) (pk t : Nat) (g : Granule) : State :=
  let p := s.part pk
  let bad := s.granuleFault g
  let tl := s.tile t
  let s1 := s.setTile t { tl with gran := tl.gran.map (fun x => if x = g then { x with passed := some bad.isNone } else x) }
  let s2 := match bad with
    | some c => s1.noteFault pk g.cyc c.1 (some t) (some .x) [] c.2
    | none =>
      match g.trailer with
      | some tr => if trailerOk tr then s1 else s1.noteFault pk g.cyc fTrailer (some t) (some .x) []
      | none => s1
  if p.isPreempted then s2 else s2.slotFreeze pk g

/-- The landing check points of a partition's granules. -/
def State.checkGranules (s : State) (pk : Nat) : State :=
  let p := s.part pk
  p.tiles.foldl (fun w t =>
    (((w.tile t).gran.filter (fun g => g.passed.isNone && decide (g.cyc ≤ p.scyc + p.lead))).foldl
      (fun r g => r.granuleCheck pk t g) w)) s

/-! ## CHECK_POINT -/

/-- Everything that a check point decides, in order: WCLs and windows first, then the other issues, the agreement of
BRCs, and landings. DEDUCED: a BRC and a translation of the same check point as a window's thus see the posts and the entries that the
window takes there (log entry 58). -/
def State.checkPoint (s : State) (pk : Nat) : State :=
  let l := s.toDecide pk
  let s1 := l.foldl (fun w x => match x.i with
    | .wcl id => w.decideWcl pk x id.toNat
    | _ => w) (s.resolve pk)
  let s2 := (s1.checkWindows pk).keepPoint pk
  let s3 := l.foldl (fun w x => w.decideOne pk x) s2
  let brcs := l.filterMap (fun x => match x.i with
    | .brc .. => some x.cyc
    | _ => none)
  let s4 := brcs.eraseDups.foldl (fun w c => w.agree pk c) s3
  s4.checkGranules pk

/-- CHECK_POINT of partition `arg.n` (09 R248). -/
def execCheckPoint (s : State) : Out :=
  let p := s.part s.arg.n
  if p.st = .running ∧ p.started ∧ !p.frozen then .next (s.checkPoint s.arg.n) else .next s

/-! ## Acts of one plane cycle -/

/-- The acts of a partition in a cycle in which it is not frozen: closing windows, issues of X, F and M, landings, flits and the
end (09 R242, R247). -/
def State.cycleActs (s : State) (pk : Nat) : List Act :=
  let p := s.part pk
  let due := fun (c : Int) => decide (c = p.scyc)
  p.tiles.flatMap (fun t =>
    ((s.tile t).wins.filter (fun w => w.close == some p.scyc && w.isOpen)).map (fun w => Act.event .windowClose (Arg.ofNM t w.defn.wid))) ++
  p.tiles.flatMap (fun t =>
    (allStreams.filter (fun st => !((s.tile t).stream st).ended && due ((s.tile t).stream st).next)).map
      (fun st => Act.stream t st)) ++
  (p.tiles.filter (fun t => (s.tile t).gran.any (fun g => due g.cyc))).map
    (fun t => Act.event .hbmGranuleLanding (Arg.ofN t)) ++
  ((indexed p.flits).filter (fun f => due f.2.cyc)).reverse.map
    (fun f => Act.event .meshFlitArrival (Arg.ofNM f.1 pk)) ++
  [Act.event .scheduleEnd (Arg.ofN pk)]

/-- Schedule cycles before SCYC 0 at which a partition starts: L, or on a package other than the anchor what is left of it until the
start PTIME that the anchor has sent (09 R247). -/
def State.startLead (s : State) (p : Partition) : Nat :=
  if s.isPart p then Nat.min p.lead (p.startPtime.toNat - s.ptime.toNat) else p.lead

/-- SCHEDULE_START of partition `arg.n`: SCYC is 0 at the later of its start PTIME and L after the load, and the check
points before it follow the load. The anchor of a spanning partition sends the PTIME of SCYC 0 to its other packages, which
start by it (09 R247; log entries 53 and 156). -/
def execScheduleStart (s : State) : Out :=
  let p := s.part s.arg.n
  if p.st = .loading ∧ !p.started ∧ p.startPtime.toNat ≤ s.ptime.toNat + p.lead then
    let n := s.startLead p
    let p1 := { p with st := .running, started := true, scyc := -(n : Int), startAt := s.cyc + n }
    let s1 := s.setPart s.arg.n p1
    let s2 := if p.span && s.isAnchor p then
        s1.sideband (s.partPorts p) 3 p.flitId (s.ptime + BitVec.ofNat 64 n) (s.linkBody 0 0 p.job p.claimNo [p.ox, p.oy, p.w, p.h])
      else s1
    .next (s2.push .checkPoint (Arg.ofN s.arg.n))
  else .next s

/-! ## Freezes taking effect and ending (09 R249 to R251; 05 R135) -/

/-- The record of a partition fault (05 R134, R135): the launch id stands in DETAIL bytes 40 to 43. -/
def PFault.record (f : PFault) (p : Partition) (ptime : Word) : List Byte :=
  let d := (f.detail ++ List.replicate 28 0).take 28
  recordBytes f.code 1 p.job (p.num.getD 0) ptime f.eval (BitVec.ofInt 64 f.cyc) (f.tile.getD 0xFFFF)
    ((f.st.map StreamId.code).getD 0xFF) (d.take 4 ++ bytesOf 4 p.launch ++ d.drop 8)

/-- The staged entries of every tile of a partition applied at once, and the POSTs held for room looked at (09 R262). -/
def State.applyAll (s : State) (pk : Nat) : State :=
  (s.part pk).tiles.foldl (fun w t => (w.setTile t (w.tile t).applyStaged).retryPosts t) s

/-- A partition fault taken: its record sent, by the anchor of a spanning partition, and the partition faulted; at BLOCKMAP the
staged entries are applied (05 R135; 09 R262, R271). -/
def State.takeFault (s : State) (pk : Nat) (f : PFault) : State :=
  let p := s.part pk
  let stuck := p.stuck || (f.code != fSlip && f.code != fBlockmap)
  let st := if p.st = .preempted then PState.preempted else .faulted
  let s1 := s.setPart pk { p with st := st, lastFault := f.code, stuck := stuck }
  let s2 := if s.isPart p then s1 else s1.sendRecord p.job (f.record p s.ptime)
  if f.code = fBlockmap then s2.applyAll pk else s2

/-- Faults in the order of their tiles (05 R135). -/
def sortFaults (l : List PFault) : List PFault :=
  l.foldl (fun acc f => putSorted (fun (x : PFault) => x.tile.getD 0xFFFF) f acc) []

/-- A partition's write of HBM noted: its later releases are wider (07 R201; log entry 141). -/
def State.noteHbmWrite (s : State) (t : Nat) : State :=
  match (s.tile t).part with
  | some pk => s.setPart pk { s.part pk with wroteHbm := true }
  | none => s

/-- A granule's bytes placed in tile SRAM as an event of a cycle, or performed at their homes (14 R435, R437; 08 R237). Until then
a read of the tile's bytes sees the earlier ones (09 R263; log entry 158). -/
def State.landGranule (s0 : State) (t : Nat) (g : Granule) : State :=
  let s := if g.load || g.passed == some false then s0 else s0.noteHbmWrite t
  let tl := s.tile t
  let s1 := s.setTile t { tl with gran := tl.gran.filter (· != g) }
  if g.passed = some false then s1
  else if g.load then
    let t1 := s1.tile t
    s1.setTile t { t1 with pend := addPend { cyc := g.cyc, st := .x, seq := g.seq, eff := .sram g.off g.data false } t1.pend }
  else
    (g.pas.foldl (fun (q : State × List Byte) r =>
      let b := q.2.take r.2.1
      let out := match g.acum with
        | some ty => accumBytes ty 0 (q.1.bytes r.1 r.2.1) b
        | none => b
      (q.1.perform r.1 out (s1.tagTile t), q.2.drop r.2.1)) (s1, g.data)).1

/-- A granule that lands while pre-emption holds its partition: its bytes are placed at once (05 R123). -/
def State.landStopped (s : State) (t : Nat) (g : Granule) : State :=
  if g.load && g.passed != some false then
    let tl := s.tile t
    (s.setTile t { tl with gran := tl.gran.filter (· != g) }).sramPut t g.off g.data g.cyc false
  else s.landGranule t g

/-- Whether a fault was found by a landing check: a granule of its cycle failed, or it is TRAILER (09 R250). -/
def State.isLanding (s : State) (pk : Nat) (f : PFault) : Bool :=
  f.code == fTrailer || (s.part pk).tiles.any (fun t =>
    (s.tile t).gran.any (fun g => decide (g.cyc = f.cyc) && g.passed == some false))

/-- The elements of two flits combined: 0 FP32, 1 FP64, 2 INT32 (14 R440; 08 R236). -/
def combineFlits (ty : Nat) (x y : List Byte) : List Byte :=
  let n := if ty = 1 then 8 else 4
  (zipWith2 (fun a b =>
    bytesOf n (if ty = 2 then (natOf a + natOf b) % 2 ^ 32
      else
        let f := if ty = 1 then fp64 else fp32
        f.rne (addV false (f.dec (natOf a)) (f.dec (natOf b))))) (chunks n x) (chunks n y)).flatten

/-- The result of an LKA written where it was read: a write that fell between stands, as no other write comes between the two in
coherence order (07 R180; 14 R440; log entry 170). -/
def State.lkaPut (s : State) (t off : Nat) (b : List Byte) (since : List (Nat × Nat)) (cyc : Int) : State :=
  let p := s.partOf t
  let lost := fun (i : Nat) => since.any (fun r => decide (overlap (p.footPa t (off + i)) 1 r.1 r.2 ≠ 0))
  if (List.range b.length).any lost then
    (indexed b).foldl (fun (w : State) x => if lost x.1 then w else w.sramPut t (off + x.1) [x.2] cyc true) s
  else s.sramPut t off b cyc true

/-- One result takes effect on a tile (14 R426). -/
def State.takeEffect (s : State) (t : Nat) (p : Pend) : State :=
  let tl := s.tile t
  match p.eff with
  | .kreg st r v => s.setTile t (tl.setStream st ((tl.stream st).setKr r v))
  | .yreg r off b => s.setTile t (tl.putY r off b)
  | .sram off b counted => s.sramPut t off b p.cyc counted
  | .lka off b l => s.lkaPut t off b l p.cyc
  | .acc bank off b => s.setTile t (tl.putAcc bank off b)
  | .mma bank row af wf a w => s.setTile t (tl.putAcc bank (256 * row) (mmaRow af wf (tl.row bank row) a w))
  | .token f v => s.setTile t (tl.setFifo f (tl.fifo f ++ [{ v := v, vis := s.cyc }]))
  | .ftz v => s.setTile t { tl with ftz := v }

/-- The results of a tile due up to a cycle, in order (09 R242, R243). -/
def State.takeDue (s : State) (t : Nat) (upto : Int) : State :=
  let tl := s.tile t
  let due := tl.pend.filter (fun p => decide (p.cyc ≤ upto))
  due.foldl (fun w p => w.takeEffect t p) (s.setTile t { tl with pend := tl.pend.filter (fun p => !decide (p.cyc ≤ upto)) })

/-- The granules of a landing fault's cycle decided before the freeze holds (09 R250). -/
def State.landBefore (s : State) (pk : Nat) (cyc : Int) : State :=
  (s.part pk).tiles.foldl (fun w t =>
    let gs := (w.tile t).gran.filter (fun g => decide (g.cyc = cyc))
    let s1 := gs.foldl (fun r g => r.landGranule t g) w
    let tl := s1.tile t
    let mine := tl.pend.filter (fun p => decide (p.cyc = cyc) && gs.any (fun g => g.seq == p.seq && p.st == .x))
    mine.foldl (fun r p => r.takeEffect t p) (s1.setTile t { tl with pend := tl.pend.filter (fun p => !mine.contains p) })) s

/-- A partition frozen from this cycle on, at its present schedule cycle: throttle freezes end 16 × d cycles from now, and
a pre-emption freeze stops it, one decided for a later cycle too, since it now meets a frozen partition (05 R123, R126; 09
R249). -/
def State.startFreeze (s : State) (pk : Nat) : State :=
  let p := s.part pk
  let fs := p.freezes.map (fun f =>
    match f.cause with
    | .throttle n => if f.cyc = p.scyc then { f with ends := some (s.cyc + n) } else f
    | _ => f)
  let pre := p.freezes.any (fun f => f.ends.isNone && f.cause == .preempt)
  let fs1 := fs.map (fun f => if f.ends.isNone ∧ f.cause = .preempt then { f with cyc := p.scyc } else f)
  s.setPart pk { p with
    freezes := fs1, frozen := true, frozenAt := s.cyc, stallFrom := s.cyc, stoppedAt := if pre then s.ptime else p.stoppedAt,
    stopCyc := if pre then s.cyc else p.stopCyc, st := if pre then .preempted else p.st }

/-- Whether a freeze of this cycle is over. -/
def Freeze.isOver (f : Freeze) (now : Nat) : Bool :=
  match f.ends with
  | some e => decide (e ≤ now)
  | none => false

/-- FREEZE_TAKES_EFFECT on partition `arg.n`: faults and freezes decided for the present schedule cycle hold from now; a
freeze whose end has passed does not occur, and where none holds the acts of the cycle follow (09 R242, R250, R251). -/
def execFreezeTakesEffect (s : State) : Out :=
  let pk := s.arg.n
  let s1 := s.resolve pk
  let p := s1.part pk
  if p.st ≠ .running ∨ p.frozen ∨ !p.started then .next s
  else
    let fl := sortFaults (p.faults.filter (fun f => decide (f.cyc = p.scyc)))
    let fs := p.freezes.filter (fun f => !(decide (f.cyc = p.scyc) && f.isOver s.cyc))
    let hold := fs.any (fun f => decide (f.cyc = p.scyc))
    if fl.isEmpty ∧ !hold then
      let s2 := s1.setPart pk { p with freezes := fs }
      .next { s2 with agenda := s2.cycleActs pk ++ s2.agenda }
    else
      let s2 := if fl.any (s1.isLanding pk) then s1.landBefore pk p.scyc else s1
      let fs2 := if fl.isEmpty then fs else fs ++ [{ cyc := p.scyc, cause := .fault, ends := none }]
      let p2 := { s2.part pk with freezes := fs2, faults := p.faults.filter (fun f => !decide (f.cyc = p.scyc)) }
      .next (fl.foldl (fun w f => w.takeFault pk f) ((s2.setPart pk p2).startFreeze pk))

/-- FREEZE_END of partition `arg.n`: once every freeze of its schedule cycle has ended, it issues again in this cycle
(09 R249, R250). -/
def execFreezeEnd (s : State) : Out :=
  let pk := s.arg.n
  let s1 := s.resolve pk
  let p := s1.part pk
  let here := p.freezes.filter (fun f => decide (f.cyc = p.scyc))
  if !p.frozen ∨ p.st = .preempted ∨ here.any (fun f => !f.isOver s.cyc) then .next s1
  else
    let p1 := { p with frozen := false, st := .running, freezes := p.freezes.filter (fun f => !decide (f.cyc = p.scyc)) }
    let s2 := s1.setPart pk p1
    .next { s2 with agenda := s2.cycleActs pk ++ s2.agenda }

/-- The timeout of a window of a partition. -/
def Partition.timeoutOf (p : Partition) (wid : Nat) : Nat :=
  ((p.winDefs.find? (fun d => d.wid == wid)).map (·.timeout)).getD 0

/-- SLIP_TIMEOUT of partition `arg.n`: a STALL freeze has lasted its window's timeout (09 R251, R257). -/
def execSlipTimeout (s : State) : Out :=
  let pk := s.arg.n
  let p := s.part pk
  let late := p.freezes.filterMap (fun f =>
    match f.cause with
    | .stall t w =>
      if f.cyc = p.scyc ∧ f.ends.isNone ∧ p.stallFrom + p.timeoutOf w ≤ s.cyc then some t else none
    | _ => none)
  if p.frozen ∧ p.st = .running ∧ !late.isEmpty then
    let s1 := late.foldl (fun w t => w.noteFault pk p.scyc fSlip (some t) (some .x) []) s
    let fl := sortFaults ((s1.part pk).faults.filter (fun f => decide (f.cyc = p.scyc)))
    let p1 := { s1.part pk with
      faults := (s1.part pk).faults.filter (fun f => !decide (f.cyc = p.scyc)),
      freezes := p.freezes ++ [{ cyc := p.scyc, cause := .fault, ends := none }] }
    .next (fl.foldl (fun w f => w.takeFault pk f) (s1.setPart pk p1))
  else .next s

/-! ## Windows opening and closing -/

/-- Whether a partition runs and is not frozen. -/
def Partition.goes (p : Partition) : Bool := p.st == .running && p.started && !p.frozen

/-- The arrival copies of a mask set to their defaults, their posted bits clear (09 R256). -/
def Tile.resetPosts (t : Tile) (mask : BitVec 16) (defaults : List Word) : Tile :=
  { t with
    arrival := (List.range 16).foldl (fun m i => if mask.getLsbD i then Store.put 0 i (nth 0 defaults i) m else m) t.arrival,
    arrPosted := t.arrPosted &&& ~~~mask }

/-- WINDOW_OPEN: window `arg.m` of tile `arg.n` (09 R254, R256). -/
def execWindowOpen (s : State) : Out :=
  let t := s.arg.n
  let tl := s.tile t
  let p := s.partOf t
  match tl.wins.find? (fun w => w.defn.wid == s.arg.m) with
  | some w =>
    if p.goes ∧ tl.part.isSome ∧ w.opens = p.scyc ∧ !w.isOpen then
      .next (s.setTile t ((tl.resetPosts w.defn.mask p.defaults).putWin { w with isOpen := true }))
    else .next s
  | none => .next s

/-- WINDOW_CLOSE: window `arg.m` of tile `arg.n` closes at its cycle (09 R254). -/
def execWindowClose (s : State) : Out :=
  let t := s.arg.n
  let tl := s.tile t
  let p := s.partOf t
  if p.goes ∧ tl.part.isSome then
    .next (s.setTile t { tl with wins := tl.wins.filter (fun w => !(w.defn.wid == s.arg.m && w.close == some p.scyc)) })
  else .next s

/-! ## Posts (09 R253, R256, R262; 05 R124) -/

/-- The posting thread goes on: its POST retires (13 R407). -/
def State.postDone (s : State) (t : Nat) : State :=
  let x := s.thread t
  if x.park = .post then s.setThread t (x.go (x.pc + 4) 1) else s

/-- A POST performed at one tile that has room. -/
def State.postAt (s : State) (q : Post) (t : Nat) : State :=
  let tl := s.tile t
  let p := s.part q.part
  if q.form = 0 then
    (s.setTile t { tl with arrival := Store.put 0 q.sel q.value tl.arrival,
                           arrPosted := tl.arrPosted ||| (1#16 <<< q.sel) }).stallCheck q.part t
  else if q.form = 1 then
    s.setTile t (tl.setFifo q.fifo (tl.fifo q.fifo ++ [{ v := q.value.setWidth 32, vis := s.cyc }]))
  else
    let t1 := { tl with staged := tl.staged ++ [(q.idx, q.value.setWidth 16)] }
    s.setTile t (if p.st = .faulted ∧ p.lastFault = fBlockmap then t1.applyStaged else t1)

/-- Room for a POST kept for a pre-empted partition: the saved FIFO or staging with the POSTs kept already (05 R124). -/
def State.keptRoom (s : State) (q : Post) : Bool :=
  let p := s.part q.part
  let kept := fun (t : Nat) => (p.keptPosts.filter (fun k => k.form == q.form && k.fifo == q.fifo && k.tiles.contains t)).length
  q.tiles.all (fun t =>
    let tl := if (s.tile t).part = some q.part then s.tile t else Store.get Tile.init t p.saved
    if q.form = 1 then decide ((tl.fifo q.fifo).length + kept t < 8)
    else if q.form = 2 then decide (tl.staged.length + kept t < 16)
    else true)

/-- A POST kept by the cellarmaster: the last one per register wins (05 R124). -/
def Partition.keep (p : Partition) (q : Post) : Partition :=
  let same := fun (k : Post) => q.form == 0 && k.form == 0 && k.sel == q.sel && k.tiles == q.tiles
  { p with keptPosts := p.keptPosts.filter (fun k => !same k) ++ [q] }

/-- The posting thread parked, its POST held at a tile in order. -/
def State.postHeld (s : State) (q : Post) (atFirst : Bool) : State :=
  let t := q.tiles.headD 0
  let p := s.part q.part
  let x := s.thread q.thr
  let add := fun (tl : Tile) => { tl with heldPosts := if atFirst then q :: tl.heldPosts else tl.heldPosts ++ [q] }
  let s1 := s.setThread q.thr { x with park := .post }
  if p.st = .preempted ∧ (s.tile t).part ≠ some q.part then
    s1.setPart q.part { p with saved := Store.put Tile.init t (add (Store.get Tile.init t p.saved)) p.saved }
  else s1.setTile t (add (s1.tile t))

/-- Whether a POST of the same kind is held at the tile already, so that a later one waits behind it. -/
def State.postBehind (s : State) (q : Post) : Bool :=
  q.tiles.any (fun t => (s.postsHeldFor t).any (fun k => k.2.2.form == q.form && k.2.2.fifo == q.fifo && k.2.2.form != 0))

/-- A POST performed at its tiles, kept for a pre-empted partition, or held for want of room. -/
def State.performPost (s : State) (q : Post) (again : Bool) : State :=
  let p := s.part q.part
  if p.st = .preempted then
    if s.keptRoom q then (s.setPart q.part (p.keep q)).postDone q.thr else s.postHeld q again
  else if p.st = .free then s.windowTrap q.thr
  else if !s.postRoom q || (!again && s.postBehind q) then s.postHeld q again
  else
    let s1 := (q.tiles.foldl (fun w t => w.postAt q t) s).postDone q.thr
    q.tiles.foldl (fun w t => w.retryPosts t) s1

/-- POST_ARRIVAL: the POST at place `arg.n` among those that came again is performed (09 R253, R256, R262). -/
def execPostArrival (s : State) : Out :=
  match s.posts[s.arg.n]? with
  | some q => .next (({ s with posts := dropAt s.posts s.arg.n }).performPost q true)
  | none => .next s

/-! ## HBM landings (09 R263; 05 R123) -/

/-- Whether a granule lands now: at its schedule cycle, or, when pre-emption froze the partition, at the plane cycle that
this would have given (05 R123). -/
def Granule.dueNow (g : Granule) (p : Partition) (now : Nat) : Bool :=
  if p.st = .preempted then decide (p.stopCyc + (g.cyc - p.scyc).toNat ≤ now)
  else p.goes && decide (g.cyc ≤ p.scyc)

/-- HBM_GRANULE_LANDING at tile `arg.n`: its due granules land or are performed after their checks; a disturbed slot delays those of
a stopped partition (09 R250, R263; 05 R123). -/
def execHbmGranuleLanding (s : State) : Out :=
  let t := s.arg.n
  match (s.tile t).part with
  | none => .next s
  | some pk =>
    let p := s.part pk
    let due := fun (w : State) => (w.tile t).gran.filter (fun g => g.dueNow p w.cyc)
    let s1 := ((due s).filter (fun g => g.passed.isNone)).foldl (fun w g => w.granuleCheck pk t g) s
    let late := fun (g : Granule) => p.isPreempted && g.pas.any (fun r => !s.stackReady (stackOf s.iltab r.1))
    .next (((due s1).filter (fun g => !late g)).foldl (fun w g =>
      if p.st = .preempted then w.landStopped t g else w.landGranule t g) s1)

/-! ## The mesh (09 R265 to R267; 14 R439, R440) -/

/-- The receive of a tile that takes a flit from a direction in a cycle: the later-issued (14 R439). -/
def Tile.receiver (t : Tile) (dir : Nat) (cyc : Int) : Option Recv :=
  (t.recvs.filter (fun r => r.dir == dir && decide (r.first ≤ cyc) && decide (cyc < r.first + r.n))).foldl
    (fun a r => match a with
      | some b => if b.seq ≤ r.seq then some r else a
      | none => some r) none

/-- A result of a flit on a tile at a schedule cycle. -/
def State.flitResult (s : State) (t : Nat) (cyc : Int) (seq : Nat) (e : Eff) : State :=
  let tl := s.tile t
  s.setTile t { tl with pend := addPend { cyc := cyc, st := .x, seq := seq, eff := e } tl.pend }

/-- A flit accepted at its tile, or LINK (09 R265; 14 R439, R440). -/
def State.arrive (s : State) (pk : Nat) (f : Flit) : State :=
  let tl := s.tile f.tile
  match tl.receiver f.dir f.cyc with
  | none => s.noteFault pk (f.cyc + (s.part pk).lead) fLink (some f.tile) (some .x) []
  | some r =>
    let i := 64 * (f.cyc - r.first).toNat
    if r.kind = 0 then s.flitResult f.tile f.cyc r.seq (.sram (r.off + i) f.data true)
    else
      let z := combineFlits r.ty f.data (s.sramOf f.tile (r.off + i) 64)
      if r.kind = 1 then s.sendOne pk f.tile (oppositeDir f.dir) (f.cyc + 1) z
      else s.flitResult f.tile (f.cyc + 1) r.seq (if r.off = r.dst then .lka (r.dst + i) z [] else .sram (r.dst + i) z true)

/-- A flit that has crossed a tendril link: held until TLAT schedule cycles after its departure, and a multicast copy passed on
(03 R69; 09 R264, R267; 14 R441). -/
def State.crossing (s : State) (pk t dir : Nat) (dep : Int) (multi : Bool) (data : List Byte) : State :=
  let at_ := dep + s.pkg.pod.tlat.toNat
  let s1 := s.addFlit pk { tile := t, dir := dir, cyc := at_, data := data, away := none }
  if multi then State.sendAlong pk (oppositeDir dir) data 32 s1 t at_ else s1

/-- MESH_FLIT_ARRIVAL: flit `arg.n` of partition `arg.m`, which arrives or leaves the package; with bytes, a flit from another
package for tile `arg.n` from direction `arg.m`, sent at schedule cycle `arg.i`, and with `arg.b` a multicast copy (03 R65, R69;
09 R264, R270). -/
def execMeshFlitArrival (s : State) : Out :=
  if s.arg.bytes.isEmpty then
    let p := s.part s.arg.m
    match p.flits[s.arg.n]? with
    | some f =>
      if p.goes ∧ f.cyc = p.scyc then
        let s1 := s.setPart s.arg.m { p with flits := dropAt p.flits s.arg.n }
        .next (match f.away with
          | some slot => s1.flitAway s.arg.m f slot
          | none => s1.arrive s.arg.m f)
      else .next s
    | none => .next s
  else
    match (s.tile s.arg.n).part with
    | some pk =>
      let p := s.part pk
      if p.started ∧ p.span ∧ p.scyc ≤ s.arg.i + s.pkg.pod.tlat.toNat then
        .next (s.crossing pk s.arg.n s.arg.m s.arg.i s.arg.b s.arg.bytes)
      else .next s
    | none => .next s

/-! ## The end (09 R246) -/

/-- Whether every stream has ended and every HBM operation, flit and window close has landed (09 R246). -/
def State.scheduleOver (s : State) (pk : Nat) : Bool :=
  let p := s.part pk
  p.goes && p.flits.isEmpty && p.tiles.all (fun t =>
    let tl := s.tile t
    tl.sx.ended && tl.sf.ended && tl.sm.ended && tl.gran.isEmpty && tl.wins.isEmpty)

/-- The results of a partition that are still due taken. -/
def State.takePending (s : State) (pk : Nat) : State :=
  (s.part pk).tiles.foldl (fun w t =>
    let tl := w.tile t
    tl.pend.foldl (fun r e => r.takeEffect t e) (w.setTile t { tl with pend := [] })) s

/-- SCHEDULE_END of partition `arg.n`: results still due take effect, the latches are dropped, tiles and number are freed
and the load completes (09 R246, R268; 05 R116; log entry 55). A spanning partition ends once every package's part is over:
each other package tells the anchor, and waits for its word (09 R270; log entry 156). -/
def execScheduleEnd (s : State) : Out :=
  let pk := s.arg.n
  let p := s.part pk
  if !s.scheduleOver pk then .next s
  else if s.isPart p then
    .next (if p.reported then s else ((s.takePending pk).setPart pk { (s.takePending pk).part pk with reported := true }).tellPeers p 4 0)
  else if p.span && !p.peers.isEmpty then .next s
  else .next (((s.takePending pk).endPartition pk stOk p.result).launchDone p.job p.launch)

end Sys2Proof.Machine
end

