-- ==== Sys2Proof/Machine/Planes.lean ====
section
/-! DEFINITION. Newt instructions that act on the trellis plane and on vintage sets: POST, WWT, VPUB, VQRY (13 R407 to
R410; 06 R164 to R166). -/

namespace Sys2Proof.Machine

open Sys2Proof

/-! ## The partition that a POST or a WWT addresses (05 R125) -/

/-- Pre-empted partitions that a tile belongs to, the last to have run there last. -/
def State.preemptedOn (s : State) (t : Nat) : List Nat :=
  (sortBy (fun (p : Nat × Partition) => p.2.stoppedAt.toNat)
    (s.parts.filter (fun p => p.2.isPreempted && p.2.tiles.contains t))).map (·.1)

/-- The partition of a job that a tile's POSTs and WWTs address: the one that runs there, or the job's last pre-empted
one. -/
def State.addressed (s : State) (job t : Nat) : Option Nat :=
  let run := (s.tile t).part.filter (fun p => (s.part p).job == job && !(s.part p).isPreempted)
  match run with
  | some p => some p
  | none => ((s.preemptedOn t).filter (fun p => (s.part p).job == job)).getLast?

/-- Whether any partition runs on a tile or is pre-empted there. -/
def State.anyPartition (s : State) (t : Nat) : Bool := (s.tile t).part.isSome || !(s.preemptedOn t).isEmpty

/-- The tile of a partition, where it stands or where its context is saved. -/
def State.tileOf (s : State) (pk t : Nat) : Tile :=
  if (s.tile t).part = some pk then s.tile t else Store.get Tile.init t (s.part pk).saved

/-! ## POST -/

/-- Whether g(a) of a POST has a bad field (13 R407). -/
def postBad (w : Nat) : Bool :=
  let form := bits w 12 11
  let sel := bits w 16 13
  decide (w / 2 ^ 26 ≠ 0) || form == 3 || (form != 2 && bits w 25 17 != 0) || (form == 1 && decide (2 ≤ sel)) ||
    (form == 2 && sel != 0)

/-- A register POST to a partition whose schedule has not started has no lasting effect: its copies hold the defaults at
the start (09 R256). -/
def State.beforeStart (s : State) (pk : Nat) : Bool :=
  let p := s.part pk
  (p.st == .loading || p.st == .running) && decide (p.scyc < 0 ∨ !p.started)

/-- POST (13 R407; 09 R253, R256, R258, R262; 05 R124). -/
def execPost (a b : BitVec 5) (s : State) : Out :=
  unrecorded (fun r =>
    let w := (r.g a).toNat
    if postBad w then .error (r.trap cIllegal (r.g a))
    else
      match r.addressed r.th.job (w % 1024) with
      | none => .error (r.trapFree (if r.anyPartition (w % 1024) then cProt else cWindow))
      | some pk =>
        match r.beforeRelease 0x78 .pkg with
        | .error e => .error e
        | .ok r1 =>
          let q : Post :=
            { thr := r.cur, part := pk, tiles := if bit w 10 then (r.part pk).tiles else [w % 1024], form := bits w 12 11,
              sel := bits w 16 13, idx := bits w 25 17, value := r.g b }
          if q.form = 0 ∧ r1.beforeStart pk then .ok r1.retire
          else .ok ((r1.parkOn .post).performPost q false)) s

/-! ## WWT -/

/-- The check-point cycle of an open window that a WWT returns: 2^63 where a WCL closes it (13 R408). -/
def Win.checkCycle (w : Win) (lead : Nat) : Word :=
  match w.byWcl, w.close with
  | false, some c => BitVec.ofInt 64 (c - lead)
  | _, _ => BitVec.ofNat 64 (2 ^ 63)

/-- The partition that a WWT that is parked waits for. -/
def Thread.wwtFor (x : Thread) : Option Nat :=
  match x.park with
  | .wwt pk => some pk
  | _ => none

/-- The scope at which a WWT acquires what a window's opening released: the natural one, and pkg once the partition has written
HBM, to which R189 widens the release (07 R189, R198; log entry 141). -/
def State.wwtScope (s : State) (pk t : Nat) : Scope :=
  Scope.max (s.naturalScope (tilePa t 0)) (if (s.part pk).wroteHbm then .pkg else .core)

/-- The wait of a WWT on a window of a partition that stands. -/
def State.wwtAt (r : State) (d : BitVec 5) (pk t wid : Nat) : Except State State :=
  match (r.tileOf pk t).wins.find? (fun x => x.defn.wid == wid && x.isOpen) with
  | some x => .ok ((r.acquire (r.wwtScope pk t)).retireG d (x.checkCycle (r.part pk).lead))
  | none => .error (r.parkOn (.wwt pk))

/-- WWT (13 R408; 07 R198; 05 R125). A tile whose partitions all belong to other jobs raises WINDOW, as R408 says. DEDUCED: R125 names
PROT there for a POST or a WWT, but with R407, which is POST's (log entry 179). -/
def execWwt (d a : BitVec 5) (s : State) : Out :=
  unrecorded (fun r =>
    let w := (r.g a).toNat
    if w / 2 ^ 14 ≠ 0 then .error (r.trap cIllegal (r.g a))
    else
      let t := w % 1024
      match r.th.wwtFor, r.addressed r.th.job t with
      | none, none => .error (r.trapFree cWindow)
      | some _, none => .error (r.trap cWindow 0)
      | some old, some pk =>
        if old ≠ pk ∧ (r.part old).st = .free then .error (r.trap cWindow 0) else r.wwtAt d pk t (bits w 13 10)
      | none, some pk => r.wwtAt d pk t (bits w 13 10)) s

/-! ## Quiescence (10 R290; 13 R397) -/

/-- The instruction that a parked thread tries again, where its word can be fetched now. -/
def State.waitInstr (s : State) (t : Nat) : Option Instr :=
  match ({ s with cur := t } : State).fetchPa with
  | .ok a => (decodeNewt (s.word32 a)).toOption
  | .error _ => none

/-- Whether what an instruction that the executing thread tries again waits for has come about: an entry of its ring, the state of
a handle, an engine, a place in the send queue, a window, or the end of another job's episode. A wait of another kind ends without
another agent of the job, and counts as over (log entry 24). -/
def State.waitOver (s : State) (i : Instr) : Bool :=
  let c := coreOf s.cur
  match i with
  | .recv _ a => decide (s.ringCount c (s.ring c (s.g a).toNat) ≠ 0)
  | .hwt st h => ((s.core c).handle h.toNat).st == handleOf st
  | .cpl _ =>
    let elt := (shadow s.th.shadows 11).toNat
    (s.core c).handlesReady (dstHandle elt) (srcHandle elt) && (s.pickEngine (dieOf c)).isSome
  | .send _ => decide (s.sendQueue c < 16)
  | .rpc _ => decide (s.sendQueue c < 16)
  | .rply _ => decide (s.sendQueue c < 16)
  | .wwt _ a =>
    let w := (s.g a).toNat
    match s.addressed s.th.job (w % 1024) with
    | some pk => (s.tileOf pk (w % 1024)).wins.any (fun x => x.defn.wid == bits w 13 10 && x.isOpen)
    | none => true
  | .bar _ id sc =>
    let scope := s.barScope sc
    match s.episode (barKey scope (scopeInst scope c) id.toNat) with
    | some e => (e.adopt s.th.job).job == some s.th.job && !e.complete
    | none => true
  | _ => true

/-- Whether a thread can issue, its slot's turn apart (10 R290). -/
def State.canIssue (s : State) (t : Nat) : Bool :=
  let retries := ((s.waitInstr t).map ({ s with cur := t } : State).waitOver).getD true
  match (s.thread t).park with
  | .running => true
  | .bank _ l => l.all (fun p => p.2 == 0)
  | .retry _ => retries
  | .blocked _ => retries
  | .wwt _ => retries
  | _ => false

/-- Whether every agent of the instance is idle for a job and nothing of theirs is in flight (07 R194; 10 R290). -/
def State.quiet (s : State) (sc : Scope) (c job : Nat) : Bool :=
  let inn := fun (d : Nat) => sameInst sc c d
  !((s.jobThreads job).any (fun t => inn (coreOf t) && (s.canIssue t || !(s.thread t).sb.isEmpty))) &&
  !(s.msgs.any (fun m => m.job == job && ((decide (m.src < 1024) && inn m.src) || inn m.dst))) &&
  !(s.replies.any (fun m => m.job == job && (inn m.src || inn (m.token.toNat % 1024)))) &&
  !(s.spawns.any (fun m => m.job == job && ((decide (m.src < 1024) && inn m.src) || inn m.core))) && !s.inFlight sc c job &&
  !(s.engines.any (fun p => sc.atLeast .die && (sc.atLeast .pkg || p.1 / 8 == dieOf c) &&
      p.2.queue.any (fun t => t.job == job)))

/-- A thread's QSC with the activity bits of its instance as they stand: set where an agent has left idle since they were cleared
(10 R290). -/
def State.noteActive (s : State) (t : Nat) (x : Thread) : Thread :=
  match x.park with
  | .qsc sc (some since) active => { x with park := .qsc sc (some since) (active || !s.quiet sc (coreOf t) x.job) }
  | _ => x

/-- The activity bits of every QSC that waits, looked at as a cycle begins and in each of its checks (10 R290; log entry 24). -/
def State.noteActivity (s : State) : State :=
  { s with threads := s.threads.map (fun p => (p.1, s.noteActive p.1 p.2)) }

/-- Whether a thread's QSC has waited 2,048 cycles since the activity bits were cleared, with all agents idle and no bit set. -/
def State.qscOver (s : State) (t : Nat) (x : Thread) : Bool :=
  match (s.noteActive t x).park with
  | .qsc _ (some since) active => decide (since + 2048 ≤ s.cyc) && !active
  | _ => false

/-- The other threads of a thread's job whose QSC is over with its own: they return in one cycle. -/
def State.qscWith (s : State) (t : Nat) : List Nat :=
  ((s.jobThreads (s.thread t).job).filter (fun u => u != t && s.qscOver u (s.thread u))).dedup

/-- QSC_QUIET_CHECK for thread `arg.n`: once all agents are idle the activity bits are cleared and 2,048 cycles pass; if all are
idle then and no bit is set it returns, in ordered mode at the next end of a quantum (`arg.b`), else it begins again (07 R205; 10
R290, R301). -/
def execQscQuietCheck (s : State) : Out :=
  let t := s.arg.n
  let x := s.noteActive t (s.thread t)
  match x.park with
  | .qsc sc none _ =>
    .next (if s.quiet sc (coreOf t) x.job then s.setThread t { x with park := .qsc sc (some s.cyc) false } else s)
  | .qsc sc (some since) active =>
    if s.cyc < since + 2048 then .next (s.setThread t x)
    else if active then .next (s.setThread t { x with park := .qsc sc none false })
    else if (s.job x.job).gmode = 2 ∧ !s.arg.b then .next s
    else .next ((s.qscWith t).foldl (fun w u => w.depart u .pkg) (s.depart t .pkg))
  | _ => .next s

/-! ## VPUB and VQRY -/

/-- Whether a job owns a vintage set. -/
def State.ownsSet (s : State) (j : Nat) (v : Word) : Bool :=
  decide (v.toNat < 1024) && (s.vset v.toNat).used && (s.vset v.toNat).owner == j

/-- The pages of a copy tagged with a vintage (06 R165, R166). -/
def State.tagCopy (s : State) (v k : Nat) (tag : BitVec 32) : State :=
  { s with pageTags := s.pageTags.map (fun p =>
      if p.2.member = some (v, k) then (p.1, { p.2 with tag := tag }) else p) }

/-- A copy of a set published (06 R166). -/
def State.publish (s : State) (v k : Nat) : State :=
  let x := s.vset v
  (s.tagCopy v k (x.pub + 1)).setVset v { x with pub := x.pub + 1, pubcopy := k }

/-- Why a copy cannot be published: 1, 2 or 3 of R166. -/
def VSet.bar (x : VSet) (k : Nat) : Option Nat :=
  if x.ncopy ≤ k then some 1
  else if nth 0 x.latch k ≠ 0 then some 2
  else if x.pub = 0xFFFF_FFFF then some 3
  else none

/-- VPUB (13 R409; 06 R166). -/
def execVpub (d a b : BitVec 5) (s : State) : Out :=
  unrecorded (fun r =>
    match r.takeDeferred true with
    | some e => .error e
    | none =>
      if !r.ownsSet r.th.job (r.g a) then .error (r.trapFree cProt)
      else
        let v := (r.g a).toNat
        let k := (r.g b).toNat
        match (r.vset v).bar k with
        | some e => .error (r.trap cVintage (BitVec.ofNat 64 e))
        | none =>
          match r.sbEmpty 0x7A with
          | .error e => .error e
          | .ok () =>
            let r1 := (r.release .pkg).publish v k
            .ok (r1.retireG d ((r1.vset v).pub.setWidth 64))) s

/-- VQRY (13 R410). -/
def execVqry (d a : BitVec 5) (s : State) : Out :=
  unrecorded (fun r =>
    if !r.ownsSet r.th.job (r.g a) then .error (r.trapFree cProt)
    else
      let x := r.vset (r.g a).toNat
      let lo := x.pub.toNat + x.pubcopy * 2 ^ 32 + x.ncopy * 2 ^ 34
      let hi := natOf (x.latch.flatMap (fun l => bytesOf 2 l.toNat))
      .ok ((r.setG d (BitVec.ofNat 64 lo)).retireG (d + 1) (BitVec.ofNat 64 hi))) s

end Sys2Proof.Machine
end

