-- ==== Sys2Proof/Machine/System.lean ====
section
/-! DEFINITION. Traps asked for, system registers, TLB invalidation, page migration and time (06 R155, R156; 10 R280 to
R282; 13 R417 to R422). -/

namespace Sys2Proof.Machine

open Sys2Proof

/-! ## TRAP, BRK and ERET (13 R417, R418) -/

/-- The TRAP retires: it counts among its thread's instructions, and the next to issue is the one after it (log
entry 40). -/
def Thread.countOne (x : Thread) : Thread := { x with qcount := x.qcount + 1 }

/-- TRAP: SYSCALL with EPC at the next instruction and EVAL = e (10 R282; 13 R417). -/
def execTrap (e : BitVec 14) (s : State) : Out :=
  unrecorded (fun r =>
    let pc := r.th.pc
    .ok (((r.setTh { r.th.countOne with pc := pc + 4 })).trapFrom r.cur cSyscall (e.setWidth 64) (pc + 4) pc)) s

/-- BRK: BREAK with EPC at the BRK and EVAL = e (13 R417). -/
def execBrk (e : BitVec 14) (s : State) : Out := unrecorded (fun r => .ok (r.trap cBreak (e.setWidth 64))) s

/-- ERET: ILLEGAL outside a trap; else INTRAP is cleared and the thread goes on at EPC, where a target off a word boundary
raises MISALIGN with the same EPC (10 R279, R282; 13 R418). -/
def execEret (s : State) : Out :=
  unrecorded (fun r =>
    if r.th.intrap then .ok ((r.setTh r.th.leaveTrap).retireTo r.th.epc) else .error (r.trapFree cIllegal)) s

/-! ## System registers (10 R280, R281; 13 R419) -/

/-- FLAGS (10 R281). -/
def Thread.flags (x : Thread) : Word :=
  BitVec.ofNat 64 (b2n x.rpe + at' (b2n x.wpe) 1 + at' (b2n x.vpe) 2 + at' (b2n x.intrap) 3 + at' x.wkind.toNat 4 +
    at' x.nspill.toNat 16)

/-- QUANT: log2 of Q and the thread's quantum in ordered mode, else 0 (10 R280). -/
def State.quantReg (s : State) : Word :=
  if s.myJob.gmode = 2 then BitVec.ofNat 64 (s.myJob.qlog2 + at' (s.th.qnum % 2 ^ 56) 8) else 0

/-- What a system register reads (10 R280). -/
def State.sysRead (s : State) (sel : Nat) : Word :=
  match sel with
  | 0 => s.th.tid.setWidth 64
  | 1 => BitVec.ofNat 64 (coreOf s.cur)
  | 2 => BitVec.ofNat 64 (slotOf s.cur)
  | 3 => BitVec.ofNat 64 s.myJob.asid
  | 4 => s.th.seed
  | 5 => s.th.wsp
  | 6 => s.th.tvec
  | 7 => s.th.epc
  | 8 => s.th.ecause &&& 0xFF
  | 9 => s.th.eval
  | 10 => s.th.fstat
  | 11 => s.th.fctl
  | 12 => s.quantReg
  | 13 => BitVec.ofNat 64 (s.myJob.gmode % 4)
  | 14 => s.th.digest
  | 15 => s.ptime
  | _ => s.th.flags

/-- SYR (13 R419). -/
def execSyr (d : BitVec 5) (sel : BitVec 14) (s : State) : Out :=
  unrecorded (fun r => .ok (r.retireG d (r.sysRead sel.toNat))) s

/-- Whether a level may write a system register (10 R280). -/
def sysWritable (lvl : Level) (sel : Nat) : Bool :=
  match lvl with
  | .user => [5, 6, 7, 8, 9, 10, 11, 16].contains sel
  | .supervisor => [4, 5, 6, 7, 8, 9, 10, 11, 16].contains sel
  | .firmware => !([1, 2, 15].contains sel)

/-- The pending causes that a write of FLAGS clears, with their kept details (10 R281). -/
def Thread.clearPending (x : Thread) (v : Word) : Thread :=
  let x1 := if v.getLsbD 0 then { x with rpe := false, rpeDetail := 0 } else x
  let x2 := if v.getLsbD 1 then { x1 with wpe := false, wkind := 0, wpeDetail := 0 } else x1
  if v.getLsbD 2 then { x2 with vpe := false, vpeDetail := 0 } else x2

/-- A system register of the thread written; a register that is accepted and ignored keeps its value (08 R233;
10 R280). -/
def Thread.sysWrite (x : Thread) (sel : Nat) (v : Word) : Thread :=
  match sel with
  | 5 => { x with wsp := v }
  | 6 => { x with tvec := v }
  | 7 => { x with epc := v }
  | 8 => { x with ecause := v &&& 0xFF }
  | 9 => { x with eval := v }
  | 10 => { x with fstat := v &&& 0x1F }
  | 11 => { x with fctl := v &&& 0x1F07 }
  | 16 => x.clearPending v
  | _ => x

/-- SYW: PRIV where the level may not write; SEED is the job's SEED register (05 R120; 13 R419). -/
def execSyw (a : BitVec 5) (sel : BitVec 14) (s : State) : Out :=
  unrecorded (fun r =>
    let v := r.g a
    if !sysWritable r.th.level sel.toNat then .error (r.trapFree cPriv)
    else if sel = 4 then .ok (r.setJob r.th.job { r.myJob with seed := v }).retire
    else .ok (r.setTh (r.th.sysWrite sel.toNat v)).retire) s

/-! ## TLBI (13 R420) -/

/-- Whether an entry is one of a job's for the page that holds an address; every one of the job's without an address. -/
def Leaf.ofPage (l : Leaf) (asid : Nat) (va : Option Nat) : Bool :=
  l.asid == asid &&
    (match va with
    | none => true
    | some a => decide (l.page ≠ 0) && decide (a / l.page = l.va / l.page))

/-- The lines of ROX pages among a core's that lie in given ranges dropped (06 R149). -/
def State.dropRox (s : State) (c : Nat) (f : Nat → Bool) : State :=
  (((s.core c).rlc.filter (fun l => l.rox && f (l.num * 128))).map (·.num)).foldl (fun r n => r.evictLine c n) s

/-- The entries of a core's L1 and of its quad's L2 that meet a condition taken out. -/
def State.tlbRemove (s : State) (c : Nat) (f : Leaf → Bool) : State :=
  let s1 := s.setCore c { s.core c with tlb := (s.core c).tlb.filter (fun l => !f l) }
  { s1 with quadTlb := Store.put [] (quadOf c) ((Store.get [] (quadOf c) s1.quadTlb).filter (fun l => !f l)) s1.quadTlb }

/-- The ranges whose ROX lines an invalidation of one page drops: those of the entries removed, and that of the page as
the tables give it (log entry 41). -/
def State.tlbiRanges (s : State) (va : Nat) : List (Nat × Nat) :=
  let c := coreOf s.cur
  let asid := s.myJob.asid
  let ls := ((s.core c).tlb ++ Store.get [] (quadOf c) s.quadTlb).filter (fun l => l.ofPage asid (some va))
  (match s.walk s.th.job va with
    | .leaf l _ _ _ => [(l.at_ va - va % l.page, l.page)]
    | _ => []) ++ ls.map (fun l => (l.pa, l.size))

/-- TLBI of one page (13 R420). -/
def execTlbi (a : BitVec 5) (s : State) : Out :=
  unrecorded (fun r =>
    let va := (r.g a).toNat
    let rs := r.tlbiRanges va
    let r1 := r.tlbRemove (coreOf r.cur) (fun l => l.ofPage r.myJob.asid (some va))
    .ok (r1.dropRox (coreOf r.cur) (fun pa => rs.any (fun q => decide (overlap pa 128 q.1 q.2 ≠ 0)))).retire) s

/-- TLBI all: every ROX line of the core is dropped (13 R420; log entry 41). -/
def execTlbiAll (s : State) : Out :=
  unrecorded (fun r =>
    let r1 := r.tlbRemove (coreOf r.cur) (fun l => l.ofPage r.myJob.asid none)
    .ok (r1.dropRox (coreOf r.cur) (fun _ => true)).retire) s

/-! ## Time (13 R422) -/

/-- TIME (13 R422). -/
def execTime (d : BitVec 5) (s : State) : Out := unrecorded (fun r => .ok (r.retireG d r.ptime)) s

/-- TIME rot (13 R422). -/
def execTimeRot (d : BitVec 5) (s : State) : Out :=
  unrecorded (fun r => .ok (r.retireG d (BitVec.ofNat 64 r.rotation))) s

/-! ## Page migration (06 R155, R156; 13 R421) -/

/-- The addresses of the table entries in use. -/
def State.pteAddrs (s : State) : List Nat :=
  s.pool.flatMap (fun p => if p.2.isSome then (List.range 512).map (fun i => p.1 + 8 * i) else [])

/-- Whether a frame is in use: named by a valid leaf, the target of a migration, or part of a vintage copy (log
entry 42). -/
def State.frameUsed (s : State) (pa size : Nat) : Bool :=
  s.pteAddrs.any (fun a =>
    match pteRange (s.value a 8) with
    | some (p, n) => decide (overlap p n pa size ≠ 0)
    | none => false) ||
  s.migrations.any (fun m => decide (overlap m.new m.size pa size ≠ 0)) ||
  (List.range (ceilDiv size (2 ^ 21))).any (fun i => (s.pageTag (pa + i * 2 ^ 21)).member.isSome)

/-- The physical blocks of 32 MiB that a tile's block map names (10 R260 to R262; 06 R155). -/
def State.mapBlocks (s : State) (p : Partition) (m : Store (BitVec 16)) : List Nat :=
  m.filterMap (fun e =>
    let v := e.2.toNat
    if !bit v 15 then none
    else if !bit v 14 then some (v % 2 ^ 14)
    else
      let l := nth Latch.init p.latches (bits v 13 12)
      if l.latched then
        some (nth 0 (s.vset (nth 0 p.sets (bits v 13 12))).copypa l.copy / 2 ^ 25 + v % 2 ^ 12)
      else none)

/-- Whether a page lies in a block named by a block map of a running or pre-empted partition (06 R155). -/
def State.inMappedBlock (s : State) (pa : Nat) : Bool :=
  s.parts.any (fun p =>
    (p.2.st == .running || p.2.st == .frozen || p.2.st == .faulted || p.2.st == .preempted) &&
      p.2.tiles.any (fun t =>
        let tl := if (s.tile t).part == some p.1 then s.tile t else Store.get Tile.init t p.2.saved
        (s.mapBlocks p.2 tl.bmap).contains (pa / 2 ^ 25)))

/-- Whether a frame is proper and free for a page: aligned, in HBM outside the pool, unused, of the page's placement mode
(06 R155, R493). -/
def State.frameOk (s : State) (new : Word) (size : Nat) (il : Bool) : Bool :=
  let n := new.toNat
  decide (n % size = 0) && decide (n + size ≤ tileBase) && decide (overlap n size poolBase poolSize = 0) &&
    (bit s.iltab.toNat (n / 2 ^ 33) == il) && !s.frameUsed n size

/-- MIGR's status, 0 for a page that may move (06 R155). -/
def State.migrStatus (s : State) (l : Leaf) (il : Bool) (old : Nat) (new : Word) : Nat :=
  if tileBase ≤ old ∨ 2 ^ 21 < l.page then 1
  else if s.inMappedBlock old then 2
  else if s.latchedAt old then 3
  else if s.migratingAt old then 5
  else if !s.frameOk new l.page il then 4
  else 0

/-- The entries of the tables that name a frame by leaves of its size rewritten: MIG, and the frame's place. -/
def State.rewritePtes (s : State) (old size new : Nat) (mig : Bool) : State :=
  (s.pteAddrs.filter (fun a =>
    let v := s.value a 8
    bit v 0 && pageBytes (bits v 7 5) == size && decide (old ≤ bits v 39 12 * 4096) &&
      decide (bits v 39 12 * 4096 < old + size))).foldl (fun r a =>
    let v := r.value a 8
    let w := v - bits v 39 12 * 4096 + (bits v 39 12 * 4096 - old + new) - at' (b2n (bit v 9)) 9 + at' (b2n mig) 9
    r.putMem a (bytesOf 8 w)) s

/-- Every TLB entry of a frame in the package taken out (06 R155). -/
def State.shootDown (s : State) (pa size : Nat) : State :=
  let keep := fun (l : Leaf) => decide (overlap l.pa l.size pa size = 0)
  { s with
    cores := s.cores.map (fun p => (p.1, { p.2 with tlb := p.2.tlb.filter keep })),
    quadTlb := s.quadTlb.map (fun p => (p.1, p.2.filter keep)),
    engines := s.engines.map (fun p => (p.1, { p.2 with tlb := p.2.tlb.filter keep })) }

/-- Every core's lines of a frame written through and dropped (06 R155). -/
def State.dropFrame (s : State) (pa size : Nat) : State :=
  (s.cores.map (·.1)).foldl (fun r c =>
    (((r.core c).rlc.filter (fun l => decide (overlap (l.num * 128) 128 pa size ≠ 0))).map (·.num)).foldl
      (fun z n => z.evictLine c n) r) s

/-- MIGR: refused with a status, or steps 1 to 3 of the move and the thread parked; no pending cause falls due at it (06 R155; 12
R337; 13 R421). -/
def execMigr (d a b : BitVec 5) (s : State) : Out :=
  unrecorded (fun r =>
    if r.th.level = .user then .error (r.trapFree cPriv)
    else
      match r.sbEmpty 0x86 with
      | .error e => .error e
      | .ok () =>
        let r1 := r.release (r.th.effRelease .pkg)
        let va := (r1.g a).toNat
        let stop := fun (n : Nat) => Except.ok ((r1.acquire .pkg).retireG d (BitVec.ofNat 64 n))
        match r1.walk r1.th.job va with
        | .fail => .error (r1.trapFree cXlate)
        | .bad => .error (r1.trapFree cMemoryUe)
        | .migrating => stop 5
        | .leaf l pte _ _ =>
          let old := l.at_ va - va % l.page
          let st := r1.migrStatus l (bit pte 11) old (r1.g b)
          if st ≠ 0 then stop st
          else
            let r2 := ((r1.rewritePtes old l.page old true).shootDown old l.page).dropFrame old l.page
            let m : Migration :=
              { job := r1.th.job, va := va - va % l.page, size := l.page, old := old, new := (r1.g b).toNat, thr := r1.cur,
                d := d.toNat, held := [] }
            .ok (({ r2 with migrations := r2.migrations ++ [m] }).parkOn .migr)) s

/-- The sectors of 32 bytes that a bank command touches: first address of each range used and their number. -/
def BauCmd.touches (c : BauCmd) (pa size : Nat) : Bool :=
  [c.d, c.a, c.b].any (fun x => decide (overlap x (32 * c.nsec) pa size ≠ 0))

/-- Whether a queued bank command touches a frame (06 R155). -/
def State.bauBusy (s : State) (pa size : Nat) : Bool :=
  s.banks.any (fun p => p.2.fifo.any (fun c => c.touches pa size))

/-- The entries of a table whose keys lie in a frame, moved to another. -/
def moveKeys {α : Type} [DecidableEq α] (dflt : α) (old size new : Nat) (t : Store α) : Store α :=
  (t.filter (fun p => decide (old ≤ p.1) && decide (p.1 < old + size))).foldl
    (fun m p => Store.put dflt (p.1 - old + new) p.2 m)
    (Store.clearRange new (new + size) (Store.clearRange old (old + size) t))

/-- An address in a frame, moved to another. -/
def movePa (old size new pa : Nat) : Nat := if old ≤ pa ∧ pa < old + size then pa - old + new else pa

/-- A range as a frame moves: the bytes of it that lie in the frame move, those before and after it stay (06 R155). -/
def moveRange (old size new : Nat) (r : Nat × Nat) : List (Nat × Nat) :=
  let inside := overlap old size r.1 r.2
  if inside = 0 then [r]
  else
    let lo := Nat.max old r.1
    (if r.1 < lo then [(r.1, lo - r.1)] else []) ++ [(lo - old + new, inside)] ++
      (if lo + inside < r.1 + r.2 then [(lo + inside, r.1 + r.2 - (lo + inside))] else [])

/-- A gated operation whose address lay in a frame, renamed to another (06 R156). -/
def GateOp.move (f : Nat → Nat) : GateOp → GateOp
  | .amo pa va size fn operand rlx d => .amo (f pa) va size fn operand rlx d
  | .cas pa va size e n rlx d => .cas (f pa) va size e n rlx d
  | .region line va st ab => .region (f line) va st ab
  | .ldf pa d => .ldf (f pa) d
  | .ste pa va v => .ste (f pa) va v
  | .ldp pa d => .ldp (f pa) d
  | .stf pa va v => .stf (f pa) va v
  | .fec pa => .fec (f pa)
  | .alc n d => .alc n d
  | .fre a => .fre a

/-- A counter's fragments as a page moves: the count at each home that holds a piece of the page goes to the home of that piece's new
place (06 R155; log entry 154). -/
def moveFrags (iltab : Word) (m : Migration) (t : Store Nat) : Store Nat :=
  t.foldl (fun (u : Store Nat) f =>
    let to_ := match (pieces m.old m.size).find? (fun p => homeOf iltab p.1 == f.1) with
      | some p => homeOf iltab (p.1 - m.old + m.new)
      | none => f.1
    Store.put 0 to_ (Store.get 0 to_ u + f.2) u) []

/-- Bytes, tags, fragments, membership and waiting requests of a page moved to its new frame (06 R155, R156). -/
def State.movePage (s : State) (m : Migration) : State :=
  let f := movePa m.old m.size m.new
  let ops := s.gateQueue.map (fun q =>
    match q.op with
    | .amo pa _ _ _ _ _ _ => if f pa = pa then q else { q with gate := homeOf s.iltab (f pa), op := q.op.move f }
    | .cas pa _ _ _ _ _ _ => if f pa = pa then q else { q with gate := homeOf s.iltab (f pa), op := q.op.move f }
    | .region pa _ _ _ => if f pa = pa then q else { q with gate := homeOf s.iltab (f pa), op := q.op.move f }
    | _ => q)
  let tag := s.pageTag m.old
  let tags := if m.size = 2 ^ 21 then
      Store.put PageTag.init (m.new / 2 ^ 21) tag (Store.put PageTag.init (m.old / 2 ^ 21) PageTag.init s.pageTags)
    else s.pageTags
  { s with
    mem := moveKeys 0 m.old m.size m.new s.mem, ue := moveKeys false m.old m.size m.new s.ue,
    wtags := moveKeys WTag.init m.old m.size m.new s.wtags, pageTags := tags, gateQueue := ops,
    vsets := s.vsets.map (fun p => (p.1, { p.2 with copypa := p.2.copypa.map (fun a => if a = m.old then m.new else a) })),
    counters := s.counters.map (fun p => (p.1, { p.2 with
      ranges := p.2.ranges.flatMap (moveRange m.old m.size m.new),
      frags := moveFrags s.iltab m p.2.frags })) }

/-- The threads that hold a buffered store to a frame. -/
def State.storesTo (s : State) (pa size : Nat) : List Nat :=
  (s.threads.filter (fun p => p.2.sb.any (fun e => e.parts.any (fun q => decide (overlap q.pa q.data.length pa size ≠ 0))))).map
    (·.1)

/-- The parked thread's end: an acquire at pkg scope and status 0. -/
def State.migrAnswer (s : State) (m : Migration) : State :=
  if (s.thread m.thr).live ∧ (s.thread m.thr).park = .migr then
    ({ (({ s with cur := m.thr }).acquire .pkg).retireG (BitVec.ofNat 5 m.d) 0 with cur := s.cur })
  else s

/-- MIGRATION_END: the first page under way whose queued bank commands have all been performed moves, its PTEs name the
new frame, and the requests that met MOVED are issued again (06 R155, R156). -/
def execMigrationEnd (s : State) : Out :=
  match s.migrations.find? (fun m => !s.bauBusy m.old m.size) with
  | none => .next s
  | some m =>
    let again := s.storesTo m.old m.size
    let s1 := { s.movePage m with migrations := s.migrations.filter (fun k => k != m) }
    let s2 := (s1.rewritePtes m.old m.size m.new false).migrAnswer m
    .next { s2 with
      agenda := again.map (fun t => .event .movedReissue (Arg.ofN t)) ++ m.held.map packetAct ++ s2.agenda }

end Sys2Proof.Machine
end

