-- ==== Sys2Proof/Machine/Host.lean ====
section
/-! DEFINITION. Host commands: records, turns, permissions, completions, and the job that a JOB.CLOSE ends (04 R77 to R89,
R101). -/

namespace Sys2Proof.Machine

open Sys2Proof

/-! ## Records (04 R80) -/

/-- A command record read from its slot. -/
structure Cmd where
  q : Nat
  seq : Nat
  op : Nat
  ord : Bool
  early : Bool
  job : Nat
  bytes : List Byte
  deriving DecidableEq, Repr

/-- The record of a queue's command. -/
def cmdOf (q : Nat) (b : List Byte) : Cmd :=
  let r := (b ++ List.replicate 64 0).take 64
  { q := q, seq := field r 0 4, op := field r 4 2, ord := bit (field r 6 1) 0, early := bit (field r 6 1) 1,
    job := field r 8 2, bytes := r }

/-- An operand: `n` bytes at an offset of the record. -/
def Cmd.arg (c : Cmd) (off n : Nat) : Nat := field c.bytes off n

/-- Whether CRC, VER and the reserved fields of a record are right (04 R80, R81). -/
def recordOk (b : List Byte) : Bool :=
  (crc32c (b.take 60)).toNat == field b 60 4 && field b 7 1 == 1 && field b 6 1 / 4 == 0 && field b 10 6 == 0

/-- expected_seq: the least number from NEXTSEQ on that belongs to a slot (04 R81). -/
def expectedSeq (next : BitVec 32) (slot : Nat) : Nat :=
  let n := next.toNat
  (n + (slot + 64 - n % 64) % 64) % 2 ^ 32

/-! ## Commands under way (04 R81, R83, R85) -/

/-- A command started: its completion is owed. -/
def State.begin_ (s : State) (c : Cmd) : State :=
  s.setPkg { s.pkg with pendCmds := s.pkg.pendCmds ++
    [{ q := c.q, seq := c.seq, op := c.op, ord := c.ord, early := c.early, job := c.job, ready := false, status := 0,
       result := noResult, sum := 0, waits := false }] }

/-- A command whose completion waits: started, and past its effect point. -/
def State.waitCmd (s : State) (c : Cmd) (early : List Byte) : State := (s.begin_ c).effect c.q c.seq early

/-- A command that finishes at its effect point. -/
def State.doneCmd (s : State) (c : Cmd) (status : Nat) (result : List Byte) : State :=
  ((s.begin_ c).passSeq c.q c.seq).finish (some (c.q, c.seq)) status (if status = stOk then result else noResult)

/-- The commands that name an open job (04 R86, R87). -/
def namesJob (op : Nat) : Bool := decide (2 ≤ op) && decide (op ≤ 10)

/-- The commands that a package with no job open accepts (04 R101). -/
def plainOps : List Nat := [0xB, 0xC, 0xD, 0xE, 0xF, 0x10, 0x11]

/-- The commands that the Tadpole accepts in safe mode (04 R101; 02 R49). -/
def safeOps : List Nat := [0xB, 0xE, 0xF, 0x10]

/-- Whether LOG kinds of debug access are refused in the present debug state (04 R92, R99, R101). -/
def State.logRefused (s : State) (c : Cmd) : Bool :=
  c.op == 0xE &&
    ((c.arg 16 1 == 3 && !(s.pkg.sec.access == .full || s.pkg.sec.access == DebugState.jobDebug c.job)) ||
     (c.arg 16 1 == 4 && s.pkg.sec.access != .full))

/-- The status that the present states give a command before its own checks, if any (04 R86, R87, R89, R101). -/
def State.cmdRefused (s : State) (c : Cmd) : Option Nat :=
  if s.pkg.starts.safe then
    if c.q = 0 ∧ safeOps.contains c.op ∧ !s.logRefused c then none else some stBadOp
  else if s.logRefused c then some stBadOp
  else if s.pkg.sec.st = .provisioning ∧ (!plainOps.contains c.op ∨ (c.op = 0xE ∧ 2 < c.arg 16 1 ∧ c.arg 16 1 ≠ 4)) then
    some stBadOp
  else if s.pkg.sec.st = .degraded ∧ c.op = 1 then some stDegraded
  else if namesJob c.op ∧ (256 ≤ c.job ∨ (s.job c.job).st = .closed) then some stBadJob
  else none

/-- A host command: the record in `arg.bytes`, of queue `arg.n`, reaches its effect point. -/
def hostCmd (f : State → Cmd → State) (s : State) : Out :=
  let c := cmdOf s.arg.n s.arg.bytes
  .next (match s.cmdRefused c with
    | some st => s.doneCmd c st noResult
    | none => f s c)

/-- The event of a command code (04 R87). -/
def opEvent : Nat → Option Instr
  | 0x1 => some .jobOpen
  | 0x2 => some .jobClose
  | 0x3 => some .map
  | 0x4 => some .peer
  | 0x5 => some .schedLoad
  | 0x6 => some .klaunch
  | 0x7 => some .preempt
  | 0x8 => some .resume
  | 0x9 => some .seed
  | 0xA => some .vintage
  | 0xB => some .query
  | 0xC => some .attest
  | 0xD => some .debug
  | 0xE => some .log
  | 0xF => some .fwload
  | 0x10 => some .start
  | 0x11 => some .power
  | _ => none

/-! ## COMMAND_THREAD (04 R81 to R83, R101; 02 R39) -/

/-- The region of a slot armed again with total 64 (04 R79, R81). -/
def State.armSlot (s : State) (q sl : Nat) : State :=
  let n := 3840 + 64 * q + sl
  s.setCounter n { s.counter n with
    total := 64, count := 0, armed := true, fired := false, overran := false, fw := true,
    ranges := [((s.queue q).base + 64 * sl, 64)] }

/-- Commands that hold their threads: a RESUME before its effect point, and completions that wait for a context (03 R54; 04
R81, R87). -/
def State.threadCmds (s : State) : Nat :=
  (s.pkg.pendCmds.filter (fun c => c.waits || (c.op == 8 && (s.queue c.q).nextseq.toNat == c.seq))).length

/-- Command threads at work: records that wait for their turn, launches and restores that wait, and completions (03 R54; 04
R81, R83, R108). -/
def State.cmdThreads (s : State) : Nat :=
  ((List.range 4).map (fun q => (s.queue q).waiting.length)).foldl (· + ·) 0 +
    (s.launches.filter (fun l => l.cmd.isSome)).length + s.threadCmds

/-- Whether the present power state holds a command: in retention all but QUERY and POWER with OP 2, and all while retention is
being entered or a start is under way (04 R101; 02 R39). -/
def State.holdsCmd (s : State) (b : List Byte) : Bool :=
  let c := cmdOf 0 b
  s.pkg.starts.asked.isSome || (s.pkg.power.toRetention && s.pkg.power.st != .retention) ||
    (s.pkg.power.st == .retention && !(recordOk b && (c.op == 0xB || (c.op == 0x11 && c.arg 16 1 == 2))))

/-- A command kept for later; in retention it asks for a warm start (02 R39; 04 R101). -/
def State.keepCmd (s : State) (q sl : Nat) (wake : Bool) : State :=
  let st := s.pkg.starts
  s.setPkg { s.pkg with
    heldCmds := s.pkg.heldCmds ++ [(q, sl)],
    starts := if wake ∧ st.asked.isNone then { st with asked := some true } else st }

/-- The record whose turn it is performs its effect, or is refused (04 R81, R83). Whether the RMA that a command makes from a
host buffer fails under 03 R63 is a free choice (04 R86; log entry 149). -/
def State.takeTurn (s : State) (q : Nat) : State :=
  let x := s.queue q
  match x.waiting.find? (fun w => w.1 == x.nextseq.toNat) with
  | none => s
  | some (n, status, b) =>
    let c := { cmdOf q b with seq := n }
    let gone := s.setQueue q { x with waiting := x.waiting.erase (n, status, b) }
    if s.pkg.pendCmds.any (fun p => p.isCmd q n) then s
    else if status ≠ stOk then gone.doneCmd c status noResult
    else if c.ord && s.pkg.pendCmds.any (fun p => p.q == q) then s
    else
      match opEvent c.op with
      | none => gone.doneCmd c stBadOp noResult
      | some i => gone.drawn.push i { Arg.ofN q with bytes := b, b := gone.choice 2 == 1 }

/-- COMMAND_THREAD: the counter of slot `arg.m` of queue `arg.n` has reached 64, so the record is copied and checked; with
`arg.b`, the record whose turn has come goes on. -/
def execCommandThread (s : State) : Out :=
  let q := s.arg.n
  let sl := s.arg.m
  let s0 := s.setPkg { s.pkg with heldCmds := s.pkg.heldCmds.erase (q, sl) }
  let x := s0.queue q
  let b := s0.bytes (x.base + 64 * sl) 64
  if 4 ≤ q ∨ 64 ≤ sl ∨ !x.enable then .next s
  else if s.arg.b then .next (s.takeTurn q)
  else if s0.holdsCmd b then .next (s0.keepCmd q sl (s0.pkg.power.st == .retention))
  else if 16 ≤ s0.cmdThreads then .next (s0.keepCmd q sl false)
  else
    let exp := expectedSeq x.nextseq sl
    let status := if !recordOk b then stBadRec else if field b 0 4 ≠ exp then stBadSeq else stOk
    let s1 := s0.armSlot q sl
    .next ((s1.setQueue q { x with waiting := x.waiting ++ [(exp, status, b)] }).takeTurn q)

/-! ## COMMAND_COMPLETION (04 R85) -/

/-- The packet of a write into host memory. -/
def hostPkt (q va : Nat) (b : List Byte) : OutPkt :=
  { kind := 5, op := 0, job := hostJob, peer := q, va := BitVec.ofNat 64 va, data := b, rel := false, ports := 0 }

/-- A write into host memory through a queue's entry; a completion or buffer write that has failed is noted (03 R63;
04 R85). -/
def State.hostWrite (s : State) (q seq : Nat) (va : Nat) (b : List Byte) : State :=
  if s.entryUsable hostJob q then s.sendRemote none 0 none (some (q, seq)) (hostPkt q va b)
  else
    s.failRemote { id := 0, job := hostJob, peer := q, thr := none, tid := 0, engine := none, cmd := some (q, seq),
                   pkt := hostPkt q va b, waiting := false } 0

/-- Bytes 4 to 31 of a completion record (04 R85). -/
def PendCmd.body (c : PendCmd) (ptime : Word) : List Byte :=
  bytesOf 2 c.op ++ bytesOf 2 c.status ++ wordBytes ptime ++ c.result

/-- Whether a command's own writes to host buffers are still unacknowledged. -/
def State.hostBusy (s : State) (q seq : Nat) : Bool := s.remotes.any (fun r => r.cmd == some (q, seq))

/-- COMMAND_COMPLETION: the completion of sequence number `arg.m` of queue `arg.n` is sent, SEQ last, once its buffer
writes are acknowledged; while no packet delivery context is free, the record waits in its command thread (03 R54; 04 R85). -/
def execCommandCompletion (s : State) : Out :=
  let q := s.arg.n
  match s.pkg.pendCmds.find? (fun c => c.isCmd q s.arg.m && c.ready) with
  | none => .next s
  | some c =>
    if s.hostBusy q c.seq then .next s
    else if s.entryUsable hostJob q ∧ s.pdcFull hostJob q then
      .next (if c.waits then s
        else
          (s.notePdcWait hostJob q).setPkg { (s.notePdcWait hostJob q).pkg with pendCmds := s.pkg.pendCmds.map (fun p =>
            if p.isCmd q c.seq then { p with waits := true } else p) })
    else
      let at_ := (s.queue q).ring.toNat / 32 * 32 + c.seq % 64 * 32
      let s1 := s.setPkg { s.pkg with pendCmds := s.pkg.pendCmds.filter (fun p => !p.isCmd q c.seq) }
      .next ((s1.hostWrite q c.seq (at_ + 4) (c.body s.ptime)).hostWrite q c.seq at_ (bytesOf 4 c.seq))

/-! ## The end of a job (04 R89; 06 R157, R164) -/

/-- The wait of a BFENCE on commands of which a job's are discarded: those left that it waits for (06 R174). -/
def Park.bankLess (p : Park) (s : State) (j : Nat) : Park :=
  match p with
  | .bank pa l => .bank pa (l.map (fun q => (q.1, (((s.bank q.1).fifo.take q.2).filter (fun (c : BauCmd) => c.job != j)).length)))
  | q => q

/-- The slots of a job's threads freed, with what they wait in. -/
def State.stopThreads (s : State) (j : Nat) : State :=
  let s1 := (s.jobThreads j).foldl (fun w t => w.setThread t { Thread.init with rpcSeq := (w.thread t).rpcSeq }) s
  { s1 with
    threads := s1.threads.map (fun (p : Nat × Thread) => (p.1, { p.2 with park := p.2.park.bankLess s j })),
    spawns := s1.spawns.filter (fun r => r.job != j),
    gateQueue := s1.gateQueue.filter (fun r => r.job != j),
    episodes := s1.episodes.filter (fun e => e.job != some j),
    walks := s1.walks.map (fun (p : Nat × List WalkReq) => (p.1, p.2.filter (fun r => r.job != j))),
    banks := s1.banks.map (fun (p : Nat × Bank) => (p.1, { p.2 with
      fifo := p.2.fifo.filter (fun (c : BauCmd) => c.job != j), pend := p.2.pend.filter (fun e => decide (e.1 / 2 ^ 14 ≠ 2 ^ 6 + j)) })),
    remotes := s1.remotes.filter (fun r => r.job != j),
    pdcs := s1.pdcs.filter (fun p => p.job != j) }

/-- The copy transfers of a job discarded. -/
def State.stopTransfers (s : State) (j : Nat) : State :=
  { s with engines := s.engines.map (fun p => (p.1, { p.2 with queue := p.2.queue.filter (fun t => t.job != j) })) }

/-- Every unit of a job ended with a status. -/
def State.stopUnits (s : State) (j status : Nat) : State :=
  let s1 := ((s.parts.filter (fun p => p.2.st != .free && p.2.job == j)).map (·.1)).foldl
    (fun w p => w.endPartition p status noResult) s
  ((s1.kernels.filter (fun p => decide (p.1 / 2 ^ 32 = j))).map (·.1)).foldl
    (fun w p => w.endKernel j (p % 2 ^ 32) status) s1

/-- The vintage sets of a job erased, with the membership of their pages. -/
def State.eraseSets (s : State) (j : Nat) : State :=
  let mine := (s.vsets.filter (fun p => p.2.used && p.2.owner == j)).map (·.1)
  { s with
    vsets := s.vsets.filter (fun p => !mine.contains p.1),
    pageTags := s.pageTags.filter (fun p => !((p.2.member.map (fun m => mine.contains m.1)).getD false)) }

/-- The counters of a job freed. -/
def State.freeCounters (s : State) (j : Nat) : State :=
  { s with counters := s.counters.map (fun p => if p.2.owner = some j then (p.1, p.2.disarm) else p) }

/-- Every TLB entry of the package that meets a condition taken out, with the ROX lines on every core of the ranges of those entries
and of the given ranges, those of the pages as the tables gave them (06 R146, R149). -/
def State.tlbDrop (s : State) (f : Leaf → Bool) (pages : List (Nat × Nat)) : State :=
  let held := s.cores.flatMap (fun p => p.2.tlb) ++ s.quadTlb.flatMap (·.2)
  let rs := pages ++ (held.filter (fun l => f l && l.rox)).map (fun l => (l.pa, l.size))
  let out := fun (l : List Leaf) => l.filter (fun x => !f x)
  let s1 := { s with
    cores := s.cores.map (fun p => (p.1, { p.2 with tlb := out p.2.tlb })),
    quadTlb := (s.quadTlb.map (fun p => (p.1, out p.2))).filter (fun p => !p.2.isEmpty),
    engines := s.engines.map (fun p => (p.1, { p.2 with tlb := out p.2.tlb })) }
  (s.cores.map (·.1)).foldl (fun w c => w.dropRox c (fun pa => rs.any (fun r => decide (overlap pa 128 r.1 r.2 ≠ 0)))) s1

/-- The ranges that the leaves of a job's tables name. -/
def State.jobPages (s : State) (j : Nat) : List (Nat × Nat) :=
  (s.pool.filter (fun p => p.2 == some j)).flatMap (fun p => (List.range 512).filterMap (fun i => pteRange (s.value (p.1 + 8 * i) 8)))

/-- A job's mappings, peer table, keys and logs erased, and its number and ASID freed (04 R89; 05 R102). -/
def State.eraseJob (s : State) (j : Nat) : State :=
  let asid := (s.job j).asid
  let s1 := s.tlbDrop (fun l => l.asid == asid) (s.jobPages j)
  let base := 0xFE_E000_0000 + j * 0x2_0000
  let sec := s1.pkg.sec
  let mode := if sec.access = DebugState.jobDebug j then DebugState.locked else sec.access
  ({ s1 with
      ptroot := Store.erase j s1.ptroot,
      pool := s1.pool.filter (fun (p : Nat × Option Nat) => p.2 != some j),
      peers := Store.clearRange base (base + 0x2_0000) s1.peers,
      gateLogs := s1.gateLogs.filter (fun (p : Nat × GateLog) => decide (p.1 / 4096 ≠ j)),
      lastPctl := s1.lastPctl.filter (fun (p : Nat × Option LastSchedule) => !((p.2.map (fun (l : LastSchedule) => l.job == j)).getD false)),
      completed := s1.completed.filter (fun (p : Nat × Bool) => decide (p.1 / 2 ^ 32 ≠ j)),
      pkg := { s1.pkg with sec := { sec with access := mode } } }).setJob j Job.init

/-- Commands of a job that wait: completed with CLOSED, but for the JOB.CLOSE itself (04 R89). -/
def State.closeCmds (s : State) (j : Nat) : State :=
  s.setPkg { s.pkg with pendCmds := s.pkg.pendCmds.map (fun c =>
    if c.job = j ∧ namesJob c.op ∧ c.op ≠ 2 ∧ !c.ready then
      { c with ready := true, status := stClosed, result := noResult } else c) }

/-- The claims of a launch that does not come to run given up (09 R270). -/
def State.dropClaims (s : State) (l : Launch) : State :=
  if l.claims.isEmpty then s
  else s.sideband s.pkg.pod.livePorts 8 0 s.ptime (s.linkBody 3 0 l.job l.num [0, 0, 0, 0])

/-- The launches of a job that wait dropped; a host command's completes with CLOSED and its queue goes on. -/
def State.dropLaunches (s : State) (j : Nat) : State :=
  let mine := s.launches.filter (fun l => l.job == j)
  mine.foldl (fun w l => match l.cmd with
    | some (q, n) => (w.dropClaims l).passSeq q n
    | none => w.dropClaims l) { s with launches := s.launches.filter (fun l => l.job != j) }

/-- NEXTSEQ past the RESUME commands of a job that wait for their effect point (04 R81, R89). -/
def State.passResumes (s : State) (j : Nat) : State :=
  (s.pkg.pendCmds.filter (fun c => c.op == 8 && c.job == j && (s.queue c.q).nextseq.toNat == c.seq)).foldl
    (fun w c => w.passSeq c.q c.seq) s

/-- A job closed: everything of it stops without a save, its commands complete with CLOSED, and what it held is erased
(04 R89). Parts in flight are discarded; the contexts that it leaves serve operations that wait (03 R54). -/
def State.closeJob (s : State) (j : Nat) : State :=
  let s1 := ((s.setJob j { s.job j with st := .closed }).passResumes j).closeCmds j
  let s2 := (((s1.dropLaunches j).stopTransfers j).stopUnits j stClosed).stopThreads j
  (((s2.freeCounters j).eraseSets j).eraseJob j).sendAllWaiting

end Sys2Proof.Machine
end

