-- ==== Sys2Proof/Machine/Commands.lean ====
section
/-! DEFINITION. The host commands that concern jobs, mappings, seeds, vintages, queries, attestation, debug and images (04
R87 to R99; 06 R142 to R144, R493). -/

namespace Sys2Proof.Machine

open Sys2Proof

/-! ## JOB.OPEN and JOB.CLOSE (04 R87, R89; 05 R102; 06 R493) -/

/-- The lowest number below a bound that meets a condition. -/
def lowestFree (n : Nat) (f : Nat → Bool) : Option Nat := (List.range n).find? f

/-- The lowest free page of the page-table pool. -/
def State.freeTable (s : State) : Option Nat :=
  (lowestFree (Nat.min (2 ^ 20) (s.pool.length + 1)) (fun i => !s.pool.any (fun p => p.1 == poolBase + 4096 * i))).map
    (fun i => poolBase + 4096 * i)

/-- A table taken from the pool for a job, cleared to zero (06 R493). -/
def State.takeTable (s : State) (j : Nat) : Option (Nat × State) :=
  match s.freeTable with
  | none => none
  | some t =>
    some (t, { s with
      pool := Store.put none t (some j) s.pool, mem := Store.clearRange t (t + 4096) s.mem,
      ue := Store.clearRange t (t + 4096) s.ue })

/-- Bytes of host memory that a command reads through its queue's entry; none where the RMA fails: the entry is unusable, or,
by `arg.b`, the transport or the host fails it (03 R63; 04 R86; log entry 149). -/
def State.hostRead (s : State) (q va n : Nat) : Option (List Byte) :=
  if s.entryUsable hostJob q && !s.arg.b then some (getBytes s.hostMem va n) else none

/-- The debug key that a JOB.OPEN names: none for address 0; a failed read otherwise gives nothing. -/
def State.debugKey (s : State) (q va : Nat) : Option (Option (List Byte)) :=
  if va = 0 then some none else (s.hostRead q va 64).map some

/-- The lowest free ASID (05 R102). -/
def State.freeAsid (s : State) : Option Nat :=
  lowestFree 256 (fun a => !s.jobs.any (fun p => p.2.st != .closed && p.2.asid == a))

/-- The job that a JOB.OPEN sets up (04 R87; 05 R102). -/
def Cmd.newJob (c : Cmd) (asid : Nat) (key : Option (List Byte)) (sas : List Nat) : Job :=
  { Job.init with
    st := .opened, asid := asid, cls := c.arg 16 1, gmode := c.arg 17 1, qlog2 := c.arg 18 1,
    seed := BitVec.ofNat 64 (c.arg 20 8), deadline := BitVec.ofNat 64 (c.arg 28 8),
    wcrt := BitVec.ofNat 64 (c.arg 36 8), key := key, associations := sas }

/-- JOB.OPEN (04 R87). -/
def execJobOpen (s : State) : Out :=
  hostCmd (fun r c =>
    if 3 < c.arg 16 1 ∨ 3 < c.arg 17 1 ∨ c.arg 18 1 < 8 ∨ 16 < c.arg 18 1 then r.doneCmd c stBadArg noResult
    else
      match lowestFree 256 (fun j => (r.job j).st == .closed), r.freeAsid with
      | some j, some asid =>
        match r.takeTable j, r.debugKey c.q (c.arg 44 8) with
        | none, _ => r.doneCmd c stNoRes noResult
        | _, none => r.doneCmd c stHostIo noResult
        | some (t, r1), some key =>
          let r2 := r1.setJob j (c.newJob asid key (Config.jobAssociations j))
          ({ r2 with ptroot := Store.put 0 j t r2.ptroot, jobOpened := true }).doneCmd c stOk
            (result16 (bytesOf 2 j ++ bytesOf 2 asid ++ bytesOf 4 (0x1000 + j)))
      | _, _ => r.doneCmd c stNoRes noResult) s

/-- JOB.CLOSE (04 R89). -/
def execJobClose (s : State) : Out := hostCmd (fun r c => (r.closeJob c.job).doneCmd c stOk noResult) s

/-! ## MAP (04 R88) -/

/-- The level at which leaves of a SIZE code sit (06 R144). -/
def levelOf (size : Nat) : Nat := if size = 5 then 2 else if 3 ≤ size then 1 else 0

/-- Leaves of one page of a SIZE code (06 R144). -/
def leavesOf (size : Nat) : Nat := if size = 2 ∨ size = 4 then 16 else 1

/-- The leaves that a MAP writes: address and entry, MIG kept clear (04 R88; 06 R143). -/
def mapLeaves (va pte count : Nat) : List (Nat × Nat) :=
  let size := bits pte 7 5
  let g := granuleAt (levelOf size)
  let e := pte - at' (b2n (bit pte 9)) 9
  (List.range (count * leavesOf size)).map (fun i => (va + i * g, if bit pte 0 then e + i * g else 0))

/-- Whether a MAP's operands are out of range (04 R88). -/
def State.badMap (s : State) (va pte count : Nat) : Bool :=
  let size := bits pte 7 5
  size == 0 || decide (6 ≤ size) || count == 0 || decide (65536 < count) || decide (va % pageBytes size ≠ 0) ||
    decide (2 ^ 48 < va + count * pageBytes size) ||
    (bit pte 0 && (decide (bits pte 39 12 * 4096 % pageBytes size ≠ 0) ||
      (mapLeaves va pte count).any (fun l => !leafOk s.iltab l.2 l.1 (levelOf size))))

/-- The address of a leaf's entry, with the tables on the way to it made where they are needed: none where the pool is
empty. An entry that is unmapped below a table that does not exist has no address (04 R88; 06 R493). -/
def pteFor (j va target : Nat) (make : Bool) : Nat → Nat → State → Option (State × Option Nat)
  | 0, _, _ => none
  | level + 1, table, s =>
    let pteAt := table + va / granuleAt level % 512 * 8
    let pte := s.value pteAt 8
    if level = target then some (s, some pteAt)
    else if bit pte 0 ∧ bits pte 7 5 = 0 then pteFor j va target make level (bits pte 39 12 * 4096) s
    else if !make && !bit pte 0 then some (s, none)
    else
      match s.takeTable j with
      | none => none
      | some (t, s1) => pteFor j va target make level t (s1.performQuiet pteAt (bytesOf 8 (s1.tablePte t)) tagPkg)

/-- Leaves written in order; none where the pool cannot supply a table. -/
def State.writeLeaves (j target : Nat) (make : Bool) : List (Nat × Nat) → State → Option State
  | [], s => some s
  | (va, pte) :: t, s =>
    match pteFor j va target make 4 (Store.get 0 j s.ptroot) s with
    | none => none
    | some (s1, none) => State.writeLeaves j target make t s1
    | some (s1, some a) => State.writeLeaves j target make t (s1.performQuiet a (bytesOf 8 pte) tagPkg)

/-- The ranges that the leaves of a MAP named before it. -/
def State.oldPages (s : State) (j : Nat) (ls : List (Nat × Nat)) : List (Nat × Nat) :=
  ls.filterMap (fun l => match s.walk j l.1 with
    | .leaf x _ _ _ => some (x.pa, x.size)
    | _ => none)

/-- MAP: its operands are checked, the leaves written and the old entries shot down; a page that is migrating makes it wait
(04 R88). -/
def execMap (s : State) : Out :=
  hostCmd (fun r c =>
    let va := c.arg 16 8
    let pte := c.arg 24 8
    let count := c.arg 32 4
    let ls := mapLeaves va pte count
    if r.badMap va pte count then r.doneCmd c stBadArg noResult
    else if ls.any (fun l => r.walk c.job l.1 == .migrating) then
      let x := r.queue c.q
      r.setQueue c.q { x with waiting := x.waiting ++ [(c.seq, stOk, c.bytes)] }
    else
      match State.writeLeaves c.job (levelOf (bits pte 7 5)) (bit pte 0) ls r with
      | none => r.doneCmd c stNoRes noResult
      | some r1 =>
        let asid := (r.job c.job).asid
        (r1.tlbDrop (fun l => l.asid == asid && decide (overlap l.va l.size va (count * pageBytes (bits pte 7 5)) ≠ 0))
          (r.oldPages c.job ls)).doneCmd c stOk noResult) s

/-! ## PEER, SEED, VINTAGE (04 R87, R91; 03 R57) -/

/-- PEER: the entry is written whole. -/
def execPeer (s : State) : Out :=
  hostCmd (fun r c =>
    let i := c.arg 16 2
    let base := 0xFE_E000_0000 + c.job * 0x2_0000 + i * 32
    if 4095 < i then r.doneCmd c stBadArg noResult
    else
      ((List.range 4).foldl (fun w k => w.peerWrite (base + 8 * k) (c.arg (20 + 8 * k) 8)) r).doneCmd c stOk noResult) s

/-- SEED (05 R120). -/
def execSeed (s : State) : Out :=
  hostCmd (fun r c =>
    (r.setJob c.job { r.job c.job with seed := BitVec.ofNat 64 (c.arg 16 8) }).doneCmd c stOk noResult) s

/-- RESULT of a VINTAGE. -/
def VSet.result (v : VSet) : List Byte :=
  result16 (bytesOf 4 v.pub.toNat ++ v.latch.flatMap (fun l => bytesOf 2 l.toNat) ++ bytesOf 1 v.pubcopy)

/-- VINTAGE: a query, or a publication as VPUB makes it (04 R91). -/
def execVintage (s : State) : Out :=
  hostCmd (fun r c =>
    let v := c.arg 16 4
    let k := c.arg 21 1
    if 1 < c.arg 20 1 ∨ 3 < k ∨ (c.arg 20 1 = 0 ∧ k ≠ 0) ∨ !r.ownsSet c.job (BitVec.ofNat 64 v) then
      r.doneCmd c stBadArg noResult
    else if c.arg 20 1 = 0 then r.doneCmd c stOk (r.vset v).result
    else if ((r.vset v).bar k).isSome then r.doneCmd c stBadState noResult
    else (r.publish v k).doneCmd c stOk ((r.publish v k).vset v).result) s

/-! ## QUERY (04 R92) -/

/-- Codes of the power, security and debug states and of a job's state (04 R92). -/
def PowerState.code : PowerState → Nat
  | .active => 0
  | .capped => 1
  | .idle => 2
  | .retention => 3
  | .off => 4

/-- Code of a security state. -/
def SecState.code : SecState → Nat
  | .provisioning => 0
  | .secure => 1
  | .degraded => 2

/-- Code of a debug state. -/
def DebugState.code : DebugState → Nat
  | .locked => 0
  | .jobDebug _ => 1
  | .full => 2

/-- Code of a job's state. -/
def JobState.code : JobState → Nat
  | .closed => 0
  | .opened => 1
  | .held => 2

/-- The image of a KIND in a slot: the last one stored there, else the one from the factory (04 R93). -/
def Security.image (x : Security) (kind slot : Nat) : List Byte :=
  let b := Store.get [] (kind * 2 + slot) x.images
  if b.isEmpty then Config.factoryImage (kind * 2 + slot) else b

/-- The partitions of a job, by key. -/
def State.partsOf (s : State) (j : Nat) : List Nat :=
  (s.parts.filter (fun p => p.2.st != .free && p.2.job == j)).map (·.1)

/-- The kernels of a job, by id. -/
def State.kernelsOf (s : State) (j : Nat) : List Nat :=
  (s.kernels.filter (fun p => decide (p.1 / 2 ^ 32 = j) && p.2.st != .done)).map (fun p => p.1 % 2 ^ 32)

/-- The state that a job shows: held by PREEMPT, or with every unit pre-empted for deadlines (05 R102). -/
def State.jobSt (s : State) (j : Nat) : JobState :=
  let parts := (s.partsOf j).map s.part
  let kernels := (s.kernelsOf j).map (s.kernel j)
  if (s.job j).st = .opened ∧ !(parts.isEmpty && kernels.isEmpty) ∧ parts.all (fun p => p.isPreempted && p.deadlineHold) ∧
      kernels.all (fun k => k.st == .preempted && k.deadlineHold) then .held
  else (s.job j).st

/-- What QUERY returns for a selector. -/
def State.queryResult (s : State) (sel job : Nat) : Option (List Byte) :=
  let sec := s.pkg.sec
  match sel with
  | 0 =>
    some (bytesOf 4 Config.partRevision.toNat ++ sub (sec.image 1 (Store.get 0 1 sec.ran - 1) ++ List.replicate 8 0) 4 4 ++
      bytesOf 8 s.pkg.starts.read)
  | 1 =>
    some (wordBytes s.ptime ++ bytesOf 1 s.pkg.power.st.code ++ bytesOf 1 sec.st.code ++ bytesOf 1 sec.access.code ++
      bytesOf 1 s.pkg.power.duty ++ bytesOf 4 (s.jobs.filter (fun p => p.2.st != .closed)).length)
  | 2 =>
    let j := s.job job
    some (bytesOf 1 (s.jobSt job).code ++ bytesOf 1 j.cls ++ bytesOf 2 j.asid ++
      bytesOf 4 (s.kernels.filter (fun p => decide (p.1 / 2 ^ 32 = job) && p.2.st != .done)).length ++
      bytesOf 8 j.freezeCycles)
  | _ => none

/-- QUERY. -/
def execQuery (s : State) : Out :=
  hostCmd (fun r c =>
    match r.queryResult (c.arg 16 1) c.job with
    | some b => r.doneCmd c stOk (result16 b)
    | none => r.doneCmd c stBadArg noResult) s

/-! ## ATTEST (04 R97) -/

/-- The measurement of the image of a KIND that runs (04 R93). -/
def Security.measure (x : Security) (kind : Nat) : List Byte := (Store.get [] kind x.measured ++ List.replicate 32 0).take 32

/-- Bytes 0 to 191 of a report. -/
def State.reportBody (s : State) (nonce : List Byte) (job : Option Nat) : List Byte :=
  let sec := s.pkg.sec
  let jobm := match job with
    | some j => sha256 (s.job j).measurements.flatten
    | none => List.replicate 32 0
  bytesOf 4 1 ++ bytesOf 1 sec.st.code ++ bytesOf 1 sec.access.code ++
    bytesOf 1 (b2n sec.mark + 2 * b2n s.pkg.starts.safe) ++ [0] ++ wordBytes s.ptime ++ nonce ++ sec.measure 1 ++
    sec.measure 2 ++ jobm ++ sha256 identityKey ++ (Config.serial ++ List.replicate 16 0).take 16

/-- A block of bytes written to a host buffer in packets of at most 4,096 bytes (03 R51). -/
def State.hostBuffer (s : State) (c : Cmd) (va : Nat) (b : List Byte) : State :=
  ((chunks 4096 b).foldl (fun (q : State × Nat) k => (q.1.hostWrite c.q c.seq q.2 k, q.2 + k.length)) (s, va)).1

/-- ATTEST: the report is signed and written to the host address. -/
def execAttest (s : State) : Out :=
  hostCmd (fun r c =>
    let with_ := c.arg 56 1
    if 1 < with_ then r.doneCmd c stBadArg noResult
    else if with_ = 1 ∧ (256 ≤ c.job ∨ (r.job c.job).st = .closed) then r.doneCmd c stBadJob noResult
    else if !r.entryUsable hostJob c.q then r.doneCmd c stHostIo noResult
    else
      let body := r.reportBody (sub c.bytes 16 32) (if with_ = 1 then some c.job else none)
      (r.doneCmd c stOk noResult).hostBuffer c (c.arg 48 8) (body ++ identitySign body)) s

/-! ## DEBUG (04 R98, R99) -/

/-- Whether a debug token is accepted (04 R98). -/
def State.tokenOk (s : State) (t : List Byte) : Bool :=
  let kind := field t 4 1
  let key := if kind = 2 then some Config.vendorDebugKey
    else if kind = 1 ∧ field t 6 2 < 256 ∧ (s.job (field t 6 2)).st ≠ .closed then (s.job (field t 6 2)).key
    else none
  match key with
  | none => false
  | some k =>
    field t 0 4 == 1 && field t 5 1 == 0 && field t 48 16 == 0 && decide (s.ptime.toNat < field t 8 8) &&
      (sub t 16 32 == sha256 identityKey) && ecdsaVerify k (t.take 64) (sub t 64 64)

/-- The entry to full debug: every open job is closed and DEBUGMARK is set (04 R99). -/
def State.enterFull (s : State) : State :=
  let s1 := ((s.jobs.filter (fun p => p.2.st != .closed)).map (·.1)).foldl State.closeJob s
  s1.setPkg { s1.pkg with sec := { s1.pkg.sec with access := .full, mark := true } }

/-- Job-debug of a job until NOTAFTER (04 R99). -/
def State.enterJobDebug (s : State) (j : Nat) (notAfter : Nat) : State :=
  s.setPkg { s.pkg with sec := { s.pkg.sec with access := .jobDebug j, notAfter := BitVec.ofNat 64 notAfter } }

/-- DEBUG: a token is entered, or job-debug is left (04 R98, R99). -/
def execDebug (s : State) : Out :=
  hostCmd (fun r c =>
    let op := c.arg 24 1
    let sec := r.pkg.sec
    if 1 < op then r.doneCmd c stBadArg noResult
    else if sec.access = .full then r.doneCmd c stBadState noResult
    else if op = 1 then
      if sec.access = .locked then r.doneCmd c stBadState noResult
      else (r.setPkg { r.pkg with sec := { sec with access := .locked } }).doneCmd c stOk noResult
    else
      match r.hostRead c.q (c.arg 16 8) 128 with
      | none => r.doneCmd c stHostIo noResult
      | some t =>
        if !r.tokenOk t then r.doneCmd c stAuth noResult
        else if field t 4 1 = 2 then r.enterFull.doneCmd c stOk noResult
        else if sec.access = .locked ∨ sec.access = DebugState.jobDebug (field t 6 2) then
          (r.enterJobDebug (field t 6 2) (field t 8 8)).doneCmd c stOk noResult
        else r.doneCmd c stBadState noResult) s

/-! ## FWLOAD and START (04 R93 to R95; 02 R49) -/

/-- Whether a signed image is accepted (04 R94, R95). -/
def State.imageOk (s : State) (b : List Byte) : Bool :=
  let kind := field b 0 4
  let len := field b 8 4
  decide (1 ≤ kind) && decide (kind ≤ 4) && (kind != 4 || s.pkg.sec.st == .provisioning) && field b 12 4 == 0 &&
    field b 48 16 == 0 && decide (len ≤ 2 ^ 26) && decide (b.length = 128 + len) &&
    decide (Store.get 0 kind s.pkg.sec.minSvn ≤ field b 4 4) && (sub b 16 32 == sha256 (b.drop 128)) &&
    ecdsaVerify Config.vendorKey (b.take 64) (sub b 64 64)

/-- An accepted image stored in the slot of its KIND that did not run the present start, which becomes preferred; where neither
ran, in the one that is not preferred (log entry 173). -/
def Security.store (x : Security) (b : List Byte) : Nat × Security :=
  let kind := field b 0 4
  let slot := match Store.get 0 kind x.ran with
    | 0 => 1 - Store.get 0 kind x.preferred
    | n + 1 => 1 - n
  (slot, { x with images := Store.put [] (kind * 2 + slot) b x.images, preferred := Store.put 0 kind slot x.preferred })

/-- FWLOAD: an image is verified and stored, or refused with AUTH (04 R95). -/
def execFwload (s : State) : Out :=
  hostCmd (fun r c =>
    match r.hostRead c.q (c.arg 16 8) (c.arg 24 4) with
    | none => r.doneCmd c stHostIo noResult
    | some b =>
      if r.imageOk b then
        let x := r.pkg.sec.store b
        (r.setPkg { r.pkg with sec := x.2 }).doneCmd c stOk (result16 (bytesOf 1 x.1))
      else r.doneCmd c stAuth noResult) s

/-- START: a start is asked for, warm only from retention; from safe mode FAILS becomes 2 (04 R87; 02 R47, R49). -/
def execStart (s : State) : Out :=
  hostCmd (fun r c =>
    if 1 < c.arg 16 1 then r.doneCmd c stBadArg noResult
    else
      let st := r.pkg.starts
      let warm := c.arg 16 1 == 0 && r.pkg.power.st == .retention && !st.safe
      (r.setPkg { r.pkg with starts := { st with fails := if st.safe then 2 else st.fails, asked := some warm } }).doneCmd c
        stOk noResult) s

end Sys2Proof.Machine
end

