-- ==== Sys2Proof/Machine/Images.lean ====
section
/-! DEFINITION. Schedule images: their parts, and the checks that a load makes of them (05 R106, R109; 09 R244 to R246, R254,
R260; 11 R325, R326, R332 to R334; 03 R66). -/

namespace Sys2Proof.Machine

open Sys2Proof

/-! ## Refusal causes (05 R109) -/

/-- IMAGE. -/
def rImage : Nat := 1
/-- STREAMOP. -/
def rStreamop : Nat := 2
/-- BLOCKS. -/
def rBlocks : Nat := 3
/-- FOOTPRINT. -/
def rFootprint : Nat := 4
/-- SHAPE. -/
def rShape : Nat := 5
/-- WINDOWS. -/
def rWindows : Nat := 6
/-- CROSSING. -/
def rCrossing : Nat := 7
/-- HBMSLOTS. -/
def rHbmSlots : Nat := 8
/-- CAPACITY. -/
def rCapacity : Nat := 9
/-- CORELIST. -/
def rCorelist : Nat := 10
/-- BUSY. -/
def rBusy : Nat := 11
/-- DEP. -/
def rDep : Nat := 12

/-- A check: the cause of a refusal where it fails. -/
def need (ok : Bool) (cause : Nat) : Except Nat Unit := if ok then .ok () else .error cause

/-! ## The parts of an image (11 R332, R333) -/

/-- A tile-map entry: column, row and the halfword entries of X, F and M. -/
structure TileEntry where
  col : Nat
  row : Nat
  x : Nat
  f : Nat
  m : Nat
  deriving DecidableEq, Repr

/-- A crossing entry. -/
structure Crossing where
  col : Nat
  row : Nat
  dir : Nat
  slot : Nat
  deriving DecidableEq, Repr

/-- A schedule image read into its fields. -/
structure Sched where
  span : Bool
  nvslot : Nat
  flen : Nat
  storeOff : Nat
  ratio : List Nat
  ts : Nat
  w : Nat
  h : Nat
  tlat : Nat
  xhw : Nat
  fhw : Nat
  mhw : Nat
  store : List Byte
  wins : List (List Byte)
  defaults : List Word
  bmap : List Nat
  slots : List Nat
  tmap : List TileEntry
  tdata : List (Nat × List Byte)
  cross : List (List Byte)
  deriving DecidableEq, Repr

/-- A part cut off the front of the bytes that remain, padded to a multiple of 8. -/
def cutPart (n : Nat) (b : List Byte) : Except Nat (List Byte × List Byte) :=
  let m := ceilDiv n 8 * 8
  if b.length < m then .error rImage else .ok (b.take n, b.drop m)

/-- The tile-data segments, with the bytes after them and how many bytes they took. -/
def cutSegments : Nat → Nat → List Byte → Except Nat (List (Nat × List Byte) × List Byte × Nat)
  | 0, used, b => .ok ([], b, used)
  | n + 1, used, b =>
    let len := field b 4 4
    if b.length < 8 + len then .error rImage
    else
      match cutSegments n (used + 8 + len) (b.drop (8 + len)) with
      | .error e => .error e
      | .ok (l, r) => .ok ((field b 0 4, sub b 8 len) :: l, r)

/-- Whether the header of a schedule image is well formed (11 R332). -/
def schedHeaderOk (b : List Byte) : Bool :=
  decide (64 ≤ b.length) && field b 0 4 == 0x4843534A && field b 4 2 == 1 && decide (field b 6 1 ≤ 1) &&
    decide (field b 7 1 ≤ 4) && field b 44 12 == 0 && field b 60 4 == 0 &&
    field b 56 4 == (crc32c (b.drop 64)).toNat && field b 32 4 != 0 && field b 36 4 != 0 && field b 40 4 != 0

/-- A tile-map entry from its bytes. -/
def tileEntry (e : List Byte) : TileEntry :=
  { col := field e 0 2, row := field e 2 2, x := field e 4 4, f := field e 8 4, m := field e 12 4 }

/-- A schedule image read: IMAGE where its header or its length is wrong. -/
def parseSched (b : List Byte) : Except Nat Sched := do
  need (schedHeaderOk b) rImage
  let total := field b 32 4 + field b 36 4 + field b 40 4
  let (store, b1) ← cutPart (2 * total) (b.drop 64)
  let (wins, b2) ← cutPart (24 * field b 21 1) b1
  let (defaults, b3) ← cutPart 128 b2
  let (bmap, b4) ← cutPart 1024 b3
  let (slots, b5) ← cutPart (4 * field b 7 1) b4
  let (tmap, b6) ← cutPart (16 * field b 26 2) b5
  let (tdata, b7, used) ← cutSegments (field b 28 2) 0 b6
  let pad := (8 - used % 8) % 8
  need (decide (pad ≤ b7.length)) rImage
  let (cross, b8) ← cutPart (8 * field b 30 2) (b7.drop pad)
  need b8.isEmpty rImage
  pure
    { span := field b 6 1 == 1, nvslot := field b 7 1, flen := field b 8 4, storeOff := field b 12 4,
      ratio := [field b 16 1, field b 17 1, field b 18 1, field b 19 1], ts := field b 20 1, w := field b 22 1,
      h := field b 23 1, tlat := field b 24 2, xhw := field b 32 4, fhw := field b 36 4, mhw := field b 40 4,
      store := store, wins := chunks 24 wins, defaults := (chunks 8 defaults).map wordOf,
      bmap := (chunks 2 bmap).map natOf, slots := (chunks 4 slots).map natOf,
      tmap := (chunks 16 tmap).map tileEntry, tdata := tdata, cross := chunks 8 cross }

/-! ## The bodies (09 R244 to R246, R260; 11 R324 to R327) -/

/-- A decoded instruction of a body: its halfword offset in the store, the instruction and its length. -/
structure Node where
  off : Nat
  i : Instr
  len : Nat
  deriving DecidableEq, Repr

/-- Whether an instruction may stand in a stream (11 R326; 14 R431). -/
def validIn (st : StreamId) (i : Instr) : Bool :=
  match i with
  | .blk .. | .nop | .dly .. | .wut .. | .brc .. | .kli .. | .kliHi .. | .kliAdd .. | .kliMul .. | .kop .. | .endT => true
  | .tkp f _ => decide (nth 3 [0, 1, 1, 2, 0, 2] f.toNat = st.code)
  | .tkw f _ => decide (nth 3 [1, 0, 2, 1, 2, 0] f.toNat = st.code)
  | .hld .. | .hst .. | .hac .. | .lks .. | .lkr .. | .lka .. | .win .. | .wcl .. | .prd .. | .vlt .. | .tld .. | .scp .. =>
    st == .x
  | .qnt .. | .dqn .. | .cvt .. | .trn .. | .pak .. | .srs .. | .fmt .. => st == .f
  | .wld .. | .mma .. | .acr .. | .acz .. | .var .. | .vly .. | .vsy .. | .vrd .. | .vtr .. | .vcm .. | .vsl .. => st == .m
  | _ => false

/-- Whether two halfwords are a BLK whose length or immediate count is out of range (11 R325). -/
def badBlk (h0 h1 : Half) : Bool :=
  let w := (trellisWord h0 h1).toNat
  bits w 31 26 == 1 && (bits w 25 14 == 0 || (bits w 13 13 == 0 && bits w 12 0 == 0))

/-- Whether an instruction may follow a BRC (09 R260). -/
def followsBrc : Instr → Bool
  | .blk .. => true
  | .endT => true
  | _ => false

/-- What a load's checks of one instruction need besides the stream: the freeze lead, the window ids of the table and
NVSLOT. -/
structure LoadCtx where
  lead : Nat
  wids : List Nat
  nvslot : Nat
  deriving DecidableEq, Repr

/-- The load checks of one instruction by itself (09 R254; 11 R326; 14 R442, R444). -/
def LoadCtx.check (c : LoadCtx) (st : StreamId) (i : Instr) : Except Nat Unit := do
  need (validIn st i) rStreamop
  match i with
  | .win id n => need (c.wids.contains id.toNat && (n == 0 || decide (c.lead < n.toNat))) rWindows
  | .vlt sl => need (decide (sl.toNat < c.nvslot)) rImage
  | _ => pure ()

/-- The open blocks after a BLK: its end, within the block it stands in, at most two levels, and within the loop buffer
unless it runs once (09 R245; 11 R325). -/
def openBlk (bound : Nat) (ends : List Nat) (off len kind count : Nat) : Except Nat (List Nat) :=
  let e := off + 2 + len
  if bound < e ∨ 2 ≤ ends.length ∨ (1024 < 2 + len ∧ ¬(kind = 0 ∧ count = 1)) then .error rBlocks else .ok (e :: ends)

/-- Whether a halfword begins a 32-bit instruction (11 R324, R326). -/
def isLong (h : Half) : Bool :=
  let op := h.extractLsb' 10 6
  !isShort op && decide (1 ≤ op.toNat) && decide (op.toNat ≤ 40)

/-- A body decoded from an offset to its end, every instruction checked whatever the paths, and none running over the end of
the stream's body or of a block's (11 R325, R333). `brc` says
that a BRC stands just before. -/
def scanBody (c : LoadCtx) (st : StreamId) (stop : Nat) : Nat → Nat → List Nat → Bool → List Half → Except Nat (List Node)
  | 0, _, _, _, _ => .error rImage
  | fuel + 1, off, ends, brc, hs =>
    let open_ := ends.filter (fun e => decide (off < e))
    let bound := open_.headD stop
    match hs with
    | [] => if brc then .error rStreamop else .ok []
    | h0 :: t => do
      let h1 := t.headD 0
      need (!(badBlk h0 h1) && !(isLong h0 && decide (bound < off + 2))) rBlocks
      match decodeTrellis h0 h1 with
      | .error _ => .error rStreamop
      | .ok (i, len) =>
        need (!brc || followsBrc i) rStreamop
        c.check st i
        let ends1 ← (match i with
          | .blk n k cnt => openBlk bound open_ off n.toNat k.toNat cnt.toNat
          | _ => .ok open_)
        let isBrc := match i with
          | .brc .. => true
          | _ => false
        let rest ← scanBody c st stop fuel (off + len) ends1 isBrc (hs.drop len)
        pure ({ off := off, i := i, len := len } :: rest)

/-- The halfwords of a store. -/
def halvesOf (b : List Byte) : List Half := (chunks 2 b).map (fun l => BitVec.ofNat 16 (natOf l))

/-- First halfword and length of a stream's body. -/
def Sched.body (d : Sched) : StreamId → Nat × Nat
  | .x => (0, d.xhw)
  | .f => (d.xhw, d.fhw)
  | .m => (d.xhw + d.fhw, d.mhw)

/-- A stream's body decoded and checked. -/
def Sched.scan (d : Sched) (c : LoadCtx) (st : StreamId) : Except Nat (List Node) :=
  let (lo, n) := d.body st
  scanBody c st (lo + n) (n + 1) lo [] false ((halvesOf d.store).drop lo |>.take n)

/-! ## Every path of a stream (09 R246, R254; 05 R109; 03 R66) -/

/-- What is known of a window id on the paths to a place: whether some path holds it open for a WCL, the most cycles that a
timed opening has left on some path, and the fewest that an opening has left on any, none where every path holds it open. -/
structure WinPath where
  held : Bool
  rem : Nat
  least : Option Nat
  deriving DecidableEq, Repr

/-- A window that no path has opened. -/
def WinPath.shut : WinPath := { held := false, rem := 0, least := some 0 }

/-- The fewer of the cycles left on two sets of paths; none stands for a window held open. -/
def leastOf : Option Nat → Option Nat → Option Nat
  | none, b => b
  | a, none => a
  | some a, some b => some (Nat.min a b)

/-- A window `occ` cycles later, or after an occupancy that is not known. -/
def WinPath.later (w : WinPath) (occ : Option Nat) : WinPath :=
  { w with
    rem := w.rem - occ.getD 1,
    least := w.least.map (fun n => match occ with
      | some k => n - k
      | none => 0) }

/-- Whether a window is open on every path: a WCL may close it (09 R254; log entry 59). -/
def WinPath.surely (w : WinPath) : Bool := w.least != some 0

/-- The paths to a place: whether there is one, the sixteen windows, and the sends made so far as form and direction, with
4 for an LKA that forwards. -/
structure Paths where
  live : Bool
  wins : List WinPath
  sends : List (Nat × Nat)
  deriving DecidableEq, Repr

/-- The start of a stream. -/
def Paths.start : Paths := { live := true, wins := List.replicate 16 WinPath.shut, sends := [] }

/-- Sends added to others. -/
def addSends (a b : List (Nat × Nat)) : List (Nat × Nat) := a ++ b.filter (fun x => !a.contains x)

/-- Two sets of paths that meet. -/
def Paths.join (a b : Paths) : Paths :=
  let sends := addSends a.sends b.sends
  if !a.live then { b with sends := sends }
  else if !b.live then { a with sends := sends }
  else
    { live := true, sends := sends,
      wins := zipWith2 (fun (x y : WinPath) =>
        { held := x.held || y.held, rem := Nat.max x.rem y.rem, least := leastOf x.least y.least }) a.wins b.wins }

/-- The paths that many cycles later. -/
def Paths.tick (p : Paths) (occ : Option Nat) : Paths := { p with wins := p.wins.map (fun w => w.later occ) }

/-- Paths that further passes of a body join, with what still falls taken to its end. -/
def Paths.widen (p q : Paths) : Paths :=
  { q with wins := zipWith2 (fun (x y : WinPath) => if y.least = x.least then y else { y with least := some 0 }) p.wins q.wins }

/-- Whether every window is closed on every path. -/
def Paths.closed (p : Paths) : Bool := p.wins.all (fun w => !w.held && w.rem == 0)

/-- A window of the paths. -/
def Paths.win (p : Paths) (id : BitVec 4) : WinPath := nth WinPath.shut p.wins id.toNat

/-- A window of the paths replaced. -/
def Paths.setWin (p : Paths) (id : BitVec 4) (w : WinPath) : Paths := { p with wins := setAt p.wins id.toNat w }

/-- The paths past one instruction, or the refusal that some path meets: a WIN on an open id, a WCL on one that is not
open, or an END before a close (05 R109; 09 R254). -/
def Paths.past (p : Paths) (i : Instr) : Except Nat Paths :=
  if !p.live then .ok p
  else
    let k := occupancy (fun _ => none) i
    match i with
    | .endT => if p.closed then .ok { p with live := false } else .error rWindows
    | .win id n =>
      if (p.win id).held || (p.win id).rem != 0 then .error rWindows
      else .ok ((p.setWin id { held := n == 0, rem := n.toNat, least := if n = 0 then none else some n.toNat }).tick k)
    | .wcl id =>
      if (p.win id).surely then .ok ((p.setWin id WinPath.shut).tick k) else .error rWindows
    | .lks _ form dir _ => .ok { p.tick k with sends := addSends p.sends [(form.toNat, dir.toNat)] }
    | .lka _ dir out _ _ _ =>
      .ok { p.tick k with sends := if out = 0 then addSends p.sends [(4, oppositeDir dir.toNat)] else p.sends }
    | _ => .ok (p.tick k)

/-- A list of items passed in order; an item that stands after a BRC is passed or skipped. -/
def passAll {α : Type} (f : α → Paths → Except Nat Paths) (isBrc : α → Bool) : Bool → List α → Paths → Except Nat Paths
  | _, [], p => .ok p
  | skip, a :: t, p =>
    match f a p with
    | .error e => .error e
    | .ok q => passAll f isBrc (isBrc a) t (if skip then q.join p else q)

/-- A body passed `n` times, no further once a pass changes nothing. -/
def passTimes (f : Paths → Except Nat Paths) : Nat → Paths → Except Nat Paths
  | 0, p => .ok p
  | n + 1, p =>
    match f p with
    | .error e => .error e
    | .ok q => if q = p then .ok q else passTimes f n q

/-- A body passed any number of times, none included: the paths that can meet at its end. What has not come to rest after four
passes falls with every pass, as each path through the body either sets it anew or takes cycles from it. -/
def passAny (f : Paths → Except Nat Paths) : Nat → Paths → Except Nat Paths
  | 0, p => .ok p
  | n + 1, p =>
    match f p with
    | .error e => .error e
    | .ok q => if p.join q = p then .ok p else passAny f n (if 60 ≤ n then p.join q else p.widen (p.join q))

/-- A block's body passed as its kind and count say; every register count is possible (09 R254). -/
def passBlock (kind count : Nat) (f : Paths → Except Nat Paths) (p : Paths) : Except Nat Paths :=
  let q := p.tick (some 1)
  if !p.live then .ok p else if kind = 0 then passTimes f count q else passAny f 64 q

/-- Whether an instruction is a BRC. -/
def isBrc : Instr → Bool
  | .brc .. => true
  | _ => false

/-- An item of a body: an instruction, or a block with its items. -/
inductive Item (α : Type) where
  | one (i : Instr)
  | block (kind count : Nat) (body : List α)
  deriving DecidableEq, Repr

/-- Whether an item ends with a BRC: an instruction that is one, or a block whose body ends with one. -/
def Item.isBrc {α : Type} (f : α → Bool) : Item α → Bool
  | .one i => Sys2Proof.Machine.isBrc i
  | .block kind count body => (kind != 0 || count != 0) && (body.getLast?.map f).getD false

/-- An item passed, its body's items by `f`. -/
def passItem {α : Type} (f : List α → Paths → Except Nat Paths) : Item α → Paths → Except Nat Paths
  | .one i, p => p.past i
  | .block k n b, p => passBlock k n (f b) p

/-- Nodes grouped into the blocks of the outermost level, their bodies by `f`. -/
def group {α : Type} (f : List Node → List α) : Nat → List Node → List (Item α)
  | 0, _ => []
  | _, [] => []
  | fuel + 1, x :: t =>
    match x.i with
    | .blk n k c =>
      let e := x.off + 2 + n.toNat
      .block k.toNat c.toNat (f (t.takeWhile (fun y => decide (y.off < e)))) ::
        group f fuel (t.dropWhile (fun y => decide (y.off < e)))
    | i => .one i :: group f fuel t

/-- Every path of a stream that starts at an entry of its body: an end without END is IMAGE (09 R246). The paths' sends
are given back. -/
def pathsFrom (nodes : List Node) (entry : Nat) : Except Nat (List (Nat × Nat)) :=
  let l := nodes.dropWhile (fun x => decide (x.off < entry))
  let n := l.length
  let brc := fun (x : Node) => isBrc x.i
  let inner := passAll (fun (x : Node) p => p.past x.i) brc false
  let middle := passAll (passItem inner) (Item.isBrc brc) false
  match passAll (passItem middle) (Item.isBrc (Item.isBrc brc)) false (group (group id n) n l) Paths.start with
  | .error e => .error e
  | .ok p => if p.live then .error rImage else .ok p.sends

end Sys2Proof.Machine
end

