-- ==== Sys2Proof/Machine/Loads.lean ====
section
/-! DEFINITION. Loading a schedule: the checks that need the package, the footprint base, and the partition that starts (03
R66, R69; 05 R105 to R108; 09 R240, R241, R256, R261, R268, R270, R271; 11 R332 to R334). -/

namespace Sys2Proof.Machine

open Sys2Proof

/-! ## Static checks (05 R106, R108, R109; 11 R332, R333) -/

/-- The freeze lead of an image (03 R69; 09 R270). -/
def Sched.lead (d : Sched) : Nat := if d.span then 16 + d.tlat else 16

/-- Byte length of the schedule store. -/
def Sched.storeLen (d : Sched) : Nat := 2 * (d.xhw + d.fhw + d.mhw)

/-- FLEN and the store in range (05 R106; 11 R332, R333). -/
def Sched.footprintOk (d : Sched) : Bool :=
  d.flen % 4096 == 0 && decide (4096 ≤ d.flen) && decide (d.flen ≤ tileSize) && d.storeOff % 8 == 0 &&
    decide (d.storeOff + d.storeLen ≤ d.flen)

/-- The slot ratio and demand in range (05 R106). -/
def Sched.ratioOk (d : Sched) : Bool :=
  let r := fun (i : Nat) => nth 0 d.ratio i
  decide (r 0 ≤ 48) && decide (8 ≤ r 1) && decide (4 ≤ r 3) && r 0 + r 1 + r 2 + r 3 == 64 && decide (d.ts ≤ r 0)

/-- A window-table entry. -/
def winDef (e : List Byte) : WinDef :=
  { wid := field e 0 1, off := field e 8 4, len := field e 12 4, rd := bit (field e 1 1) 0, wr := bit (field e 1 1) 1,
    mask := BitVec.ofNat 16 (field e 4 2), stall := field e 2 1 == 1, timeout := field e 16 4 }

/-- Whether a window-table entry is in range by itself (11 R333). -/
def winEntryOk (e : List Byte) : Bool :=
  let tmo := field e 16 4
  decide (field e 0 1 ≤ 15) && decide (1 ≤ field e 1 1) && decide (field e 1 1 ≤ 3) && decide (field e 2 1 ≤ 1) &&
    field e 3 1 == 0 && field e 6 2 == 0 && field e 20 4 == 0 && field e 8 4 % 8 == 0 && field e 12 4 % 8 == 0 &&
    decide (8 ≤ field e 12 4) && decide (field e 12 4 ≤ tileSize) &&
    (if field e 2 1 = 1 then decide (1 ≤ tmo) && decide (tmo < 2 ^ 24) else tmo == 0)

/-- Whether a range meets the schedule store. -/
def Sched.onStore (d : Sched) (off len : Nat) : Bool := decide (overlap off len d.storeOff d.storeLen ≠ 0)

/-- The window table's checks: FOOTPRINT for a region outside FLEN, as R109 and R333 say, WINDOWS for the rest. DEDUCED: R254 names
WINDOWS for that region too (05 R109; 09 R254; 11 R333; log entry 178). -/
def Sched.windowsOk (d : Sched) : Except Nat Unit := do
  need (decide (d.wins.length ≤ 16) && d.wins.all winEntryOk && decide ((d.wins.map (fun e => field e 0 1)).Nodup)) rWindows
  need (d.wins.all (fun e => decide (field e 8 4 + field e 12 4 ≤ d.flen))) rFootprint
  need (d.wins.all (fun e => !d.onStore (field e 8 4) (field e 12 4))) rWindows

/-- Whether every tile-map entry names a tile of the partition once, and instruction boundaries of the bodies (11 R333). -/
def Sched.tileMapOk (d : Sched) (x f m : List Node) : Bool :=
  let at_ := fun (l : List Node) (o : Nat) => l.any (fun n => n.off == o)
  decide ((d.tmap.map (fun e => (e.col, e.row))).Nodup) &&
    d.tmap.all (fun e =>
      decide (e.col < 8 * d.w) && decide (e.row < 8 * d.h) && at_ x e.x && at_ f e.f && at_ m e.m)

/-- The entry of a stream at a tile: the tile map's, or the body's start. -/
def Sched.entry (d : Sched) (col row : Nat) (st : StreamId) : Nat :=
  match d.tmap.find? (fun e => e.col == col && e.row == row) with
  | some e =>
    match st with
    | .x => e.x
    | .f => e.f
    | .m => e.m
  | none => (d.body st).1

/-- The entries of a stream at all tiles, once each. -/
def Sched.entries (d : Sched) (st : StreamId) : List Nat :=
  let listed := d.tmap.map (fun e => d.entry e.col e.row st)
  (if decide (d.tmap.length < 64 * d.w * d.h) then (d.body st).1 :: listed else listed).dedup

/-- The first refusal among every path of every entry of a stream, with each entry's sends (09 R246, R254). -/
def pathsAll (nodes : List Node) : List Nat → Except Nat (List (Nat × List (Nat × Nat)))
  | [] => .ok []
  | e :: t => do
    let s ← pathsFrom nodes e
    let r ← pathsAll nodes t
    pure ((e, s) :: r)

/-! ## The rectangle and its crossings (03 R66; 05 R105; 09 R270; 11 R333, R334) -/

/-- Pod-block origin of a partition whose origin block is one of this package, or its package-grid origin. -/
def State.originOf (s : State) (span : Bool) (b : Nat) : Nat × Nat :=
  let p := s.pkg.pod
  if span then (4 * p.px.toNat + b % 4, 4 * p.py.toNat + b / 4) else (b % 4, b / 4)

/-- Whether a rectangle lies inside the grid of its package, or the plane of its pod. -/
def State.shapeOk (s : State) (span : Bool) (b w h : Nat) : Bool :=
  let p := s.pkg.pod
  let o := s.originOf span b
  let maxX := if span then 4 * (p.dxm.toNat + 1) else 4
  let maxY := if span then 4 * (p.dym.toNat + 1) else 4
  decide (b < 16) && decide (1 ≤ w) && decide (1 ≤ h) && decide (o.1 + w ≤ maxX) && decide (o.2 + h ≤ maxY)

/-- The tile a hop leads to in a direction, in columns and rows of the partition; none at its edge. -/
def hopTo (w h col row dir : Nat) : Option (Nat × Nat) :=
  match dir with
  | 0 => if row = 0 then none else some (col, row - 1)
  | 1 => if col + 1 < 8 * w then some (col + 1, row) else none
  | 2 => if row + 1 < 8 * h then some (col, row + 1) else none
  | _ => if col = 0 then none else some (col - 1, row)

/-- The package of a tile of a partition with a pod-block origin. -/
def pkgOf (o : Nat × Nat) (col row : Nat) : Nat × Nat := ((8 * o.1 + col) / 32, (8 * o.2 + row) / 32)

/-- Whether a hop crosses a package boundary. -/
def crosses (o : Nat × Nat) (w h col row dir : Nat) : Bool :=
  match hopTo w h col row dir with
  | some t => pkgOf o col row != pkgOf o t.1 t.2
  | none => false

/-- The crossings on the way in one direction to the partition's edge. -/
def crossingsAlong (o : Nat × Nat) (w h dir : Nat) : Nat → Nat → Nat → List (Nat × Nat × Nat)
  | 0, _, _ => []
  | fuel + 1, col, row =>
    match hopTo w h col row dir with
    | none => []
    | some t =>
      let rest := crossingsAlong o w h dir fuel t.1 t.2
      if crosses o w h col row dir then (col, row, dir) :: rest else rest

/-- The crossings that a send of a tile can make: a single hop, or a multicast both ways (03 R66; 14 R438, R440). -/
def crossingsOf (o : Nat × Nat) (w h col row : Nat) (send : Nat × Nat) : List (Nat × Nat × Nat) :=
  match send.1 with
  | 1 => crossingsAlong o w h 1 (8 * w) col row ++ crossingsAlong o w h 3 (8 * w) col row
  | 2 => crossingsAlong o w h 0 (8 * h) col row ++ crossingsAlong o w h 2 (8 * h) col row
  | _ => if crosses o w h col row send.2 then [(col, row, send.2)] else []

/-- The crossing entries of an image. -/
def Sched.crossings (d : Sched) : List Crossing :=
  d.cross.map (fun e => { col := field e 0 2, row := field e 2 2, dir := field e 4 1, slot := field e 5 1 })

/-- Whether the crossing table is valid and lists every crossing that a path of a tile which the tile map names can make (03 R66; 11
R333). DEDUCED: R66 asks it for each tile to which the tile map gives the code, and the worked image of 16, which has no tile map,
lists its corner tiles alone and loads (log entry 177). -/
def Sched.crossingOk (d : Sched) (o : Nat × Nat) (sends : List (Nat × List (Nat × Nat))) : Bool :=
  let l := d.crossings
  let listed := l.map (fun c => (c.col, c.row, c.dir))
  d.cross.all (fun e => field e 6 2 == 0) &&
    l.all (fun c => decide (c.dir < 4) && decide (c.slot < 3) && decide (c.col < 8 * d.w) && decide (c.row < 8 * d.h) &&
      crosses o d.w d.h c.col c.row c.dir) &&
    decide ((l.map (fun c => (pkgOf o c.col c.row, c.dir, c.slot))).Nodup) &&
    d.tmap.all (fun m =>
      match sends.find? (fun e => e.1 == m.x) with
      | some e => e.2.all (fun x => (crossingsOf o d.w d.h m.col m.row x).all listed.contains)
      | none => true)

/-- Partitions that hold tiles of the package: loading, running or stopped in place. -/
def State.placedParts (s : State) : List (Nat × Partition) :=
  s.parts.filter (fun p => p.2.st != .free && p.2.tiles.any (fun t => (s.tile t).part == some p.1))

/-- The static checks of a schedule image, in the order of the causes as this model takes them: IMAGE, SHAPE, FOOTPRINT,
WINDOWS, HBMSLOTS, CROSSING, then the bodies and their paths (05 R109; 11 R332, R333). The greatest granule count of an
instruction is given with it. -/
def State.checkSched (s : State) (j : Nat) (b : List Byte) (origin w h : Nat) : Except Nat (Sched × Nat) := do
  let d ← parseSched b
  need (d.slots.all (fun v => s.ownsSet j (BitVec.ofNat 64 v))) rImage
  need (d.w == w && d.h == h && s.shapeOk d.span origin w h) rShape
  need d.footprintOk rFootprint
  d.windowsOk
  need (d.tdata.all (fun e => decide (e.1 + e.2.length ≤ d.flen) && !d.onStore e.1 e.2.length)) rFootprint
  need (d.ratioOk && (s.placedParts.isEmpty || d.ratio == s.ratio)) rHbmSlots
  let pod := s.pkg.pod
  need (if d.span then pod.form && pod.locked && d.tlat == pod.tlat.toNat else d.tlat == 0 && d.cross.isEmpty) rCrossing
  let c : LoadCtx := { lead := d.lead, wids := d.wins.map (fun e => field e 0 1), nvslot := d.nvslot }
  let x ← d.scan c .x
  let f ← d.scan c .f
  let m ← d.scan c .m
  need (d.tileMapOk x f m) rImage
  let sends ← pathsAll x (d.entries .x)
  let _ ← pathsAll f (d.entries .f)
  let _ ← pathsAll m (d.entries .m)
  need (!d.span || d.crossingOk (s.originOf true origin) sends) rCrossing
  let gran := x.map (fun n =>
    match n.i with
    | .hld _ _ n16 | .tld _ _ n16 _ | .hst _ _ n16 | .hac _ _ n16 _ => ceilDiv (n16Bytes n16) 64
    | _ => 1)
  pure (d, gran.foldl Nat.max 1)

/-! ## Dynamic conditions and the footprint base (05 R105 to R108; 09 R271) -/

/-- This package's tiles of a rectangle. -/
def State.tilesIn (s : State) (p : Partition) : List Nat :=
  (List.range nPos).filter (fun t =>
    decide (0 ≤ s.colOf p t) && decide (s.colOf p t < 8 * p.w) && decide (0 ≤ s.rowOf p t) && decide (s.rowOf p t < 8 * p.h))

/-- Whether the package can take a partition of a key now: its tiles free, its slot demand and ratio with those in force, fewer than
16 running, and its crossing slots free (05 R105, R106; 09 R271). -/
def State.canPlace (s : State) (pk : Nat) (p : Partition) : Bool :=
  let run := s.placedParts
  p.tiles.all (fun t => (s.tile t).part.isNone) && decide (run.length < 16) && (run.isEmpty || p.ratio == s.ratio) &&
    decide ((run.map (·.2.ts)).foldl (· + ·) p.ts ≤ nth 0 p.ratio 0) &&
    s.parts.all (fun q => q.1 == pk || q.2.crossing.all (fun c => p.crossing.all (fun e =>
      !(pkgOf (q.2.ox, q.2.oy) c.1 c.2.1 == pkgOf (p.ox, p.oy) e.1 e.2.1 && c.2.2 == e.2.2))))

/-- Bytes that pre-empted partitions hold on tiles within a range of offsets. -/
def State.heldIn (s : State) (tiles : List Nat) (off n : Nat) : Nat :=
  ((s.parts.map (fun p => ((p.2.heldBytes.filter (fun h => tiles.contains h.1)).map (fun h =>
    overlap off n h.2.1 (h.2.2 - h.2.1))).foldl (· + ·) 0))).foldl (· + ·) 0

/-- The footprint base: the one that overlaps the fewest held bytes, the lowest of equals (05 R107). -/
def State.pickFb (s : State) (tiles : List Nat) (flen : Nat) : Nat :=
  let fbs := (List.range ((tileSize - flen) / 4096 + 1)).map (· * 4096)
  (fbs.foldl (fun (b : Option (Nat × Nat)) fb =>
    let n := s.heldIn tiles fb flen
    match b with
    | none => some (fb, n)
    | some x => if n < x.2 then some (fb, n) else b) none).elim 0 (·.1)

/-- A range of held bytes cut where a claim takes its middle: what stays. -/
def cutHeld (t off n : Nat) (h : Nat × Nat × Nat) : List (Nat × Nat × Nat) :=
  if h.1 ≠ t ∨ overlap off n h.2.1 (h.2.2 - h.2.1) = 0 then [h]
  else
    (if h.2.1 < off then [(t, h.2.1, off)] else []) ++ (if off + n < h.2.2 then [(t, off + n, h.2.2)] else [])

/-- The part of a range of held bytes that a claim takes. -/
def takeHeld (t off n : Nat) (h : Nat × Nat × Nat) : Option (Nat × Nat) :=
  if h.1 ≠ t ∨ overlap off n h.2.1 (h.2.2 - h.2.1) = 0 then none
  else some (Nat.max off h.2.1, overlap off n h.2.1 (h.2.2 - h.2.1))

/-- The bytes of a tile that a claim takes from a pre-empted partition saved out of it (05 R123). -/
def State.forceOut (s : State) (pk t off n : Nat) : State :=
  let p := s.part pk
  let out := p.heldBytes.filterMap (takeHeld t off n)
  if out.isEmpty then s
  else
    s.setPart pk { p with
      heldBytes := p.heldBytes.flatMap (cutHeld t off n),
      savedBytes := p.savedBytes ++ out.map (fun r => (t, r.1, s.bytes (tilePa t r.1) r.2)),
      savedCount := p.savedCount + (out.map (·.2)).foldl (· + ·) 0 }

/-- Every pre-empted partition's bytes in a footprint saved out of it. -/
def State.forceAll (s : State) (tiles : List Nat) (off n : Nat) : State :=
  let ps := (s.parts.filter (fun p => !p.2.heldBytes.isEmpty)).map (·.1)
  tiles.foldl (fun w t => ps.foldl (fun r p => r.forceOut p t off n) w) s

/-! ## Partition numbers (05 R105) -/

/-- The lowest partition number that none holds, if any. -/
def State.freeNum (s : State) : Option Nat := lowestFree 16 (fun n => s.parts.all (fun p => p.2.num != some n))

/-- A number for a load: the lowest free one, else the lowest of a pre-empted partition, which loses it but for asking for it
again at its resume. -/
def State.loadNum (s : State) : Nat × State :=
  match s.freeNum with
  | some n => (n, s)
  | none =>
    match lowestFree 16 (fun n => s.parts.any (fun p => p.2.num == some n && p.2.st == .preempted)) with
    | some n =>
      (n, { s with parts := s.parts.map (fun (p : Nat × Partition) =>
        if p.2.num = some n then (p.1, { p.2 with num := none, oldNum := some n }) else p) })
    | none => (0, s)

/-! ## The load (05 R106, R107; 09 R240, R247, R256, R261; 11 R333) -/

/-- A stream at its entry with its tile's place in k12 to k15 (09 R240). -/
def startStream (entry col row w h : Nat) : Stream :=
  let v : Stream := { Stream.init with spc := entry, ended := false }
  (((v.setKr 12 (BitVec.ofNat 32 col)).setKr 13 (BitVec.ofNat 32 row)).setKr 14 (BitVec.ofNat 32 (8 * w))).setKr 15
    (BitVec.ofNat 32 (8 * h))

/-- Values stored from a key on, zeros listed by nothing. -/
def storeOf {n : Nat} (l : List (BitVec n)) : Store (BitVec n) :=
  (indexed l).foldl (fun m p => Store.put 0 p.1 p.2 m) []

/-- A tile at the start of a schedule. -/
def Sched.tile (d : Sched) (pk col row : Nat) : Tile :=
  { Tile.init with
    part := some pk, sx := startStream (d.entry col row .x) col row d.w d.h,
    sf := startStream (d.entry col row .f) col row d.w d.h, sm := startStream (d.entry col row .m) col row d.w d.h,
    visible := storeOf d.defaults, arrival := storeOf d.defaults, bmap := storeOf (d.bmap.map (BitVec.ofNat 16)) }

/-- The schedule store and tile data written to a tile (09 R241; 11 R333). -/
def State.writeTile (s : State) (d : Sched) (t fb : Nat) : State :=
  let w := s.tagTile t
  d.tdata.foldl (fun (r : State) e => r.performQuiet (tilePa t (fb + e.1)) e.2 w)
    (s.performQuiet (tilePa t (fb + d.storeOff)) (d.store.take d.storeLen) w)

/-- A partition that an image asks for at an origin of its grid, before it has a place. -/
def State.wantedAt (s : State) (d : Sched) (j : Nat) (o : Nat × Nat) : Partition :=
  let p : Partition :=
    { Partition.init with
      st := .loading, job := j, span := d.span, ox := o.1, oy := o.2, w := d.w, h := d.h, lead := d.lead, flen := d.flen,
      storeOff := d.storeOff, storeLen := d.storeLen, ratio := d.ratio, ts := d.ts, sets := d.slots,
      latches := List.replicate 4 Latch.init, winDefs := d.wins.map winDef, defaults := d.defaults,
      crossing := d.crossings.map (fun c => (c.col, c.row, c.dir, c.slot)), seed := (s.job j).seed }
  { p with tiles := s.tilesIn p }

/-- A partition that a launch asks for at an origin block. -/
def State.wanted (s : State) (d : Sched) (j origin : Nat) : Partition := s.wantedAt d j (s.originOf d.span origin)

/-- The packages, besides this one, that hold tiles of a spanning partition (09 R270). -/
def State.otherPackages (s : State) (p : Partition) : List (Nat × Nat) :=
  let x := (List.range ((p.ox + p.w - 1) / 4 + 1)).filter (fun i => decide (p.ox / 4 ≤ i))
  let y := (List.range ((p.oy + p.h - 1) / 4 + 1)).filter (fun i => decide (p.oy / 4 ≤ i))
  (x.flatMap (fun i => y.map (fun j => (i, j)))).filter (fun q => q != (s.pkg.pod.px.toNat, s.pkg.pod.py.toNat))

/-- A schedule accepted with a launch id: its footprint base and number chosen, what it claims saved, its tiles set up. -/
def State.acceptSched (s : State) (d : Sched) (p : Partition) (id gran : Nat) (start : Word) (cmd : Option (Nat × Nat)) :
    State :=
  let pk := unitKey p.job id
  let fb := s.pickFb p.tiles d.flen
  let (num, s1) := s.loadNum
  let s2 := s1.forceAll p.tiles fb d.flen
  let q : Partition :=
    { p with launch := id, num := some num, flitId := num, fb := fb, startPtime := start, maxGran := gran - 1, cmd := cmd,
             accepted := s2.launchSeq }
  let s3 := p.tiles.foldl (fun (w : State) t =>
    (w.setTile t (d.tile pk (w.colOf p t).toNat (w.rowOf p t).toNat)).writeTile d t fb) s2
  ({ s3 with ratio := d.ratio }).setPart pk q

end Sys2Proof.Machine
end

