-- ==== Sys2Proof/Machine/Kernels.lean ====
section
/-! DEFINITION. Kernel images, their checks and the admission of a kernel on its cores (05 R103, R108 to R111, R119, R120; 06
R148, R164, R165; 10 R278; 11 R330, R331). -/

namespace Sys2Proof.Machine

open Sys2Proof

/-! ## The image (11 R330) -/

/-- A vintage set that a kernel image declares. -/
structure SetDecl where
  len : Nat
  ncopy : Nat
  vas : List Nat
  deriving DecidableEq, Repr

/-- A kernel image read into its fields. -/
structure KImage where
  level : Level
  slots : Nat
  rings : Nat
  handles : Nat
  tids : Nat
  lsoff : Nat
  lslen : Nat
  wstack : Nat
  entry : Nat
  tvecoff : Option Nat
  vsetoff : Nat
  lsview : Nat
  text : List Byte
  data : List Byte
  femap : List Byte
  decls : List SetDecl
  deriving DecidableEq, Repr

/-- Bytes of the full/empty map of an image's text and data. -/
def femapLen (n : Nat) : Nat := ceilDiv (ceilDiv (n / 8) 8) 8 * 8

/-- Length of a kernel image by its header. -/
def kimageLen (b : List Byte) : Nat :=
  let n := field b 36 4 + field b 40 4
  64 + n + femapLen n + 48 * field b 7 1

/-- A declaration of a vintage set; none where it is malformed. -/
def setDecl (e : List Byte) : Option SetDecl :=
  let len := field e 0 4
  let n := field e 4 1
  let vas := (chunks 8 (sub e 8 32)).map natOf
  if 1 ≤ len ∧ len ≤ 65536 ∧ 1 ≤ n ∧ n ≤ 4 ∧ field e 5 3 = 0 ∧ field e 40 8 = 0 ∧ (vas.drop n).all (· == 0) then
    some { len := len, ncopy := n, vas := vas.take n }
  else none

/-- Whether the header of a kernel image is well formed, its reservations apart (11 R330, R331). -/
def kheaderOk (b : List Byte) : Bool :=
  let text := field b 36 4
  let data := field b 40 4
  let tvec := field b 32 4
  let nv := field b 7 1
  field b 0 4 == 0x4E52_4B4A && field b 4 2 == 1 && decide (field b 6 1 ≤ 1) && decide (nv ≤ 16) &&
    (nv == 0 || field b 6 1 == 1) && field b 14 2 == 0 && field b 60 4 == 0 && field b 16 4 % 64 == 0 &&
    field b 20 4 % 64 == 0 && decide (field b 16 4 + field b 20 4 ≤ localSize) && field b 24 4 % 64 == 0 &&
    field b 28 4 % 4 == 0 && decide (field b 28 4 < text) &&
    (tvec == 0xFFFF_FFFF || (tvec % 4 == 0 && decide (tvec < text))) && text % 8 == 0 && data % 8 == 0 &&
    (nv == 0 || (field b 44 4 % 4 == 0 && decide (field b 44 4 + 4 * nv ≤ data))) &&
    field b 48 8 % localSize == 0 && decide (16 * field b 24 4 + text + data ≤ field b 20 4)

/-- Whether the reservations of a header lie within a core's capacities (05 R110; 11 R330). -/
def reservesOk (b : List Byte) : Bool :=
  let slots := field b 8 2
  decide (1 ≤ slots) && decide (slots ≤ if field b 6 1 = 1 then 1 else 15) && decide (field b 10 2 ≤ 1024) &&
    decide (field b 12 1 ≤ 32) && decide (field b 13 1 ≤ 64)

/-- A kernel image read, with the causes of R330. -/
def parseKernel (b : List Byte) : Except Nat KImage := do
  need (decide (64 ≤ b.length) && kheaderOk b) rImage
  need (decide (b.length = kimageLen b) && field b 56 4 == (crc32c (b.drop 64)).toNat) rImage
  need (reservesOk b) rCapacity
  let text := field b 36 4
  let data := field b 40 4
  let nfe := femapLen (text + data)
  let decls := (chunks 48 (b.drop (64 + text + data + nfe))).map setDecl
  need (decls.all (·.isSome)) rImage
  pure
    { level := if field b 6 1 = 1 then .supervisor else .user, slots := field b 8 2, rings := field b 10 2,
      handles := field b 12 1, tids := field b 13 1, lsoff := field b 16 4, lslen := field b 20 4, wstack := field b 24 4,
      entry := field b 28 4, tvecoff := if field b 32 4 = 0xFFFF_FFFF then none else some (field b 32 4),
      vsetoff := field b 44 4, lsview := field b 48 8, text := sub b 64 text, data := sub b (64 + text) data,
      femap := sub b (64 + text + data) nfe, decls := decls.filterMap id }

/-- Whether every page of a view maps the local stores with X (11 R331). -/
def State.viewMapped (s : State) (j : Nat) : Nat → Nat → Nat → Bool
  | 0, _, _ => false
  | fuel + 1, va, pa =>
    if feBase ≤ pa then true
    else
      match s.walk j va with
      | .leaf l _ _ _ =>
        l.x && l.at_ va == pa && s.viewMapped j fuel (l.va + l.size) (pa + (l.va + l.size - va))
      | _ => false

/-- Positions that a kernel of a level may be placed on (05 R103). -/
def positionsOf (lvl : Level) : List Nat := (List.range nPos).filter (fun c => lvl != .supervisor || decide (16 ≤ c))

/-- Whether N threads fit in the possible core set (05 R109). -/
def KImage.fitsIn (k : KImage) (n : Nat) (cores : List Nat) : Bool :=
  let m := if cores.isEmpty then (positionsOf k.level).length else cores.length
  decide (ceilDiv n m ≤ k.slots)

/-- Whether the entries of a core list name distinct positions of a kernel's level (05 R103, R109). -/
def KImage.listOk (k : KImage) (cores : List Nat) : Bool :=
  decide cores.Nodup && cores.all (positionsOf k.level).contains

/-! ## Which cores can admit a kernel (05 R110, R111, R119) -/

/-- The kernels that hold reservations on a core. -/
def State.kernelsOn (s : State) (c : Nat) : List (Nat × Kernel) :=
  s.kernels.filter (fun p => p.2.st != .done && p.2.st != .preempted && p.2.cores.contains c)

/-- The slots that a kernel may be given on a core: 0 to 14, or slot 15 (05 R103). -/
def slotsOf (lvl : Level) : List Nat := if lvl = .supervisor then [15] else List.range 15

/-- Slots of a core that no kernel has reserved. -/
def State.openSlots (s : State) (c : Nat) (lvl : Level) : List Nat :=
  let used := (s.kernelsOn c).map (fun p => Store.get 0 c p.2.masks)
  (slotsOf lvl).filter (fun i => !(used.any (fun m => m.getLsbD i)))

/-- Whether a core can admit reservations of a job (05 R110, R111). -/
def State.coreFits (s : State) (j : Nat) (k : Kernel) (c : Nat) : Bool :=
  let l := (s.kernelsOn c).map (·.2)
  let sum := fun (f : Kernel → Nat) => (l.map f).foldl (· + ·) (f k)
  (positionsOf k.level).contains c && decide (k.slots ≤ (s.openSlots c k.level).length) && decide (sum (·.rings) ≤ 1024) &&
    decide (sum (·.handles) ≤ 32) && decide (sum (·.tids) ≤ 64) &&
    l.all (fun q => decide (overlap q.lsoff q.lslen k.lsoff k.lslen = 0)) &&
    (k.rings == 0 || (s.core c).ringJob.isNone || (s.core c).ringJob == some j)

/-- The cores of N threads in order of their index; none where they do not fit now (05 R119). -/
def State.place (s : State) (j : Nat) (k : Kernel) (n : Nat) : Option (List Nat) :=
  let nthOf := fun (l : List Nat) => (List.range n).map (fun i => nth 0 l (i % l.length))
  if !k.corelist.isEmpty then
    let l := nthOf k.corelist
    if l.dedup.all (s.coreFits j k) then some l else none
  else if (s.job j).gmode < 2 then
    let ok := (List.range nPos).filter (s.coreFits j k)
    if n ≤ ok.length * k.slots then some (nthOf ok) else none
  else
    let m := ceilDiv n k.slots
    (lowestFree (nPos + 1 - m) (fun p => (List.range m).all (fun i => s.coreFits j k (p + i)))).map
      (fun p => nthOf ((List.range m).map (p + ·)))

/-! ## Vintage sets (06 R164, R165) -/

/-- A 2 MiB page of a copy: its physical address where it is mapped with VM = 1 and in no set; IMAGE otherwise, and 0 where it
migrates (06 R144, R164). -/
def State.copyPage (s : State) (j va : Nat) : Except Nat Nat :=
  match s.walk j va with
  | .leaf l pte _ _ =>
    if bit pte 8 ∧ l.at_ va % 2 ^ 21 = 0 ∧ (s.pageTag (l.at_ va)).member.isNone then .ok (l.at_ va) else .error rImage
  | .migrating => .error 0
  | .fail | .bad => .error rImage

/-- The pages of a copy joined one after the other, with tag 0, so that a page met twice is found; the physical address of the
first is given (06 R164, R165; log entry 93). -/
def State.joinPages (s : State) (j v k va : Nat) : Nat → Nat → Except Nat (Nat × State)
  | 0, _ => .ok (0, s)
  | n + 1, i =>
    match s.copyPage j (va + i * 2 ^ 21) with
    | .error e => .error e
    | .ok pa =>
      let s1 := { s with pageTags := Store.put PageTag.init (pa / 2 ^ 21) { member := some (v, k), tag := 0 } s.pageTags }
      match s1.joinPages j v k va n (i + 1) with
      | .error e => .error e
      | .ok (_, r) => .ok (pa, r)

/-- The copies of a set joined one after the other. -/
def State.joinCopies (s : State) (j v len : Nat) : Nat → List Nat → Except Nat (List Nat × State)
  | _, [] => .ok ([], s)
  | k, va :: t =>
    match s.joinPages j v k va len 0 with
    | .error e => .error e
    | .ok (pa, s1) =>
      match s1.joinCopies j v len (k + 1) t with
      | .error e => .error e
      | .ok (l, r) => .ok (pa :: l, r)

/-- A declared set created at the lowest free number, or the cause of the refusal, 0 where a page migrates (06 R164). -/
def State.createSet (s : State) (j : Nat) (d : SetDecl) : Except Nat (Nat × State) :=
  match lowestFree 1024 (fun v => !(s.vset v).used) with
  | none => .error rCapacity
  | some v =>
    match s.joinCopies j v d.len 0 d.vas with
    | .error e => .error e
    | .ok (pas, r) =>
      .ok (v, r.setVset v
        { used := true, len := d.len, ncopy := d.ncopy, pubcopy := 0, owner := j, pub := 0, latch := [0, 0, 0, 0],
          copypa := (pas ++ [0, 0, 0, 0]).take 4 })

/-- Every declared set of a kernel created, or none. -/
def State.createSets (s : State) (j : Nat) : List SetDecl → Except Nat (List Nat × State)
  | [] => .ok ([], s)
  | d :: t =>
    match s.createSet j d with
    | .error e => .error e
    | .ok (v, r) =>
      match r.createSets j t with
      | .error e => .error e
      | .ok (l, q) => .ok (v :: l, q)

/-! ## Admission (05 R110, R111, R127; 06 R148; 10 R278; 11 R331) -/

/-- A pre-empted kernel's region on a core saved out of it, where a claim overlaps it (05 R127). -/
def State.forceRegion (s : State) (c lo n : Nat) : State :=
  { s with kernels := s.kernels.map (fun (p : Nat × Kernel) =>
      let k := p.2
      if k.st = .preempted ∧ k.cores.contains c ∧ !(k.lsSaved.any (fun r => r.1 == c)) ∧
          overlap k.lsoff k.lslen lo n ≠ 0 then
        (p.1, { k with
          savedBytes := k.savedBytes + k.lslen,
          lsSaved := k.lsSaved ++ [(c, s.bytes (localPa c k.lsoff) k.lslen,
            (List.range (k.lslen / 8)).map (fun i => s.isFull c (k.lsoff + 8 * i)))] })
      else p) }

/-- The data of an image with its set numbers in place (11 R330, R331). -/
def KImage.dataWith (k : KImage) (sets : List Nat) : List Byte :=
  let b := sets.flatMap (fun v => bytesOf 4 v)
  if sets.isEmpty then k.data else k.data.take k.vsetoff ++ b ++ k.data.drop (k.vsetoff + b.length)

/-- The full/empty bits of a region as an image sets them: empty but for its map (06 R148; 11 R331). -/
def State.regionBits (s : State) (k : KImage) (c : Nat) : State :=
  let base := k.lsoff + 16 * k.wstack
  let s1 := { s with fulls := Store.clearRange (feKey c k.lsoff) (feKey c (k.lsoff + k.lslen - 1) + 1) s.fulls }
  (List.range ((k.text.length + k.data.length) / 8)).foldl (fun w i =>
    if bit (natOf [nth 0 k.femap (i / 8)]) (i % 8) then w.setFull c (base + 8 * i) true else w) s1

/-- The region of a kernel on a core written (11 R331). -/
def State.loadRegion (s : State) (k : KImage) (sets : List Nat) (c : Nat) : State :=
  let body := List.replicate (16 * k.wstack) 0 ++ k.text ++ k.dataWith sets
  let b := body ++ List.replicate (k.lslen - body.length) 0
  if k.lslen = 0 then s else (s.performQuiet (localPa c k.lsoff) b tagPkg).regionBits k c

/-- A core entered by a kernel: its slots reserved, and the handler table and rings its job's (05 R110, R111). -/
def State.enterCore (s : State) (j kid c : Nat) : State :=
  let k := s.kernel j kid
  let mask := ((s.openSlots c k.level).take k.slots).foldl (fun (m : BitVec 16) i => m ||| (1#16 <<< i)) 0
  let s1 := (s.forceRegion c k.lsoff k.lslen).setKernel j kid
    { k with cores := k.cores ++ [c], masks := Store.put 0 c mask k.masks }
  if k.rings ≠ 0 ∧ (s1.core c).ringJob.isNone then s1.setCore c { s1.core c with ringJob := some j } else s1

/-- Kernel thread `i` started on a core, after an acquire (05 R119; 10 R278). -/
def State.startKernelThread (s : State) (j kid c i : Nat) (args : List Word) : State :=
  let k := s.kernel j kid
  match s.freeSlots j kid c (BitVec.allOnes 16), s.freeId j with
  | slot :: _, some id =>
    let t := c * 16 + slot
    let s1 := s.startThread t j kid id (k.entryAt c) (args ++ [BitVec.ofNat 64 i]) 0 (k.tvecAt c) k.seed
    let s2 := if i = 0 then s1.setKernel j kid { s1.kernel j kid with tid0 := some id } else s1
    s2.acquireFor t .pkg
  | _, _ => s

/-- The kernel of an image before it is placed. -/
def KImage.kernel (k : KImage) (cores : List Nat) : Kernel :=
  let text := k.lsview + k.lsoff + 16 * k.wstack
  { Kernel.init with
    st := .running, level := k.level, slots := k.slots, rings := k.rings, handles := k.handles, tids := k.tids,
    lsoff := k.lsoff, lslen := k.lslen, wstack := k.wstack, entry := text + k.entry,
    tvecoff := k.tvecoff.map (text + ·), lsview := k.lsview, corelist := cores }

/-- A kernel admitted on its cores, loaded and started: thread i on the i-th core of the list (05 R119, R120). -/
def State.admitKernel (s : State) (j kid : Nat) (img : KImage) (k : Kernel) (sets at_ : List Nat) (args : List Word) :
    State :=
  let cores := at_.dedup
  let s1 := s.setKernel j kid k
  let s2 := cores.foldl (fun (w : State) c => (w.enterCore j kid c).loadRegion img sets c) s1
  (indexed at_).foldl (fun w p => w.startKernelThread j kid p.2 p.1 args) s2

end Sys2Proof.Machine
end

