-- ==== Sys2Proof/Machine/Launch.lean ====
section
/-! DEFINITION. Launches: their submission by host commands and through launch ports, acceptance, and what completes them
(04 R87; 05 R104, R108 to R120, R495). -/

namespace Sys2Proof.Machine

open Sys2Proof

/-! ## Submission (05 R108, R109, R114, R495) -/

/-- What a command or a descriptor asks for. -/
structure Ask where
  job : Nat
  sched : Bool
  va : Nat
  /-- Thread count, or image length. -/
  n : Nat
  listVa : Nat
  origin : Nat
  w : Nat
  h : Nat
  startAt : Word
  args : List Word
  dep0 : BitVec 32
  dep1 : BitVec 32
  nowait : Bool
  res : Option Word
  cmd : Option (Nat × Nat)
  deriving DecidableEq, Repr

/-- What the static checks decide: the launch queued, refused with a status and a cause, or looked at again later because a
page of its image or list migrates. -/
inductive Verdict where
  | queue (image : List Byte) (cores : List Nat)
  | refuse (status cause : Nat)
  | later
  deriving DecidableEq, Repr

/-- A check's failure as a verdict. -/
def refusedBy (cause : Nat) : Verdict := .refuse stRefused cause

/-- Bytes of a job's space that the cellarmaster reads for a launch, or the verdict that ends it. -/
def State.askRead (s : State) (a : Ask) (va n cause : Nat) (f : List Byte → Verdict) : Verdict :=
  match s.readVa a.job .supervisor va n with
  | .ok b => f b
  | .error 0 => .later
  | .error _ => refusedBy cause

/-- Kind and number of a dependence. -/
def depKind (d : BitVec 32) : Nat := bits d.toNat 31 30

/-- The counter or launch id of a dependence. -/
def depNum (d : BitVec 32) : Nat := bits d.toNat 29 0

/-- Whether a dependence may be named: a counter of the job, or a launch id that was issued (05 R109). -/
def State.depOk (s : State) (j : Nat) (d : BitVec 32) : Bool :=
  match depKind d with
  | 0 => true
  | 1 => decide (depNum d < 16384) && (s.counter (depNum d)).owner == some j
  | 2 => decide (1 ≤ depNum d) && decide (depNum d < (s.job j).nextLaunch)
  | _ => false

/-- The core list read at submission (05 R495). -/
def State.askCores (s : State) (a : Ask) (k : KImage) (f : List Nat → Verdict) : Verdict :=
  if a.listVa = 0 then f []
  else if a.listVa % 8 ≠ 0 then refusedBy rCorelist
  else
    s.askRead a a.listVa 8 rCorelist (fun b =>
      let m := field b 0 2
      if m = 0 ∨ 1024 < m ∨ field b 2 6 ≠ 0 then refusedBy rCorelist
      else
        s.askRead a (a.listVa + 8) (2 * m) rCorelist (fun c =>
          let l := (chunks 2 c).map natOf
          if l.any (fun p => decide (1024 ≤ p)) || !k.listOk l then refusedBy rCorelist else f l))

/-- The last check of a launch: its dependences (05 R109; log entry 83). -/
def State.judgeDeps (s : State) (a : Ask) (v : Verdict) : Verdict :=
  match v with
  | .queue _ _ => if s.depOk a.job a.dep0 && s.depOk a.job a.dep1 then v else refusedBy rDep
  | _ => v

/-- The static checks of a launch but for its dependences (05 R108, R109). -/
def State.judgeImage (s : State) (a : Ask) : Verdict :=
  if a.sched then
    s.askRead a a.va a.n rImage (fun b =>
      match s.checkSched a.job b a.origin a.w a.h with
      | .error c => refusedBy c
      | .ok _ => .queue b [])
  else if a.n = 0 then .refuse stBadArg 0
  else
    s.askRead a a.va 64 rImage (fun hd =>
      s.askRead a a.va (kimageLen hd) rImage (fun b =>
        match parseKernel b with
        | .error c => refusedBy c
        | .ok k =>
          if !(s.viewMapped a.job 65536 k.lsview localBase) then refusedBy rImage
          else s.askCores a k (fun l => if k.fitsIn a.n l then .queue b l else refusedBy rCapacity)))

/-- The static checks of a launch (05 R108, R109). -/
def State.judge (s : State) (a : Ask) : Verdict := s.judgeDeps a (s.judgeImage a)

/-- A launch put into its class queue (05 R117). -/
def State.queueLaunch (s : State) (a : Ask) (image : List Byte) (cores : List Nat) : State :=
  { s with
    launchSeq := s.launchSeq + 1,
    launches := s.launches ++
      [{ num := s.launchSeq, job := a.job, cls := (s.job a.job).cls, sched := a.sched, image := image, n := a.n,
         cores := cores, origin := a.origin, width := a.w, height := a.h, startAt := a.startAt, args := a.args,
         dep0 := a.dep0, dep1 := a.dep1, nowait := a.nowait, res := a.res, cmd := a.cmd, resumes := none, claims := [] }] }

/-! ## Answers (04 R86, R87; 05 R115) -/

/-- RES of a launch descriptor. -/
def resWord (status cause id : Nat) : Word := BitVec.ofNat 64 (status + at' cause 16 + at' (id % 2 ^ 30) 32 + 2 ^ 63)

/-- RES written, where it can be; a descriptor that no longer maps has nowhere to take it. -/
def State.writeRes (s : State) (j : Nat) (res : Option Word) (w : Word) : State :=
  match res with
  | none => s
  | some va =>
    match s.writeVa j .supervisor (va.toNat + 56) (wordBytes w) tagPkg false with
    | .ok r => r
    | .error _ => s

/-- Whether RES must wait for a page that migrates. -/
def State.resWaits (s : State) (j : Nat) (res : Option Word) : Bool :=
  match res with
  | none => false
  | some va =>
    match s.writeVa j .supervisor (va.toNat + 56) (wordBytes 0) tagPkg false with
    | .error 0 => true
    | _ => false

/-- A launch refused: its command passes and completes, or its RES is written (05 R108, R115). -/
def State.refuseLaunch (s : State) (j : Nat) (res : Option Word) (cmd : Option (Nat × Nat)) (status cause : Nat) : State :=
  let s1 := s.writeRes j res (resWord status cause 0)
  match cmd with
  | some (q, n) => (s1.passSeq q n).finish cmd status (if status = stRefused then bytesOf 4 cause else noResult)
  | none => s1

/-- A host command or a descriptor submitted: refused at once, queued, or kept to be looked at again. A package whose guard
bands are exhausted takes no launch, with a cause that is not stated (02 R41). -/
def State.submit (s : State) (a : Ask) (keep : State) : State :=
  if s.pkg.power.exhausted then
    s.drawn.refuseLaunch a.job a.res a.cmd stRefused (s.freeVal.toNat % 65536)
  else
    match s.judge a with
    | .queue b l => s.queueLaunch a b l
    | .refuse st c => if s.resWaits a.job a.res then keep else s.refuseLaunch a.job a.res a.cmd st c
    | .later => keep

/-! ## SCHED.LOAD and KLAUNCH (04 R83, R87) -/

/-- A launch command: submitted, or put back at its place in the queue. -/
def State.submitCmd (s : State) (c : Cmd) (a : Ask) : State :=
  let x := s.queue c.q
  (s.begin_ c).submit { a with cmd := some (c.q, c.seq) }
    (s.setQueue c.q { x with waiting := x.waiting ++ [(c.seq, stOk, c.bytes)] })

/-- A host command's launch without what only some have. -/
def Cmd.ask (c : Cmd) (sched : Bool) (n : Nat) : Ask :=
  { job := c.job, sched := sched, va := c.arg 16 8, n := n, listVa := 0, origin := 0, w := 0, h := 0, startAt := 0, args := [],
    dep0 := 0, dep1 := 0, nowait := false, res := none, cmd := none }

/-- SCHED.LOAD (04 R87; 05 R108). -/
def execSchedLoad (s : State) : Out :=
  hostCmd (fun r c =>
    r.submitCmd c { c.ask true (c.arg 24 4) with
      origin := c.arg 28 1, w := c.arg 29 1, h := c.arg 30 1, startAt := BitVec.ofNat 64 (c.arg 32 8) }) s

/-- KLAUNCH (04 R87; 05 R108). -/
def execKlaunch (s : State) : Out :=
  hostCmd (fun r c =>
    r.submitCmd c { c.ask false (c.arg 24 4) with
      listVa := c.arg 28 8, args := (List.range 3).map (fun i => BitVec.ofNat 64 (c.arg (36 + 8 * i) 8)) }) s

/-! ## LAUNCH_PORT (05 R114) -/

/-- Whether a descriptor breaks the rules of its fields. -/
def badDescriptor (b : List Byte) : Bool :=
  let kind := field b 0 1
  kind == 0 || decide (2 < kind) || decide (1 < field b 1 1) || field b 2 2 != 0 ||
    depKind (BitVec.ofNat 32 (field b 48 4)) == 3 || depKind (BitVec.ofNat 32 (field b 52 4)) == 3 ||
    (kind == 2 && (field b 19 5 != 0 || field b 32 16 != 0))

/-- The launch that a descriptor asks for. -/
def askOf (j : Nat) (va : Word) (b : List Byte) : Ask :=
  let sched := field b 0 1 == 2
  { job := j, sched := sched, va := field b 8 8, n := field b 4 4, listVa := if sched then 0 else field b 16 8,
    origin := field b 16 1, w := field b 17 1, h := field b 18 1,
    startAt := if sched then BitVec.ofNat 64 (field b 24 8) else 0,
    args := if sched then [] else (List.range 3).map (fun i => BitVec.ofNat 64 (field b (24 + 8 * i) 8)),
    dep0 := BitVec.ofNat 32 (field b 48 4), dep1 := BitVec.ofNat 32 (field b 52 4), nowait := bit (field b 1 1) 0,
    res := some va, cmd := none }

/-- LAUNCH_PORT: the descriptor at `arg.v` of job `arg.n` is read and submitted. One that is not mapped has nowhere to take
an answer, and one that is not aligned is BADARG (05 R114). -/
def execLaunchPort (s : State) : Out :=
  let j := s.arg.n
  let va := s.arg.v
  let keep := { s with submits := s.submits ++ [(j, va)] }
  .next (if (s.job j).st = .closed then s
    else
      match s.readVa j .supervisor va.toNat 64 with
      | .error 0 => keep
      | .error _ => s
      | .ok b =>
        if va.toNat % 64 ≠ 0 ∨ badDescriptor b then
          if s.resWaits j (some va) then keep else s.writeRes j (some va) (resWord stBadArg 0 0)
        else s.submit (askOf j va b) keep)

/-! ## Queues (05 R116 to R118) -/

/-- Whether a dependence holds (05 R116). -/
def State.depHolds (s : State) (j : Nat) (d : BitVec 32) : Bool :=
  match depKind d with
  | 0 => true
  | 1 => (s.counter (depNum d)).fired && (s.counter (depNum d)).kind == 4
  | 2 => Store.get false (unitKey j (depNum d)) s.completed
  | _ => false

/-- Whether both dependences of a launch hold and its job runs. -/
def State.depsHold (s : State) (l : Launch) : Bool :=
  s.jobRuns l.job && s.depHolds l.job l.dep0 && s.depHolds l.job l.dep1

/-- The order of acceptance of the unit that a launch resumes. -/
def State.resumedSeq (s : State) (l : Launch) : Nat :=
  match l.resumes with
  | some (true, kid) => (s.kernel l.job kid).accepted
  | some (false, pk) => (s.part pk).accepted
  | none => 0

/-- Whether a unit may not resume: a host hold stands, the package goes to retention, or its guard bands are exhausted (02
R39, R41; 04 R90). -/
def State.resumeBarred (s : State) (l : Launch) : Bool :=
  match l.resumes with
  | some (true, kid) => (s.kernel l.job kid).hostHold || s.pkg.power.toRetention || s.pkg.power.exhausted
  | some (false, pk) => (s.part pk).hostHold || s.pkg.power.toRetention || s.pkg.power.exhausted
  | none => false

/-- A class queue in its order: resumed units in order of acceptance first, then launches by DEADLINE for the operational
class, and by arrival (05 R117). -/
def State.queueOf (s : State) (cls : Nat) : List Launch :=
  let l := s.launches.filter (fun x => x.cls == cls && !s.resumeBarred x)
  let byNum := sortBy (fun (x : Launch) => x.num) (l.filter (fun x => x.resumes.isNone))
  sortBy s.resumedSeq (l.filter (fun x => x.resumes.isSome)) ++
    (if cls = 0 then sortBy (fun (x : Launch) => (s.job x.job).deadline.toNat) byNum else byNum)

/-- The head of a class queue: the first launch whose dependences hold. -/
def State.headOf (s : State) (cls : Nat) : Option Launch := (s.queueOf cls).find? s.depsHold

/-- Whether a launch is considered now: it heads its queue and no higher one has a head, or it is a scavenger; a scavenger
unit that gave way to a higher launch waits for it (05 R117, R118). None is while the package goes to retention, or once its guard
bands are exhausted (02 R39, R41). -/
def State.considered (s : State) (l : Launch) : Bool :=
  s.depsHold l && !s.resumeBarred l && !s.pkg.power.toRetention && !s.pkg.power.exhausted &&
    (if l.cls = 3 then l.resumes.isNone || ((s.headOf 0).isNone && (s.headOf 1).isNone)
     else s.headOf l.cls == some l && (List.range l.cls).all (fun c => (s.headOf c).isNone))

/-- A launch taken out of its queue. -/
def State.unqueue (s : State) (l : Launch) : State := { s with launches := s.launches.filter (fun x => x.num != l.num) }

/-- What acceptance of a launch comes to: the state after it, a refusal's cause, or neither: for want of something that others
hold, or while a page migrates or other packages are asked, in the state that this leaves. -/
inductive Taken where
  | accepted (s : State) (id : Nat)
  | refused (cause : Nat)
  | lacks
  | waits (s : State)
  deriving DecidableEq, Repr

/-- The claims of a spanning launch sent to the other packages (09 R270; log entry 156). -/
def State.sendClaims (s : State) (l : Launch) (p : Partition) : State :=
  let q := { p with claimNo := l.num, flitId := s.loadNum.1 }
  let claims := (s.otherPackages p).map (fun (c : Nat × Nat) => (c, (none : Option Nat)))
  { s with launches := s.launches.map (fun (x : Launch) => if x.num = l.num then { x with claims := claims } else x) }.tellPeers q 1 0

/-- A spanning schedule's acceptance once this package can take its part: the other packages are asked, SHAPE or BUSY where one
cannot take its part, and the anchor's part placed once all have taken theirs (09 R270; 16 R476; log entry 156). -/
def State.takeSpan (s : State) (l : Launch) (d : Sched) (p : Partition) (id gran : Nat) : Taken :=
  let others := s.otherPackages p
  if l.claims.isEmpty && !others.isEmpty then .waits (s.sendClaims l p)
  else if l.claims.any (fun c => c.2.isNone) then .waits s
  else if l.claims.any (fun c => c.2 == some 2) then .refused rShape
  else if l.claims.any (fun c => c.2 == some 3) then .refused rBusy
  else .accepted (s.acceptSched d { p with claimNo := l.num, peers := others } id gran l.startAt l.cmd) id

/-- A schedule's acceptance. -/
def State.takeSched (s : State) (l : Launch) : Taken :=
  let id := (s.job l.job).nextLaunch
  match parseSched l.image, s.checkSched l.job l.image l.origin l.width l.height with
  | .ok d, .ok (_, gran) =>
    let p := s.wanted d l.job l.origin
    if !s.canPlace (unitKey l.job id) p then .lacks
    else if d.span then s.takeSpan l d p id gran
    else .accepted (s.acceptSched d p id gran l.startAt l.cmd) id
  | .ok d, .error c => if c = rHbmSlots ∧ d.ratioOk then .lacks else .refused c
  | .error c, _ => .refused c

/-- A kernel's acceptance (05 R110, R119, R120; 06 R164). -/
def State.takeKernel (s : State) (l : Launch) : Taken :=
  let j := l.job
  let id := (s.job j).nextLaunch
  match parseKernel l.image with
  | .error c => .refused c
  | .ok img =>
    let k : Kernel := { img.kernel l.cores with seed := (s.job j).seed, cmd := l.cmd, accepted := s.launchSeq }
    match s.place j k l.n with
    | none => .lacks
    | some at_ =>
      if 16384 < (s.idsOf j).length + l.n then .lacks
      else
        match s.createSets j img.decls with
        | .error 0 => .waits s
        | .error c => .refused c
        | .ok (sets, r) => .accepted (r.admitKernel j id img k sets at_ l.args) id

/-- A launch's acceptance. -/
def State.take (s : State) (l : Launch) : Taken := if l.sched then s.takeSched l else s.takeKernel l

/-! ## Victims (05 R118, R121, R122) -/

/-- A unit that may give way: a kernel's or a partition's key, its class and its place in the order of acceptance. -/
structure Victim where
  kernel : Bool
  key : Nat
  cls : Nat
  accepted : Nat
  deriving DecidableEq, Repr

/-- The running units of some classes, scavengers first, and the latest accepted first within a class (05 R121). -/
def State.candidates (s : State) (classes : List Nat) : List Victim :=
  let ps := s.placedParts.map (fun p =>
    ({ kernel := false, key := p.1, cls := (s.job p.2.job).cls, accepted := p.2.accepted } : Victim))
  let ks := (s.kernels.filter (fun p => p.2.st == .running || p.2.st == .saving)).map (fun p =>
    ({ kernel := true, key := p.1, cls := (s.job (p.1 / 2 ^ 32)).cls, accepted := p.2.accepted } : Victim))
  classes.flatMap (fun c => (sortBy (fun (v : Victim) => v.accepted) ((ps ++ ks).filter (fun v => v.cls == c))).reverse)

/-- Whether a kernel holds, on a core, something that a kernel lacks there and that its pre-emption frees: slots of its level,
rings, handles, TIDs, its region. A core's rings stay its job's until that job's last kernel there completes (05 R110, R111). -/
def State.holdsLacking (s : State) (k v : Kernel) (c : Nat) : Bool :=
  let l := (s.kernelsOn c).map (·.2)
  let sum := fun (f : Kernel → Nat) => (l.map f).foldl (· + ·) (f k)
  v.cores.contains c &&
    ((decide ((s.openSlots c k.level).length < k.slots) && v.level == k.level) ||
      (decide (1024 < sum (·.rings)) && v.rings != 0) || (decide (32 < sum (·.handles)) && v.handles != 0) ||
      (decide (64 < sum (·.tids)) && v.tids != 0) || decide (overlap v.lsoff v.lslen k.lsoff k.lslen ≠ 0))

/-- Whether a unit frees something that a launch lacks (05 R118, R121). The timed slots of a spanning partition are kept across a
pre-emption, so none frees them (09 R271). -/
def State.frees (s : State) (l : Launch) (v : Victim) : Bool :=
  if l.sched then
    match v.kernel, parseSched l.image with
    | false, .ok d =>
      let p := s.wanted d l.job l.origin
      let run := s.placedParts
      p.tiles.any (fun t => (s.tile t).part == some v.key) || decide (16 ≤ run.length) || d.ratio != s.ratio ||
        (decide (nth 0 p.ratio 0 < (run.map (·.2.ts)).foldl (· + ·) p.ts) && (s.part v.key).ts != 0)
    | _, _ => false
  else
    match v.kernel, parseKernel l.image with
    | true, .ok img =>
      let k := img.kernel l.cores
      (if l.cores.isEmpty then positionsOf k.level else l.cores).any (fun c =>
        s.holdsLacking k (Store.get Kernel.init v.key s.kernels) c)
    | _, _ => false

/-- The state as it would be with a unit pre-empted and its bytes held in place. -/
def State.without (s : State) (v : Victim) : State :=
  if v.kernel then
    { s with kernels := s.kernels.map (fun (p : Nat × Kernel) =>
        if p.1 = v.key then (p.1, { p.2 with st := .preempted }) else p) }
  else
    let p := s.part v.key
    let q := { p with st := .preempted, heldBytes := p.tiles.map (fun t => (t, p.fb, p.fb + p.flen)) }
    p.tiles.foldl (fun (w : State) t => w.setTile t Tile.init) (s.setPart v.key q)

/-- Whether a launch lacks something. -/
def State.lacksFor (s : State) (l : Launch) : Bool :=
  match s.take l with
  | .lacks => true
  | _ => false

/-- Victims taken in order while the launch lacks something that they free, with the state as it would be then. -/
def State.choose (l : Launch) : List Victim → State → List Victim × State
  | [], s => ([], s)
  | v :: t, s =>
    if !s.lacksFor l then ([], s)
    else if s.frees l v then
      let r := State.choose l t (s.without v)
      (v :: r.1, r.2)
    else State.choose l t s

/-- A unit held for a higher launch: its pre-emption begins (05 R118, R121). -/
def State.holdFor (s : State) (v : Victim) : State :=
  if v.kernel then
    let k := Store.get Kernel.init v.key s.kernels
    if k.deadlineHold then s
    else
      ({ s with kernels := Store.put Kernel.init v.key { k with deadlineHold := true } s.kernels }).push .kernelPreemption
        (Arg.ofNM (v.key / 2 ^ 32) (v.key % 2 ^ 32))
  else
    let p := s.part v.key
    if p.deadlineHold || p.isPreempted then s
    else (s.setPart v.key { p with deadlineHold := true }).push .partitionPreemption (Arg.ofN v.key)

/-! ## LAUNCH_ACCEPT (05 R108, R115, R119, R120, R121) -/

/-- What a host command's launch passes at its acceptance: the result that an early completion carries. -/
def State.acceptCmd (s : State) (l : Launch) (id : Nat) : State :=
  match l.cmd with
  | some (q, n) =>
    s.effect q n (if l.sched then (s.part (unitKey l.job id)).result else bytesOf 4 id)
  | none => s

/-- A deadline-miss event for a first launch accepted after the latest start (05 R121). -/
def State.noteLateStart (s : State) (j : Nat) : State :=
  let x := s.job j
  if x.cls = 0 ∧ !x.started ∧ x.deadline.toNat < s.ptime.toNat + x.wcrt.toNat then s.logEvent .deadlineMiss j 0 else s

/-- A launch accepted: its id issued, its answer given, and held records delivered to a first supervisor (05 R104, R115). -/
def State.launched (s : State) (l : Launch) (id : Nat) : State :=
  let j := l.job
  let s1 := s.noteLateStart j
  let s2 := { s1.setJob j { s1.job j with
    nextLaunch := id + 1, started := true,
    measurements := (s1.job j).measurements ++ [sha256 l.image] } with launchSeq := s1.launchSeq + 1 }
  let s3 := ((s2.unqueue l).acceptCmd l id).writeRes j l.res (resWord stOk 0 id)
  if (s3.job j).heldRecords.isEmpty then s3 else s3.push .heldRecordDelivery (Arg.ofN j)

/-- LAUNCH_ACCEPT of queued launch `arg.n`. An interactive launch that lacks something pre-empts scavengers for it (05
R118). -/
def execLaunchAccept (s : State) : Out :=
  match s.launches.find? (fun l => l.num == s.arg.n && l.resumes.isNone) with
  | none => .next s
  | some l =>
    if !s.considered l ∨ s.resWaits l.job l.res then .next s
    else
      match s.take l with
      | .accepted r id => .next (r.launched l id)
      | .refused c => .next (((s.unqueue l).dropClaims l).refuseLaunch l.job l.res l.cmd stRefused c)
      | .waits r => .next r
      | .lacks =>
        .next (if l.nowait then ((s.unqueue l).dropClaims l).refuseLaunch l.job l.res l.cmd stRefused rBusy
          else if l.cls = 1 then (State.choose l (s.candidates [3]) s).1.foldl State.holdFor s
          else s)

/-! ## KERNEL_COMPLETE and HELD_RECORD_DELIVERY (05 R104, R112, R113) -/

/-- Whether a kernel has a thread, or a task on its way to one. -/
def State.kernelLives (s : State) (j kid : Nat) : Bool :=
  !(s.kernelThreads j kid).isEmpty || s.spawns.any (fun r => r.job == j && r.kid == kid)

/-- KERNEL_COMPLETE of kernel `arg.m` of job `arg.n`: no thread is left and no counter holds it (05 R112, R113). -/
def execKernelComplete (s : State) : Out :=
  let j := s.arg.n
  let kid := s.arg.m
  let k := s.kernel j kid
  if k.st ≠ .running ∨ s.kernelLives j kid ∨ s.counterHolds j kid then .next s
  else .next ((s.endKernel j kid stOk).launchDone j kid)

/-- HELD_RECORD_DELIVERY to the supervisor of job `arg.n` (05 R104). -/
def execHeldRecordDelivery (s : State) : Out :=
  let j := s.arg.n
  if (s.supervisor j).isNone then .next s
  else
    .next (s.deliverHeld j)

end Sys2Proof.Machine
end

