-- ==== Sys2Proof/Machine/Preempt.lean ====
section
/-! DEFINITION. Pre-emption and restore of partitions and kernels, with the commands that ask for them (04 R87, R90; 05 R113,
R118, R121 to R129; 09 R272, R273; 10 R288, R291; 12 R367). -/

namespace Sys2Proof.Machine

open Sys2Proof

/-! ## Records and counts (05 R122, R129) -/

/-- Bytes of a tile's context (09 R272). -/
def contextBytes : Nat := 45056

/-- Bytes of a saved thread (05 R127). -/
def threadBytes : Nat := 1024

/-- A PREEMPT record about a partition: 0 stopped, 1 saved, 2 running again (05 R129, R134). -/
def State.partRecord (s : State) (pk what : Nat) : State :=
  let p := s.part pk
  s.drawn.sendRecord p.job (recordBytes cPreempt 1 p.job (p.num.getD 0) s.ptime s.freeVal (BitVec.ofInt 64 p.scyc) 0xFFFF 0xFF
    (bytesOf 4 what ++ bytesOf 4 p.launch))

/-- A PREEMPT record about a kernel, which names it by its id (05 R129). -/
def State.kernelRecord (s : State) (j kid what : Nat) : State :=
  s.drawn.sendRecord j (recordBytes cPreempt 4 j kid s.ptime s.freeVal 0 0xFFFF 0xFF (bytesOf 1 what))

/-- The commands of a code among some that a unit holds, and the others. -/
def State.splitCmds (s : State) (op : Nat) (l : List (Nat × Nat)) : List (Nat × Nat) × List (Nat × Nat) :=
  let is := fun (c : Nat × Nat) => s.pkg.pendCmds.any (fun x => x.isCmd c.1 c.2 && x.op == op)
  (l.filter is, l.filter (fun c => !is c))

/-- A unit put at the head of its class queue to resume (05 R117). -/
def State.queueResume (s : State) (j : Nat) (u : Bool × Nat) : State :=
  if s.launches.any (fun l => l.job == j && l.resumes == some u) then s
  else
    { s with
      launchSeq := s.launchSeq + 1,
      launches := s.launches ++
        [{ num := s.launchSeq, job := j, cls := (s.job j).cls, sched := !u.1, image := [], n := 0, cores := [], origin := 0,
           width := 0, height := 0, startAt := 0, args := [], dep0 := 0, dep1 := 0, nowait := false, res := none, cmd := none,
           resumes := some u, claims := [] }] }

/-! ## PARTITION_PREEMPTION (05 R123) -/

/-- Whether a pre-emption freeze is decided for a partition and has not ended by a resume. -/
def Partition.stopping (p : Partition) : Bool := p.freezes.any (fun f => f.cause == .preempt && f.ends.isNone)

/-- PARTITION_PREEMPTION of partition `arg.n`, which a hold stops: its freeze is requested at this check point, one freeze
lead ahead; a frozen partition is saved as it stands (05 R123). -/
def execPartitionPreemption (s : State) : Out :=
  let pk := s.arg.n
  let p := s.part pk
  if !(p.hostHold || p.deadlineHold) ∨ p.stopping ∨ p.st = .free ∨ p.isPreempted then .next s
  else if p.st = .loading then .next ((s.partRecord pk 0).setPart pk { p with st := .preempted, stoppedAt := s.ptime })
  else
    let r := s.partRecord pk 0
    let q := r.part pk
    let cyc := if q.frozen then q.scyc else q.scyc + q.lead
    let q1 := { q with freezes := q.freezes ++ [{ cyc := cyc, cause := .preempt, ends := none }] }
    let r1 := r.setPart pk (if q.frozen then { q1 with st := .preempted, stoppedAt := s.ptime, stopCyc := s.cyc } else q1)
    .next (if q.span then r1.sideband (s.partPorts q) 2 q.flitId (s.ptime + BitVec.ofNat 64 q.lead) [] else r1)

/-! ## PREEMPT_SAVE_DONE (05 R123, R127, R129) -/

/-- A stream as it is saved: of its loop buffers, which are not, the places are known that it fetches again (09 R273). -/
def Stream.stowed (v : Stream) : Stream := { v with buf := v.buf.map (fun p => (p.1, none)) }

/-- A tile's context as it is saved (09 R272, R273). -/
def Tile.stowed (t : Tile) : Tile := { t with sx := t.sx.stowed, sf := t.sf.stowed, sm := t.sm.stowed }

/-- Whether every HBM operation of a stopped partition has landed. -/
def State.drained (s : State) (pk : Nat) : Bool := (s.part pk).tiles.all (fun t => (s.tile t).gran.isEmpty)

/-- The tiles' contexts saved, their footprints held in place, and the tiles free (05 R123). -/
def State.stowTiles (s : State) (pk : Nat) : State :=
  let p := s.part pk
  let q := { p with
    saved := p.tiles.foldl (fun m t => Store.put Tile.init t (s.tile t).stowed m) p.saved,
    heldBytes := p.tiles.map (fun t => (t, p.fb, p.fb + p.flen)), savedBytes := [],
    savedCount := contextBytes * p.tiles.length }
  p.tiles.foldl (fun (w : State) t => w.setTile t Tile.init) (s.setPart pk q)

/-- A unit's PREEMPT commands told of what was saved. -/
def State.cmdsSaved (s : State) (cmds : List (Nat × Nat)) (n : Nat) : State :=
  (cmds.foldl (fun w c => w.addSum c n) s).settle cmds

/-- The save of a partition done. -/
def State.partSaved (s : State) (pk : Nat) : State :=
  let p := s.part pk
  let (mine, rest) := s.splitCmds 7 p.pcmds
  let s1 := (s.stowTiles pk).partRecord pk 1
  let s2 := s1.setPart pk { s1.part pk with pcmds := rest }
  let s3 := if p.deadlineHold then s2.queueResume p.job (false, pk) else s2
  s3.cmdsSaved mine (contextBytes * p.tiles.length)

/-- A thread's record as it returns (05 R127): its waiting instruction, of the opcode given, issues again, but for an RPC,
whose reply comes to it; a recording is dropped and starts again at its ARB. -/
def Thread.recorded (x : Thread) (opc : Nat) : Thread :=
  let w := fun (n : Nat) (v : Word) => BitVec.ofNat 64 (v.toNat % 2 ^ n)
  { x with
    pc := match x.region with
      | some r => r.pc
      | none => x.pc,
    region := none, sb := [],
    park := match x.park with
      | .running => .running
      | .rpc k => .rpc k
      | .stopped => .stopped
      | .retry o => .retry o
      | .blocked o => .blocked o
      | _ => .retry opc,
    wsp := w 48 x.wsp, epc := w 48 x.epc, ecause := w 8 x.ecause, fstat := w 5 x.fstat, tvec := w 48 x.tvec,
    fctl := w 13 x.fctl, wpeDetail := w 48 x.wpeDetail, rpeDetail := w 16 x.rpeDetail, vpeDetail := w 48 x.vpeDetail,
    qcount := x.qcount % 2 ^ 17 }

/-- The place of a thread's shadows in a slot: the address of WSP - 128, where its 128 bytes lie in the kernel's region on the
slot's core (10 R291). -/
def State.shadowPlace (s : State) (t : Nat) (x : Thread) : Option Nat :=
  s.regionAt x.job (s.kernel x.job x.kid) (coreOf t) (x.wsp - 128).toNat 128

/-- The shadows of a thread as bytes, register 0 first. -/
def shadowBytes (m : Store Word) : List Byte := (List.range 14).flatMap (fun i => wordBytes (Store.get 0 i m))

/-- The shadows that bytes give, register 0 first (10 R291, R292). -/
def shadowsOf (b : List Byte) : Store Word :=
  storeOf ((indexed ((chunks 8 (b.take 112)).map wordOf)).map (fun p => shadowWord p.1 p.2))

/-- A thread's shadows stored in its kernel's region, where it has the room. -/
def State.stowShadows (s : State) (t : Nat) : State :=
  match s.shadowPlace t (s.thread t) with
  | some a => s.performQuiet a (shadowBytes (s.thread t).shadows) tagPkg
  | none => s

/-- Whether a quantum of a job cannot end while a kernel of it stays stopped or saved: a thread of one has neither retired the
quantum nor is blocked (07 R205). -/
def State.quantumStuck (s : State) (j : Nat) : Bool :=
  let stopped := (s.jobThreads j).filter (fun t => (s.kernel j (s.thread t).kid).st != .running)
  (stopped.map s.thread ++ s.savedThreads j).any (fun x => !s.quantumFull x && !x.blocked)

/-- Whether a gated request waits for a full or empty word, or for the end of a quantum, so that its thread issues it
again (05 R127). A region that has shipped is waited for (12 R367), but for one whose quantum the pre-emption itself keeps from
ending (`stuck`), which is recorded again from its ARB. DEDUCED: R367 and R205 together could not both be kept there (log entry
175). -/
def GateReq.reissues (r : GateReq) (stuck : Bool) : Bool :=
  match r.op with
  | .ldf .. | .ste .. | .ldp .. | .stf .. => true
  | .region .. => r.held && stuck
  | _ => r.held

/-- Whether a thread of a stopped kernel still has something under way: buffered stores, messages sent, atomics, spawns or
remote operations (05 R127; 13 R371). -/
def State.threadBusy (s : State) (t : Nat) : Bool :=
  let x := s.thread t
  !x.sb.isEmpty || s.msgs.any (fun m => m.src == coreOf t && m.slot == slotOf t && m.tid == x.tid && !m.held) ||
    s.gateQueue.any (fun r => r.thr == t && !r.reissues (s.quantumStuck r.job)) ||
    s.spawns.any (fun r => (r.waiter.map (·.1)) == some t && !r.held) || s.remotes.any (fun r => r.thr == some t) ||
    x.park == .migr

/-- Whether a stopped kernel has drained: its threads have, and its copy transfers have run to completion (05 R127). -/
def State.kernelDrained (s : State) (j kid : Nat) : Bool :=
  (s.kernelThreads j kid).all (fun t => !s.threadBusy t) && !s.copying j kid

/-- What a saved thread waits in, let go: gated requests, spawns held, barrier arrivals, walks and POSTs held at tiles. -/
def State.unwait (s : State) (t : Nat) : State :=
  let eps := s.episodes.map (fun (e : Episode) =>
    if e.parked.contains t then { e with parked := e.parked.filter (· != t), arrivals := e.arrivals - 1 } else e)
  let tiles := s.tiles.map (fun (p : Nat × Tile) => (p.1, { p.2 with heldPosts := p.2.heldPosts.filter (fun q => q.thr != t) }))
  let parts := s.parts.map (fun (p : Nat × Partition) => (p.1, { p.2 with saved := p.2.saved.map (fun (q : Nat × Tile) =>
    (q.1, { q.2 with heldPosts := q.2.heldPosts.filter (fun k => k.thr != t) })) }))
  { s with
    gateQueue := s.gateQueue.filter (fun r => r.thr != t), spawns := s.spawns.filter (fun r => (r.waiter.map (·.1)) != some t),
    episodes := eps, tiles := tiles, parts := parts,
    walks := s.walks.map (fun (p : Nat × List WalkReq) => (p.1, p.2.filter (fun r => r.thr != t))) }

/-- MEMORY_UE of a store that had left the core, taken by its thread with EPC at the next instruction to issue and EVAL at the
address; what the thread waits in is let go, so that its instruction is the next to issue (12 R358). -/
def State.takeStoreUe (s : State) (t : Nat) (va : Word) : State :=
  if (s.thread t).live then (s.unwait t).trapOf t cMemoryUe va (s.thread t).pc else s

/-- The opcode of the word that a thread waits at; 0 where it cannot be fetched. -/
def State.waitOpcode (s : State) (t : Nat) : Nat :=
  let r := { s with cur := t }
  match r.fetchPa with
  | .ok a => (r.word32 a).toNat / 2 ^ 24
  | .error _ => 0

/-- A thread saved and its slot freed. -/
def State.saveThread (s : State) (j kid t : Nat) : State :=
  let s1 := (s.unwait t).stowShadows t
  let x := s1.thread t
  let k := s1.kernel j kid
  let saved := k.savedThreads ++ [x.recorded (s1.waitOpcode t)]
  let s2 := s1.setKernel j kid { k with savedThreads := saved, savedAt := k.savedAt ++ [t] }
  s2.setThread t { Thread.init with rpcSeq := x.rpcSeq }

/-- The save of a kernel done: what its threads have written is at its homes, its slots are free, and its region stays in place
(05 R127; 07 R179). -/
def State.kernelSaved (s0 : State) (j kid : Nat) : State :=
  let s := (s0.kernel j kid).cores.foldl State.flushRlc s0
  let ts := s.kernelThreads j kid
  let k := s.kernel j kid
  let (mine, rest) := s.splitCmds 7 k.pcmds
  let n := threadBytes * ts.length
  let s1 := ts.foldl (fun w t => w.saveThread j kid t) (s.setKernel j kid { k with savedThreads := [], savedAt := [] })
  let s2 := (s1.setKernel j kid { s1.kernel j kid with st := .preempted, pcmds := rest, savedBytes := n, masks := [] }).closeRuns j
  let s3 := s2.kernelRecord j kid 1
  (if k.deadlineHold then s3.queueResume j (true, kid) else s3).cmdsSaved mine n

/-- Whether the context of a unit lies on an HBM stack; it lies on one at least (log entry 121). -/
def contextOn (key n : Nat) : Bool := (Config.contextFirst key).toNat == n || Config.contextAlso key n

/-- Whether a stack that holds a unit's context retrains, for which its save or restore waits (05 R130). -/
def State.retrains (s : State) (key : Nat) : Bool := s.pkg.hbm.any (fun p => p.2.retraining && contextOn key p.1)

/-- PREEMPT_SAVE_DONE of partition `arg.n`, or with `arg.b` of kernel `arg.m` of job `arg.n`, once it has drained
(05 R123, R127, R129). -/
def execPreemptSaveDone (s : State) : Out :=
  if s.arg.b then
    let k := s.kernel s.arg.n s.arg.m
    if k.st = .saving ∧ s.kernelDrained s.arg.n s.arg.m ∧ !s.retrains (unitKey s.arg.n s.arg.m) then
      .next (s.kernelSaved s.arg.n s.arg.m)
    else .next s
  else
    let pk := s.arg.n
    let p := s.part pk
    if p.isPreempted ∧ p.tiles.any (fun t => (s.tile t).part == some pk) ∧ s.drained pk ∧ !s.retrains pk then
      .next (s.partSaved pk)
    else .next s

/-! ## KERNEL_PREEMPTION (05 R127) -/

/-- KERNEL_PREEMPTION of kernel `arg.m` of job `arg.n`, which a hold stops: its slots issue no more (05 R127). -/
def execKernelPreemption (s : State) : Out :=
  let j := s.arg.n
  let kid := s.arg.m
  let k := s.kernel j kid
  if k.st = .running ∧ (k.hostHold || k.deadlineHold) then
    .next (((s.kernelRecord j kid 0).setKernel j kid { k with st := .saving }).closeRuns j)
  else .next s

/-! ## PARTITION_RESTORE (05 R105, R124 to R126; 09 R273) -/

/-- Whether the tiles and bytes that a pre-empted partition needs are free (05 R126). -/
def State.canRestore (s : State) (pk : Nat) : Bool :=
  let p := s.part pk
  p.isPreempted && p.tiles.all (fun t => (s.tile t).part != some pk) && s.canPlace pk p &&
    s.parts.all (fun q => q.1 == pk || q.2.heldBytes.all (fun h =>
      !p.tiles.contains h.1 || decide (overlap p.fb p.flen h.2.1 (h.2.2 - h.2.1) = 0)))

/-- The number that a resumed partition takes: its own where it still has it; its old one where none holds it; else the lowest
free one (05 R105). -/
def State.resumeNum (s : State) (pk : Nat) : Option Nat :=
  match (s.part pk).num, (s.part pk).oldNum with
  | some n, _ => some n
  | none, some n => if s.parts.all (fun p => p.2.num != some n) then some n else s.freeNum
  | none, none => s.freeNum

/-- The bytes saved out of a partition put back (05 R126). -/
def State.putBack (s : State) (pk : Nat) : State :=
  (s.part pk).savedBytes.foldl (fun (w : State) r => w.performQuiet (tilePa r.1 r.2.1) r.2.2 (w.tagTile r.1)) s

/-- The held blocks of a stream fetched again from the schedule store as it stands (09 R273). -/
def State.refetch (s : State) (t : Nat) (cyc : Int) (v : Stream) : Stream :=
  { v with buf := v.buf.map (fun p => (p.1, some (s.storeHalf t p.1 (cyc + 9)))) }

/-- A saved tile put back in place. -/
def State.putTile (s : State) (pk t : Nat) : State :=
  let p := s.part pk
  let x := { Store.get Tile.init t p.saved with part := some pk }
  let s1 := s.setTile t x
  s1.setTile t { x with
    sx := s1.refetch t p.scyc x.sx, sf := s1.refetch t p.scyc x.sf, sm := s1.refetch t p.scyc x.sm }

/-- Saved tiles put back in place. -/
def State.putTiles (s : State) (pk : Nat) : State := (s.part pk).tiles.foldl (fun (w : State) t => w.putTile pk t) s

/-- A held transfer of an engine runs (05 R124). -/
def State.goTransfer (s : State) (h : Nat × Nat) : State :=
  match (s.engine h.1).queue.find? (fun t => t.num == h.2 && !t.started) with
  | some t => s.startTransfer h.1 t
  | none => s

/-- The loads held for a partition, by thread, whose slots may issue. -/
def State.heldLoads (s : State) (pk : Nat) : List Nat :=
  (s.threads.filter (fun x => x.2.park == .held pk && x.2.live && s.jobRuns x.2.job &&
    (s.kernel x.2.job x.2.kid).st == .running)).map (·.1)

/-- The accesses held for a partition go on, at the check point where its schedule resumes: stores leave, transfers run, packets
come again and loads issue again, and what was kept of POSTs follows (05 R124, R125; log entry 160). -/
def State.letGo (s : State) (pk : Nat) : State :=
  let p := s.part pk
  let s1 := { s.setPart pk { p with heldStores := [], heldEngines := [], heldPackets := [], heldIncs := [] } with
    threads := s.threads.map (fun (x : Nat × Thread) =>
      if x.2.park = .held pk then (x.1, { x.2 with park := .running }) else x) }
  let s2 := p.heldIncs.foldl (fun w q => w.incAct q.1 q.2 p.job)
    (p.heldEngines.foldl State.goTransfer (p.heldStores.foldl State.drainNext s1))
  { s2 with agenda :=
      p.heldPackets.map packetAct ++ (s.heldLoads pk).map (fun t => Act.issue (coreOf t) (slotOf t)) ++
        [.event .partitionRestore { Arg.ofN pk with b := true }] ++ s2.agenda }

/-- Kept POSTs applied in arrival order (05 R124). -/
def State.applyKept (s : State) (pk : Nat) : State :=
  let p := s.part pk
  p.keptPosts.foldl (fun (w : State) q => q.tiles.foldl (fun (r : State) t => r.postAt q t) w)
    (s.setPart pk { p with keptPosts := [] })

/-- A restored partition goes on from its check point: its pre-emption freeze ends one freeze lead from now, its other
freezes are looked at again, and the time it was stopped is added to its offset; the stop ends the time for which it has been
frozen (05 R123, R126, R132; log entry 166). -/
def Partition.released (p : Partition) (cyc : Nat) (ptime : Word) : Partition :=
  let gap := ptime - p.stoppedAt + (if p.started then BitVec.ofNat 64 p.lead else 0)
  let fs := p.freezes.map (fun (f : Freeze) => if f.cause = .preempt then { f with ends := some (cyc + p.lead) } else f)
  let st := if !p.started then PState.loading
    else if p.freezes.any (fun f => f.cause == .fault && decide (f.cyc = p.scyc) && f.ends.isNone) then .faulted else .running
  { p with
    st := st, freezes := fs, offset := p.offset + gap, frozenAt := cyc,
    stallFrom := p.stallFrom + gap.toNat, deadlineHold := false,
    saved := [], heldBytes := [], savedBytes := [], savedCount := 0 }

/-- The resume of a spanning partition told to its other packages, with the anchor's PTIME less its new offset (03 R68, R74;
05 R126). -/
def State.resumeParts (s : State) (p : Partition) : State :=
  let s1 := s.sideband (s.partPorts p) 3 p.flitId (s.ptime + BitVec.ofNat 64 p.lead) []
  if s.isAnchor p then s1.spread p 1 s.ptime (wordBytes (s.ptime - p.offset)) else s1

/-- A pre-empted partition restored: the RESUME commands that ask for it pass their effect point as it begins (04 R87). -/
def State.restorePart (s0 : State) (pk num : Nat) : State :=
  let p := s0.part pk
  let (mine, rest) := s0.splitCmds 8 p.pcmds
  let s := mine.foldl State.effectOnce s0
  let s1 := (s.putBack pk).putTiles pk
  let s2 := { s1 with ratio := p.ratio }.setPart pk
    (({ s1.part pk with num := some num, oldNum := none, pcmds := rest } : Partition).released s.cyc s.ptime)
  let s3 := ((s2.letGo pk).partRecord pk 2).cmdsSaved mine p.savedCount
  if p.span then s3.resumeParts (s3.part pk) else s3

/-- PARTITION_RESTORE of partition `arg.n`, which waits in its class queue to resume; with `arg.b`, the POSTs kept for it are
applied, after the accesses that were held (05 R117, R124, R126). -/
def execPartitionRestore (s : State) : Out :=
  let pk := s.arg.n
  if s.arg.b then .next (s.applyKept pk)
  else
  match s.launches.find? (fun l => l.resumes == some (false, pk)) with
  | none => .next s
  | some l =>
    match s.resumeNum pk with
    | none => .next s
    | some num =>
      if s.considered l && s.canRestore pk then .next ((s.unqueue l).restorePart pk num) else .next s

/-! ## KERNEL_RESTORE (05 R128) -/

/-- What a kernel has on a core: handles, TIDs, CPLs in flight, rings and handler entries (05 R127, R128). -/
structure Share where
  handles : Store Handle
  tids : Store (Option TidRec)
  cpls : Nat
  rings : Store Ring
  handlers : Store HEntry
  deriving DecidableEq, Repr

/-- The share of a kernel of a core's tables. -/
def Core.share (c : Core) (j kid : Nat) : Share :=
  let rings := c.ringJob == some j
  { handles := c.handles.filter (fun p => p.2.owner == some (j, kid)),
    tids := c.tids.filter (fun p => (p.2.map (fun r => r.job == j && r.kid == kid)).getD false),
    cpls := Store.get 0 (unitKey j kid) c.cpls,
    rings := if rings then c.rings.filter (fun p => p.2.kid == kid) else [],
    handlers := if rings then c.handlers.filter (fun p => p.2.job == j && p.2.kid == kid) else [] }

/-- A core without the handler entries of a kernel. -/
def Core.unhandled (c : Core) (j kid : Nat) : Core :=
  { c with handlers := c.handlers.filter (fun p => !(p.2.job == j && p.2.kid == kid)) }

/-- Entries added to a table. -/
def addEntries {α : Type} [DecidableEq α] (dflt : α) (l m : Store α) : Store α :=
  l.foldl (fun t p => Store.put dflt p.1 p.2 t) m

/-- A share added to a core's tables. -/
def Core.join (c : Core) (j kid : Nat) (x : Share) : Core :=
  { c with
    handles := addEntries Handle.init x.handles c.handles, tids := addEntries none x.tids c.tids,
    cpls := Store.put 0 (unitKey j kid) x.cpls c.cpls, rings := addEntries Ring.init x.rings c.rings,
    handlers := addEntries HEntry.init x.handlers c.handlers }

/-- Whether a core's tables have room for a share at its own numbers: no entry of another stands there (log entry 161). -/
def Core.takes (c : Core) (j kid : Nat) (x : Share) : Bool :=
  let mine := c.share j kid
  let free := fun {α : Type} (new own all : Store α) =>
    new.all (fun p => all.all (fun q => q.1 != p.1) || own.any (fun q => q.1 == p.1))
  free x.handles mine.handles c.handles && free x.tids mine.tids c.tids && free x.rings mine.rings c.rings &&
    free x.handlers mine.handlers c.handlers

/-- Whether a core can take what a kernel has on another. -/
def State.moveFits (s : State) (j kid c d : Nat) : Bool :=
  s.coreFits j (s.kernel j kid) d && (s.core d).takes j kid ((s.core c).share j kid)

/-- New cores for old ones, each the lowest that can take it and is not taken. -/
def State.pickCores (s : State) (j kid : Nat) : List Nat → List Nat → Option (List Nat)
  | [], acc => some acc
  | c :: rest, acc =>
    match (List.range nPos).find? (fun d => s.moveFits j kid c d && !acc.contains d) with
    | some d => s.pickCores j kid rest (acc ++ [d])
    | none => none

/-- The cores of a pre-empted kernel restored: its own where they can admit it, else, for one that the cellarmaster placed,
another set chosen as a launch would (05 R119, R128). -/
def State.restoreCores (s : State) (j kid : Nat) : Option (List Nat) :=
  let k := s.kernel j kid
  let m := k.cores.length
  if k.cores.all (s.coreFits j k) then some k.cores
  else if !k.corelist.isEmpty then none
  else if (s.job j).gmode < 2 then s.pickCores j kid k.cores []
  else
    (lowestFree (nPos + 1 - m) (fun p => (indexed k.cores).all (fun c => s.moveFits j kid c.2 (p + c.1)))).map
      (fun p => (List.range m).map (p + ·))

/-- A page-table leaf split into the 512 of the level below, with the same rights (06 R144). -/
def splitLeaf (pte level : Nat) : List Nat :=
  let g := granuleAt (level - 1)
  let size := if level = 2 then 3 else 1
  (List.range 512).map (fun i => pte - at' (bits pte 7 5) 5 + at' size 5 + i * g)

/-- Where 4 KiB that moved lie now; each move is an old and a new address. -/
def movedTo (moves : List (Nat × Nat)) (pa : Nat) : Option Nat := (moves.find? (fun m => m.1 == pa)).map (·.2)

/-- Every mapping under a table made to name the new addresses of what moved, larger leaves being split on the way where tables
are free (05 R128). -/
def remapFrom (j : Nat) (moves : List (Nat × Nat)) : Nat → Nat → State → State
  | 0, _, s => s
  | level + 1, table, s =>
    (List.range 512).foldl (fun (w : State) i =>
      let pteAt := table + 8 * i
      let pte := w.value pteAt 8
      let pa := bits pte 39 12 * 4096
      if !bit pte 0 then w
      else if bits pte 7 5 = 0 then remapFrom j moves level pa w
      else if level = 0 then
        match movedTo moves pa with
        | some a => w.performQuiet pteAt (bytesOf 8 (pte - at' (bits pte 7 5) 5 + at' 1 5 - pa + a)) tagPkg
        | none => w
      else if moves.any (fun m => decide (pa ≤ m.1) && decide (m.1 < pa + granuleAt level)) then
        match w.takeTable j with
        | none => w
        | some (t, w1) =>
          let w2 := w1.performQuiet t ((splitLeaf pte level).flatMap (bytesOf 8)) tagPkg
          remapFrom j moves level t (w2.performQuiet pteAt (bytesOf 8 (w2.tablePte t)) tagPkg)
      else w) s

/-- The pages of a kernel's region on one core, and where they lie on another. -/
def regionMoves (k : Kernel) (c d : Nat) : List (Nat × Nat) :=
  let first := k.lsoff / 4096
  let n := if k.lslen = 0 then 0 else (k.lsoff + k.lslen - 1) / 4096 + 1 - first
  (List.range n).map (fun i => (localPa c (4096 * (first + i)), localPa d (4096 * (first + i))))

/-- A job's mappings of moved pages rewritten, and their old translations dropped (05 R128). -/
def State.remap (s : State) (j : Nat) (moves : List (Nat × Nat)) : State :=
  let asid := (s.job j).asid
  (remapFrom j moves 4 (Store.get 0 j s.ptroot) s).tlbDrop (fun l =>
    l.asid == asid && moves.any (fun m => decide (overlap l.pa l.size m.1 4096 ≠ 0))) (moves.map (fun m => (m.1, 4096)))

/-- The bytes and bits of a kernel's region on a core: what a claim forced out, or what stands there (05 R127). -/
def State.regionOf (s : State) (k : Kernel) (c : Nat) : List Byte × List Bool :=
  match k.lsSaved.find? (fun r => r.1 == c) with
  | some r => r.2
  | none =>
    (s.bytes (localPa c k.lsoff) k.lslen, (List.range (k.lslen / 8)).map (fun i => s.isFull c (k.lsoff + 8 * i)))

/-- A region put on a core. -/
def State.putRegion (s : State) (k : Kernel) (c : Nat) (r : List Byte × List Bool) : State :=
  (indexed r.2).foldl (fun w b => w.setFull c (k.lsoff + 8 * b.1) b.2)
    (if r.1.isEmpty then s else s.performQuiet (localPa c k.lsoff) r.1 tagPkg)

/-- A saved thread placed in a slot of a core, its shadows reloaded, or zero where its region has not their place (05 R127; 10
R291). -/
def State.putThread (s : State) (j kid c : Nat) (x : Thread) : State :=
  match s.freeSlots j kid c (BitVec.allOnes 16) with
  | [] => s
  | slot :: _ =>
    let t := c * 16 + slot
    let shadows := match s.shadowPlace t x with
      | some a => shadowsOf (s.bytes a 128)
      | none => []
    s.setThread t { x with rpcSeq := (s.thread t).rpcSeq, shadows := shadows }

/-- The new core of an old one. -/
def newCore (old new : List Nat) (c : Nat) : Nat := nth c new (old.findIdx (· == c))

/-- A kernel's regions and what it has in its cores' tables taken from its old cores to new ones, all at once, and its job's
mappings of the regions rewritten; where the cores are the same only what a claim has forced out comes back (05 R127, R128). -/
def State.moveKernel (s : State) (j kid : Nat) (k : Kernel) (at_ : List Nat) : State :=
  let regions := k.cores.map (s.regionOf k)
  let shares := k.cores.map (fun c => (s.core c).share j kid)
  let same := at_ == k.cores
  let s1 := if same then s
    else k.cores.foldl (fun (w : State) c => (w.setCore c ((w.core c).unhandled j kid)).leaveCore j kid c) s
  let s2 := at_.foldl (fun (w : State) c => ((w.enterCore j kid c).flushRlc c).invalidateRlc c) s1
  let s3 := (zipWith2 (fun c r => (c, r)) at_ regions).foldl (fun (w : State) (x : Nat × List Byte × List Bool) =>
    if same && k.lsSaved.all (fun r => r.1 != x.1) then w else w.putRegion k x.1 x.2) s2
  if same then s3
  else
    ((zipWith2 (fun c x => (c, x)) at_ shares).foldl (fun (w : State) (p : Nat × Share) =>
      w.setCore p.1 ((w.core p.1).join j kid p.2)) s3).remap j (zipWith2 (regionMoves k) k.cores at_).flatten

/-- A pre-empted kernel restored on a set of cores: the RESUME commands that ask for it pass their effect point as it begins (04
R87; 05 R127, R128). -/
def State.restoreKernel (s0 : State) (j kid : Nat) (at_ : List Nat) : State :=
  let k := s0.kernel j kid
  let (mine, rest) := s0.splitCmds 8 k.pcmds
  let s := mine.foldl State.effectOnce s0
  let bytes := threadBytes * k.savedThreads.length +
    (k.lsSaved.map (fun r => r.2.1.length)).foldl (· + ·) 0
  let s1 := (s.setKernel j kid { k with
    st := .running, cores := [], masks := [], savedThreads := [], savedAt := [], lsSaved := [], savedBytes := 0, pcmds := rest,
    deadlineHold := false }).moveKernel j kid k at_
  let s2 := (zipWith2 (fun x t => (x, t)) k.savedThreads k.savedAt).foldl (fun (w : State) (p : Thread × Nat) =>
    w.putThread j kid (newCore k.cores at_ (coreOf p.2)) p.1) s1
  let s3 := (s2.kernelRecord j kid 2).cmdsSaved mine bytes
  if (s3.job j).heldRecords.isEmpty then s3 else s3.push .heldRecordDelivery (Arg.ofN j)

/-- KERNEL_RESTORE of kernel `arg.m` of job `arg.n`, which waits in its class queue to resume (05 R117, R128). -/
def execKernelRestore (s : State) : Out :=
  let j := s.arg.n
  let kid := s.arg.m
  match s.launches.find? (fun l => l.job == j && l.resumes == some (true, kid)) with
  | none => .next s
  | some l =>
    match s.restoreCores j kid with
    | none => .next s
    | some at_ =>
      if s.considered l && (s.kernel j kid).st == .preempted then .next ((s.unqueue l).restoreKernel j kid at_) else .next s

end Sys2Proof.Machine
end

