-- ==== Sys2Proof/Machine/Contexts.lean ====
section
/-! DEFINITION. The bytes of saved contexts: a tile's 45,056 bytes (09 R272) and a thread's 1,024 bytes (05 R127). -/

namespace Sys2Proof.Machine

open Sys2Proof

/-! ## A tile's context (09 R272) -/

/-- Bytes of a list of values. -/
def bytesOfAll (n : Nat) (l : List Nat) : List Byte := l.flatMap (bytesOf n)

/-- The flit that lands at a tile so many cycles after the freeze, from a direction. -/
def Partition.staged (p : Partition) (t dir i : Nat) : Option Flit :=
  p.flits.find? (fun f => f.away.isNone && f.tile == t && f.dir == dir && decide (f.cyc = p.scyc + (i : Int)))

/-- Router stages: directions N, E, S, W, eight stages each. -/
def Partition.stages (p : Partition) (t : Nat) : List (Option Flit) :=
  (List.range 32).map (fun i => p.staged t (i / 8) (i % 8))

/-- The rights of a window: 0 closed, 1 read, 2 write, 3 both. -/
def Win.rights (w : Win) : Nat := b2n w.defn.rd + 2 * b2n w.defn.wr

/-- The 8 bytes of a window. -/
def Win.word (w : Win) : Nat :=
  w.defn.off / 8 + at' (w.defn.len / 8 - 1) 16 + at' w.defn.mask.toNat 32 + at' w.rights 48 + at' (b2n w.defn.stall) 50 +
    at' (b2n w.isOpen) 51 + at' (b2n w.missing) 52

/-- The open window of an id. -/
def Tile.winOf (t : Tile) (i : Nat) : Option Win := t.wins.find? (fun w => w.defn.wid == i && w.isOpen)

/-- A stream's 64 bytes: k1 to k15, then SPC. -/
def Stream.bytes (v : Stream) : List Byte :=
  (List.range 15).flatMap (fun i => bytesOf 4 (v.kr (i + 1)).toNat) ++ bytesOf 4 v.spc

/-- A stream's loop state. -/
def Stream.loops (v : Stream) : List Byte :=
  let f := fun (l : Option Loop) => match l with
    | some b => bytesOf 4 b.start ++ bytesOf 4 b.left
    | none => List.replicate 8 0
  f v.outer ++ f v.inner

/-- The 8 bytes of a latch slot. -/
def Latch.word (l : Latch) : Nat := l.vint.toNat + at' l.copy 32 + at' (b2n l.latched) 34

/-- Schedule cycles until a window's close; 0 where a WCL closes it. -/
def Win.remaining (w : Win) (scyc : Int) : Nat :=
  match w.byWcl, w.close with
  | false, some c => (c - scyc).toNat
  | _, _ => 0

/-- A list of bytes cut or filled with zeros to a length. -/
def fitBytes (n : Nat) (b : List Byte) : List Byte := (b ++ List.replicate n 0).take n

/-- A tile's registers: offsets 0 to 0xACFF. -/
def tileRegs (st : List (Option Flit)) (t : Tile) : List Byte :=
  getBytes t.accA 0 16384 ++ getBytes t.accB 0 16384 ++ getBytes t.y 0 8192 ++
    st.flatMap (fun (f : Option Flit) => fitBytes 64 ((f.map (·.data)).getD [])) ++
    (List.range 512).flatMap (fun i => bytesOf 2 (Store.get 0 i t.bmap).toNat) ++
    (List.range 16).flatMap (fun i => wordBytes (Store.get 0 i t.arrival)) ++
    (List.range 16).flatMap (fun i => wordBytes (Store.get 0 i t.visible))

/-- A tile's FIFOs, windows, streams and latches: offsets 0xAD00 to 0xAF7F. -/
def tileStreams (p : Partition) (t : Tile) : List Byte :=
  (List.range 6).flatMap (fun f => fitBytes 32 (bytesOfAll 4 ((t.fifo f).map (fun (k : Token) => k.v.toNat)))) ++
    (List.range 16).flatMap (fun i => bytesOf 8 (((t.winOf i).map Win.word).getD 0)) ++
    t.sx.bytes ++ t.sf.bytes ++ t.sm.bytes ++ t.sx.loops ++ t.sf.loops ++ t.sm.loops ++ List.replicate 16 0 ++
    bytesOfAll 8 [t.sx.sr, t.sf.sr, t.sm.sr] ++ List.replicate 8 0 ++
    (List.range 4).flatMap (fun i => bytesOf 8 (nth Latch.init p.latches i).word)

/-- Router stage valid bits: a byte per direction. -/
def stageValid (st : List (Option Flit)) : List Byte :=
  (chunks 8 st).map (fun c => BitVec.ofNat 8 (((indexed c).map (fun q => at' (b2n q.2.isSome) q.1)).foldl (· + ·) 0))

/-- A tile's counts and flags: offsets 0xAF80 to 0xAFFF. -/
def tileCounts (p : Partition) (st : List (Option Flit)) (t : Tile) (pending : Word) : List Byte :=
  wordBytes (BitVec.ofInt 64 p.scyc) ++ bytesOf 8 p.freezeCycles ++ wordBytes p.offset ++ wordBytes pending ++
    stageValid st ++ bytesOfAll 1 ((List.range 6).map (fun f => (t.fifo f).length)) ++ bytesOf 2 t.arrPosted.toNat ++
    bytesOf 2 t.visPosted.toNat ++ bytesOf 2 (b2n t.ftz) ++ List.replicate 16 0 ++
    (List.range 16).flatMap (fun i => bytesOf 4 (((t.winOf i).map (fun w => w.remaining p.scyc)).getD 0))

/-- A tile's context of 45,056 bytes; the pending freeze word has no stated layout and is given. -/
def tileContext (p : Partition) (no : Nat) (t : Tile) (pending : Word) : List Byte :=
  let st := p.stages no
  tileRegs st t ++ tileStreams p t ++ tileCounts p st t pending

/-! ## A thread's record (05 R127) -/

/-- The opcode of the instruction that a saved thread waits at; 0 where none. -/
def Park.opcode : Park → Nat
  | .retry o => o
  | .blocked o => o
  | .rpc _ => 0x67
  | _ => 0

/-- A thread's record of 1,024 bytes. -/
def Thread.record (x : Thread) : List Byte :=
  (List.range 31).flatMap (fun i => wordBytes (x.gr (i + 1))) ++ wordBytes x.pc ++
    (List.range 64).flatMap (fun i => wordBytes (Store.get 0 i x.v)) ++
    fitBytes 192 (x.older.reverse.flatMap (fun (f : List Word) => f.flatMap wordBytes)) ++ wordBytes x.wsp ++
    wordBytes x.digest ++ bytesOf 8 (x.epc.toNat + at' x.ecause.toNat 48 + at' x.fstat.toNat 56) ++ wordBytes x.eval ++
    bytesOf 8 (x.tvec.toNat + at' x.fctl.toNat 48) ++
    bytesOf 8 (x.flags.toNat + at' x.qcount 32 + at' x.park.opcode 49) ++
    bytesOf 8 (x.wpeDetail.toNat + at' x.rpeDetail.toNat 48) ++ bytesOf 8 (x.vpeDetail.toNat + at' x.older.length 48)

/-! ## The saved contexts of a job (04 R92) -/

/-- The contexts of a job's pre-empted partitions, with the free values that their pending freeze words take. -/
def State.tileContexts (s : State) (j : Nat) : List (List Byte) :=
  let ps := s.parts.filter (fun p => p.2.st == .preempted && p.2.job == j)
  (indexed (ps.flatMap (fun p => p.2.saved.map (fun t => (p.2, t.1, t.2))))).map
    (fun q => tileContext q.2.1 q.2.2.1 q.2.2.2 (Config.freeWord (s.free + q.1)))

/-- The records of a job's saved threads. -/
def State.threadRecords (s : State) (j : Nat) : List (List Byte) :=
  (s.kernels.filter (fun p => decide (p.1 / 2 ^ 32 = j))).flatMap (fun p => p.2.savedThreads.map Thread.record)

end Sys2Proof.Machine
end

