-- ==== Sys2Proof/Machine/Holds.lean ====
section
/-! DEFINITION. Host holds, deadlines, PCTL, hangs and gating, and the LOG and POWER commands (02 R37, R39; 04 R87, R90, R92; 05
R121, R122, R131, R132, R135, R136). -/

namespace Sys2Proof.Machine

open Sys2Proof

/-! ## PREEMPT (04 R87, R90) -/

/-- A partition held by the host; where nothing stops it yet, its pre-emption begins and the command waits for it. -/
def State.hostHoldPart (s : State) (pk : Nat) (cmd : Nat × Nat) : State :=
  let p := s.part pk
  if p.deadlineHold || p.isPreempted then s.setPart pk { p with hostHold := true }
  else
    (s.setPart pk { p with hostHold := true, pcmds := p.pcmds ++ [cmd] }).push .partitionPreemption (Arg.ofN pk)

/-- A kernel held by the host. -/
def State.hostHoldKernel (s : State) (j kid : Nat) (cmd : Nat × Nat) : State :=
  let k := s.kernel j kid
  if k.deadlineHold || k.st == .preempted then s.setKernel j kid { k with hostHold := true }
  else
    (s.setKernel j kid { k with hostHold := true, pcmds := k.pcmds ++ [cmd] }).push .kernelPreemption (Arg.ofNM j kid)

/-- Every unit of a job held by the host. -/
def State.hostHoldJob (s : State) (j : Nat) (cmd : Nat × Nat) : State :=
  let s1 := s.setJob j { s.job j with st := .held }
  let s2 := (s1.partsOf j).foldl (fun w p => if (w.part p).hostHold then w else w.hostHoldPart p cmd) s1
  (s2.kernelsOf j).foldl (fun w k => if (w.kernel j k).hostHold then w else w.hostHoldKernel j k cmd) s2

/-- Whether a partition is one that a host PREEMPT acts on: running, or being pre-empted for a deadline (04 R90). -/
def Partition.mayHold (p : Partition) : Bool :=
  !p.hostHold && (p.deadlineHold || p.st == .running || p.st == .faulted)

/-- Whether a kernel is one that a host PREEMPT acts on. -/
def Kernel.mayHold (k : Kernel) : Bool := !k.hostHold && (k.deadlineHold || k.st == .running)

/-- The command started, with what it has moved so far; it completes at once where no unit has to move. -/
def State.moving (s : State) (c : Cmd) (f : State → State) : State :=
  (f (s.waitCmd c noResult)).settle [(c.q, c.seq)]

/-- Whether a job has a unit that a host PREEMPT acts on (04 R90). -/
def State.jobRunsUnits (s : State) (j : Nat) : Bool :=
  (s.partsOf j).any (fun p => (s.part p).mayHold) || (s.kernelsOf j).any (fun k => (s.kernel j k).mayHold)

/-- PREEMPT (04 R87, R90). -/
def execPreempt (s : State) : Out :=
  hostCmd (fun r c =>
    let id := c.arg 18 4
    let cmd := (c.q, c.seq)
    let bad := r.doneCmd c stBadState noResult
    match c.arg 16 1 with
    | 0 =>
      let pk := unitKey c.job id
      if (r.part pk).mayHold then r.moving c (fun w => w.hostHoldPart pk cmd) else bad
    | 1 => if (r.kernel c.job id).mayHold then r.moving c (fun w => w.hostHoldKernel c.job id cmd) else bad
    | 2 => if (r.job c.job).st = .held ∨ !r.jobRunsUnits c.job then bad else r.moving c (fun w => w.hostHoldJob c.job cmd)
    | _ => r.doneCmd c stBadArg noResult) s

/-! ## RESUME (04 R87, R90; 05 R117) -/

/-- A RESUME started: it waits for its effect point, the begin of the restore; where no unit has to move it completes at once
(04 R81, R87). -/
def State.resuming (s : State) (c : Cmd) (f : State → State) : State :=
  (f (s.begin_ c)).settle [(c.q, c.seq)]

/-- The host hold of a partition given up: it waits to resume, once no other hold stands. -/
def State.releasePart (s : State) (pk : Nat) (cmd : Nat × Nat) : State :=
  let p := s.part pk
  (s.setPart pk { p with hostHold := false, pcmds := p.pcmds ++ [cmd] }).queueResume p.job (false, pk)

/-- The host hold of a kernel given up. -/
def State.releaseKernel (s : State) (j kid : Nat) (cmd : Nat × Nat) : State :=
  let k := s.kernel j kid
  (s.setKernel j kid { k with hostHold := false, pcmds := k.pcmds ++ [cmd] }).queueResume j (true, kid)

/-- Every host hold of a job given up. -/
def State.releaseJob (s : State) (j : Nat) (cmd : Nat × Nat) : State :=
  let s1 := s.setJob j { s.job j with st := .opened }
  let s2 := (s1.partsOf j).foldl (fun w p => if (w.part p).hostHold then w.releasePart p cmd else w) s1
  (s2.kernelsOf j).foldl (fun w k => if (w.kernel j k).hostHold then w.releaseKernel j k cmd else w) s2

/-- RESUME (04 R87, R90). -/
def execResume (s : State) : Out :=
  hostCmd (fun r c =>
    let id := c.arg 18 4
    let cmd := (c.q, c.seq)
    let bad := r.doneCmd c stBadState noResult
    match c.arg 16 1 with
    | 0 =>
      let pk := unitKey c.job id
      if (r.part pk).hostHold then r.resuming c (fun w => w.releasePart pk cmd) else bad
    | 1 => if (r.kernel c.job id).hostHold then r.resuming c (fun w => w.releaseKernel c.job id cmd) else bad
    | 2 => if (r.job c.job).st = .held then r.resuming c (fun w => w.releaseJob c.job cmd) else bad
    | _ => r.doneCmd c stBadArg noResult) s

/-! ## LOG (04 R92) -/

/-- The number that stands for a kind of event in the event log; its layout is not stated. -/
def LogKind.code : LogKind → Nat
  | .startFailed => 0
  | .marginPlan => 1
  | .marginExhausted => 2
  | .scrubUncorrectable => 3
  | .scrubLag => 4
  | .portDown => 5
  | .podMismatch => 6
  | .pdcWait => 7
  | .completionFailed => 8
  | .deadlineMiss => 9
  | .recordsLost => 10
  | .linkDown => 11

/-- The bytes of a LOG kind. -/
def State.logData (s : State) (kind job : Nat) : List Byte :=
  match kind with
  | 0 => Config.logBytes 0 (s.pkg.events.map (fun e => [e.kind.code, e.a, e.b, e.time.toNat]))
  | 1 => Config.logBytes 1 (s.pkg.plans.map (fun e => [e.time.toNat, e.die, e.low] ++ e.bands))
  | 2 => Config.certChain
  | 3 => (s.tileContexts job ++ s.threadRecords job).flatten
  | _ => Config.logBytes 4 []

/-- The free values that a LOG kind draws. -/
def State.logFree (s : State) (kind job : Nat) : Nat := if kind = 3 then (s.tileContexts job).length else 0

/-- LOG: a log is written to the host address, cut off at the buffer's length (04 R87, R92). -/
def execLog (s : State) : Out :=
  hostCmd (fun r c =>
    let kind := c.arg 16 1
    if 4 < kind then r.doneCmd c stBadArg noResult
    else if kind = 3 ∧ (256 ≤ c.job ∨ (r.job c.job).st = .closed) then r.doneCmd c stBadJob noResult
    else if !r.entryUsable hostJob c.q then r.doneCmd c stHostIo noResult
    else
      let b := (r.logData kind c.job).take (c.arg 20 4)
      let r1 := { r with free := r.free + r.logFree kind c.job }
      (r1.doneCmd c stOk (result16 (bytesOf 4 b.length))).hostBuffer c (c.arg 24 8) b) s

/-! ## POWER (02 R37, R39; 04 R87) -/

/-- Every unit of the package pre-empted, to resume after the next start (02 R39, R41). -/
def State.holdAll (s : State) : State := (s.candidates [0, 1, 2, 3]).foldl State.holdFor s

/-- POWER: the cap is set, or retention is entered or left. -/
def execPower (s : State) : Out :=
  hostCmd (fun r c =>
    let p := r.pkg.power
    let cap := c.arg 18 2
    match c.arg 16 1 with
    | 0 =>
      if 1200 ≤ cap ∧ cap ≤ 3000 then
        (r.setPkg { r.pkg with power := { p with cap := cap } }).doneCmd c stOk noResult
      else r.doneCmd c stBadArg noResult
    | 1 => ((r.setPkg { r.pkg with power := { p with toRetention := true } }).holdAll).doneCmd c stOk noResult
    | 2 =>
      if p.st = .retention then
        (r.setPkg { r.pkg with starts := { r.pkg.starts with asked := some true } }).doneCmd c stOk noResult
      else r.doneCmd c stBadState noResult
    | _ => r.doneCmd c stBadArg noResult) s

/-! ## DEADLINE_PREEMPTION and DEADLINE_MISS (05 R121, R122) -/

/-- Threads of a victim kernel. -/
def State.victimThreads (s : State) (v : Victim) : Nat :=
  if v.kernel then (s.kernelThreads (v.key / 2 ^ 32) (v.key % 2 ^ 32)).length else 0

/-- The drain time of a victim. -/
def State.victimDrain (s : State) (v : Victim) : Nat :=
  if v.kernel then 2048 else let p := s.part v.key; p.lead + 800 + p.maxGran

/-- Bytes that the claim of a launch forces out, in the state as it would be with its victims pre-empted. -/
def State.claimBytes (r : State) (l : Launch) : Nat :=
  if l.sched then
    match parseSched l.image with
    | .ok d => let p := r.wanted d l.job l.origin; r.heldIn p.tiles (r.pickFb p.tiles d.flen) d.flen
    | .error _ => 0
  else
    match parseKernel l.image with
    | .ok img =>
      let k := img.kernel l.cores
      ((((r.place l.job k l.n).getD []).dedup).map (fun c =>
        ((r.kernels.filter (fun p => p.2.st == .preempted && p.2.cores.contains c && !p.2.lsSaved.any (fun x => x.1 == c))).map
          (fun p => overlap p.2.lsoff p.2.lslen k.lsoff k.lslen)).foldl (· + ·) 0)).foldl (· + ·) 0
    | .error _ => 0

/-- The save estimate for a launch's victims. -/
def State.saveEstimate (s : State) (l : Launch) (vs : List Victim) (r : State) : Nat :=
  let d := (vs.map s.victimDrain).foldl Nat.max 0
  let tiles := (vs.map (fun v => if v.kernel then 0 else (s.part v.key).tiles.length)).foldl (· + ·) 0
  let b := contextBytes * tiles + threadBytes * (vs.map s.victimThreads).foldl (· + ·) 0 + r.claimBytes l
  d + ceilDiv b (215 * nth 16 s.ratio 1)

/-- G of R121: 190,000 cycles. -/
def deadlineGuard : Nat := 190000

/-- DEADLINE_PREEMPTION for the head launch of operational job `arg.n`: a first launch pre-empts once its latest start is
near, a later one at once (05 R121). -/
def execDeadlinePreemption (s : State) : Out :=
  match s.headOf 0 with
  | none => .next s
  | some l =>
    let x := s.job l.job
    if l.job ≠ s.arg.n ∨ l.resumes.isSome ∨ !s.considered l ∨ !s.lacksFor l then .next s
    else
      let (vs, r) := State.choose l (s.candidates [3, 2, 1]) s
      let due := x.deadline.toNat ≤ s.ptime.toNat + x.wcrt.toNat + s.saveEstimate l vs r + deadlineGuard
      .next (if x.started ∨ due then vs.foldl State.holdFor s else s)

/-- DEADLINE_MISS of job `arg.n`: DEADLINE has come, and it is logged where the job still runs then (05 R121). -/
def execDeadlineMiss (s : State) : Out :=
  let j := s.arg.n
  let x := s.job j
  if x.st ≠ .closed ∧ x.cls = 0 ∧ !x.missed ∧ x.deadline.toNat ≤ s.ptime.toNat then
    let s1 := s.setJob j { x with missed := true }
    .next (if x.started && !((s.partsOf j).isEmpty && (s.kernelsOf j).isEmpty) then s1.logEvent .deadlineMiss j 1 else s1)
  else .next s

/-! ## PCTL (05 R135, R136; 09 R251, R257, R262) -/

/-- The issues of a partition's present schedule cycle that faulted checked again, at a new check point (09 R262). -/
def State.checkAgain (s0 : State) (pk : Nat) : State :=
  let p := s0.part pk
  let s := s0.setPart pk { p with past := [] }
  ((s.toDecide pk).filter (fun x => decide (x.cyc = p.scyc))).foldl (fun w x => w.decideOne pk x) s

/-- A fault freeze that a CONTINUE ends, one freeze lead from now. -/
def Partition.continued (p : Partition) (now : Nat) : Partition :=
  let fs := p.freezes.map (fun (f : Freeze) =>
    if f.cause = .fault ∧ f.ends.isNone then { f with ends := some (now + p.lead) } else f)
  { p with st := .running, freezes := fs, stallFrom := now, stuck := false }

/-- A partition that goes on after a fault, the ends of its fault freezes told to its other packages (09 R271). -/
def State.goOn (s : State) (pk : Nat) : State :=
  let p := s.part pk
  (p.freezes.filter (fun f => f.cause == .fault && f.ends.isNone)).foldl
    (fun (w : State) f => w.castEnd p f.cyc (s.cyc + p.lead)) (s.setPart pk (p.continued s.cyc))

/-- PCTL_CONTINUE of partition number `arg.n`: permitted after SLIP_TIMEOUT, whose timeout restarts, and after BLOCKMAP, whose
check is made again (05 R135). -/
def execPctlContinue (s : State) : Out :=
  match s.partNo s.arg.n with
  | none => .next s
  | some pk =>
    if (s.part pk).st ≠ .faulted ∨ (s.part pk).stuck then .next s
    else
      let s1 := s.checkAgain pk
      let p := s1.part pk
      let fl := sortFaults (p.faults.filter (fun f => decide (f.cyc = p.scyc)))
      if fl.isEmpty then .next (s1.goOn pk)
      else
        let rest := p.faults.filter (fun f => !decide (f.cyc = p.scyc))
        .next (fl.foldl (fun w f => w.takeFault pk f) (s1.setPart pk { p with faults := rest }))

/-- PCTL_ABORT of partition number `arg.n`: the schedule ends without a save and its load completes with BADSTATE (05
R135). -/
def execPctlAbort (s : State) : Out :=
  match s.partNo s.arg.n with
  | none => .next s
  | some pk =>
    .next (s.endPartition pk stBadState (resultAt 20 (bytesOf 1 (s.part pk).lastFault) noResult))

/-! ## HANG and gating (05 R131, R132) -/

/-- The threads that block on a core: those of pre-empted kernels count as empty. -/
def State.blockedOn (s : State) (c : Nat) : List Nat :=
  s.liveThreads.filter (fun t => coreOf t == c && (s.thread t).park != .running)

/-- Whether a time since some cycle is a whole multiple of the hang threshold. -/
def State.hangDue (s : State) (since : Nat) : Bool :=
  decide (since < s.cyc) && (s.cyc - since) % (s.hangMs * cyclesPerMs) == 0

/-- HANG of core `arg.n`, or with `arg.b` of partition `arg.n`: reported to the supervisors of the jobs it concerns (05
R132). DESIGN CHOICE: a partition that pre-emption has stopped does not count as frozen (log entry 166). -/
def execHang (s : State) : Out :=
  let n := s.arg.n
  if s.arg.b then
    let p := s.part n
    if p.frozen ∧ p.st ≠ .preempted ∧ s.hangDue p.frozenAt then
      .next (s.drawn.sendRecord p.job (recordBytes cHang 1 p.job (p.num.getD 0) s.ptime s.freeVal (BitVec.ofInt 64 p.scyc)
        0xFFFF 0xFF (List.replicate 4 0 ++ bytesOf 4 p.launch)))
    else .next s
  else
    match (s.core n).blockedSince with
    | none => .next s
    | some t =>
      if s.hangDue t then
        .next (((s.blockedOn n).map (fun x => (s.thread x).job)).eraseDups.foldl (fun (w : State) j =>
          w.drawn.drawn.sendRecord j
            (recordBytes cHang 2 j n s.ptime w.freeVal (Config.freeWord (w.free + 1)) 0xFFFF 0xFF [])) s)
      else .next s

/-- Cycles for which all slots of a core are blocked before it is clock-gated (05 R131). -/
def gateAfter : Nat := 2048

/-- CORE_CLOCK_GATE of core `arg.n` (05 R131). -/
def execCoreClockGate (s : State) : Out :=
  let x := s.core s.arg.n
  match x.gating, x.blockedSince with
  | .running, some t =>
    .next (if t + gateAfter ≤ s.cyc then s.setCore s.arg.n { x with gating := .clockGated s.cyc } else s)
  | _, _ => .next s

/-- CORE_POWER_GATE of core `arg.n`, clock-gated for 1 ms: its state is kept (05 R131). -/
def execCorePowerGate (s : State) : Out :=
  let x := s.core s.arg.n
  match x.gating with
  | .clockGated t => .next (if t + cyclesPerMs ≤ s.cyc then s.setCore s.arg.n { x with gating := .powerGated } else s)
  | _ => .next s

end Sys2Proof.Machine
end

