-- ==== Sys2Proof/Machine/Fabric.lean ====
section
/-! DEFINITION. Ethernet and tendril ports, the timed pod, side-band flits and plane time (03 R50 to R76; 04 R77 to R79). -/

namespace Sys2Proof.Machine

open Sys2Proof

/-! ## AHQCTL_ENABLE (04 R78, R79) -/

/-- Every slot counter of a queue armed with total 64. -/
def State.armSlots (s : State) (q : Nat) : State := (List.range 64).foldl (fun w sl => w.armSlot q sl) s

/-- Whether a queue's host peer entry is usable and ordered. -/
def State.queueUsable (s : State) (q : Nat) : Bool := s.entryUsable hostJob q && bit (field (s.peerEntry hostJob q) 21 1) 1

/-- AHQCTL_ENABLE of queue `arg.n`: its counters are armed and records accepted, unless its host entry is unusable or not
ordered. -/
def execAhqctlEnable (s : State) : Out :=
  let q := s.arg.n
  if q < 4 ∧ s.queueUsable q ∧ !(s.queue q).enable then
    .next ((s.setQueue q { s.queue q with enable := true }).armSlots q)
  else .next s

/-! ## The timed pod (03 R64, R70 to R72) -/

/-- The state with its pod replaced. -/
def State.setPod (s : State) (p : Pod) : State := s.setPkg { s.pkg with pod := p }

/-- A tendril port replaced. -/
def State.setPort (s : State) (n : Nat) (x : Tendril) : State :=
  s.setPod { s.pkg.pod with ports := Store.put Tendril.init n x s.pkg.pod.ports }

/-- Whether this package is a member of a formed pod other than its root. -/
def Pod.isMember (p : Pod) : Bool := p.form && !p.isRoot

/-- LOCKED as the clock stands: the root of a formed pod is aligned with itself, and a member once an exchange has given its
correction, while that has left nothing to correct and its upstream port is up (03 R72). -/
def State.relock (s : State) : State :=
  let c := s.pkg.clock
  let p := s.pkg.pod
  s.setPod { p with locked := p.form &&
    (p.isRoot || (c.exchanged && decide (c.corr = 0) && decide (c.phase = 0) && p.upstreamUp)) }

/-- A tendril port trained anew or lost: what was exchanged over it, where it is the upstream port, aligns no longer (03 R70,
R72). -/
def State.newPort (s : State) (n : Nat) : State :=
  let c := s.pkg.clock
  (s.setPkg { s.pkg with clock := { c with exchanged := c.exchanged && s.pkg.pod.upstream != some n } }).relock

/-- POD_FORM: the pod is formed, its ports to be trained again and checked against the declared torus; the root is aligned
with itself. -/
def execPodForm (s : State) : Out :=
  let p := s.pkg.pod
  if p.form then .next s
  else
    let fresh : Store Tendril := p.ports.map (fun (x : Nat × Tendril) =>
      if p.portUsed x.1 then (x.1, { x.2 with up := false, matched := false }) else x)
    let q := { p with form := true, ports := fresh, bars := [] }
    let s1 := s.setPod { q with locked := q.isRoot }
    .next (s1.setPkg { s1.pkg with clock := { s1.pkg.clock with lastExchange := 0, exchanged := false } })

/-- POD_DISSOLVE: the pod is dissolved where no spanning partition runs. -/
def execPodDissolve (s : State) : Out :=
  if s.placedParts.any (fun p => p.2.span) then .next s
  else .next (s.setPod { s.pkg.pod with form := false, locked := false, bars := [] })

/-- The running partitions that use a port. -/
def State.portParts (s : State) (port : Nat) : List Nat :=
  (s.placedParts.filter (fun p => s.usesPort p.2 port)).map (·.1)

/-- What the neighbour of a tendril port names in training where the cabling is right: its coordinates in the torus, one further
along the port's dimension, and the port of the opposite direction (03 R64). -/
def Pod.neighbour (p : Pod) (port : Nat) : List Nat :=
  (List.range 3).map (fun d =>
    if d = port / 2 then (p.coord d + (if port % 2 = 0 then 1 else p.size d - 1)) % p.size d else p.coord d) ++
    [if port % 2 = 0 then port + 1 else port - 1]

/-- TENDRIL_TRAINING of port `arg.n`, whose measured latency is `arg.m`: it comes up where the coordinates and port number that
the neighbour names (`arg.bytes`) are those of the declared torus and the latency is at most TLAT; a mismatch is logged and
the pod does not form. A port that lost lock trains only while no running partition uses it (03 R64, R69, R70). -/
def execTendrilTraining (s : State) : Out :=
  let n := s.arg.n
  let pod := s.pkg.pod
  let x := pod.port n
  if 6 ≤ n ∨ !pod.portUsed n ∨ (x.lockLost ∧ !(s.portParts n).isEmpty) then .next s
  else if s.arg.bytes.map (·.toNat) ≠ pod.neighbour n then
    let s1 := (s.setPort n { x with up := false, latency := s.arg.m, matched := false }).logEvent .podMismatch n 0
    .next (s1.setPod { s1.pkg.pod with form := false, locked := false })
  else
    let up := decide (s.arg.m ≤ pod.tlat.toNat)
    .next ((s.setPort n { x with up := up, latency := s.arg.m, matched := true, lockLost := x.lockLost && !up }).newPort n)

/-- LINK on tendril port `arg.n`: an uncorrectable codeword, a CRC mismatch or, with `arg.m` 2, a loss of lock faults every
partition that uses the port, a freeze lead from now (03 R70; 09 R251). -/
def execLink (s : State) : Out :=
  let n := s.arg.n
  if 6 ≤ n ∨ !(s.pkg.pod.port n).up then .next s
  else
    let s1 := (s.portParts n).foldl (fun (w : State) pk =>
      let p := w.part pk
      w.noteFault pk (p.scyc + p.lead) fLink none none []) s
    .next (if s.arg.m = 2 then
      ((s1.setPort n { s.pkg.pod.port n with up := false, lockLost := true }).logEvent .linkDown n 0).newPort n else s1)

/-! ## Ethernet ports (03 R50 to R52, R55, R61) -/

/-- An Ethernet port. -/
def State.eth (s : State) (n : Nat) : EthPort := Store.get EthPort.init n s.pkg.eth

/-- An Ethernet port replaced. -/
def State.setEth (s : State) (n : Nat) (x : EthPort) : State :=
  s.setPkg { s.pkg with eth := Store.put EthPort.init n x s.pkg.eth }

/-- A discarded frame counted by its kind. -/
def EthPort.discard (p : EthPort) (kind : Nat) : EthPort :=
  match kind with
  | 0 => { p with discV4 := p.discV4 + 1 }
  | 1 => { p with discType := p.discType + 1 }
  | 2 => { p with discService := p.discService + 1 }
  | _ => { p with discSemantics := p.discSemantics + 1 }

/-- FRAME_RECEIVE at port `arg.n` of a frame of `arg.v` bytes: an IPv4 frame (`arg.m` 0), one of another EtherType (1), or a
packet of a delivery service (2) or of semantics (3) that the device does not implement is discarded and counted; a frame of
more than 9,216 bytes is not accepted (03 R51, R52). -/
def execFrameReceive (s : State) : Out :=
  let n := s.arg.n
  if 8 ≤ n ∨ !(s.eth n).up ∨ 3 < s.arg.m ∨ frameMax < s.arg.v.toNat then .next s else .next (s.setEth n ((s.eth n).discard s.arg.m))

/-- What the Tadpole answers at a port: the port's IPv6 and MAC addresses to a solicitation, the data of an ICMPv6 echo
(03 R51). -/
def EthPort.reply (p : EthPort) (echo : Bool) (b : List Byte) : List Byte :=
  if echo then b else bytesOf 16 p.addr.toNat ++ bytesOf 6 p.mac.toNat

/-- NEIGHBOUR_DISCOVERY at port `arg.n`: the Tadpole answers the frame's source, or with `arg.b` an ICMPv6 echo (03 R51). -/
def execNeighbourDiscovery (s : State) : Out :=
  let n := s.arg.n
  if 8 ≤ n ∨ !(s.eth n).up ∨ frameMax < s.arg.bytes.length then .next s
  else
    let s1 := s.setEth n { s.eth n with answered := (s.eth n).answered + 1 }
    .next { s1 with outbox := s1.outbox ++
      [{ kind := 7, op := b2n s.arg.b, job := 0, peer := n, va := 0, data := (s.eth n).reply s.arg.b s.arg.bytes, rel := false,
         ports := BitVec.ofNat 8 (2 ^ n) }] }

/-- The ports' addresses as firmware sets them at a start (03 R51). -/
def State.addressPorts (s : State) : State :=
  (List.range 8).foldl (fun (w : State) n =>
    w.setEth n { w.eth n with mac := Config.portMac n, addr := Config.portAddr n }) s

/-- An operation that has been sent and is not acknowledged sent again over the ports of its entry, as it was read, that are up
now (03 R57, R61, R62). -/
def State.reroute (s : State) (o : RemoteOp) : State :=
  let q := { o.pkt with ports := s.routeOf o.pkt.entry }
  { s with
    remotes := s.remotes.map (fun r => if r.id = o.id then { r with pkt := q } else r),
    outbox := if q.ports = 0 then s.outbox else s.outbox ++ [q] }

/-- ETHERNET_PORT_DOWN of port `arg.n`: its connections move to the other ports of their entries that are up, and go on from the
last acknowledged packet, in order (03 R61, R62). -/
def execEthernetPortDown (s : State) : Out :=
  let n := s.arg.n
  if 8 ≤ n ∨ !(s.eth n).up then .next s
  else
    .next ((s.remotes.filter (fun o => !o.waiting && o.pkt.ports.getLsbD n)).foldl State.reroute
      ((s.setEth n { s.eth n with up := false }).logEvent .portDown n 0))

/-- ETHERNET_PORT_TRAINING of port `arg.n`: it comes up, and carries what had no port, or stays down and is logged; in safe mode
only port 0 comes up (03 R50, R61, R62; 02 R49). -/
def execEthernetPortTraining (s : State) : Out :=
  let n := s.arg.n
  if 8 ≤ n ∨ (s.pkg.starts.safe ∧ n ≠ 0) then .next s
  else if s.arg.b then
    .next ((s.remotes.filter (fun o => !o.waiting && o.pkt.ports == 0)).foldl State.reroute (s.setEth n { s.eth n with up := true }))
  else .next ((s.setEth n { s.eth n with up := false }).logEvent .portDown n 1)

/-! ## Plane time (03 R72, R73, R75, R76) -/

/-- The state with its clock replaced. -/
def State.setClock (s : State) (c : Clock) : State := s.setPkg { s.pkg with clock := c }

/-- The cycles between correction and phase steps. -/
def stepGap : Nat := 1024

/-- A correction of whole cycles that is to be applied from now, in place of what was left of an earlier one. -/
def State.correct (s : State) (c : Int) : State := s.setClock { s.pkg.clock with corr := c }

/-- The corrections whose WHEN has come taken up, the last of them. -/
def State.takeCorr (s : State) : State :=
  let c := s.pkg.clock
  let due := c.corrAt.filter (fun x => decide (x.1.toNat ≤ c.ptime.toNat))
  match due.getLast? with
  | none => s
  | some x =>
    s.setClock { c with corr := x.2, corrAt := c.corrAt.filter (fun y => !decide (y.1.toNat ≤ c.ptime.toNat)) }

/-- PTIME stepped by a large correction; STEPPED is set (03 R73, R76). -/
def State.stepTime (s : State) (c : Int) : State :=
  let s1 := s.setClock { s.pkg.clock with ptime := s.ptime + BitVec.ofInt 64 c, corr := 0, lastCorr := s.cyc }
  s1.setPkg { s1.pkg with ptp := { s1.pkg.ptp with stepped := true } }

/-- The PTIME of each spanning partition anchored here sent to its other packages, where a correction or a resume has changed it
(03 R74; 05 R126). -/
def State.anchorTimes (s : State) : State :=
  (s.parts.filter (fun x => x.2.st != .free && x.2.started && s.isAnchor x.2)).foldl
    (fun w x => w.spread x.2 1 s.ptime (wordBytes (s.ptime - x.2.offset))) s

/-- PTIME_CORRECTION_STEP: a correction of 1,024 cycles or more is one step; a smaller one is made a cycle at a time, at most
one per 1,024 cycles, by a hold or a double advance (03 R73). -/
def execPtimeCorrectionStep (s : State) : Out :=
  let s1 := s.takeCorr
  let c := s1.pkg.clock
  if c.corr = 0 then .next s1
  else if 1024 ≤ c.corr.natAbs then .next (s1.stepTime c.corr).relock.anchorTimes
  else if s.cyc < c.lastCorr + stepGap then .next s1
  else
    let d : Int := if 0 < c.corr then 1 else -1
    .next (s1.setClock { c with ptime := c.ptime + BitVec.ofInt 64 d, corr := c.corr - d, lastCorr := s.cyc }).relock.anchorTimes

/-- CLOCK_PHASE_STEP: the phase shifts by at most 1/16 cycle per 1,024 cycles (03 R72). -/
def execClockPhaseStep (s : State) : Out :=
  let c := s.pkg.clock
  if c.phase = 0 ∨ s.cyc < c.lastPhase + stepGap then .next s
  else
    let d : Int := if 0 < c.phase then 1 else -1
    .next (s.setClock { c with phase := c.phase - d, lastPhase := s.cyc }).relock

/-- The latency and the offset of four timestamps, in 1/16 cycle (03 R72). -/
def exchange (t1 t2 t3 t4 : Int) : Int × Int :=
  let lat := ((t4 - t1) - (t3 - t2)) / 2
  (lat, t2 - (t1 + lat))

/-- A TIMESTAMP sent over a port: its WHEN is the PTIME of the slot that it takes (03 R67). -/
def State.timestampOn (s : State) (n : Nat) : State := s.sideband [n] 1 n (s.slotTime n) []

/-- TIMESTAMP at tendril port `arg.n`, with the exchange's four timestamps: on the upstream port of a pod member it gives
its correction; on another port it is answered (03 R72). -/
def execTimestamp (s : State) : Out :=
  let pod := s.pkg.pod
  if 6 ≤ s.arg.n ∨ !pod.form ∨ !(pod.port s.arg.n).up then .next s
  else if pod.isMember ∧ pod.upstream = some s.arg.n then
    match s.arg.ints with
    | [t1, t2, t3, t4] =>
      let off := (exchange t1 t2 t3 t4).2
      let c := s.pkg.clock
      .next (s.setClock { c with corr := (-off).tdiv 16, phase := (-off).tmod 16, exchanged := true }).relock
    | _ => .next s
  else .next (s.timestampOn s.arg.n)

/-- Cycles between TIMESTAMP exchanges (03 R72). -/
def exchangeGap : Nat := 2 ^ 20

/-- Whether a pod member owes a TIMESTAMP exchange. -/
def State.exchangeDue (s : State) : Bool :=
  let c := s.pkg.clock
  s.pkg.pod.isMember && (c.lastExchange == 0 || decide (c.lastExchange + exchangeGap ≤ s.cyc))

/-- TIMESTAMP_EXCHANGE: a pod member sends a TIMESTAMP to its upstream neighbour (03 R72). -/
def execTimestampExchange (s : State) : Out :=
  match s.pkg.pod.upstream with
  | some n =>
    if s.exchangeDue then
      .next ((s.setClock { s.pkg.clock with lastExchange := Nat.max 1 s.cyc }).timestampOn n)
    else .next s
  | none => .next s

/-- The estimate of a PTP message in ns taken into PTPSTAT (03 R76). -/
def Ptp.estimate (p : Ptp) (i : Int) : Ptp :=
  let near := decide (i.natAbs ≤ 20)
  let good := if near then p.good + 1 else 0
  { p with offset := BitVec.ofInt 32 i, good := good, locked := decide (16 ≤ good), outbound := !near }

/-- PTIME that PTP time `t`, in units of 2^-16 ns, asks for: floor((T - EPOCH) x 1.9 x 10^9) (03 R75). -/
def Ptp.target (p : Ptp) (t : Int) : Int := (t - p.epoch.toNat * 1000000000 * 65536) * 19 / (10 * 65536)

/-- Whether a PTP message has a form that the device takes time from: profile 0 the default, mechanism 0 delay request-response
or 1 peer delay, one or two steps, and 0 UDP on IPv6 or 1 IEEE 802.3 (03 R55). -/
def ptpForm (b : List Byte) : Bool :=
  let at_ := fun (i : Nat) => (nth 0 b i).toNat
  decide (at_ 0 = 0) && decide (at_ 1 ≤ 1) && (at_ 2 == 1 || at_ 2 == 2) && decide (at_ 3 ≤ 1)

/-- The WHEN of a CORR: 16 + TLAT cycles after the last of its flits is sent (03 R73). -/
def State.corrTime (s : State) : Word :=
  let pod := s.pkg.pod
  s.ptime + BitVec.ofNat 64 ((pod.livePorts.map s.slotWait).foldl Nat.max 0 + 16 + pod.tlat.toNat)

/-- PTP_EVENT_MESSAGE at Ethernet port `arg.n`, of domain `arg.m` and form `arg.bytes`, that shows PTP time `arg.i` in units of
2^-16 ns: it is timestamped on every port, in 1/16 cycle, of which `arg.v` gives the fraction, and time is taken from it on the
port of PTPCTL. The root of a pod sends its correction to every package as CORR (03 R55, R73, R75, R76; log entry 151). -/
def execPtpEventMessage (s0 : State) : Out :=
  let n := s0.arg.n
  let stamp := s0.ptime.toNat * 16 + s0.arg.v.toNat % 16
  let s := if 8 ≤ n ∨ !(s0.eth n).up then s0 else s0.setEth n { s0.eth n with stamp := stamp }
  let p := s.pkg.ptp
  let pod := s.pkg.pod
  if !p.enable ∨ p.port.toNat ≠ n ∨ p.domain.toNat ≠ s.arg.m ∨ !ptpForm s.arg.bytes ∨ pod.isMember ∨ !(s.eth n).up then .next s
  else
    let off : Int := stamp - 16 * p.target s.arg.i
    let c := (-off).tdiv 16
    let s1 := s.setPkg { s.pkg with ptp := p.estimate ((off * 10).tdiv (16 * 19)) }
    if pod.form then
      let at_ := s.corrTime
      let s2 := s1.setClock { s1.pkg.clock with corrAt := s1.pkg.clock.corrAt ++ [(at_, c)] }
      .next (s2.sideband pod.livePorts 6 0 at_ (wordBytes (BitVec.ofInt 64 c)))
    else .next (s1.correct c)

/-! ## Side-band flits received (03 R68, R73; 09 R270, R271) -/

/-- The part of a spanning partition that a claim of a job placed here (log entry 156). -/
def State.partOfClaim (s : State) (j no : Nat) : Option Nat :=
  (s.parts.find? (fun p => p.2.st != .free && p.2.span && p.2.job == j && p.2.claimNo == no)).map (·.1)

/-- The spanning partition that runs here whose flits carry a number. -/
def State.spanNo (s : State) (n : Nat) : Option Nat :=
  (s.parts.find? (fun p => p.2.st != .free && p.2.span && p.2.started && p.2.flitId == n)).map (·.1)

/-- Cycles from now to a PTIME, at least 0. -/
def State.until_ (s : State) (at_ : Word) : Nat := at_.toNat - s.ptime.toNat

/-- SIDEBAND_FREEZE: partition number `arg.n` freezes at PTIME `arg.v`. -/
def execSidebandFreeze (s : State) : Out :=
  match s.spanNo s.arg.n with
  | none => .next s
  | some pk =>
    let p := s.part pk
    .next (s.addFreeze pk (if p.frozen then p.scyc else p.scyc + (s.until_ s.arg.v : Int)) .sideband none)

/-- The anchor's word that a part's SCYC is 0 at a PTIME, which its later samples go on from (03 R74; 09 R247; log entry 156). -/
def State.startPart (s : State) (pk no : Nat) (at_ : Word) : State :=
  s.setPart pk { s.part pk with startPtime := at_, flitId := no, sample := some (at_.toNat, s.cyc + s.until_ at_) }

/-- SIDEBAND_RESUME: partition number `arg.n` goes on at PTIME `arg.v`, or begins there: the flit's body (`arg.bytes`) names a part
that has not started. -/
def execSidebandResume (s : State) : Out :=
  match s.partOfClaim (field s.arg.bytes 2 2) (field s.arg.bytes 4 4), s.spanNo s.arg.n with
  | some pk, none =>
    .next (if (s.part pk).started ∨ s.isAnchor (s.part pk) then s else s.startPart pk s.arg.n s.arg.v)
  | _, none => .next s
  | _, some pk =>
    let p := s.part pk
    let fs := p.freezes.map (fun (f : Freeze) =>
      if f.cause = .sideband ∧ f.ends.isNone then { f with ends := some (s.cyc + s.until_ s.arg.v) } else f)
    .next (s.setPart pk { p with freezes := fs })

/-- The first freeze that another package has asked for at a schedule cycle, and not yet ended, given its end (09 R271). -/
def endCast (cyc : Int) (e : Nat) : List Freeze → List Freeze
  | [] => []
  | f :: t =>
    if (f.cause = .sideband ∨ f.cause = .fault) ∧ f.cyc = cyc ∧ f.ends.isNone then { f with ends := some e } :: t
    else f :: endCast cyc e t

/-- A freeze that another package has decided for a schedule cycle, or its end where WHEN is not 0. -/
def State.castFreeze (s : State) (pk : Nat) (cyc : Int) (at_ : Word) : State :=
  let p := s.part pk
  if at_ = 0 then s.addFreeze pk cyc .sideband none
  else s.setPart pk { p with freezes := endCast cyc (s.cyc + s.until_ at_) p.freezes }

/-- A VLT that another package sampled with a PUB other than here: the slot keeps its earlier latch (09 R271). -/
def State.castLatch (s : State) (pk sl pub : Nat) (cyc : Int) : State :=
  let p := s.part pk
  match p.decided.find? (fun d => decide (d.cyc = cyc) &&
    (match d.dec with
      | .vlt k l => k == sl && l.latched && decide (l.vint.toNat ≠ pub)
      | _ => false)) with
  | some { dec := .vlt _ l, .. } =>
    let old := nth Latch.init p.latches sl
    let n := nth 0 p.sets sl
    let v := (s.vset n).unlatch l.copy
    let ds := p.decided.map (fun (d : Decided) => if d.cyc = cyc ∧ d.dec = .vlt sl l then { d with dec := .vlt sl old } else d)
    (s.setVset n (if old.latched then v.relatch old.copy else v)).setPart pk { p with decided := ds }
  | _ => s

/-- The counts of tiles that decided another package's BRCs of a cycle: DIVERGE_CHOICE where they differ from here (09 R260,
R271). -/
def State.castChoice (s : State) (pk : Nat) (cyc : Int) (runs skips : Nat) : State :=
  let p := s.part pk
  let run := runs ≠ 0 ∨ !(p.choices cyc true).isEmpty
  let skip := skips ≠ 0 ∨ !(p.choices cyc false).isEmpty
  if run ∧ skip then s.diverge pk cyc runs skips false else s

/-- The anchor's PTIME now, of which a sample taken at a PTIME came: the time since is this package's own (03 R74). -/
def State.sampleNow (s : State) (v at_ : Word) : Nat := (v + (s.ptime - at_)).toNat

/-- BCAST for partition number `arg.n`: a freeze decision, a PTIME sample, a vintage sample or a choice (09 R271; 03 R74). -/
def execBcast (s : State) : Out :=
  let b := s.arg.bytes
  let cyc := toSigned 64 (field b 0 8)
  match s.spanNo s.arg.n with
  | none => .next s
  | some pk =>
    .next (match s.arg.m with
      | 0 => s.castFreeze pk cyc s.arg.v
      | 1 => s.setPart pk { s.part pk with sample := some (s.sampleNow (wordOf (b.take 8)) s.arg.v, s.cyc) }
      | 2 => s.castLatch pk (field b 0 1) (field b 1 4) (toSigned 64 (field b 5 8))
      | 3 => s.castChoice pk cyc (field b 8 4) (field b 12 4)
      | _ => s)

/-- CORR: a correction `arg.i` that a member of the pod applies at PTIME `arg.v` (03 R73). -/
def execCorr (s : State) : Out :=
  if s.pkg.pod.isMember then
    .next (s.setClock { s.pkg.clock with corrAt := s.pkg.clock.corrAt ++ [(s.arg.v, s.arg.i)] })
  else .next s

/-- SIDEBAND_FAULT: partition number `arg.n` freezes with fault code `arg.m` at schedule cycle `arg.v`; the anchor sends the
record (03 R68; 05 R135; 09 R271). -/
def execSidebandFault (s : State) : Out :=
  match s.spanNo s.arg.n with
  | none => .next s
  | some pk =>
    let cyc := toSigned 64 s.arg.v.toNat
    if s.isAnchor (s.part pk) then .next (s.noteHere pk cyc s.arg.m none none [])
    else .next (s.addFreeze pk cyc .fault none)

/-- Bytes of a side-band flit's body (03 R67). -/
def bodyLen : Nat := 44

/-- The launch id of a part that a claim places: apart from those of the job's own launches (log entry 156). -/
def claimId (no : Nat) : Nat := 2 ^ 30 + no % 2 ^ 30

/-- A claim's part of this package: placed, with answer 1, or SHAPE (2) or BUSY (3), the answer also of a package whose guard bands
are exhausted or that goes to retention (02 R39, R41). The tiles belong to this package's open job of the
anchor job's number (09 R270; 16 R476). -/
def State.takeClaim (s : State) (j no id : Nat) (o : Nat × Nat) (image : List Byte) : Nat × State :=
  match parseSched image with
  | .error _ => (2, s)
  | .ok d =>
    let p := { s.wantedAt d j o with claimNo := no }
    let pk := unitKey j (claimId no)
    if (s.job j).st = .closed then (2, s)
    else if s.pkg.power.exhausted ∨ s.pkg.power.toRetention then (3, s)
    else if (s.part pk).st ≠ .free then (1, s)
    else if !s.canPlace pk p then (3, s)
    else
      let r := s.acceptSched d p (claimId no) 1 (BitVec.allOnes 64) none
      (1, r.setPart pk { r.part pk with flitId := id })

/-- A claim answered, where this package holds tiles of its rectangle. -/
def State.answerClaim (s : State) (id : Nat) (b : List Byte) : State :=
  let r := (List.range 4).map (fun i => field b (8 + 2 * i) 2)
  let p : Partition := { Partition.init with span := true, ox := nth 0 r 0, oy := nth 0 r 1, w := nth 0 r 2, h := nth 0 r 3 }
  let j := field b 2 2
  let no := field b 4 4
  if s.isAnchor p ∨ (s.tilesIn p).isEmpty then s
  else
    let (answer, s1) := s.takeClaim j no id (p.ox, p.oy) (b.drop bodyLen)
    s1.sideband (s1.partPorts p) 8 id s.ptime (s1.linkBody 2 answer j no r)

/-- A package's answer to a claim of a launch here (09 R270). -/
def State.takeAnswer (s : State) (j no answer : Nat) (from_ : Nat × Nat) : State :=
  { s with launches := s.launches.map (fun (l : Launch) =>
      if l.num = no ∧ l.job = j then
        { l with claims := l.claims.map (fun c => if c.1 = from_ then (c.1, some answer) else c) }
      else l) }

/-- A part of a spanning partition told by its anchor to end, or not to begin (09 R246, R270). -/
def State.endPart (s : State) (j no : Nat) : State :=
  match s.partOfClaim j no with
  | some pk =>
    if s.isAnchor (s.part pk) then s
    else (s.setPart pk { s.part pk with reported := true }).endPartition pk stOk noResult
  | none => s

/-- A package's word that its part's schedule is over (09 R246, R270). -/
def State.partOver (s : State) (j no : Nat) (from_ : Nat × Nat) : State :=
  match s.partOfClaim j no with
  | some pk => s.setPart pk { s.part pk with peers := (s.part pk).peers.filter (fun q => q != from_) }
  | none => s

/-- LINKMGT at tendril port `arg.n`, of ID `arg.m` and with the flit's body, after which a claim brings the image (`arg.bytes`): a
claim for a spanning partition, its answer, a claim given up, a part over, or the end (03 R68; 09 R270; 16 R476; log entry
156). -/
def execLinkmgt (s : State) : Out :=
  let b := s.arg.bytes
  let j := field b 2 2
  let no := field b 4 4
  let from_ := (field b 16 1, field b 17 1)
  if 6 ≤ s.arg.n ∨ !(s.pkg.pod.port s.arg.n).up ∨ !s.pkg.pod.form then .next s
  else
    .next (match field b 0 1 with
      | 1 => s.answerClaim s.arg.m b
      | 2 => s.takeAnswer j no (field b 1 1) from_
      | 3 => s.endPart j no
      | 4 => s.partOver j no from_
      | 5 => s.endPart j no
      | _ => s)

/-- SIDEBAND_RESERVED at tendril port `arg.n`: a flit of reserved type `arg.m` is discarded and counted (03 R68). -/
def execSidebandReserved (s : State) : Out :=
  let n := s.arg.n
  let x := s.pkg.pod.port n
  if 6 ≤ n ∨ !x.up ∨ (1 ≤ s.arg.m ∧ s.arg.m ≤ 8) then .next s
  else .next (s.setPort n { x with discarded := x.discarded + 1 })

end Sys2Proof.Machine
end

