-- ==== Sys2Proof/Machine/Fp.lean ====
section
/-! DEFINITION. Scalar floating point and FSK (12 R346, R347; 13 R374 to R379). -/

namespace Sys2Proof.Machine

open Sys2Proof

/-- fpw(d, p, r) of a result (13 R372). -/
def Thread.setFp (x : Thread) (d : BitVec 5) (c : Nat) : Thread := x.setGr d.toNat (BitVec.ofNat 64 c)

/-- An FP instruction with result `r`. -/
def State.fpResult (s : State) (d : BitVec 5) (r : FRes) : Except State State :=
  s.fpDone r.flags 1 (fun x => x.setFp d r.code)

/-- Two operands of a precision combined under the instruction's mode. -/
def fp2 (op : Fmt → RMode → Bool → Nat → Nat → FRes) (d a b : BitVec 5) (rm : BitVec 3) (p : BitVec 1) (s : State) :
    Except State State :=
  s.fpResult d (op (precFmt p) (s.th.modeOf rm) s.th.ftz (fpCode p (s.g a)) (fpCode p (s.g b)))

/-- A fused multiply and add. -/
def fp3 (negP negZ : Bool) (d a b c : BitVec 5) (rm : BitVec 3) (p : BitVec 1) (s : State) : Except State State :=
  s.fpResult d (fpFma (precFmt p) (s.th.modeOf rm) s.th.ftz negP negZ (fpCode p (s.g a)) (fpCode p (s.g b))
    (fpCode p (s.g c)))

/-- FADD (13 R374). -/
def execFadd (d a b : BitVec 5) (rm : BitVec 3) (p : BitVec 1) (s : State) : Out := unrecorded (fp2 fpAdd d a b rm p) s

/-- FSUB (13 R374). -/
def execFsub (d a b : BitVec 5) (rm : BitVec 3) (p : BitVec 1) (s : State) : Out := unrecorded (fp2 fpSub d a b rm p) s

/-- FMUL (13 R374). -/
def execFmul (d a b : BitVec 5) (rm : BitVec 3) (p : BitVec 1) (s : State) : Out := unrecorded (fp2 fpMul d a b rm p) s

/-- FDIV (13 R374). -/
def execFdiv (d a b : BitVec 5) (rm : BitVec 3) (p : BitVec 1) (s : State) : Out := unrecorded (fp2 fpDiv d a b rm p) s

/-- FSQRT (13 R374). -/
def execFsqrt (d a : BitVec 5) (rm : BitVec 3) (p : BitVec 1) (s : State) : Out :=
  unrecorded (fun r => r.fpResult d (fpSqrt (precFmt p) (r.th.modeOf rm) r.th.ftz (fpCode p (r.g a)))) s

/-- FMA (13 R374). -/
def execFma (d a b c : BitVec 5) (rm : BitVec 3) (p : BitVec 1) (s : State) : Out :=
  unrecorded (fp3 false false d a b c rm p) s

/-- FMS (13 R374). -/
def execFms (d a b c : BitVec 5) (rm : BitVec 3) (p : BitVec 1) (s : State) : Out :=
  unrecorded (fp3 false true d a b c rm p) s

/-- FNMA (13 R374). -/
def execFnma (d a b c : BitVec 5) (rm : BitVec 3) (p : BitVec 1) (s : State) : Out :=
  unrecorded (fp3 true false d a b c rm p) s

/-- FMIN (13 R377). -/
def execFmin (d a b : BitVec 5) (p : BitVec 1) (s : State) : Out :=
  unrecorded (fun r =>
    r.fpResult d (fpMinMax (precFmt p) false r.th.ftz (fpCode p (r.g a)) (fpCode p (r.g b)))) s

/-- FMAX (13 R377). -/
def execFmax (d a b : BitVec 5) (p : BitVec 1) (s : State) : Out :=
  unrecorded (fun r =>
    r.fpResult d (fpMinMax (precFmt p) true r.th.ftz (fpCode p (r.g a)) (fpCode p (r.g b)))) s

/-- Source and destination of FCVT between FP formats, by its selector (13 R378). -/
def fcvtFp (k : Nat) : Option (Fmt × Fmt) :=
  match k with
  | 0 => some (fp64, fp32)
  | 1 => some (fp32, fp64)
  | 2 => some (fp64, fp16)
  | 3 => some (fp32, fp16)
  | 4 => some (fp64, bf16)
  | 5 => some (fp32, bf16)
  | 6 => some (fp16, fp64)
  | 7 => some (fp16, fp32)
  | 8 => some (bf16, fp64)
  | 9 => some (bf16, fp32)
  | _ => none

/-- Destination and source signedness of FCVT from integers (13 R378). -/
def fcvtInt (k : Nat) : Option (Fmt × Bool) :=
  match k with
  | 10 => some (fp64, true)
  | 11 => some (fp64, false)
  | 12 => some (fp32, true)
  | 13 => some (fp32, false)
  | _ => none

/-- Source, signedness and width of FCVT to integers (13 R378). -/
def fcvtToInt (k : Nat) : Fmt × Bool × Nat :=
  match k with
  | 14 => (fp64, true, 64)
  | 15 => (fp64, false, 64)
  | 16 => (fp32, true, 64)
  | 17 => (fp32, false, 64)
  | 18 => (fp64, true, 32)
  | _ => (fp32, true, 32)

/-- The value that FCVT writes and its exceptions; `r` is the random word of .sr (13 R378). -/
def fcvtResult (k : Nat) (mode : RMode) (ftz : Bool) (v : Word) : FRes :=
  match fcvtFp k with
  | some (src, dst) => fpConv src dst mode ftz (v.toNat % 2 ^ src.bits)
  | none =>
    match fcvtInt k with
    | some (dst, signed) => intToFp dst mode ftz (if signed then v.toInt else (v.toNat : Int))
    | none =>
      let t := fcvtToInt k
      let q := fpToInt t.1 mode ftz t.2.1 t.2.2 (v.toNat % 2 ^ t.1.bits)
      { q with code := (sextW t.2.2 q.code).toNat }

/-- FCVT (13 R378). -/
def execFcvt (d a b kind : BitVec 5) (rm : BitVec 3) (s : State) : Out :=
  unrecorded (fun r =>
    let mode := if rm = 4 then RMode.sr ((r.g b).toNat % 2 ^ 32) else r.th.modeOf rm
    r.fpResult d (fcvtResult kind.toNat mode r.th.ftz (r.g a))) s

/-- The class bit of FCLS (13 R377). -/
def fpClass (f : Fmt) (c : Nat) : Nat :=
  let n := f.neg c
  match f.dec c with
  | .nan => if f.isSnan c then 8 else 9
  | .inf _ => if n then 0 else 7
  | .fin _ m _ =>
    if m = 0 then (if n then 3 else 4) else if f.isSub c then (if n then 2 else 5) else (if n then 1 else 6)

/-- FCLS: read without FTZ (13 R377). -/
def execFcls (d a : BitVec 5) (p : BitVec 1) (s : State) : Out :=
  unrecorded (fun r => .ok (r.retireG d (BitVec.ofNat 64 (2 ^ fpClass (precFmt p) (fpCode p (r.g a)))))) s

/-- FSGN: operand a's bits under a chosen sign (13 R377). -/
def execFsgn (d a b : BitVec 5) (op : BitVec 3) (p : BitVec 1) (s : State) : Out :=
  unrecorded (fun r =>
    let f := precFmt p
    let x := fpCode p (r.g a)
    let sb := f.neg (fpCode p (r.g b))
    let sg := match op.toNat with
      | 0 => sb
      | 1 => !sb
      | _ => f.neg x != sb
    .ok (r.retireG d (BitVec.ofNat 64 (f.signed sg (x % f.signBit))))) s

/-- FRND (13 R379). -/
def execFrnd (d a : BitVec 5) (rm : BitVec 3) (p : BitVec 1) (s : State) : Out :=
  unrecorded (fun r => r.fpResult d (fpRnd (precFmt p) (r.th.modeOf rm) r.th.ftz (fpCode p (r.g a)))) s

/-- FSK: an enabled NV takes FP and annuls nothing (12 R346, R347). The field p is cond[23]: 0 for .d, 1 for .s. -/
def execFsk (p : BitVec 1) (cond : BitVec 3) (n : BitVec 2) (a b : BitVec 5) (s : State) : Out :=
  unrecorded (fun r =>
    let c := fpCond (precFmt p) r.th.ftz cond.toNat (fpCode p (r.g a)) (fpCode p (r.g b))
    let s1 := r.setTh (r.th.orFlags c.2)
    if r.th.fpTraps c.2 then .error (s1.trap cFp (fpEval c.2 1))
    else .ok (s1.retireTo (skipTarget r.th.pc n c.1))) s

end Sys2Proof.Machine
end

