-- ==== Sys2Proof/Machine/Vector.lean ====
section
/-! DEFINITION. Vector operations between registers (11 R320, R321; 13 R380 to R386, R389). -/

namespace Sys2Proof.Machine

open Sys2Proof

/-- One lane of a result, and the exceptions raised in it. -/
abbrev LaneRes := Word × Nat

/-- Flags ORed over a list (13 R380). -/
def orAll (l : List Nat) : Nat := l.foldl Nat.lor 0

/-- The lanes of a list of results, among the active ones, that raised an enabled exception (08 R234). -/
def State.trapLanes (s : State) (act : List Nat) (r : List LaneRes) : Nat :=
  orAll (act.map (fun i => if s.th.fpTraps (nth (0, 0) r i).2 then 2 ^ i else 0))

/-- The end of a lane-wise instruction: flags over the active lanes, FP, or the lanes written (13 R380). -/
def State.lanesDone (s : State) (vd : BitVec 3) (me : BitVec 1) (vm : BitVec 3) (pol : BitVec 1) (r : List LaneRes) :
    Except State State :=
  let act := s.th.activeLanes me vm
  s.fpDone (orAll (act.map (fun i => (nth (0, 0) r i).2))) (s.trapLanes act r)
    (fun x => x.writeLanes vd me vm pol (r.map (·.1)))

/-- The elements of three lanes combined one by one. -/
def laneMap (b : Nat) (f : Nat → Nat → Nat → FRes) (x y z : Word) : LaneRes :=
  let r := (List.range (64 / b)).map (fun j =>
    f (nth 0 (elems b x) j) (nth 0 (elems b y) j) (nth 0 (elems b z) j))
  (laneOf b (r.map (·.code)), orAll (r.map (·.flags)))

/-- An element-wise instruction over three vector registers. -/
def State.elemwise (s : State) (b : Nat) (f : Nat → Nat → Nat → FRes) (va vb vc : BitVec 3) : List LaneRes :=
  (List.range 8).map (fun i => laneMap b f (s.th.lane va.toNat i) (s.th.lane vb.toNat i) (s.th.lane vc.toNat i))

/-- A result without exceptions, modulo 2^bits. -/
def intRes (b v : Nat) : FRes := { code := v % 2 ^ b, flags := 0 }

/-- The low `b` bits of an integer result. -/
def intResZ (b : Nat) (v : Int) : FRes := { code := ofSigned b v, flags := 0 }

/-- An element operation of R381: the FP one for an FP element code, else the integer one. -/
def State.ewOp (s : State) (ew : BitVec 3) (fn : BitVec 4) (fp : Fmt → RMode → Bool → Nat → Nat → Nat → FRes)
    (int : Nat → Nat → Nat → Nat → FRes) : Nat → Nat → Nat → FRes :=
  if ewIsFp ew then fp (ewFmt ew) (s.th.modeOf (fn.setWidth 3)) s.th.ftz else int (ewBits ew)

/-- VADD (13 R381). -/
def execVadd (vd va vb : BitVec 3) (me : BitVec 1) (vm : BitVec 3) (pol : BitVec 1) (ew : BitVec 3) (fn : BitVec 4)
    (s : State) : Out :=
  unrecorded (fun r => r.lanesDone vd me vm pol
    (r.elemwise (ewBits ew) (r.ewOp ew fn (fun f m z a b _ => fpAdd f m z a b) (fun n a b _ => intRes n (a + b)))
      va vb 0)) s

/-- VSUB (13 R381). -/
def execVsub (vd va vb : BitVec 3) (me : BitVec 1) (vm : BitVec 3) (pol : BitVec 1) (ew : BitVec 3) (fn : BitVec 4)
    (s : State) : Out :=
  unrecorded (fun r => r.lanesDone vd me vm pol
    (r.elemwise (ewBits ew)
      (r.ewOp ew fn (fun f m z a b _ => fpSub f m z a b) (fun n a b _ => intResZ n ((a : Int) - b))) va vb 0)) s

/-- VMUL (13 R381). -/
def execVmul (vd va vb : BitVec 3) (me : BitVec 1) (vm : BitVec 3) (pol : BitVec 1) (ew : BitVec 3) (fn : BitVec 4)
    (s : State) : Out :=
  unrecorded (fun r => r.lanesDone vd me vm pol
    (r.elemwise (ewBits ew) (r.ewOp ew fn (fun f m z a b _ => fpMul f m z a b) (fun n a b _ => intRes n (a * b)))
      va vb 0)) s

/-- VFMA (13 R381). -/
def execVfma (vd va vb vc : BitVec 3) (me : BitVec 1) (vm : BitVec 3) (pol : BitVec 1) (ew : BitVec 3) (fn : BitVec 4)
    (s : State) : Out :=
  unrecorded (fun r => r.lanesDone vd me vm pol
    (r.elemwise (ewBits ew) (r.ewOp ew fn (fun f m z => fpFma f m z false false) (fun n a b c => intRes n (a * b + c)))
      va vb vc)) s

/-- VDIV, FP element codes alone (13 R381). -/
def execVdiv (vd va vb : BitVec 3) (me : BitVec 1) (vm : BitVec 3) (pol : BitVec 1) (ew : BitVec 3) (fn : BitVec 4)
    (s : State) : Out :=
  unrecorded (fun r => r.lanesDone vd me vm pol
    (r.elemwise (ewBits ew)
      (fun a b _ => fpDiv (ewFmt ew) (r.th.modeOf (fn.setWidth 3)) r.th.ftz a b) va vb 0)) s

/-- The integer minimum or maximum of elements of `b` bits (13 R381). -/
def intMinMax (isMax unsigned : Bool) (b x y : Nat) : Nat :=
  let le := if unsigned then decide (x ≤ y) else decide (toSigned b x ≤ toSigned b y)
  if le != isMax then x else y

/-- VMIN (13 R381). -/
def execVmin (vd va vb : BitVec 3) (me : BitVec 1) (vm : BitVec 3) (pol : BitVec 1) (ew : BitVec 3) (fn : BitVec 4)
    (s : State) : Out :=
  unrecorded (fun r => r.lanesDone vd me vm pol
    (r.elemwise (ewBits ew)
      (r.ewOp ew fn (fun f _ z a b _ => fpMinMax f false z a b)
        (fun n a b _ => intRes n (intMinMax false (fn.getLsbD 0) n a b))) va vb 0)) s

/-- VMAX (13 R381). -/
def execVmax (vd va vb : BitVec 3) (me : BitVec 1) (vm : BitVec 3) (pol : BitVec 1) (ew : BitVec 3) (fn : BitVec 4)
    (s : State) : Out :=
  unrecorded (fun r => r.lanesDone vd me vm pol
    (r.elemwise (ewBits ew)
      (r.ewOp ew fn (fun f _ z a b _ => fpMinMax f true z a b)
        (fun n a b _ => intRes n (intMinMax true (fn.getLsbD 0) n a b))) va vb 0)) s

/-- VLOG (13 R382). -/
def execVlog (vd va vb : BitVec 3) (me : BitVec 1) (vm : BitVec 3) (pol : BitVec 1) (fn : BitVec 4) (s : State) : Out :=
  unrecorded (fun r => r.lanesDone vd me vm pol ((List.range 8).map (fun i =>
    let a := r.th.lane va.toNat i
    let b := r.th.lane vb.toNat i
    (match fn.toNat with
     | 0 => a &&& b
     | 1 => a ||| b
     | 2 => a ^^^ b
     | 3 => a &&& ~~~b
     | _ => ~~~a, 0)))) s

/-- A shift of an element of `b` bits (13 R382). -/
def elemShift (fn b x y : Nat) : Nat :=
  let n := y % b
  match fn with
  | 0 => x * 2 ^ n
  | 1 => x / 2 ^ n
  | 2 => ofSigned b (toSigned b x / (2 ^ n : Nat))
  | _ => x * 2 ^ n + x / 2 ^ (b - n)

/-- VSHF (13 R382). -/
def execVshf (vd va vb : BitVec 3) (me : BitVec 1) (vm : BitVec 3) (pol : BitVec 1) (ew : BitVec 3) (fn : BitVec 4)
    (s : State) : Out :=
  unrecorded (fun r => r.lanesDone vd me vm pol
    (r.elemwise (ewBits ew) (fun a b _ => intRes (ewBits ew) (elemShift fn.toNat (ewBits ew) a b)) va vb 0)) s

/-- The condition of VCMP on integer elements of `b` bits (12 R345; 13 R383). -/
def elemCond (cond : BitVec 4) (b x y : Nat) : Bool :=
  if cond.toNat = 10 then bit x (y % b)
  else if cond.toNat = 11 then !bit x (y % b)
  else skipCond cond (sextW b x) (sextW b y)

/-- VCMP (13 R383). -/
def execVcmp (vd va vb : BitVec 3) (me : BitVec 1) (vm : BitVec 3) (pol : BitVec 1) (ew : BitVec 3) (fn : BitVec 4)
    (s : State) : Out :=
  unrecorded (fun r => r.lanesDone vd me vm pol
    (r.elemwise (ewBits ew) (fun a b _ =>
      let c := if ewIsFp ew then fpCond (ewFmt ew) r.th.ftz fn.toNat a b else (elemCond fn (ewBits ew) a b, 0)
      { code := if c.1 then 2 ^ ewBits ew - 1 else 0, flags := c.2 }) va vb 0)) s

/-- VSEL (13 R384). -/
def execVsel (vd va vb vc : BitVec 3) (me : BitVec 1) (vm : BitVec 3) (pol : BitVec 1) (s : State) : Out :=
  unrecorded (fun r => r.lanesDone vd me vm pol ((List.range 8).map (fun i =>
    (if bit (r.th.lane vc.toNat i).toNat 0 then r.th.lane va.toNat i else r.th.lane vb.toNat i, 0)))) s

/-- VPRM (13 R384). -/
def execVprm (vd va vb vc : BitVec 3) (me : BitVec 1) (vm : BitVec 3) (pol fn : BitVec 1) (s : State) : Out :=
  unrecorded (fun r => r.lanesDone vd me vm pol ((List.range 8).map (fun i =>
    let k := (r.th.lane vb.toNat i).toNat
    (if fn = 0 then r.th.lane va.toNat (k % 8)
     else if k % 16 < 8 then r.th.lane va.toNat (k % 16) else r.th.lane vc.toNat (k % 16 - 8), 0)))) s

/-! ## VRED (08 R235; 13 R385) -/

/-- A node of the reduction tree: value, active lanes below it, exceptions, and lanes of operations that raised an
enabled one. -/
structure RedNode where
  code : Nat
  lanes : Nat
  flags : Nat
  bad : Nat
  deriving DecidableEq, Repr

/-- The identity of a reduction in a masked-off lane (13 R385). -/
def redIdentity (ew : BitVec 3) (op : Nat) : Nat :=
  let b := ewBits ew
  let f := ewFmt ew
  match op with
  | 0 => if ewIsFp ew then f.signBit else 0
  | 1 => if ewIsFp ew then f.infCode else 2 ^ (b - 1) - 1
  | 2 => if ewIsFp ew then f.signed true f.infCode else 2 ^ (b - 1)
  | 3 => 2 ^ b - 1
  | _ => 0

/-- One operation of a reduction (13 R385). -/
def redOp (ew : BitVec 3) (op : Nat) (mode : RMode) (ftz : Bool) (x y : Nat) : FRes :=
  let b := ewBits ew
  let f := ewFmt ew
  match op with
  | 0 => if ewIsFp ew then fpAdd f mode ftz x y else intRes b (x + y)
  | 1 => if ewIsFp ew then fpMinMax f false ftz x y else intRes b (intMinMax false false b x y)
  | 2 => if ewIsFp ew then fpMinMax f true ftz x y else intRes b (intMinMax true false b x y)
  | 3 => intRes b (intMinMax false true b x y)
  | _ => intRes b (intMinMax true true b x y)

/-- Two nodes combined. -/
def redJoin (x : Thread) (ew : BitVec 3) (op : Nat) (a b : RedNode) : RedNode :=
  let r := redOp ew op x.rmode x.ftz a.code b.code
  let lanes := Nat.lor a.lanes b.lanes
  { code := r.code, lanes := lanes, flags := Nat.lor (Nat.lor a.flags b.flags) r.flags,
    bad := Nat.lor (Nat.lor a.bad b.bad) (if x.fpTraps r.flags then lanes else 0) }

/-- The elements of va as leaves of the tree. -/
def Thread.redLeaves (x : Thread) (va : BitVec 3) (me : BitVec 1) (vm ew : BitVec 3) (op : Nat) : List RedNode :=
  (List.range 8).flatMap (fun i =>
    (elems (ewBits ew) (x.lane va.toNat i)).map (fun c =>
      if x.active me vm i then { code := c, lanes := 2 ^ i, flags := 0, bad := 0 }
      else { code := redIdentity ew op, lanes := 0, flags := 0, bad := 0 }))

/-- VRED (13 R385). -/
def execVred (vd va : BitVec 3) (me : BitVec 1) (vm ew : BitVec 3) (fn : BitVec 4) (s : State) : Out :=
  unrecorded (fun r =>
    let t := treeReduce (redJoin r.th ew fn.toNat) { code := 0, lanes := 0, flags := 0, bad := 0 }
      (Nat.log2 (512 / ewBits ew)) (r.th.redLeaves va me vm ew fn.toNat)
    let s1 := r.setTh (r.th.orFlags t.flags)
    if r.th.fpTraps t.flags then .error (s1.trap cFp (fpEval t.flags t.bad))
    else .ok ((s1.setTh (s1.th.setVreg vd.toNat (BitVec.ofNat 64 t.code :: List.replicate 7 0))).retire)) s

/-! ## VBRD, VEXT, VCVT -/

/-- VBRD (13 R389). -/
def execVbrd (vd : BitVec 3) (ga : BitVec 5) (me : BitVec 1) (vm : BitVec 3) (pol : BitVec 1) (ew : BitVec 3)
    (s : State) : Out :=
  unrecorded (fun r =>
    let b := ewBits ew
    let w := laneOf b (List.replicate (64 / b) ((r.g ga).toNat % 2 ^ b))
    r.lanesDone vd me vm pol (List.replicate 8 (w, 0))) s

/-- VEXT (13 R389). -/
def execVext (vd : BitVec 3) (ga : BitVec 5) (lane ew j : BitVec 3) (s : State) : Out :=
  unrecorded (fun r =>
    let e := nth 0 (elems (ewBits ew) (r.th.lane vd.toNat lane.toNat)) j.toNat
    .ok (r.retireG ga (if ewIsFp ew then BitVec.ofNat 64 e else sextW (ewBits ew) e))) s

/-- One element converted from code `sew` to code `ew` (13 R386). -/
def elemConv (sew ew : BitVec 3) (mode : RMode) (ftz : Bool) (c : Nat) : FRes :=
  if ewIsFp sew then
    if ewIsFp ew then fpConv (ewFmt sew) (ewFmt ew) mode ftz c
    else fpToInt (ewFmt sew) mode ftz true (ewBits ew) c
  else intToFp (ewFmt ew) mode ftz (toSigned (ewBits sew) c)

/-- One lane of VCVT: the source lane, the old destination lane and the lane of random words (13 R386). -/
def cvtLane (sew ew : BitVec 3) (hi : Bool) (mode : Nat → RMode) (ftz : Bool) (src old : Word) : LaneRes :=
  let bs := ewBits sew
  let bd := ewBits ew
  let ns := 64 / bs
  let nd := 64 / bd
  let h := b2n hi
  let se := elems bs src
  if bd < bs then
    let r := (List.range ns).map (fun j => elemConv sew ew (mode j) ftz (nth 0 se j))
    let os := elems bd old
    (laneOf bd ((List.range nd).map (fun k =>
      if h * ns ≤ k ∧ k < h * ns + ns then (nth { code := 0, flags := 0 } r (k - h * ns)).code else nth 0 os k)),
     orAll (r.map (·.flags)))
  else
    let o := if bs < bd then h * nd else 0
    let r := (List.range nd).map (fun j => elemConv sew ew (mode j) ftz (nth 0 se (o + j)))
    (laneOf bd (r.map (·.code)), orAll (r.map (·.flags)))

/-- VCVT (13 R386). -/
def execVcvt (vd va vb sew : BitVec 3) (me : BitVec 1) (vm : BitVec 3) (pol : BitVec 1) (ew : BitVec 3) (hi : BitVec 1)
    (rm : BitVec 3) (s : State) : Out :=
  unrecorded (fun r => r.lanesDone vd me vm pol ((List.range 8).map (fun i =>
    let w := (r.th.lane vb.toNat i).toNat
    cvtLane sew ew (hi == 1) (fun j => if rm = 4 then .sr (w / 2 ^ (32 * j) % 2 ^ 32) else r.th.modeOf rm)
      r.th.ftz (r.th.lane va.toNat i) (r.th.lane vd.toNat i)))) s

end Sys2Proof.Machine
end

