-- ==== Sys2Proof/Machine/Random.lean ====
section
/-! DEFINITION. Random numbers and Gumbel keys of a Newt thread (08 R220; 10 R302 to R305; 13 R412, R413). -/

namespace Sys2Proof.Machine

open Sys2Proof

/-- The numerator of the uniform formed from an output word, in units of 2^-25 (10 R302). -/
def uniformUnits (w0 : Nat) : Nat := 2 * (w0 / 256) + 1

/-- The uniform formed from an output word: (w0[31:8] + 0.5) × 2^-24 (10 R302). -/
def uniform (w0 : Nat) : FVal := .fin false (uniformUnits w0) (-25)

/-- The output words of the executing thread's latched seed for a counter (10 R302). -/
def State.draw (s : State) (stream index lane : Nat) : List Nat := philox s.th.seed stream index lane

/-- The lane-and-word field of an RNG draw (13 R412). -/
def rngLane (stream i vc : Nat) : Nat := if 0xD ≤ bits stream 47 44 then vc % 2 ^ 40 else 3 * 2 ^ 38 + i

/-- One lane of RNG (13 R412). -/
def State.rngLaneValue (s : State) (raw : Bool) (va vb vc : BitVec 3) (i : Nat) : Word :=
  let st := (s.th.lane va.toNat i).toNat % 2 ^ 48
  let n := (s.th.lane vb.toNat i).toNat % 2 ^ 40
  let w := s.draw st n (rngLane st i (s.th.lane vc.toNat i).toNat)
  if raw then BitVec.ofNat 64 (nth 0 w 1 * 2 ^ 32 + nth 0 w 0)
  else BitVec.ofNat 64 (fp64.rne (uniform (nth 0 w 0)))

/-- RNG: STREAM_EXHAUSTED is checked for every active lane first (13 R412). -/
def execRng (vd va vb vc : BitVec 3) (me : BitVec 1) (vm : BitVec 3) (pol : BitVec 1) (ew : BitVec 3) (s : State) : Out :=
  unrecorded (fun r =>
    let act := r.th.activeLanes me vm
    if act.any (fun i => decide ((r.th.lane vb.toNat i).toNat % 2 ^ 40 = 2 ^ 40 - 1)) then
      .error (r.trapFree cStreamExhausted)
    else
      .ok ((r.setTh (r.th.writeLanes vd me vm pol
        ((List.range 8).map (r.rngLaneValue (ew == 3) va vb vc)))).retire)) s

/-- The noise of a sequence, position and token id: −ln(−ln u), each rounded to FP64 (10 R302, R303). -/
def State.gumbelNoise (s : State) (sequence pos token : Nat) : FVal :=
  negV (lnRn (negV (lnRn (uniform (nth 0 (s.draw (0xE * 2 ^ 44 + sequence) pos token) 0)))))

/-- The sum of a value and the noise, rounded to FP64. -/
def keySum (v g : FVal) : Nat := fp64.rne (addV false v g)

/-- The Gumbel key of a logit at a temperature, and whether NV is raised (10 R303; 08 R231). -/
def gumbelKey (logit temp : Nat) (g : FVal) : LaneRes :=
  let bad := fp64.neg temp || fp64.isNan temp || fp64.dec temp == .inf false
  let nan := if fp32.isNan logit then convNan fp32 fp64 logit
    else if fp64.isNan temp then fp64.quiet temp else fp64.canonNan
  if bad then (BitVec.ofNat 64 nan, fNv)
  else if fp32.isNan logit then (BitVec.ofNat 64 nan, 0)
  else if temp = 0 then (BitVec.ofNat 64 (convCode fp32 fp64 logit), 0)
  else (BitVec.ofNat 64 (keySum (fp64.dec (fp64.rne (divV 64 (fp32.dec logit) (fp64.dec temp)))) g), 0)

/-- Whether u × q < p exactly, for FP32 codes (10 R305). -/
def acceptDraft (u : FVal) (p q : Nat) : Bool :=
  if fp32.isNan p || fp32.isNan q then false else decide (cmpV (mulV u (fp32.dec q)) (fp32.dec p) < 0)

/-- The key of a residual probability (13 R413). -/
def logKey (x : Nat) (g : FVal) : LaneRes :=
  match fp32.dec x with
  | .nan => (BitVec.ofNat 64 (convNan fp32 fp64 x), fNv)
  | .inf true => (BitVec.ofNat 64 fp64.canonNan, fNv)
  | .inf false => (BitVec.ofNat 64 fp64.infCode, 0)
  | .fin sg m e =>
    if m = 0 then (BitVec.ofNat 64 (fp64.signed true fp64.infCode), 0)
    else if sg then (BitVec.ofNat 64 fp64.canonNan, fNv)
    else (BitVec.ofNat 64 (keySum (lnRn (.fin sg m e)) g), 0)

/-- One lane of GMB (13 R413). -/
def State.gmbLane (s : State) (fn : BitVec 4) (vd va vb vc : BitVec 3) (i : Nat) : LaneRes :=
  let sq := (s.th.lane vd.toNat i).toNat % 2 ^ 44
  let pos := (s.th.lane vb.toNat i).toNat % 2 ^ 40
  let a := (s.th.lane va.toNat i).toNat
  let c := (s.th.lane vc.toNat i).toNat
  if fn = 0 then gumbelKey (a % 2 ^ 32) c (s.gumbelNoise sq pos (a / 2 ^ 32))
  else if fn = 1 then
    (BitVec.ofNat 64 (b2n (acceptDraft (uniform (nth 0 (s.draw (0xD * 2 ^ 44 + sq) pos (c % 256)) 0)) (a % 2 ^ 32)
      (a / 2 ^ 32))), 0)
  else logKey (a % 2 ^ 32) (s.gumbelNoise sq pos (a / 2 ^ 32))

/-- GMB: it raises NV alone (13 R413). A draw at position 2^40 - 1 is made as any other. DEDUCED: 10 R302 has a draw at that index raise
STREAM_EXHAUSTED, but R413 lets GMB raise only NV (log entry 65). -/
def execGmb (vd va vb vc : BitVec 3) (me : BitVec 1) (vm : BitVec 3) (pol : BitVec 1) (fn : BitVec 4) (s : State) : Out :=
  unrecorded (fun r => r.lanesDone vd me vm pol ((List.range 8).map (r.gmbLane fn vd va vb vc))) s

end Sys2Proof.Machine
end

