-- ==== Sys2Proof/Machine/Upkeep.lean ====
section
/-! DEFINITION. Power, throttling, rails and starts; ageing, scrubbing and HBM rates; security faults and debug expiry (02 R32
to R49; 04 R93, R95, R99, R100; 05 R130). -/

namespace Sys2Proof.Machine

open Sys2Proof

/-! ## Power and throttling (02 R35, R36, R38) -/

/-- The state with its power part replaced. -/
def State.setPower (s : State) (p : Power) : State := s.setPkg { s.pkg with power := p }

/-- A power part with a duty: 12 while any die is hot; capped while it is above 0 (02 R35, R36, R38). -/
def Power.withDuty (p : Power) (d : Nat) : Power :=
  let d1 := if p.hot.isEmpty then Nat.min d 12 else 12
  { p with
    duty := d1, therm := !p.hot.isEmpty,
    st := match p.st with
      | .off => .off
      | .retention => .retention
      | .idle => if d1 = 0 then .idle else .capped
      | _ => if d1 = 0 then .active else .capped }

/-- POWER_SAMPLE: `arg.n` watts are measured (02 R36). -/
def execPowerSample (s : State) : Out :=
  let p := s.pkg.power
  if p.st = .off then .next s else .next (s.setPower { p with samples := (s.arg.n :: p.samples).take 100 })

/-- THROTTLE_STEP: the duty rises a step while the mean of the last 10 ms exceeds the cap, and falls a step while it is below
the cap by 5 % (02 R36). Before 10 ms have passed since the start the mean is that of the measurements made so far; DESIGN
CHOICE: the rule says nothing of it (log entry 144). -/
def execThrottleStep (s : State) : Out :=
  let p := s.pkg.power
  let n := p.samples.length
  let sum := p.samples.foldl (· + ·) 0
  if n = 0 ∨ p.st = .off then .next s
  else if p.cap * n < sum then .next (s.setPower (p.withDuty (p.duty + 1)))
  else if 100 * sum ≤ 95 * p.cap * n then .next (s.setPower (p.withDuty (p.duty - 1)))
  else .next s

/-- A throttle freeze of a running partition, requested at its check point: one that a freeze has stopped has it at the cycle
where it stands, where it has none requested there yet (02 R36). -/
def State.throttlePart (s : State) (d pk : Nat) : State :=
  let p := s.part pk
  let asked := p.freezes.any (fun f => decide (f.cyc = p.scyc + p.lead) && (match f.cause with
    | .throttle _ => true
    | _ => false))
  if p.st = .running ∧ p.started ∧ !asked then
    (s.freezeAt pk (p.scyc + p.lead) (.throttle (16 * d)) none).castEnd p (p.scyc + p.lead) (s.cyc + p.lead + 16 * d)
  else s

/-- THROTTLE_INTERVAL: a 256-cycle interval begins with the present duty: running partitions are to freeze for 16 × d cycles,
and cores withhold issue for d rotations of it (02 R36). -/
def execThrottleInterval (s : State) : Out :=
  let p := s.pkg.power
  let s1 := s.setPower { p with interval := s.cyc, intervalDuty := p.duty }
  .next (if p.duty = 0 then s1 else (s.placedParts.map (·.1)).foldl (fun w pk => w.throttlePart p.duty pk) s1)

/-- The dies that have a junction temperature: the compute dies 0 to 3, and the I/O die, 4 (01 R9; 02 R38). -/
def dieCount : Nat := 5

/-- THERMAL_FLOOR of die `arg.n`: the duty is 12 until it cools (02 R38). -/
def execThermalFloor (s : State) : Out :=
  let p := s.pkg.power
  if dieCount ≤ s.arg.n ∨ p.st = .off then .next s
  else .next (s.setPower ({ p with hot := (s.arg.n :: p.hot).eraseDups }.withDuty 12))

/-- THERMAL_FLOOR_RELEASE of die `arg.n`: below 100 °C; the duty then falls by its steps (02 R36, R38). -/
def execThermalFloorRelease (s : State) : Out :=
  let p := s.pkg.power
  .next (s.setPower ({ p with hot := p.hot.filter (· != s.arg.n) }.withDuty p.duty))

/-! ## What a cold start and off leave (02 R34, R35, R47; 04 R93, R99, R101) -/

/-- The package with everything lost that a cold start loses: fuses, the image store, the logs and STARTSTAT stay, and the
debug state is locked. -/
def Package.cold (p : Package) : Package :=
  { Package.reset with
    sec := { p.sec with access := .locked, notAfter := 0, mark := false, ran := [], measured := [] },
    starts := p.starts, events := p.events, plans := p.plans, lastPlan := p.lastPlan, bands := p.bands,
    power := { Package.reset.power with rails := p.power.rails } }

/-- The part as a cold start finds it. -/
def State.coldState (s : State) : State :=
  { State.reset with
    free := s.free, hostMem := s.hostMem, outbox := s.outbox, cur := s.cur, curTile := s.curTile, curSt := s.curSt, arg := s.arg,
    pkg := s.pkg.cold }

/-- The start asked for replaced. -/
def State.askStart (s : State) (a : Option Bool) : State :=
  s.setPkg { s.pkg with starts := { s.pkg.starts with asked := a } }

/-- The package off: all but the fuses is lost, and no start is under way (02 R35, R38). -/
def State.turnOff (s : State) (trip : Bool) : State :=
  let s1 := s.coldState
  let p := { s1.pkg.power with st := .off, tripOut := trip, rails := [] }
  s1.setPkg { s1.pkg with
    power := p, starts := { fails := 0, safe := false, warm := false, trainKept := false, step := 0, asked := none },
    events := [], plans := [], bands := [] }

/-- THERMAL_TRIP: a die at 115 °C, or with `arg.b` a rail out of range: the trip output, and off without a save (02 R32,
R38). -/
def execThermalTrip (s : State) : Out := if s.pkg.power.st = .off then .next s else .next (s.turnOff true)

/-- The number of supply rails in their order (02 R32). -/
def railCount : Nat := 12

/-- Place of a rail in the order of the table: VAON, VDDIO, VDDQ, the four VSRAM, the four VLOGIC, VSER (02 R32). -/
def railOrder (n : Nat) : Nat := if n < 3 then n + 1 else if n < 7 then 4 else if n < 11 then 5 else 6

/-- RAIL_ENABLE of rail `arg.n`: it is up where it reached its range in time (`arg.b`) and those before it in the order are up;
a rail that did not stops the package (02 R32). -/
def execRailEnable (s : State) : Out :=
  let n := s.arg.n
  let p := s.pkg.power
  if railCount ≤ n ∨ !((List.range railCount).all (fun i => decide (railOrder n ≤ railOrder i) || Store.get false i p.rails)) then
    .next s
  else if s.arg.b then .next (s.setPower { p with rails := Store.put false n true p.rails })
  else .next (s.turnOff (p.st != .off))

/-- RESET: a reset or power-up, once every rail is up, begins a cold start; from retention, where HBM is in self-refresh, a
warm one (02 R47). -/
def execReset (s : State) : Out :=
  let p := s.pkg.power
  if !((List.range railCount).all (fun i => Store.get false i p.rails)) then .next s
  else if p.st = .retention then .next (s.askStart (some true))
  else .next (s.coldState.askStart (some false))

/-! ## Margin plans (02 R40, R41) -/

/-- Steps of 5 mV that a guard band has at most. -/
def bandMax : Nat := 12

/-- A guard band chosen for a die and domain: the rule is not stated, so any; online it only rises. -/
def State.planBand (s : State) (online : Bool) (i : Nat) : State :=
  let c := s.choice (bandMax + 1)
  let old := Store.get 0 i s.pkg.bands
  s.drawn.setPkg { s.pkg with bands := Store.put 0 i (if online then Nat.max old c else c) s.pkg.bands }

/-- Path-delay monitors of a compute die (02 R40). -/
def monitorCount : Nat := 64

/-- The lowest reading of a die's monitors, in picoseconds (02 R40). -/
def lowestMargin (m : Store Nat) (d : Nat) : Nat :=
  (List.range monitorCount).foldl (fun a i => Nat.min a (Store.get 0 (d * monitorCount + i) m)) (Store.get 0 (d * monitorCount) m)

/-- The monitors read: one byte each, those of die 0 first (02 R40). -/
def State.readMonitors (s : State) (b : List Byte) : State :=
  s.setPkg { s.pkg with monitors := (List.range (4 * monitorCount)).map (fun i => (i, (nth 0 b i).toNat)) |>.filter (fun p => p.2 != 0) }

/-- A margin plan from readings of every monitor, logged with the lowest of each die (02 R40). -/
def State.makePlan (s : State) (online : Bool) (readings : List Byte) : State :=
  let s0 := s.readMonitors readings
  let s1 := (List.range 8).foldl (fun (w : State) i => w.planBand online i) s0
  let entries := (List.range 4).map (fun d =>
    ({ time := s.ptime, die := d, low := lowestMargin s0.pkg.monitors d,
       bands := [Store.get 0 (2 * d) s1.pkg.bands, Store.get 0 (2 * d + 1) s1.pkg.bands] } : PlanEntry))
  s1.setPkg { s1.pkg with lastPlan := s.ptime, plans := s1.pkg.plans ++ entries }

/-- MARGIN_PLAN: a plan made online from the monitors' readings `arg.bytes` (02 R40, R41). -/
def execMarginPlan (s : State) : Out :=
  if s.pkg.power.st = .off then .next s else .next ((s.makePlan true s.arg.bytes).logEvent .marginPlan 0 0)

/-- Whether a monitor of a die and domain reads below 8 ps; which domain a monitor belongs to is not stated (02 R40, R41; log
entry 172). -/
def State.monitorLow (s : State) (d k : Nat) : Bool :=
  (List.range monitorCount).any (fun i =>
    let n := d * monitorCount + i
    Config.monitorDomain n % 2 == k && decide (Store.get 0 n s.pkg.monitors < 8))

/-- MARGIN_MONITOR_LOW of die `arg.n`, domain `arg.m`: its guard band rises a step; at 60 mV all work is pre-empted and
launches are refused until the next start (02 R41). -/
def execMarginMonitorLow (s : State) : Out :=
  let i := s.arg.n * 2 + s.arg.m
  let b := Store.get 0 i s.pkg.bands
  if 4 ≤ s.arg.n ∨ 2 ≤ s.arg.m ∨ s.pkg.power.st = .off then .next s
  else if b < bandMax then .next (s.setPkg { s.pkg with bands := Store.put 0 i (b + 1) s.pkg.bands })
  else
    let s1 := s.setPower { s.pkg.power with exhausted := true }
    .next (s1.holdAll.logEvent .marginExhausted s.arg.n s.arg.m)

/-! ## START_SEQUENCE (02 R47 to R49; 04 R79, R93, R95, R100) -/

/-- Whether an image verifies at a start: its KIND, and what R95 asks of it. -/
def State.bootOk (s : State) (kind : Nat) (b : List Byte) : Bool := field b 0 4 == kind && s.imageOk b

/-- The first slot of a KIND that verifies, the preferred one first (04 R93). -/
def State.bootSlot (s : State) (kind : Nat) : Option Nat :=
  let sec := s.pkg.sec
  let a := Store.get 0 kind sec.preferred
  if s.bootOk kind (sec.image kind a) then some a
  else if s.bootOk kind (sec.image kind (1 - a)) then some (1 - a)
  else none

/-- The kinds of image that a start runs. -/
def bootKinds : List Nat := [1, 2, 3]

/-- Whether a step of a start is performed: a warm start skips BIST, and HBM training where its values are kept (02 R47). -/
def stepRuns (warm kept : Bool) (n : Nat) : Bool :=
  decide (1 ≤ n) && decide (n ≤ 7) && !(warm && n == 1) && !(warm && kept && n == 4)

/-- The first step of a start that fails: the one that is given, or the checks of step 3; 0 where none does. -/
def State.failedStep (s : State) (warm kept : Bool) (n : Nat) : Nat :=
  let given := if stepRuns warm kept n then n else 0
  if (given = 0 ∨ 3 ≤ given) ∧ bootKinds.any (fun k => (s.bootSlot k).isNone) then 3 else given

/-- The Ahnaux queues at a start: NEXTSEQ 0, the command regions set, every slot counter armed (04 R79). -/
def State.startQueues (s : State) : State :=
  (List.range 4).foldl (fun (w : State) q =>
    (w.setQueue q { w.queue q with nextseq := 0, waiting := [], base := Config.ahqBase q }).armSlots q) s

/-- The images of KINDs run at a start, in order up to the first that does not verify: the slots that run, and the measurements of
their bodies (04 R93). -/
def State.runImages (s : State) : List Nat → Security → Security
  | [], x => x
  | k :: t, x =>
    match s.bootSlot k with
    | some slot =>
      s.runImages t { x with
        ran := Store.put 0 k (slot + 1) x.ran,
        measured := Store.put [] k (sha256 ((s.pkg.sec.image k slot).drop 128)) x.measured }
    | none => x

/-- A start that failed at a step, with the plan that step 6 made from the monitors' readings where it came so far: it is counted,
and a cold start follows; at the third failure the package is in safe mode, where queue 0 serves what R49 allows (02 R40, R48,
R49; 04 R79, R95). -/
def State.startFails (s0 : State) (warm kept : Bool) (n : Nat) (readings : List Byte) : State :=
  let s := if 6 < n then s0.makePlan false readings else s0
  let st := s.pkg.starts
  let fails := Nat.min 3 (st.fails + 1)
  let safe := decide (fails = 3)
  let s1 := s.coldState.startQueues
  (s1.setPkg { s1.pkg with
    sec := if 3 ≤ n then s.runImages bootKinds s1.pkg.sec else s1.pkg.sec,
    starts := { st with
      fails := fails, safe := safe, warm := warm, trainKept := warm && kept && decide (4 < n), step := n, asked := if safe then none else some false } }).logEvent
      .startFailed n (b2n warm)

/-- The lock fuse as a start leaves it: provisioning firmware, where an image of it verifies, runs in the provisioning state and
blows it, so that the package is secure from the next cold start (04 R94, R95, R100; log entry 152). -/
def State.blowsFuse (s : State) : Bool := s.pkg.sec.st == .provisioning && !s.pkg.sec.lockBlown && (s.bootSlot 4).isSome

/-- The KINDs of image that a start whose checks passed runs. -/
def State.kindsRun (s : State) : List Nat := bootKinds ++ (if s.blowsFuse then [4] else [])

/-- The security part after a start whose checks passed: the slots that ran, their measurements, and the minimum SVNs raised
(04 R93, R95, R100). -/
def State.bootSec (s : State) (warm : Bool) : Security :=
  let sec := s.pkg.sec
  let x := s.runImages s.kindsRun { sec with
    st := if warm then sec.st else if sec.lockBlown then .secure else .provisioning,
    lockBlown := sec.lockBlown || s.blowsFuse }
  { x with minSvn := s.kindsRun.foldl (fun m k =>
      let b := sec.image k ((s.bootSlot k).getD 0)
      Store.put 0 k (Nat.max (Store.get 0 k m) (field b 4 4)) m) x.minSvn }

/-- A start that succeeded (02 R49). -/
def State.startOk (s : State) (warm kept : Bool) (readings : List Byte) : State :=
  let st := s.pkg.starts
  let p := s.pkg.power
  let on := Power.withDuty { p with st := .active, toRetention := false, exhausted := false } p.duty
  let s1 := s.setPkg { s.pkg with
    sec := s.bootSec warm, power := on, hbm := if warm && kept then s.pkg.hbm else [],
    starts := { st with fails := 0, safe := false, warm := warm, trainKept := warm && kept, asked := none } }
  ({ s1 with
      powerUp := s.cyc, banks := s1.banks.map (fun (p : Nat × Bank) => (p.1, { p.2 with errs := 0 })) }).addressPorts.startQueues.makePlan false readings

/-- START_SEQUENCE: the start that is asked for runs; `arg.n` is its first failed step, 0 where none fails, `arg.b` says that
the stacks are in self-refresh with valid training values, and `arg.bytes` are the readings of the monitors (02 R47). -/
def execStartSequence (s : State) : Out :=
  match s.pkg.starts.asked with
  | none => .next s
  | some warm =>
    let s0 := if warm then s else s.coldState
    let n := s0.failedStep warm s.arg.b s.arg.n
    if n = 0 then .next (s0.startOk warm s.arg.b s.arg.bytes) else .next (s0.startFails warm s.arg.b n s.arg.bytes)

/-! ## RETENTION_ENTRY (02 R35, R39) -/

/-- Whether no partition runs and no slot holds a thread (02 R35). -/
def State.isIdle (s : State) : Bool := s.liveThreads.isEmpty && s.placedParts.isEmpty

/-- Whether all contexts lie in HBM, so that retention may be entered: no task is on its way to a slot, no transfer runs, and
every kernel has been saved or is done (02 R39). -/
def State.allSaved (s : State) : Bool :=
  s.spawns.isEmpty && s.engines.all (fun e => e.2.queue.isEmpty) &&
    s.kernels.all (fun k => k.2.st == .preempted || k.2.st == .done)

/-- Bytes that a pre-empted partition or kernel holds in place. -/
def State.heldByte (s : State) (pa : Nat) : Bool :=
  match spaceOf pa with
  | .tile t off => s.parts.any (fun p => p.2.heldBytes.any (fun h => h.1 == t && decide (h.2.1 ≤ off) && decide (off < h.2.2)))
  | .loc c off =>
    s.kernels.any (fun k => k.2.st == .preempted && k.2.cores.contains c && decide (k.2.lsoff ≤ off) &&
      decide (off < k.2.lsoff + k.2.lslen))
  | _ => true

/-- RETENTION_ENTRY: from idle, with every context in HBM: the compute dies lose what no context holds (02 R39). -/
def execRetentionEntry (s : State) : Out :=
  if s.isIdle ∧ s.allSaved ∧ s.pkg.starts.asked.isNone ∧ s.pkg.power.st = .idle then
    .next ({ s with
      mem := s.mem.filter (fun (p : Nat × Byte) => s.heldByte p.1), ue := s.ue.filter (fun (p : Nat × Bool) => s.heldByte p.1),
      cores := s.cores.map (fun (p : Nat × Core) => (p.1, { p.2 with rlc := [], tlb := [] })),
      quadTlb := [] }.setPower { s.pkg.power with st := .retention })
  else .next s

/-! ## Security and debug (04 R99, R100) -/

/-- SECURITY_FAULT: the secure state becomes degraded (04 R100). -/
def execSecurityFault (s : State) : Out :=
  if s.pkg.sec.st = .secure then .next (s.setPkg { s.pkg with sec := { s.pkg.sec with st := .degraded } }) else .next s

/-- DEBUG_EXPIRY: PTIME has reached NOTAFTER, so job-debug ends (04 R99). -/
def execDebugExpiry (s : State) : Out :=
  match s.pkg.sec.access with
  | .jobDebug _ =>
    .next (if s.pkg.sec.notAfter.toNat ≤ s.ptime.toNat then
      s.setPkg { s.pkg with sec := { s.pkg.sec with access := .locked } } else s)
  | .locked => .next s
  | .full => .next s

/-! ## Scrubbing and row activation (02 R42, R44 to R46) -/

/-- An HBM stack. -/
def State.stack (s : State) (n : Nat) : Stack := Store.get Stack.init n s.pkg.hbm

/-- An HBM stack replaced. -/
def State.setStack (s : State) (n : Nat) (x : Stack) : State :=
  s.setPkg { s.pkg with hbm := Store.put Stack.init n x s.pkg.hbm }

/-- The corrected errors of a cycle: none, or one on a die or in a stack, which is counted; in a stack its retry may delay
accesses for a time that is not stated (01 R17; 02 R42). Which, and how long, are free values from number `b` on (log entry
145). -/
def State.passEcc (s : State) (b : Nat) : State :=
  let u := Config.freeChoice (b + 1) % (dieCount + 8)
  if Config.freeChoice b % 2 = 0 then s
  else if u < dieCount then
    s.setPkg { s.pkg with corrected := Store.put 0 u (Store.get 0 u s.pkg.corrected + 1) s.pkg.corrected }
  else
    let x := s.stack (u - dieCount)
    s.setStack (u - dieCount)
      { x with corrected := x.corrected + 1, disturbed := Nat.max x.disturbed (s.cyc + Config.freeChoice (b + 2)) }

/-- Rows of a stack: 2,048 banks of 32,768 (06 R141; log entry 146). -/
def stackRows : Nat := 2 ^ 26

/-- The row activations of a cycle, at most one in each stack: which accesses activate a row is not stated, so any row may be
(02 R46; log entry 146). -/
def State.passRows (s : State) (b : Nat) : State :=
  (List.range 8).foldl (fun (w : State) k =>
    let row := k * stackRows + Config.freeChoice (b + 2 * k + 1) % stackRows
    if Config.freeChoice (b + 2 * k) % 2 = 0 then w
    else w.setPkg { w.pkg with rowActs := Store.put 0 row (Store.get 0 row w.pkg.rowActs + 1) w.pkg.rowActs }) s

/-- Whether some row of a stack has reached its threshold (02 R46). -/
def State.rowAlert (s : State) (k : Nat) : Bool :=
  s.pkg.rowActs.any (fun p => decide (p.1 / stackRows = k) && decide (Config.rowThreshold ≤ p.2))

/-- Cycles between two reads of the patrol scrubber, so that a pass over every sector ends within its period (02 R44). -/
def scrubGap (hours : Nat) : Nat := hours * (3600 * 1900000000) / 2 ^ 34

/-- The patrol scrubber past its next sector. At the end of a pass firmware may program the period of the next, from 1 h to 168 h:
`arg.v` in hours (02 R44; log entry 171). -/
def State.scrubOn (s : State) : State :=
  let p := s.pkg
  let v := s.arg.v.toNat
  if s.arg.n ≠ p.scrubNext then s
  else
    s.setPkg { p with
      scrubNext := (p.scrubNext + 1) % 2 ^ 34,
      scrubHours := if p.scrubNext + 1 = 2 ^ 34 ∧ 1 ≤ v ∧ v ≤ 168 then v else p.scrubHours }

/-- PATROL_SCRUB of HBM sector `arg.n`: clean (`arg.m` 0), corrected (1) or uncorrectable (2). A corrected sector is counted
and written back, unless another write came between (`arg.b`); no program can tell. An uncorrectable one is logged and left
(02 R42 to R44). -/
def execPatrolScrub (s0 : State) : Out :=
  let s := s0.scrubOn
  let pa := 32 * s.arg.n
  if tileBase ≤ pa then .next s
  else if s.arg.m = 2 ∨ s.hasUe pa 32 then
    .next (({ s with ue := Store.put false pa true s.ue }).logEvent .scrubUncorrectable s.arg.n 0)
  else if s.arg.m = 1 then
    let k := stackOf s.iltab pa
    .next (s.setStack k { s.stack k with corrected := (s.stack k).corrected + 1 })
  else .next s

/-- SRAM_SCRUB of bank `arg.n`: a pass in free cycles changes nothing that a program sees; a bank with no free cycle for a
whole pass (`arg.b`) is logged (02 R45). -/
def execSramScrub (s : State) : Out := .next (if s.arg.b then s.logEvent .scrubLag s.arg.n 0 else s)

/-- ALERT_BACK_OFF of stack `arg.n`: neighbour refresh delays its accesses for a time that is not stated; a trellis slot so
delayed freezes its partition, and the rows' counters that reached the threshold begin again (02 R46). -/
def execAlertBackOff (s : State) : Out :=
  let n := s.arg.n
  let x := s.stack n
  if 8 ≤ n then .next s
  else
    let s1 := s.drawn.setStack n { x with disturbed := Nat.max x.disturbed (s.cyc + Config.freeChoice s.free) }
    .next (s1.setPkg { s1.pkg with rowActs := s1.pkg.rowActs.filter (fun p =>
      !(decide (p.1 / stackRows = n) && decide (Config.rowThreshold ≤ p.2))) })

/-! ## HBM rates (05 R130) -/

/-- Whether a save streams to stack `n`: that of a stopped unit whose context lies there is not done. A restore is one act, so
none is ever under way between two acts (05 R130; log entry 121). -/
def State.saving (s : State) (n : Nat) : Bool :=
  s.parts.any (fun p => p.2.isPreempted && p.2.tiles.any (fun t => (s.tile t).part == some p.1) && contextOn p.1 n) ||
    s.kernels.any (fun k => k.2.st == .saving && contextOn k.1 n)

/-- HBM_RETRAIN_REQUEST of stack `arg.n` to `arg.m` tenths of a Gb/s: retraining begins, or is deferred while a save
streams. -/
def execHbmRetrainRequest (s : State) : Out :=
  let n := s.arg.n
  let x := s.stack n
  if 8 ≤ n ∨ x.retraining then .next s
  else if s.saving n then
    .next (s.setStack n { x with asked := some s.arg.m, deferred := some (x.deferred.getD s.cyc) })
  else .next (s.setStack n { x with asked := some s.arg.m, deferred := none, retraining := true })

/-- Cycles of 20 ms (05 R130). -/
def deferMax : Nat := 38000000

/-- RETRAIN_DEFER_EXPIRY of stack `arg.n`: a deferred retraining proceeds after 20 ms, or once no save streams. -/
def execRetrainDeferExpiry (s : State) : Out :=
  let n := s.arg.n
  let x := s.stack n
  match x.deferred with
  | none => .next s
  | some t =>
    if t + deferMax ≤ s.cyc ∨ !s.saving n then .next (s.setStack n { x with deferred := none, retraining := true }) else .next s

/-- The pre-trained fallback rate, 9.6 Gb/s (05 R130). -/
def fallbackRate : Nat := 96

/-- HBM_FALLBACK_RATE of stack `arg.n`: while a save streams, its rate drops at once. -/
def execHbmFallbackRate (s : State) : Out :=
  let n := s.arg.n
  if 8 ≤ n ∨ !s.saving n then .next s else .next (s.setStack n { s.stack n with rate := fallbackRate })

/-- HBM_RETRAINING_END of stack `arg.n`: it runs at the rate asked for, and what waited goes on. -/
def execHbmRetrainingEnd (s : State) : Out :=
  let n := s.arg.n
  let x := s.stack n
  if x.retraining then
    .next (s.setStack n { x with retraining := false, rate := x.asked.getD 128, asked := none, disturbed := s.cyc })
  else .next s

end Sys2Proof.Machine
end

