-- ==== Sys2Proof/Machine/Dispatch.lean ====
section
/-! DEFINITION. One arm per step of the part: each is one call of its meaning. -/

namespace Sys2Proof.Machine

open Sys2Proof

/-- What the step `i` does in the state `s`. -/
def exec (i : Instr) (s : State) : Host.Outcome State Fault Refusal :=
  match i with
  | .add d a b => Sys2Proof.Machine.execAdd d a b s
  | .sub d a b => Sys2Proof.Machine.execSub d a b s
  | .addi d a imm => Sys2Proof.Machine.execAddi d a imm s
  | .mul d a b => Sys2Proof.Machine.execMul d a b s
  | .mulh d a b => Sys2Proof.Machine.execMulh d a b s
  | .mulhu d a b => Sys2Proof.Machine.execMulhu d a b s
  | .div d a b => Sys2Proof.Machine.execDiv d a b s
  | .divu d a b => Sys2Proof.Machine.execDivu d a b s
  | .rem d a b => Sys2Proof.Machine.execRem d a b s
  | .remu d a b => Sys2Proof.Machine.execRemu d a b s
  | .andR d a b => Sys2Proof.Machine.execAndR d a b s
  | .orR d a b => Sys2Proof.Machine.execOrR d a b s
  | .xorR d a b => Sys2Proof.Machine.execXorR d a b s
  | .andn d a b => Sys2Proof.Machine.execAndn d a b s
  | .lea d base idx sc => Sys2Proof.Machine.execLea d base idx sc s
  | .andi d a imm => Sys2Proof.Machine.execAndi d a imm s
  | .ori d a imm => Sys2Proof.Machine.execOri d a imm s
  | .xori d a imm => Sys2Proof.Machine.execXori d a imm s
  | .shl d a b => Sys2Proof.Machine.execShl d a b s
  | .shr d a b => Sys2Proof.Machine.execShr d a b s
  | .sar d a b => Sys2Proof.Machine.execSar d a b s
  | .rot d a b => Sys2Proof.Machine.execRot d a b s
  | .shli d a imm => Sys2Proof.Machine.execShli d a imm s
  | .shri d a imm => Sys2Proof.Machine.execShri d a imm s
  | .sari d a imm => Sys2Proof.Machine.execSari d a imm s
  | .roti d a imm => Sys2Proof.Machine.execRoti d a imm s
  | .clz d a => Sys2Proof.Machine.execClz d a s
  | .ctz d a => Sys2Proof.Machine.execCtz d a s
  | .popc d a => Sys2Proof.Machine.execPopc d a s
  | .brev d a => Sys2Proof.Machine.execBrev d a s
  | .bswp d a => Sys2Proof.Machine.execBswp d a s
  | .bext d a pos len1 => Sys2Proof.Machine.execBext d a pos len1 s
  | .bins d a pos len1 => Sys2Proof.Machine.execBins d a pos len1 s
  | .min d a b => Sys2Proof.Machine.execMin d a b s
  | .max d a b => Sys2Proof.Machine.execMax d a b s
  | .minu d a b => Sys2Proof.Machine.execMinu d a b s
  | .maxu d a b => Sys2Proof.Machine.execMaxu d a b s
  | .lih d a imm => Sys2Proof.Machine.execLih d a imm s
  | .sk cond n a b => Sys2Proof.Machine.execSk cond n a b s
  | .ski cond n a imm => Sys2Proof.Machine.execSki cond n a imm s
  | .fsk p cond n a b => Sys2Proof.Machine.execFsk p cond n a b s
  | .br imm => Sys2Proof.Machine.execBr imm s
  | .jr a => Sys2Proof.Machine.execJr a s
  | .call imm => Sys2Proof.Machine.execCall imm s
  | .callr a => Sys2Proof.Machine.execCallr a s
  | .ret => Sys2Proof.Machine.execRet s
  | .dbnz d imm => Sys2Proof.Machine.execDbnz d imm s
  | .ld d base ord off wc => Sys2Proof.Machine.execLd d base ord off wc s
  | .st src base ord off wc => Sys2Proof.Machine.execSt src base ord off wc s
  | .ldx d base idx wc ord sc => Sys2Proof.Machine.execLdx d base idx wc ord sc s
  | .stx src base idx wc ord sc => Sys2Proof.Machine.execStx src base idx wc ord sc s
  | .ldc d base ord off wc => Sys2Proof.Machine.execLdc d base ord off wc s
  | .prf base off => Sys2Proof.Machine.execPrf base off s
  | .ldf d base off => Sys2Proof.Machine.execLdf d base off s
  | .ste src base off => Sys2Proof.Machine.execSte src base off s
  | .ldp d base off => Sys2Proof.Machine.execLdp d base off s
  | .stf src base off => Sys2Proof.Machine.execStf src base off s
  | .fec base off => Sys2Proof.Machine.execFec base off s
  | .amo d a b w ord fn => Sys2Proof.Machine.execAmo d a b w ord fn s
  | .cas d a b c w ord => Sys2Proof.Machine.execCas d a b c w ord s
  | .arb a => Sys2Proof.Machine.execArb a s
  | .arl d base off wc => Sys2Proof.Machine.execArl d base off wc s
  | .ars src base off wc => Sys2Proof.Machine.execArs src base off wc s
  | .arc d a => Sys2Proof.Machine.execArc d a s
  | .fence sc => Sys2Proof.Machine.execFence sc s
  | .bfence a sc => Sys2Proof.Machine.execBfence a sc s
  | .fadd d a b rm p => Sys2Proof.Machine.execFadd d a b rm p s
  | .fsub d a b rm p => Sys2Proof.Machine.execFsub d a b rm p s
  | .fmul d a b rm p => Sys2Proof.Machine.execFmul d a b rm p s
  | .fdiv d a b rm p => Sys2Proof.Machine.execFdiv d a b rm p s
  | .fsqrt d a rm p => Sys2Proof.Machine.execFsqrt d a rm p s
  | .fma d a b c rm p => Sys2Proof.Machine.execFma d a b c rm p s
  | .fms d a b c rm p => Sys2Proof.Machine.execFms d a b c rm p s
  | .fnma d a b c rm p => Sys2Proof.Machine.execFnma d a b c rm p s
  | .fmin d a b p => Sys2Proof.Machine.execFmin d a b p s
  | .fmax d a b p => Sys2Proof.Machine.execFmax d a b p s
  | .fcvt d a b kind rm => Sys2Proof.Machine.execFcvt d a b kind rm s
  | .fcls d a p => Sys2Proof.Machine.execFcls d a p s
  | .fsgn d a b op p => Sys2Proof.Machine.execFsgn d a b op p s
  | .frnd d a rm p => Sys2Proof.Machine.execFrnd d a rm p s
  | .vadd vd va vb me vm pol ew fn => Sys2Proof.Machine.execVadd vd va vb me vm pol ew fn s
  | .vsub vd va vb me vm pol ew fn => Sys2Proof.Machine.execVsub vd va vb me vm pol ew fn s
  | .vmul vd va vb me vm pol ew fn => Sys2Proof.Machine.execVmul vd va vb me vm pol ew fn s
  | .vfma vd va vb vc me vm pol ew fn => Sys2Proof.Machine.execVfma vd va vb vc me vm pol ew fn s
  | .vdiv vd va vb me vm pol ew fn => Sys2Proof.Machine.execVdiv vd va vb me vm pol ew fn s
  | .vmin vd va vb me vm pol ew fn => Sys2Proof.Machine.execVmin vd va vb me vm pol ew fn s
  | .vmax vd va vb me vm pol ew fn => Sys2Proof.Machine.execVmax vd va vb me vm pol ew fn s
  | .vlog vd va vb me vm pol fn => Sys2Proof.Machine.execVlog vd va vb me vm pol fn s
  | .vshf vd va vb me vm pol ew fn => Sys2Proof.Machine.execVshf vd va vb me vm pol ew fn s
  | .vcmp vd va vb me vm pol ew fn => Sys2Proof.Machine.execVcmp vd va vb me vm pol ew fn s
  | .vsel vd va vb vc me vm pol => Sys2Proof.Machine.execVsel vd va vb vc me vm pol s
  | .vred vd va me vm ew fn => Sys2Proof.Machine.execVred vd va me vm ew fn s
  | .vld vd ga me vm pol ord => Sys2Proof.Machine.execVld vd ga me vm pol ord s
  | .vst vd ga me vm pol ord => Sys2Proof.Machine.execVst vd ga me vm pol ord s
  | .vgth vd ga vc me vm pol sc => Sys2Proof.Machine.execVgth vd ga vc me vm pol sc s
  | .vsct vd ga vc me vm pol sc => Sys2Proof.Machine.execVsct vd ga vc me vm pol sc s
  | .vbrd vd ga me vm pol ew => Sys2Proof.Machine.execVbrd vd ga me vm pol ew s
  | .vext vd ga lane ew j => Sys2Proof.Machine.execVext vd ga lane ew j s
  | .vprm vd va vb vc me vm pol fn => Sys2Proof.Machine.execVprm vd va vb vc me vm pol fn s
  | .vcvt vd va vb sew me vm pol ew hi rm => Sys2Proof.Machine.execVcvt vd va vb sew me vm pol ew hi rm s
  | .send a => Sys2Proof.Machine.execSend a s
  | .recv d a => Sys2Proof.Machine.execRecv d a s
  | .rpc a => Sys2Proof.Machine.execRpc a s
  | .rply a => Sys2Proof.Machine.execRply a s
  | .htw a b c => Sys2Proof.Machine.execHtw a b c s
  | .spwn d a b c => Sys2Proof.Machine.execSpwn d a b c s
  | .quit => Sys2Proof.Machine.execQuit s
  | .bar a id sc => Sys2Proof.Machine.execBar a id sc s
  | .qsc sc => Sys2Proof.Machine.execQsc sc s
  | .wft a => Sys2Proof.Machine.execWft a s
  | .cps a sel => Sys2Proof.Machine.execCps a sel s
  | .cpl d => Sys2Proof.Machine.execCpl d s
  | .cpq d a => Sys2Proof.Machine.execCpq d a s
  | .hwt st h => Sys2Proof.Machine.execHwt st h s
  | .hrl h => Sys2Proof.Machine.execHrl h s
  | .uls d a b => Sys2Proof.Machine.execUls d a b s
  | .ulr d a => Sys2Proof.Machine.execUlr d a s
  | .rst a b c w => Sys2Proof.Machine.execRst a b c w s
  | .rinc a b c rel kind => Sys2Proof.Machine.execRinc a b c rel kind s
  | .post a b => Sys2Proof.Machine.execPost a b s
  | .wwt d a => Sys2Proof.Machine.execWwt d a s
  | .vpub d a b => Sys2Proof.Machine.execVpub d a b s
  | .vqry d a => Sys2Proof.Machine.execVqry d a s
  | .bcmd a => Sys2Proof.Machine.execBcmd a s
  | .rng vd va vb vc me vm pol ew => Sys2Proof.Machine.execRng vd va vb vc me vm pol ew s
  | .gmb vd va vb vc me vm pol fn => Sys2Proof.Machine.execGmb vd va vb vc me vm pol fn s
  | .alc d a => Sys2Proof.Machine.execAlc d a s
  | .fre a => Sys2Proof.Machine.execFre a s
  | .trap e => Sys2Proof.Machine.execTrap e s
  | .eret => Sys2Proof.Machine.execEret s
  | .syr d sel => Sys2Proof.Machine.execSyr d sel s
  | .syw a sel => Sys2Proof.Machine.execSyw a sel s
  | .tlbi a => Sys2Proof.Machine.execTlbi a s
  | .tlbiAll => Sys2Proof.Machine.execTlbiAll s
  | .migr d a b => Sys2Proof.Machine.execMigr d a b s
  | .time d => Sys2Proof.Machine.execTime d s
  | .timeRot d => Sys2Proof.Machine.execTimeRot d s
  | .brk e => Sys2Proof.Machine.execBrk e s
  | .blk len kind count => Sys2Proof.Machine.execBlk len kind count s
  | .nop => Sys2Proof.Machine.execNop s
  | .dly n1 => Sys2Proof.Machine.execDly n1 s
  | .wut ka kb => Sys2Proof.Machine.execWut ka kb s
  | .tkp fifo ks => Sys2Proof.Machine.execTkp fifo ks s
  | .tkw fifo kd => Sys2Proof.Machine.execTkw fifo kd s
  | .brc w bit sense => Sys2Proof.Machine.execBrc w bit sense s
  | .kli kd imm => Sys2Proof.Machine.execKli kd imm s
  | .kliHi kd imm => Sys2Proof.Machine.execKliHi kd imm s
  | .kliAdd kd ks imm => Sys2Proof.Machine.execKliAdd kd ks imm s
  | .kliMul kd ks imm => Sys2Proof.Machine.execKliMul kd ks imm s
  | .kop op kd ks => Sys2Proof.Machine.execKop op kd ks s
  | .endT => Sys2Proof.Machine.execEndT s
  | .hld kt kv n16 => Sys2Proof.Machine.execHld kt kv n16 s
  | .hst kt kv n16 => Sys2Proof.Machine.execHst kt kv n16 s
  | .hac kt kv n16 aty => Sys2Proof.Machine.execHac kt kv n16 aty s
  | .lks ks form dir n1 => Sys2Proof.Machine.execLks ks form dir n1 s
  | .lkr kt dir n1 => Sys2Proof.Machine.execLkr kt dir n1 s
  | .lka kl dir out n1 ty kd => Sys2Proof.Machine.execLka kl dir out n1 ty kd s
  | .win id n => Sys2Proof.Machine.execWin id n s
  | .wcl id => Sys2Proof.Machine.execWcl id s
  | .prd kd w part => Sys2Proof.Machine.execPrd kd w part s
  | .vlt slot => Sys2Proof.Machine.execVlt slot s
  | .tld kt kv n16 vchk => Sys2Proof.Machine.execTld kt kv n16 vchk s
  | .scp kt ks n16 => Sys2Proof.Machine.execScp kt ks n16 s
  | .qnt kt ks fmt rm nosat ty kn => Sys2Proof.Machine.execQnt kt ks fmt rm nosat ty kn s
  | .dqn kt ks fmt rm nosat ty kn => Sys2Proof.Machine.execDqn kt ks fmt rm nosat ty kn s
  | .cvt kt ks dfmt sfmt rm nosat kn => Sys2Proof.Machine.execCvt kt ks dfmt sfmt rm nosat kn s
  | .trn kt ks sz => Sys2Proof.Machine.execTrn kt ks sz s
  | .pak kt ks op sx kn => Sys2Proof.Machine.execPak kt ks op sx kn s
  | .srs kt ks fmt rm sh kn => Sys2Proof.Machine.execSrs kt ks fmt rm sh kn s
  | .fmt kt kp n16 => Sys2Proof.Machine.execFmt kt kp n16 s
  | .wld kt ks fmt => Sys2Proof.Machine.execWld kt ks fmt s
  | .mma ka kw afmt wfmt bank m1 => Sys2Proof.Machine.execMma ka kw afmt wfmt bank m1 s
  | .acr kt kr bank aty fmt rm nosat => Sys2Proof.Machine.execAcr kt kr bank aty fmt rm nosat s
  | .acz bank row0 m1 => Sys2Proof.Machine.execAcz bank row0 m1 s
  | .var yd ya yb yc et op => Sys2Proof.Machine.execVar yd ya yb yc et op s
  | .vly kb y off => Sys2Proof.Machine.execVly kb y off s
  | .vsy kb y off => Sys2Proof.Machine.execVsy kb y off s
  | .vrd yd ya op et => Sys2Proof.Machine.execVrd yd ya op et s
  | .vtr dir bank row y => Sys2Proof.Machine.execVtr dir bank row y s
  | .vcm yd ya yb cond et => Sys2Proof.Machine.execVcm yd ya yb cond et s
  | .vsl yd ya yb yc et op => Sys2Proof.Machine.execVsl yd ya yb yc et op s
  | .jobOpen => Sys2Proof.Machine.execJobOpen s
  | .jobClose => Sys2Proof.Machine.execJobClose s
  | .map => Sys2Proof.Machine.execMap s
  | .peer => Sys2Proof.Machine.execPeer s
  | .schedLoad => Sys2Proof.Machine.execSchedLoad s
  | .klaunch => Sys2Proof.Machine.execKlaunch s
  | .preempt => Sys2Proof.Machine.execPreempt s
  | .resume => Sys2Proof.Machine.execResume s
  | .seed => Sys2Proof.Machine.execSeed s
  | .vintage => Sys2Proof.Machine.execVintage s
  | .query => Sys2Proof.Machine.execQuery s
  | .attest => Sys2Proof.Machine.execAttest s
  | .debug => Sys2Proof.Machine.execDebug s
  | .log => Sys2Proof.Machine.execLog s
  | .fwload => Sys2Proof.Machine.execFwload s
  | .start => Sys2Proof.Machine.execStart s
  | .power => Sys2Proof.Machine.execPower s
  | .commandThread => Sys2Proof.Machine.execCommandThread s
  | .commandCompletion => Sys2Proof.Machine.execCommandCompletion s
  | .heldRecordDelivery => Sys2Proof.Machine.execHeldRecordDelivery s
  | .launchPort => Sys2Proof.Machine.execLaunchPort s
  | .launchAccept => Sys2Proof.Machine.execLaunchAccept s
  | .kernelComplete => Sys2Proof.Machine.execKernelComplete s
  | .deadlinePreemption => Sys2Proof.Machine.execDeadlinePreemption s
  | .deadlineMiss => Sys2Proof.Machine.execDeadlineMiss s
  | .partitionPreemption => Sys2Proof.Machine.execPartitionPreemption s
  | .preemptSaveDone => Sys2Proof.Machine.execPreemptSaveDone s
  | .kernelPreemption => Sys2Proof.Machine.execKernelPreemption s
  | .partitionRestore => Sys2Proof.Machine.execPartitionRestore s
  | .kernelRestore => Sys2Proof.Machine.execKernelRestore s
  | .pctlContinue => Sys2Proof.Machine.execPctlContinue s
  | .pctlAbort => Sys2Proof.Machine.execPctlAbort s
  | .hang => Sys2Proof.Machine.execHang s
  | .coreClockGate => Sys2Proof.Machine.execCoreClockGate s
  | .corePowerGate => Sys2Proof.Machine.execCorePowerGate s
  | .registerWrite => Sys2Proof.Machine.execRegisterWrite s
  | .ahqctlEnable => Sys2Proof.Machine.execAhqctlEnable s
  | .podForm => Sys2Proof.Machine.execPodForm s
  | .podDissolve => Sys2Proof.Machine.execPodDissolve s
  | .alccfgWrite => Sys2Proof.Machine.execAlccfgWrite s
  | .counterFeedWrite => Sys2Proof.Machine.execCounterFeedWrite s
  | .counterTotalWrite => Sys2Proof.Machine.execCounterTotalWrite s
  | .ullageCountReport => Sys2Proof.Machine.execUllageCountReport s
  | .ullageLaunch => Sys2Proof.Machine.execUllageLaunch s
  | .storeBufferDrain => Sys2Proof.Machine.execStoreBufferDrain s
  | .rlcEviction => Sys2Proof.Machine.execRlcEviction s
  | .pageWalk => Sys2Proof.Machine.execPageWalk s
  | .gatedRequestService => Sys2Proof.Machine.execGatedRequestService s
  | .quantumEnd => Sys2Proof.Machine.execQuantumEnd s
  | .messageDelivery => Sys2Proof.Machine.execMessageDelivery s
  | .rplyDelivery => Sys2Proof.Machine.execRplyDelivery s
  | .spawnService => Sys2Proof.Machine.execSpawnService s
  | .barrierEpisodeComplete => Sys2Proof.Machine.execBarrierEpisodeComplete s
  | .qscQuietCheck => Sys2Proof.Machine.execQscQuietCheck s
  | .windowSpill => Sys2Proof.Machine.execWindowSpill s
  | .windowFill => Sys2Proof.Machine.execWindowFill s
  | .copyTransferStart => Sys2Proof.Machine.execCopyTransferStart s
  | .copyTransferComplete => Sys2Proof.Machine.execCopyTransferComplete s
  | .bauCommand => Sys2Proof.Machine.execBauCommand s
  | .movedReissue => Sys2Proof.Machine.execMovedReissue s
  | .wftRelease => Sys2Proof.Machine.execWftRelease s
  | .remoteAck => Sys2Proof.Machine.execRemoteAck s
  | .retransmissionLimit => Sys2Proof.Machine.execRetransmissionLimit s
  | .pdcIdleClose => Sys2Proof.Machine.execPdcIdleClose s
  | .rmaWrite => Sys2Proof.Machine.execRmaWrite s
  | .rmaRead => Sys2Proof.Machine.execRmaRead s
  | .fetchAdd => Sys2Proof.Machine.execFetchAdd s
  | .nonFetchingAtomicAdd => Sys2Proof.Machine.execNonFetchingAtomicAdd s
  | .frameReceive => Sys2Proof.Machine.execFrameReceive s
  | .neighbourDiscovery => Sys2Proof.Machine.execNeighbourDiscovery s
  | .ptpEventMessage => Sys2Proof.Machine.execPtpEventMessage s
  | .ethernetPortDown => Sys2Proof.Machine.execEthernetPortDown s
  | .ethernetPortTraining => Sys2Proof.Machine.execEthernetPortTraining s
  | .tendrilTraining => Sys2Proof.Machine.execTendrilTraining s
  | .link => Sys2Proof.Machine.execLink s
  | .timestamp => Sys2Proof.Machine.execTimestamp s
  | .timestampExchange => Sys2Proof.Machine.execTimestampExchange s
  | .sidebandFreeze => Sys2Proof.Machine.execSidebandFreeze s
  | .sidebandResume => Sys2Proof.Machine.execSidebandResume s
  | .sidebandBar => Sys2Proof.Machine.execSidebandBar s
  | .bcast => Sys2Proof.Machine.execBcast s
  | .corr => Sys2Proof.Machine.execCorr s
  | .sidebandFault => Sys2Proof.Machine.execSidebandFault s
  | .linkmgt => Sys2Proof.Machine.execLinkmgt s
  | .sidebandReserved => Sys2Proof.Machine.execSidebandReserved s
  | .ptimeCorrectionStep => Sys2Proof.Machine.execPtimeCorrectionStep s
  | .clockPhaseStep => Sys2Proof.Machine.execClockPhaseStep s
  | .powerSample => Sys2Proof.Machine.execPowerSample s
  | .throttleStep => Sys2Proof.Machine.execThrottleStep s
  | .throttleInterval => Sys2Proof.Machine.execThrottleInterval s
  | .thermalFloor => Sys2Proof.Machine.execThermalFloor s
  | .thermalTrip => Sys2Proof.Machine.execThermalTrip s
  | .railEnable => Sys2Proof.Machine.execRailEnable s
  | .reset => Sys2Proof.Machine.execReset s
  | .startSequence => Sys2Proof.Machine.execStartSequence s
  | .retentionEntry => Sys2Proof.Machine.execRetentionEntry s
  | .marginPlan => Sys2Proof.Machine.execMarginPlan s
  | .marginMonitorLow => Sys2Proof.Machine.execMarginMonitorLow s
  | .securityFault => Sys2Proof.Machine.execSecurityFault s
  | .debugExpiry => Sys2Proof.Machine.execDebugExpiry s
  | .patrolScrub => Sys2Proof.Machine.execPatrolScrub s
  | .sramScrub => Sys2Proof.Machine.execSramScrub s
  | .alertBackOff => Sys2Proof.Machine.execAlertBackOff s
  | .hbmRetrainRequest => Sys2Proof.Machine.execHbmRetrainRequest s
  | .retrainDeferExpiry => Sys2Proof.Machine.execRetrainDeferExpiry s
  | .hbmFallbackRate => Sys2Proof.Machine.execHbmFallbackRate s
  | .scheduleStart => Sys2Proof.Machine.execScheduleStart s
  | .checkPoint => Sys2Proof.Machine.execCheckPoint s
  | .freezeTakesEffect => Sys2Proof.Machine.execFreezeTakesEffect s
  | .freezeEnd => Sys2Proof.Machine.execFreezeEnd s
  | .slipTimeout => Sys2Proof.Machine.execSlipTimeout s
  | .postArrival => Sys2Proof.Machine.execPostArrival s
  | .windowOpen => Sys2Proof.Machine.execWindowOpen s
  | .windowClose => Sys2Proof.Machine.execWindowClose s
  | .hbmGranuleLanding => Sys2Proof.Machine.execHbmGranuleLanding s
  | .meshFlitArrival => Sys2Proof.Machine.execMeshFlitArrival s
  | .scheduleEnd => Sys2Proof.Machine.execScheduleEnd s
  | .thermalFloorRelease => Sys2Proof.Machine.execThermalFloorRelease s
  | .negativeAcknowledgement => Sys2Proof.Machine.execNegativeAcknowledgement s
  | .migrationEnd => Sys2Proof.Machine.execMigrationEnd s
  | .hbmRetrainingEnd => Sys2Proof.Machine.execHbmRetrainingEnd s

end Sys2Proof.Machine
end

