-- ==== Sys2Proof/Machine/Tick.lean ====
section
/-! DEFINITION. The advance of the part by one plane cycle, and the acts that fall due in it (02 R34; 09 R242, R247; 10 R274; log
entries 3 and 4). What the spec gives no time for falls due by free choices (log entry 5). -/

namespace Sys2Proof.Machine

open Sys2Proof

/-! ## The advance -/

/-- PTIME as a cycle passes: it counts cycles, and in retention 19 per reference period (02 R34). -/
def State.passTime (s : State) : State :=
  let c := s.pkg.clock
  match s.pkg.power.st with
  | .off => s
  | .retention => if s.cyc % 19 = 0 then s.setClock { c with ptime := c.ptime + 19 } else s
  | _ => s.setClock { c with ptime := c.ptime + 1 }

/-- A partition as a cycle passes: the results of its schedule cycle take effect and SCYC goes on, or the frozen cycle is
counted (09 R242, R250; 05 R136). -/
def State.passPart (s : State) (pk : Nat) : State :=
  let p := s.part pk
  if !p.started || p.st == .free then s
  else if p.frozen || p.st != .running then
    let s1 := s.setPart pk { p with freezeCycles := p.freezeCycles + 1 }
    s1.setJob p.job { s1.job p.job with freezeCycles := (s1.job p.job).freezeCycles + 1 }
  else
    let s1 := p.tiles.foldl (fun (w : State) t => w.takeDue t p.scyc) s
    let q := s1.part pk
    s1.setPart pk { q with scyc := q.scyc + 1 }

/-- The residency timer of a core: it runs while every thread there is blocked, and an event that unblocks a slot wakes the
core (05 R131, R132). -/
def State.passCore (s : State) (c : Nat) : State :=
  let x := s.core c
  let here := s.liveThreads.filter (fun t => coreOf t == c)
  if here.isEmpty || here.any (fun t => (s.thread t).park == .running) then
    s.setCore c { x with blockedSince := none, gating := .running }
  else if x.blockedSince.isNone then s.setCore c { x with blockedSince := some s.cyc }
  else s

/-- The cores that hold threads or whose timer runs. -/
def State.timedCores (s : State) : List Nat :=
  ((s.liveThreads.map coreOf) ++ (s.cores.filter (fun p => p.2.blockedSince.isSome)).map (·.1)).eraseDups

/-- The power state as the load and the duty give it (02 R35, R36). -/
def State.passPower (s : State) : State :=
  let p := s.pkg.power
  let st := if p.st = .off ∨ p.st = .retention then p.st else if p.duty ≠ 0 then .capped else if s.isIdle then .idle else .active
  s.setPower { p with st := st }

/-- The part one plane cycle on. -/
def State.pass (s : State) : State :=
  let s1 := ({ s with cyc := s.cyc + 1 }).passTime
  let s2 := (s1.parts.map (·.1)).foldl State.passPart s1
  (s2.timedCores.foldl State.passCore s2).passPower

/-! ## Newt threads (10 R274, R275; 02 R36; 07 R205) -/

/-- Whether throttling withholds issue in this rotation: an interval that begins in this cycle has the present duty (02
R36). -/
def State.withheld (s : State) : Bool :=
  let p := s.pkg.power
  if s.cyc % throttleInterval = 0 then decide (p.duty ≠ 0)
  else decide (p.interval ≤ s.cyc) && decide (s.cyc - p.interval < 16 * p.intervalDuty)

/-- Whether a park lets the thread issue: one that waits for an event does not. -/
def Park.issues : Park → Bool
  | .running => true
  | .retry _ => true
  | .blocked _ => true
  | .wwt _ => true
  | .bank _ l => l.all (fun p => p.2 == 0)
  | _ => false

/-- Whether a thread may issue in its slot. -/
def State.mayGo (s : State) (x : Thread) : Bool :=
  x.live && s.jobRuns x.job && (s.kernel x.job x.kid).st == .running && x.park.issues &&
    !((s.job x.job).gmode == 2 && s.quantumFull x)

/-- The threads whose slots the rotation count reaches and that may issue. -/
def State.slotThreads (s : State) : List Nat :=
  if s.withheld then []
  else (s.threads.filter (fun p => decide (p.1 % 16 = s.rotation % 16) && s.mayGo p.2)).map (·.1)

/-- The issues of a cycle (10 R274). -/
def State.slotActs (s : State) : List Act := s.slotThreads.map (fun t => Act.issue (coreOf t) (slotOf t))

/-- Whether a spill or a fill of a thread is due and can be performed (10 R277). -/
def State.windowWork (s : State) (t : Nat) : Bool :=
  let x := s.thread t
  x.live && ((x.spillDue && (s.frameCause t x.spillVa).isNone) || (x.fillDue && (s.fillCause t x.wsp.toNat).isNone))

/-- The spill or fill of a thread. -/
def State.windowAct (s : State) (t : Nat) : Act :=
  .event (if (s.thread t).spillDue then .windowSpill else .windowFill) (Arg.ofN t)

/-- The cycle of each core that has a spill or fill to do, looked at once its slot's thread has tried to issue (10 R275, R277). -/
def State.spareActs (s : State) : List Act :=
  (((s.liveThreads.filter s.windowWork).map coreOf).eraseDups).map (fun c =>
    .spare c (s.slotThreads.contains (c * 16 + s.rotation % 16)))

/-- Whether a thread that tried to issue could not, and waits to try again. -/
def Park.waits : Park → Bool
  | .retry _ => true
  | .blocked _ => true
  | .wwt _ => true
  | _ => false

/-- What a core does with its slot's cycle: a cycle in which the slot's thread did not issue goes to the spill or fill of that
thread, else to that of another thread of the core, lowest slot first (10 R275). A slot whose thread's instruction waits is spare
(log entry 162). -/
def State.spareCycle (s : State) (c : Nat) (tried : Bool) : State :=
  let own := c * 16 + s.rotation % 16
  if tried && !(s.thread own).park.waits then s
  else
    match (own :: (List.range 16).map (c * 16 + ·)).find? s.windowWork with
    | some t => { s with agenda := s.windowAct t :: s.agenda }
    | none => s

/-! ## Agents whose time the spec leaves open -/

/-- An act that names one unit. -/
def actN (i : Instr) (n : Nat) : Act := .event i (Arg.ofN n)

/-- The first place of each key in a list, the last place first, so that a place taken leaves the others true. -/
def firstOfEach {α : Type} (key : α → Nat) (l : List α) : List Nat :=
  ((indexed l).foldl (fun (r : List Nat × List Nat) p =>
    if r.1.contains (key p.2) then r else (key p.2 :: r.1, p.1 :: r.2)) ([], [])).2

/-- What tells the threads of one source that send to one core apart. -/
def sentKey (src dst job : Nat) (tid : BitVec 14) : Nat := ((src * 4096 + dst) * 4096 + job) * 2 ^ 14 + tid.toNat

/-- Deliveries and services under way: messages, replies, threads to start, the first of each thread to each core; what waits
behind another thread's is told when it is performed (07 R194, R206; 10 R287). -/
def State.deliveries (s : State) : List Act :=
  ((firstOfEach (fun (m : Msg) => sentKey m.src m.dst m.job m.tid) s.msgs).map (actN .messageDelivery)) ++
  ((firstOfEach (fun (m : Reply) => sentKey m.src (m.token.toNat % 1024) m.job m.tid) s.replies).map (actN .rplyDelivery)) ++
  ((firstOfEach (fun (r : SpawnReq) => sentKey (r.src * 2 + b2n r.counter.isSome) r.core r.job r.tid) s.spawns).filter (fun i =>
    ((s.spawns[i]?).map (fun r => r.counter.isNone)).getD false)).map (actN .spawnService) ++
  (s.spawns.filterMap (·.counter)).map (actN .ullageLaunch)

/-- Engines, banks, counters, walks, buffers and caches with work. -/
def State.workers (s : State) : List Act :=
  (s.engines.filter (fun p => !p.2.queue.isEmpty)).flatMap (fun p =>
    [actN .copyTransferStart p.1, actN .copyTransferComplete p.1]) ++
  (s.banks.filter (fun p => !p.2.fifo.isEmpty)).map (fun p => actN .bauCommand p.1) ++
  s.counters.flatMap (fun c => c.2.frags.map (fun f => Act.event .ullageCountReport (Arg.ofNM f.1 c.1))) ++
  s.walks.flatMap (fun w => List.replicate (Nat.min 4 w.2.length) (actN .pageWalk w.1)) ++
  (s.threads.filter (fun p => !p.2.sb.isEmpty)).map (fun p => actN .storeBufferDrain p.1) ++
  s.cores.flatMap (fun c => c.2.rlc.map (fun l => Act.event .rlcEviction (Arg.ofNM c.1 l.num))) ++
  s.migrations.map (fun _ => Act.event .migrationEnd Arg.init) ++
  (s.pkg.hbm.filter (fun p => p.2.retraining)).map (fun p => actN .hbmRetrainingEnd p.1)

/-- Stopped units whose save may be done. -/
def State.saves (s : State) : List Act :=
  (s.parts.filter (fun p => p.2.isPreempted && p.2.tiles.any (fun t => (s.tile t).part == some p.1))).map
    (fun p => actN .preemptSaveDone p.1) ++
  (s.kernels.filter (fun p => p.2.st == .saving)).map (fun p =>
    Act.event .preemptSaveDone { Arg.ofNM (p.1 / 2 ^ 32) (p.1 % 2 ^ 32) with b := true })

/-- Whether the `i`-th act with an open time is performed in this cycle. -/
def State.coin (s : State) (i : Nat) : Bool := Config.freeChoice (s.free + i) % 2 == 0

/-- The acts of a cycle on the cellar side, in any order: every thread that may issue does, and of the others some; then the spare
cycles are given away. -/
def State.cellarActs (s : State) : List Act :=
  let may := s.deliveries ++ s.workers ++ s.saves
  let some_ := ((indexed may).filter (fun p => s.coin p.1)).map (·.2)
  let n := may.length
  (sortBy (fun (p : Nat × Act) => Config.freeChoice (s.free + n + p.1)) (indexed (s.slotActs ++ some_))).map (·.2) ++ s.spareActs

/-- How many free choices the cellar side of a cycle draws at most. -/
def State.cellarDraws (s : State) : Nat :=
  2 * (s.deliveries ++ s.workers ++ s.saves).length + s.slotActs.length

/-! ## What waits for a condition -/

/-- Threads whose wait a condition ends, and gates with requests (10 R290; 13 R398; 07 R203). -/
def State.waits (s : State) : List Act :=
  s.threads.filterMap (fun p =>
    match p.2.park with
    | .wft target => if target ≤ s.ptime then some (actN .wftRelease p.1) else none
    | .qsc _ _ _ => some (actN .qscQuietCheck p.1)
    | _ => none) ++
  (((s.gateQueue.filter (fun r => !r.held)).map (·.gate)) ++ s.deadGates).eraseDups.map (actN .gatedRequestService) ++
  ((s.jobs.filter (fun p => s.quantumOver p.1)).map (fun p => actN .quantumEnd p.1)) ++
  (s.pdcs.filter (fun p => decide (p.idleSince + pdcIdle ≤ s.cyc))).map (fun p => actN .pdcIdleClose p.id)

/-- The windows of a partition that open at its present schedule cycle: as it is reached, whatever freeze takes effect in it, and
before its check points (07 R198; 09 R256). -/
def State.openings (s : State) (pk : Nat) : List Act :=
  let p := s.part pk
  p.tiles.flatMap (fun t =>
    ((s.tile t).wins.filter (fun w => decide (w.opens = p.scyc) && !w.isOpen)).map (fun w =>
      Act.event .windowOpen (Arg.ofNM t w.defn.wid)))

/-- The acts of a partition in a cycle (09 R242, R247 to R250, R257; 05 R123). -/
def State.partActs (s : State) (pk : Nat) : List Act :=
  let p := s.part pk
  if p.st = .loading then [actN .scheduleStart pk]
  else if p.st = .preempted then
    (p.tiles.filter (fun t => (s.tile t).part == some pk && (s.tile t).gran.any (fun g => g.dueNow p s.cyc))).map
      (actN .hbmGranuleLanding)
  else if p.frozen then [actN .freezeEnd pk, actN .slipTimeout pk]
  else s.openings pk ++ [actN .checkPoint pk, actN .freezeTakesEffect pk]

/-- The launches to look at: the head of each queue, and every launch of the scavenger class (05 R117). -/
def State.launchActs (s : State) : List Act :=
  ((List.range 3).filterMap s.headOf ++ (s.queueOf 3).filter s.depsHold).map (fun l =>
    match l.resumes with
    | some (true, kid) => Act.event .kernelRestore (Arg.ofNM l.job kid)
    | some (false, pk) => actN .partitionRestore pk
    | none => actN .launchAccept l.num)

/-- What the cellarmaster does (05). -/
def State.masterActs (s : State) : List Act :=
  s.submits.map (fun q => Act.event .launchPort (Arg.ofNV q.1 q.2)) ++ s.launchActs ++
  ((s.headOf 0).toList.map (fun l => actN .deadlinePreemption l.job)) ++
  (s.jobs.filter (fun p => p.2.st != .closed && p.2.cls == 0 && !p.2.missed && decide (p.2.deadline.toNat ≤ s.ptime.toNat))).map
    (fun p => actN .deadlineMiss p.1) ++
  (s.kernels.filter (fun p => p.2.st == .running && !s.kernelLives (p.1 / 2 ^ 32) (p.1 % 2 ^ 32))).map
    (fun p => Act.event .kernelComplete (Arg.ofNM (p.1 / 2 ^ 32) (p.1 % 2 ^ 32))) ++
  (s.jobs.filter (fun p => !p.2.heldRecords.isEmpty)).map (fun p => actN .heldRecordDelivery p.1) ++
  (s.cores.filter (fun p => ((p.2.blockedSince.map s.hangDue).getD false))).map (fun p => actN .hang p.1) ++
  (s.parts.filter (fun p => p.2.frozen && s.hangDue p.2.frozenAt)).map (fun p => Act.event .hang { Arg.ofN p.1 with b := true }) ++
  (s.cores.filter (fun p => p.2.blockedSince.isSome)).flatMap (fun p => [actN .coreClockGate p.1, actN .corePowerGate p.1])

/-! ## Host commands, power, time and starts -/

/-- Completions that may be sent (04 R85). -/
def State.completions (s : State) : List Act :=
  (s.pkg.pendCmds.filter (·.ready)).map (fun c => Act.event .commandCompletion (Arg.ofNM c.q c.seq))

/-- Commands that a turn, or the end of a start, lets go on (04 R81, R83, R101). -/
def State.hostActs (s : State) : List Act :=
  (if s.pkg.power.st = .retention ∨ s.pkg.power.toRetention then [] else
    s.pkg.heldCmds.map (fun c => Act.event .commandThread (Arg.ofNM c.1 c.2))) ++
  (List.range 4).filterMap (fun q =>
    let x := s.queue q
    if x.enable && x.waiting.any (fun w => w.1 == x.nextseq.toNat) then
      some (Act.event .commandThread { Arg.ofNM q (x.nextseq.toNat % 64) with b := true })
    else none)

/-- Cycles between power measurements: 100 µs (02 R36). -/
def sampleGap : Nat := 190000

/-- Cycles of 90 days (02 R40). -/
def planGap : Nat := 90 * 86400 * 1900000000

/-- The first of the free values of a cycle that the cellar side does not draw. -/
def State.drawBase (s : State) : Nat := s.free + s.cellarDraws + 2

/-- Free values that a cycle draws at most beside the cellar side's. -/
def tickDraws : Nat := 64

/-- The memories' upkeep that falls due: the patrol scrubber's next sector, whose state is free, and the stacks whose rows
have reached their threshold (02 R44, R46). -/
def State.memoryActs (s : State) : List Act :=
  (if s.cyc % scrubGap s.pkg.scrubHours = 0 then
    [Act.event .patrolScrub { Arg.ofN s.pkg.scrubNext with
      m := Config.freeChoice (s.drawBase + 19) % 3, v := Config.freeWord (s.drawBase + 19) }] else []) ++
  ((List.range 8).filter s.rowAlert).map (actN .alertBackOff)

/-- Readings of every monitor, free values from a number on (02 R40). -/
def freeReadings (b : Nat) : List Byte := (List.range 32).flatMap (fun i => wordBytes (Config.freeWord (b + i)))

/-- The monitors read every millisecond (02 R41). -/
def State.passMonitors (s : State) : State :=
  if s.cyc % cyclesPerMs = 0 then s.readMonitors (freeReadings (s.drawBase + 20)) else s

/-- The dies and domains whose guard bands are to rise a step: those of a monitor that reads low, every millisecond (02 R41; log
entry 172). -/
def State.marginActs (s : State) : List Act :=
  if s.cyc % cyclesPerMs = 0 then
    (List.range 8).filterMap (fun i =>
      if s.monitorLow (i / 2) (i % 2) then some (Act.event .marginMonitorLow (Arg.ofNM (i / 2) (i % 2))) else none)
  else []

/-- What the Tadpole does: power, margins, debug expiry, HBM rates, plane time (02 R36, R40; 03 R72, R73; 04 R99). -/
def State.tadpoleActs (s : State) : List Act :=
  let k := s.pkg.clock
  let p := s.pkg.power
  (if s.cyc % sampleGap = 0 then [actN .powerSample (Config.freeChoice (s.free + s.cellarDraws))] else []) ++
  (if s.cyc % throttleInterval = 0 ∧ (p.duty ≠ 0 ∨ p.intervalDuty ≠ 0) then [Act.event .throttleInterval Arg.init] else []) ++
  (if s.cyc % cyclesPerMs = 0 then [Act.event .throttleStep Arg.init] else []) ++
  (if s.pkg.lastPlan.toNat + planGap ≤ s.ptime.toNat + 1 then
    [Act.event .marginPlan
      { Arg.init with bytes := freeReadings (s.drawBase + 20) }] else []) ++
  s.marginActs ++ s.memoryActs ++
  (match s.pkg.sec.access with
    | .jobDebug _ => if s.pkg.sec.notAfter.toNat ≤ s.ptime.toNat then [Act.event .debugExpiry Arg.init] else []
    | .locked => []
    | .full => []) ++
  (s.pkg.hbm.filter (fun x => x.2.deferred.isSome)).map (fun x => actN .retrainDeferExpiry x.1) ++
  (if k.corr ≠ 0 ∨ !k.corrAt.isEmpty then [Act.event .ptimeCorrectionStep Arg.init] else []) ++
  (if k.phase ≠ 0 then [Act.event .clockPhaseStep Arg.init] else []) ++
  (if s.exchangeDue then [Act.event .timestampExchange Arg.init] else [])

/-- The start that is asked for, once START's own completions are sent; its outcome is free (02 R47; 04 R87). -/
def State.startActs (s : State) : List Act :=
  if s.pkg.pendCmds.any (fun c => c.op == 0x10) then []
  else
    [Act.event .startSequence { Arg.init with
      n := Config.freeChoice s.free % 8, b := s.freeVal.getLsbD 0, bytes := freeReadings (s.drawBase + 20) }]

/-- The entry to retention that firmware orders once all work is saved (02 R39). -/
def State.entryActs (s : State) : List Act :=
  if s.pkg.power.toRetention && s.isIdle && s.allSaved then [Act.event .retentionEntry Arg.init] else []

/-- Whether the package works: it is not off, starting, in safe mode or in retention. -/
def State.works (s : State) : Bool :=
  !(s.pkg.power.st == .off || s.pkg.power.st == .retention || s.pkg.starts.asked.isSome || s.pkg.starts.safe)

/-- The fragments of the counters of command slots reported while the package does not work, so that commands arrive then too (02
R39, R49; 04 R81, R101). -/
def State.commandReports (s : State) : List Act :=
  (s.counters.filter (fun c => c.2.fw)).flatMap (fun c => c.2.frags.map (fun f =>
    Act.event .ullageCountReport (Arg.ofNM f.1 c.1)))

/-- The acts of a cycle in the state that the package is in (02 R35, R39, R49; 04 R101). The partitions come before the cellar
side, so that a cellar access meets the windows, faults and freezes of its own plane cycle (07 R198; log entry 147). DESIGN CHOICE: a
stream's read of a window region returns the value after the cellar writes performed in the cycles before its own (09 R242; log
entry 157). -/
def State.dueActs (s : State) : List Act :=
  let st := s.pkg.starts
  if s.pkg.power.st = .off then []
  else if st.asked.isSome then s.commandReports ++ s.completions ++ s.startActs
  else if !s.works then s.commandReports ++ s.completions ++ s.hostActs
  else
    s.tadpoleActs ++ (s.parts.map (·.1)).flatMap s.partActs ++ s.cellarActs ++ s.waits ++ s.masterActs ++ s.completions ++
      s.hostActs ++ s.entryActs

/-- One plane cycle: what passes with it, and the acts that fall due. -/
def State.tick (s : State) : State :=
  let s0 := s.pass
  let s1 := if s0.works then ((s0.passEcc s0.drawBase).passRows (s0.drawBase + 3)).passMonitors else s0
  { s1.noteActivity with agenda := s1.dueActs, submits := if s1.works then [] else s1.submits, free := s1.drawBase + tickDraws }

end Sys2Proof.Machine
end

