-- ==== Sys2Proof/Machine/Step.lean ====
section
/-! DEFINITION. One step: the next act of the agenda is performed, or the plane advances by a cycle (log entries 3, 4). -/

namespace Sys2Proof.Machine

open Sys2Proof

/-- A thread issues: it fetches, decodes and executes the instruction at its pc (10 R274, R279). -/
def issueThread (t : Nat) (s : State) : Host.Outcome State Fault Refusal :=
  match ({ s with cur := t }).fetchNewt with
  | .ok i => exec i { s with cur := t }
  | .error e => .next e

/-- A tile's stream issues (09 R247). A word that no instruction of the stream has, which a loaded image cannot hold but a write
within the schedule may leave in the store (09 R241; 14 R425), has no effect that the spec states: the step is refused. DESIGN
CHOICE (log entry 176). -/
def issueStream (t : Nat) (st : StreamId) (s : State) : Host.Outcome State Fault Refusal :=
  match s.fetchStream t st with
  | some i => exec i { s with curTile := t, curSt := st }
  | none => .refused .badStream

/-- One act. -/
def perform (a : Act) (s : State) : Host.Outcome State Fault Refusal :=
  match a with
  | .issue c sl => issueThread (c * 16 + sl) s
  | .stream t st => issueStream t st s
  | .event i x => exec i { s with arg := x }
  | .storeUe t va => .next (s.takeStoreUe t va)
  | .spare c tried => .next (s.spareCycle c tried)

/-- One step of the part. -/
def step (s : State) : Host.Outcome State Fault Refusal :=
  match s.agenda with
  | [] => .next s.tick
  | a :: rest => perform a { s with agenda := rest }

/-- A thread in slot 0 of core 0 that issues the word next (log entry 12). -/
def State.withNewtWord (s : State) (w : Nat) : State :=
  let leaf : Leaf :=
    { asid := (s.job (s.thread 0).job).asid, va := 0, size := localSize, page := localSize, pa := localPa 0 0, rd := true, wr := true,
      x := true, user := true, rox := false }
  let x := s.thread 0
  let s1 := (s.putMem (localPa 0 0x1000) (bytesOf 4 w)).setThread 0
    { x with live := true, level := if x.live then x.level else .supervisor, pc := 0x1000, park := .running,
             region := none }
  { s1.setCore 0 { s1.core 0 with tlb := leaf :: (s1.core 0).tlb } with agenda := .issue 0 0 :: s1.agenda }

/-- Streams that an opcode is valid in, the first of them (11 R326). -/
def streamOfOpcode (op : Nat) : StreamId :=
  if op ≤ 0x16 then .x else if op ≤ 0x1D then .f else .m

/-- A tile's stream that issues the halfwords next, in a partition of one tile (log entry 12). -/
def State.withStreamWord (s : State) (h0 h1 : Half) : State :=
  let st := streamOfOpcode (h0.extractLsb' 10 6).toNat
  let tl := s.tile 0
  let key := tl.part.getD 1
  let p := s.part key
  let v := tl.stream st
  let p1 : Partition := if tl.part.isSome then { p with st := .running, started := true, frozen := false } else
    { p with st := .running, job := 0, launch := 1, num := some 0, w := 1, h := 1, tiles := [0], flen := 0x1000,
             storeOff := 0, storeLen := 64, started := true }
  let v1 : Stream := { v with ended := false, next := p1.scyc, outer := none, inner := none, buf := [] }
  let off := p1.fb + p1.storeOff + 2 * v1.spc
  let s1 := (s.setPart key p1).setTile 0 ({ tl with part := some key, storeLog := [] }.setStream st v1)
  { s1.putMem (tilePa 0 off) (bytesOf 2 h0.toNat ++ bytesOf 2 h1.toNat) with agenda := .stream 0 st :: s1.agenda }

/-- The state with an instruction given in the opcode table's numbering placed where the next step fetches. -/
def State.withFetchWord (s : State) (nbits w : Nat) : State :=
  let b := tableBytes w
  if nbits = 16 then s.withStreamWord (halfOfBytes b.1 b.2.1) 0
  else
    match decodeNewt (newtWordOfBytes b.1 b.2.1 b.2.2.1 b.2.2.2) with
    | .ok _ => s.withNewtWord w
    | .error _ => s.withStreamWord (halfOfBytes b.2.2.1 b.2.2.2) (halfOfBytes b.1 b.2.1)

end Sys2Proof.Machine
end

