-- ==== Sys2Proof/Safety.lean ====
section
/-! DEFINITION. What counts as a well-formed memory and a well-formed state, and the frames, in the terms that claims
use. -/

namespace Sys2Proof

/-- Instructions of a Newt thread, those with a 32-bit word (11 R312, R323). -/
def Instr.isNewt : Instr → Bool
  | .add _ _ _ | .sub _ _ _ | .addi _ _ _ | .mul _ _ _ | .mulh _ _ _ | .mulhu _ _ _ | .div _ _ _ | .divu _ _ _
  | .rem _ _ _ | .remu _ _ _ | .andR _ _ _ | .orR _ _ _ | .xorR _ _ _ | .andn _ _ _ | .lea _ _ _ _
  | .andi _ _ _ | .ori _ _ _ | .xori _ _ _ | .shl _ _ _ | .shr _ _ _ | .sar _ _ _ | .rot _ _ _ | .shli _ _ _
  | .shri _ _ _ | .sari _ _ _ | .roti _ _ _ | .clz _ _ | .ctz _ _ | .popc _ _ | .brev _ _ | .bswp _ _
  | .bext _ _ _ _ | .bins _ _ _ _ | .min _ _ _ | .max _ _ _ | .minu _ _ _ | .maxu _ _ _ | .lih _ _ _
  | .sk _ _ _ _ | .ski _ _ _ _ | .fsk _ _ _ _ _ | .br _ | .jr _ | .call _ | .callr _ | .ret | .dbnz _ _
  | .ld _ _ _ _ _ | .st _ _ _ _ _ | .ldx _ _ _ _ _ _ | .stx _ _ _ _ _ _ | .ldc _ _ _ _ _ | .prf _ _
  | .ldf _ _ _ | .ste _ _ _ | .ldp _ _ _ | .stf _ _ _ | .fec _ _ | .amo _ _ _ _ _ _ | .cas _ _ _ _ _ _ | .arb _
  | .arl _ _ _ _ | .ars _ _ _ _ | .arc _ _ | .fence _ | .bfence _ _ | .fadd _ _ _ _ _ | .fsub _ _ _ _ _
  | .fmul _ _ _ _ _ | .fdiv _ _ _ _ _ | .fsqrt _ _ _ _ | .fma _ _ _ _ _ _ | .fms _ _ _ _ _ _
  | .fnma _ _ _ _ _ _ | .fmin _ _ _ _ | .fmax _ _ _ _ | .fcvt _ _ _ _ _ | .fcls _ _ _ | .fsgn _ _ _ _ _
  | .frnd _ _ _ _ | .vadd _ _ _ _ _ _ _ _ | .vsub _ _ _ _ _ _ _ _ | .vmul _ _ _ _ _ _ _ _
  | .vfma _ _ _ _ _ _ _ _ _ | .vdiv _ _ _ _ _ _ _ _ | .vmin _ _ _ _ _ _ _ _ | .vmax _ _ _ _ _ _ _ _
  | .vlog _ _ _ _ _ _ _ | .vshf _ _ _ _ _ _ _ _ | .vcmp _ _ _ _ _ _ _ _ | .vsel _ _ _ _ _ _ _
  | .vred _ _ _ _ _ _ | .vld _ _ _ _ _ _ | .vst _ _ _ _ _ _ | .vgth _ _ _ _ _ _ _ | .vsct _ _ _ _ _ _ _
  | .vbrd _ _ _ _ _ _ | .vext _ _ _ _ _ | .vprm _ _ _ _ _ _ _ _ | .vcvt _ _ _ _ _ _ _ _ _ _ | .send _
  | .recv _ _ | .rpc _ | .rply _ | .htw _ _ _ | .spwn _ _ _ _ | .quit | .bar _ _ _ | .qsc _ | .wft _ | .cps _ _
  | .cpl _ | .cpq _ _ | .hwt _ _ | .hrl _ | .uls _ _ _ | .ulr _ _ | .rst _ _ _ _ | .rinc _ _ _ _ _ | .post _ _
  | .wwt _ _ | .vpub _ _ _ | .vqry _ _ | .bcmd _ | .rng _ _ _ _ _ _ _ _ | .gmb _ _ _ _ _ _ _ _ | .alc _ _
  | .fre _ | .trap _ | .eret | .syr _ _ | .syw _ _ | .tlbi _ | .tlbiAll | .migr _ _ _ | .time _ | .timeRot _
  | .brk _ => true
  | _ => false

/-- Newt instructions whose effect lies in registers alone: integer, compare and skip, branches without a window move,
floating point, vector operations on registers, reads of system registers and time, TRAP, BRK and ERET. -/
def Instr.registersOnly : Instr → Bool
  | .add _ _ _ | .sub _ _ _ | .addi _ _ _ | .mul _ _ _ | .mulh _ _ _ | .mulhu _ _ _ | .div _ _ _ | .divu _ _ _
  | .rem _ _ _ | .remu _ _ _ | .andR _ _ _ | .orR _ _ _ | .xorR _ _ _ | .andn _ _ _ | .lea _ _ _ _
  | .andi _ _ _ | .ori _ _ _ | .xori _ _ _ | .shl _ _ _ | .shr _ _ _ | .sar _ _ _ | .rot _ _ _ | .shli _ _ _
  | .shri _ _ _ | .sari _ _ _ | .roti _ _ _ | .clz _ _ | .ctz _ _ | .popc _ _ | .brev _ _ | .bswp _ _
  | .bext _ _ _ _ | .bins _ _ _ _ | .min _ _ _ | .max _ _ _ | .minu _ _ _ | .maxu _ _ _ | .lih _ _ _
  | .sk _ _ _ _ | .ski _ _ _ _ | .fsk _ _ _ _ _ | .br _ | .jr _ | .dbnz _ _
  | .fadd _ _ _ _ _ | .fsub _ _ _ _ _ | .fmul _ _ _ _ _ | .fdiv _ _ _ _ _ | .fsqrt _ _ _ _ | .fma _ _ _ _ _ _
  | .fms _ _ _ _ _ _ | .fnma _ _ _ _ _ _ | .fmin _ _ _ _ | .fmax _ _ _ _ | .fcvt _ _ _ _ _ | .fcls _ _ _
  | .fsgn _ _ _ _ _ | .frnd _ _ _ _ | .vadd _ _ _ _ _ _ _ _ | .vsub _ _ _ _ _ _ _ _ | .vmul _ _ _ _ _ _ _ _
  | .vfma _ _ _ _ _ _ _ _ _ | .vdiv _ _ _ _ _ _ _ _ | .vmin _ _ _ _ _ _ _ _ | .vmax _ _ _ _ _ _ _ _
  | .vlog _ _ _ _ _ _ _ | .vshf _ _ _ _ _ _ _ _ | .vcmp _ _ _ _ _ _ _ _ | .vsel _ _ _ _ _ _ _
  | .vred _ _ _ _ _ _ | .vbrd _ _ _ _ _ _ | .vext _ _ _ _ _ | .vprm _ _ _ _ _ _ _ _ | .vcvt _ _ _ _ _ _ _ _ _ _
  | .rng _ _ _ _ _ _ _ _ | .gmb _ _ _ _ _ _ _ _ | .trap _ | .eret | .syr _ _ | .time _ | .timeRot _
  | .brk _ => true
  | _ => false

/-- Instructions of a trellis stream (11 R324 to R326). -/
def Instr.isStream : Instr → Bool
  | .blk _ _ _ | .wut _ _ | .brc _ _ _ | .kli _ _ | .kliHi _ _ | .kliAdd _ _ _ | .kliMul _ _ _ | .hld _ _ _
  | .hst _ _ _ | .hac _ _ _ _ | .lks _ _ _ _ | .lkr _ _ _ | .lka _ _ _ _ _ _ | .win _ _ | .wcl _ | .prd _ _ _
  | .vlt _ | .tld _ _ _ _ | .scp _ _ _ | .qnt _ _ _ _ _ _ _ | .dqn _ _ _ _ _ _ _ | .cvt _ _ _ _ _ _ _
  | .trn _ _ _ | .pak _ _ _ _ _ | .srs _ _ _ _ _ _ | .fmt _ _ _ | .wld _ _ _ | .mma _ _ _ _ _ _
  | .acr _ _ _ _ _ _ _ | .acz _ _ _ | .var _ _ _ _ _ _ | .vly _ _ _ | .vsy _ _ _ | .vrd _ _ _ _ | .vtr _ _ _ _
  | .vcm _ _ _ _ _ | .vsl _ _ _ _ _ _ | .nop | .dly _ | .tkp _ _ | .tkw _ _ | .kop _ _ _ | .endT => true
  | _ => false

end Sys2Proof

namespace Sys2Proof.Machine

open Sys2Proof

/-- Memory in its canonical form: addresses rise strictly and no entry equals the byte 0 that an unlisted address reads
as (log entry 2). -/
abbrev Memory.wf (m : Store Byte) : Prop := Store.wf 0 m = true

/-- A state whose memory is in canonical form. -/
abbrev State.memWf (s : State) : Prop := Memory.wf s.mem

/-- The executing thread records no atomic region, so its instructions are performed and not recorded (12 R365). -/
abbrev State.performs (s : State) : Prop := s.th.region = none

/-- The executing thread has nothing left to order: no buffered store, no deferred cause, and no dirty word in its core's remote
line cache. -/
abbrev State.atRest (s : State) : Prop :=
  s.th.sb = [] ∧ s.th.rpe = false ∧ s.th.wpe = false ∧ s.th.vpe = false ∧
    ∀ x ∈ (s.core (coreOf s.cur)).rlc, x.dirty = 0

/-- The executing thread performs, and has nothing left to order. -/
abbrev State.clear (s : State) : Prop := s.performs ∧ s.atRest

/-- In `t` the executing thread of `s` has retired its instruction and issues the next word next. -/
def State.retired (s t : State) : Prop :=
  t.cur = s.cur ∧ t.th.pc = s.th.pc + 4 ∧ t.th.park = .running ∧ t.th.qcount = s.th.qcount + 1

/-- Each of `n` aligned doublewords from an address translates for a read to the doubleword of a range of near storage that its
home gives, of which the core's remote line cache holds no line. -/
def State.nearWords (s : State) (va pa n : Nat) : Prop :=
  va % 8 = 0 ∧ pa % 8 = 0 ∧ ∀ i, i < n →
    (∃ l, s.xlate s.cur (va + 8 * i) needRd = .pa (pa + 8 * i) l) ∧ noStorage (pa + 8 * i) = false ∧
      noStorage (pa + 8 * i + 7) = false ∧ isView (pa + 8 * i) = false ∧ s.isFar (coreOf s.cur) (pa + 8 * i) = false ∧
      (s.core (coreOf s.cur)).line ((pa + 8 * i) / 128) = none ∧ s.readAns (pa + 8 * i) 8 s.th.job = .ok

/-- The doublewords of a range of memory. -/
def State.words (s : State) (pa n : Nat) : List Word := (List.range n).map (fun i => wordOf (s.bytes (pa + 8 * i) 8))

/-- A packet that this target performs: the package is on, the packet authentic, new, in its connection's order and of an open
job. -/
def State.accepts (s : State) (p : Packet) (j : Nat) : Prop :=
  s.pkg.power.st ≠ .off ∧ p.data.length ≤ frameMax ∧ p.auth = true ∧ s.dupPkt p = false ∧
    (p.ordered = true → p.psn = (s.conn p.conn).next) ∧ packetQueue p.jobid = none ∧ s.packetJob p.jobid = some j

/-- `n` bytes of a job's space lie in one piece of storage. -/
def State.onePiece (s : State) (j va n : Nat) (need : Need) (pa : Nat) : Prop :=
  0 < n ∧ va % 256 + n ≤ 256 ∧ (∃ l, s.xlateWalk j .user va need = .pa pa l) ∧ noStorage pa = false ∧ isView pa = false

/-- Every byte of memory reads in `t` as in `s`. -/
def State.sameBytes (s t : State) : Prop := ∀ a, t.byte a = s.byte a

/-- Every byte outside `n` bytes from `pa` reads in `t` as in `s`. -/
def State.sameBytesBut (s t : State) (pa n : Nat) : Prop := ∀ a, a < pa ∨ pa + n ≤ a → t.byte a = s.byte a

/-- `t` is `s` but for the executing thread: all memory, all other threads and everything outside the threads stand. -/
def State.onlyThread (s t : State) : Prop :=
  t = { s with threads := t.threads } ∧ (∀ u, u ≠ s.cur → t.thread u = s.thread u) ∧ s.sameBytes t

/-- `y` is `x` but for the general registers listed, the pc, the wait and the count of retired instructions. -/
def Thread.onlyRegs (x y : Thread) (ds : List Nat) : Prop :=
  y = { x with g := y.g, pc := y.pc, park := y.park, qcount := y.qcount } ∧ ∀ r, r ∉ ds → y.gr r = x.gr r

/-- `y` is `x` but for the vector registers listed, FSTAT, the pc, the wait and the count of retired instructions. -/
def Thread.onlyVregs (x y : Thread) (ds : List Nat) : Prop :=
  y = { x with v := y.v, fstat := y.fstat, pc := y.pc, park := y.park, qcount := y.qcount } ∧
  ∀ r l, r ∉ ds → l < 8 → y.lane r l = x.lane r l

end Sys2Proof.Machine
end

