-- ==== Sys2Proof/Certificates/Slice0/Obligations.lean ====
section
/-! DEFINITION. The statements for the provers, from the numbered rules of the spec. -/

open Sys2Proof
open Sys2Proof.Machine

/-! ## Steps -/

/-- A thread issues (10 R274, R279; 11 R315): where the act that a step takes is the issue of slot `sl` of core `c`, the
slot's pc is a multiple of 4, translates for a fetch into the core's own local store, meets no uncorrectable error, and the
four bytes there, the first the least significant, decode to `i`, the step is `exec i` with that slot's thread as the
executing one. Nothing else is done by the step itself.

A tile's stream issues (09 R241, R247; 11 R324): where the act that a step takes is the issue of a stream and the two
halfwords that the stream fetches at its stream counter decode to `i`, the step is `exec i` with that tile and stream as the
executing ones.

The step's own order (log entries 3 and 4, the model's choice): an event of the agenda is `exec` of its instruction with the
event's operands, the MEMORY_UE of a store that has left the core is taken by its thread, let go of what it waits in, with EPC
at its next instruction (12 R358), and with nothing left to do the plane advances by a cycle. A cycle of a core's slot in
which no instruction issued goes to the spill or fill of the slot's own thread, else to that of the lowest other slot that has
one (10 R275; that a cycle whose instruction waits is spare is log entry 162, the model's choice). -/
def Obligations.StepRunsDecodedInstruction : Prop :=
  (∀ (s : State) (c sl a off : Nat) (l : Leaf) (rest : List Act) (i : Instr),
      s.agenda = .issue c sl :: rest →
      let r : State := { s with agenda := rest, cur := c * 16 + sl }
      r.th.pc.toNat % 4 = 0 → r.xlate r.cur r.th.pc.toNat needX = .pa a l → spaceOf a = .loc (coreOf r.cur) off →
      r.hasUe a 4 = false →
      decodeNewt (newtWordOfBytes (r.byte a) (r.byte (a + 1)) (r.byte (a + 2)) (r.byte (a + 3))) = .ok i →
      step s = exec i r) ∧
  (∀ (s : State) (t : Nat) (st : StreamId) (rest : List Act) (i : Instr) (n : Nat),
      s.agenda = .stream t st :: rest →
      let r : State := { s with agenda := rest }
      let v := (r.tile t).stream st;
      decodeTrellis (r.fetchHalf t st v.spc v.next) (r.fetchHalf t st (v.spc + 1) v.next) = .ok (i, n) →
      step s = exec i { r with curTile := t, curSt := st }) ∧
  ((∀ (s : State) (i : Instr) (x : Arg) (rest : List Act), s.agenda = .event i x :: rest →
      step s = exec i { s with agenda := rest, arg := x }) ∧
    (∀ (s : State) (t : Nat) (va : Word) (rest : List Act), s.agenda = .storeUe t va :: rest → (s.thread t).live = true →
      let r : State := { s with agenda := rest }
      step s = .next ((r.unwait t).trapFrom t 0x10 va (s.thread t).pc (s.thread t).pc)) ∧
    (∀ (s : State) (c : Nat) (tried : Bool) (rest : List Act), s.agenda = .spare c tried :: rest →
      let r : State := { s with agenda := rest }
      let own := c * 16 + s.rotation % 16
      let work := (own :: (List.range 16).map (c * 16 + ·)).filter r.windowWork
      (tried = true → (s.thread own).park.waits = false → step s = .next r) ∧
      (tried = false ∨ (s.thread own).park.waits = true →
        (work = [] → step s = .next r) ∧
        (∀ t l, work = t :: l → step s = .next { r with
          agenda := .event (if (s.thread t).older.length = 3 then .windowSpill else .windowFill) (Arg.ofN t) :: rest }))) ∧
    (∀ s : State, s.agenda = [] → step s = .next s.tick))

/-- A word that decodes to nothing raises ILLEGAL with EVAL holding the word, and a pc that is no multiple of 4 raises
MISALIGN with EVAL holding the pc; neither performs anything else (10 R279; 11 R315).

Where control transfers trap or wait (02 R43; 10 R277; 12 R349 to R351): a target that is no multiple of 4 raises MISALIGN
with EVAL the target; a call whose spill is due waits while the 64 bytes may hold the frame and otherwise raises MISALIGN or
PROT with EVAL = WSP; a return whose fill is due likewise, or MEMORY_UE where the frame's bytes hold an uncorrectable error.

What a load or a store of this chapter raises before it does anything (06 R138, R145; 12 R358): an address that no range of
the map holds PROT, a register access that is no aligned doubleword MISALIGN, a translation without permission PROT, an
address of 2^48 or more XLATE; EVAL is left open. A latched vintage copy makes a store VINTAGE with EVAL its address. A TLB
miss parks the thread for a walk. -/
def Obligations.CausesOfFetchControlAndAccess : Prop :=
  ((∀ (s : State) (c sl a off : Nat) (l : Leaf) (rest : List Act) (e : DecodeError),
      s.agenda = .issue c sl :: rest →
      let r : State := { s with agenda := rest, cur := c * 16 + sl }
      let w := newtWordOfBytes (r.byte a) (r.byte (a + 1)) (r.byte (a + 2)) (r.byte (a + 3))
      r.th.pc.toNat % 4 = 0 → r.xlate r.cur r.th.pc.toNat needX = .pa a l → spaceOf a = .loc (coreOf r.cur) off →
      r.hasUe a 4 = false → decodeNewt w = .error e →
      step s = .next (r.trapFrom r.cur 0x01 (w.setWidth 64) r.th.pc r.th.pc)) ∧
    (∀ (s : State) (c sl : Nat) (rest : List Act), s.agenda = .issue c sl :: rest →
      let r : State := { s with agenda := rest, cur := c * 16 + sl }
      r.th.pc.toNat % 4 ≠ 0 → step s = .next (r.trapFrom r.cur 0x03 r.th.pc r.th.pc r.th.pc))) ∧
  (∀ (s : State) (imm : BitVec 24) (a : BitVec 5), s.performs →
      ((s.g a).toNat % 4 ≠ 0 →
        exec (.jr a) s = .next (s.trap 0x03 (s.g a)) ∧ exec (.callr a) s = .next (s.trap 0x03 (s.g a))) ∧
      ((s.th.gr 23).toNat % 4 ≠ 0 → exec .ret s = .next (s.trap 0x03 (s.th.gr 23))) ∧
      (s.th.older.length = 3 →
        exec (.call imm) s = .next (match s.frameCause s.cur (s.th.wsp - 64).toNat with
          | some c => s.trap c s.th.wsp
          | none => s.setTh { s.th with park := .retry 0x2C })) ∧
      ((s.th.gr 23).toNat % 4 = 0 → s.th.older = [] → s.th.nspill ≠ 0 →
        exec .ret s = .next (match s.frameCause s.cur s.th.wsp.toNat with
          | some c => s.trap c s.th.wsp
          | none => if s.hasUe (s.regionPa s.cur s.th.wsp.toNat) 64 = true then s.trap 0x10 s.th.wsp
            else s.setTh { s.th with park := .retry 0x2E }))) ∧
  (∀ (s : State) (src base : BitVec 5) (off : BitVec 9) (wc : BitVec 3), s.performs → wc.toNat ≤ 3 →
      let n := 2 ^ wc.toNat
      let ea := s.g base + off.signExtend 64 * BitVec.ofNat 64 n
      (∀ q ∈ ([(.ld src base 0 off wc, 0x30, needRd), (.st src base 0 off wc, 0x31, needWr)] : List (Instr × Nat × Need)),
        (2 ^ 48 ≤ ea.toNat → exec q.1 s = .next (s.trapFree 0x04)) ∧
        (∀ l, ea.toNat < 2 ^ 48 → s.tlbFind (coreOf s.cur) (s.job s.th.job).asid ea.toNat = some l →
          l.permits s.th.level q.2.2 = false → exec q.1 s = .next (s.trapFree 0x05)) ∧
        (ea.toNat < 2 ^ 48 → s.tlbFind (coreOf s.cur) (s.job s.th.job).asid ea.toNat = none →
          exec q.1 s = .next (s.parkWalk s.cur ea.toNat q.2.1)) ∧
        (∀ ps, s.xparts q.2.1 ea.toNat n q.2.2 = .ok ps →
          ((∃ p ∈ ps, isHole p.pa = true) → exec q.1 s = .next (s.trapFree 0x05)) ∧
          ((∀ p ∈ ps, isHole p.pa = false ∧ isHole (p.pa + p.len - 1) = false) → (∃ p ∈ ps, isMmio p.pa = true) →
            (n ≠ 8 ∨ ea.toNat % 8 ≠ 0) → exec q.1 s = .next (s.trapFree 0x03)))) ∧
      (∀ ps, s.xparts 0x31 ea.toNat n needWr = .ok ps → s.storageCheck ea n ps = .ok false → s.storeLatched ps = true →
        exec (.st src base 0 off wc) s = .next (s.trap 0x07 ea)))

/-! ## Encodings -/

/-- Words written out from the encoding entries decode to the instructions they stand for: ADD g20, g21, g22 and ADDI g6, g0,
8 and LIH g6, g6, -8192 (12 R339, R341), SKI.ge g16, 0, 1 (R347), RET (R351), DBNZ g22 with simm14 −1 (R352). -/
def Obligations.DecodesWordsOfTheSpec : Prop :=
  decodeNewt 0x01A56C00#32 = .ok (.add 20 21 22) ∧ decodeNewt 0x03300008#32 = .ok (.addi 6 0 8) ∧
  decodeNewt 0x2631A000#32 = .ok (.lih 6 6 0x2000) ∧ decodeNewt 0x28360000#32 = .ok (.ski 3 1 16 0) ∧
  decodeNewt 0x2E000000#32 = .ok .ret ∧ decodeNewt 0x2FB03FFF#32 = .ok (.dbnz 22 0x3FFF)

/-- Decode of encode, Jalgal-N: every well-formed instruction that has a 32-bit word and is one of the thread's is read back
from its word, with every operand at every value that the encoding admits (11 R312, R315, R323). -/
def Obligations.DecodeOfEncodeNewt : Prop :=
  ∀ (i : Instr) (w : BitVec 32), i.wf = true → i.isNewt = true → encode i = .w32 w → decodeNewt w = .ok i

/-- Decode of encode, Jalgal-T: every well-formed stream instruction is read back from its halfwords, whatever halfword
follows a short one (11 R324 to R326). -/
def Obligations.DecodeOfEncodeTrellis : Prop :=
  (∀ (i : Instr) (w : BitVec 32), i.wf = true → i.isStream = true → encode i = .w32 w →
    decodeTrellis (w.extractLsb' 16 16) (w.extractLsb' 0 16) = .ok (i, 2)) ∧
  (∀ (i : Instr) (h h1 : BitVec 16), i.wf = true → encode i = .w16 h → decodeTrellis h h1 = .ok (i, 1))

/-- Encode of decode, Jalgal-N: a word that decodes is the word of the instruction it decodes to, which is well-formed, so
that no bit of an accepted word goes unread (00 R8, R9; 12 R335). -/
def Obligations.EncodeOfDecodeNewt : Prop :=
  ∀ (w : BitVec 32) (i : Instr), decodeNewt w = .ok i → encode i = .w32 w ∧ i.wf = true

/-! ## Integer and bit operations -/

/-- The three-register operations: a word with the row's opcode decodes with d in [23:19], a in [18:14], b in [13:9] and is
refused where bits [8:0] are not zero; the instruction writes gd with the row's value and retires. -/
def Obligations.ThreeRegisterOperations : Prop :=
  ∀ q ∈ ([(0x01, .add, fun a b => BitVec.ofNat 64 (a.toNat + b.toNat)),
          (0x02, .sub, fun a b => BitVec.ofInt 64 ((a.toNat : Int) - b.toNat)),
          (0x04, .mul, fun a b => BitVec.ofNat 64 (a.toNat * b.toNat)),
          (0x05, .mulh, fun a b => BitVec.ofInt 64 (a.toInt * b.toInt / 2 ^ 64)),
          (0x06, .mulhu, fun a b => BitVec.ofNat 64 (a.toNat * b.toNat / 2 ^ 64)),
          (0x07, .div, fun a b => if b = 0 then BitVec.allOnes 64
            else if a = BitVec.intMin 64 ∧ b = BitVec.allOnes 64 then BitVec.intMin 64
            else BitVec.ofInt 64 (a.toInt.tdiv b.toInt)),
          (0x08, .divu, fun a b => if b = 0 then BitVec.allOnes 64 else BitVec.ofNat 64 (a.toNat / b.toNat)),
          (0x09, .rem, fun a b => if b = 0 then a else if a = BitVec.intMin 64 ∧ b = BitVec.allOnes 64 then 0
            else BitVec.ofInt 64 (a.toInt - b.toInt * a.toInt.tdiv b.toInt)),
          (0x0A, .remu, fun a b => if b = 0 then a else BitVec.ofNat 64 (a.toNat % b.toNat)),
          (0x0B, .andR, fun a b => a &&& b), (0x0C, .orR, fun a b => a ||| b), (0x0D, .xorR, fun a b => a ^^^ b),
          (0x0E, .andn, fun a b => a &&& ~~~b),
          (0x13, .shl, fun a b => BitVec.ofNat 64 (a.toNat * 2 ^ (b.toNat % 64))),
          (0x14, .shr, fun a b => BitVec.ofNat 64 (a.toNat / 2 ^ (b.toNat % 64))),
          (0x15, .sar, fun a b => BitVec.ofInt 64 (a.toInt / 2 ^ (b.toNat % 64))),
          (0x16, .rot, fun a b => a <<< (b.toNat % 64) ||| a >>> (64 - b.toNat % 64)),
          (0x22, .min, fun a b => if a.toInt < b.toInt then a else b),
          (0x23, .max, fun a b => if a.toInt < b.toInt then b else a),
          (0x24, .minu, fun a b => if a.toNat < b.toNat then a else b),
          (0x25, .maxu, fun a b => if a.toNat < b.toNat then b else a)] :
        List (BitVec 8 × (BitVec 5 → BitVec 5 → BitVec 5 → Instr) × (Word → Word → Word))),
    (∀ w : BitVec 32, w.extractLsb' 24 8 = q.1 →
      (w.extractLsb' 0 9 = 0 →
        decodeNewt w = .ok (q.2.1 (w.extractLsb' 19 5) (w.extractLsb' 14 5) (w.extractLsb' 9 5))) ∧
      (w.extractLsb' 0 9 ≠ 0 → decodeNewt w = .error .reserved)) ∧
    ∀ (s : State) (d a b : BitVec 5), s.performs →
      exec (q.2.1 d a b) s = .next (s.retireG d (q.2.2 (s.g a) (s.g b)))

/-- The immediate operations, LIH among them (12 R340, R341), and the limits of their words: a shift or rotate by an immediate
outside 0 to 63 is refused.

BEXT, BINS and LEA (12 R343, R344): the field at pos of len bits read zero-extended, replaced in gd, and the scaled sum. -/
def Obligations.ImmediateFieldAndAddressOperations : Prop :=
  (∀ q ∈ ([(0x03, false, .addi, fun x i => x + i), (0x10, false, .andi, fun x i => x &&& i),
            (0x11, false, .ori, fun x i => x ||| i), (0x12, false, .xori, fun x i => x ^^^ i),
            (0x17, true, .shli, fun x i => x <<< i.toNat), (0x18, true, .shri, fun x i => x >>> i.toNat),
            (0x19, true, .sari, fun x i => x.sshiftRight i.toNat), (0x1A, true, .roti, fun x i => x.rotateLeft i.toNat),
            (0x26, false, .lih, fun x i => (x <<< 14) + i)] :
          List (BitVec 8 × Bool × (BitVec 5 → BitVec 5 → BitVec 14 → Instr) × (Word → Word → Word))),
      (∀ w : BitVec 32, w.extractLsb' 24 8 = q.1 →
        decodeNewt w =
          if q.2.1 = true ∧ 64 ≤ (w.extractLsb' 0 14).toNat then .error .fieldLimit
          else .ok (q.2.2.1 (w.extractLsb' 19 5) (w.extractLsb' 14 5) (w.extractLsb' 0 14))) ∧
      ∀ (s : State) (d a : BitVec 5) (imm : BitVec 14), s.performs → (q.2.1 = true → imm.toNat < 64) →
        exec (q.2.2.1 d a imm) s = .next (s.retireG d (q.2.2.2 (s.g a) (imm.signExtend 64)))) ∧
  (∀ (s : State) (d a b : BitVec 5) (pos len1 : BitVec 6) (sc : BitVec 2), s.performs →
      (pos.toNat + (len1.toNat + 1) ≤ 64 →
        exec (.bext d a pos len1) s =
          .next (s.retireG d (BitVec.ofNat 64 ((s.g a).toNat / 2 ^ pos.toNat % 2 ^ (len1.toNat + 1)))) ∧
        ∃ v, exec (.bins d a pos len1) s = .next (s.retireG d v) ∧
          ∀ k, k < 64 → v.getLsbD k =
            (if pos.toNat ≤ k ∧ k ≤ pos.toNat + len1.toNat then (s.g a).getLsbD (k - pos.toNat) else (s.g d).getLsbD k)) ∧
      exec (.lea d a b sc) s = .next (s.retireG d (s.g a + BitVec.ofNat 64 ((s.g b).toNat * 2 ^ sc.toNat))))

/-- The one-operand bit operations (12 R342): a word with the row's opcode decodes with d in [23:19] and a in [18:14] and is
refused where bits [13:0] are not zero; CLZ, CTZ, POPC, BREV and BSWP write gd with the value that the bits of g(a) determine,
and retire. -/
def Obligations.OneOperandBitOperations : Prop :=
  (∀ q ∈ ([(0x1B, .clz), (0x1C, .ctz), (0x1D, .popc), (0x1E, .brev), (0x1F, .bswp)] :
        List (BitVec 8 × (BitVec 5 → BitVec 5 → Instr))),
    ∀ w : BitVec 32, w.extractLsb' 24 8 = q.1 →
      (w.extractLsb' 0 14 = 0 → decodeNewt w = .ok (q.2 (w.extractLsb' 19 5) (w.extractLsb' 14 5))) ∧
      (w.extractLsb' 0 14 ≠ 0 → decodeNewt w = .error .reserved)) ∧
  ∀ (s : State) (d a : BitVec 5), s.performs →
    (∃ v, exec (.clz d a) s = .next (s.retireG d v) ∧
      v.toNat ≤ 64 ∧ (∀ k, k < v.toNat → (s.g a).getLsbD (63 - k) = false) ∧
      (v.toNat < 64 → (s.g a).getLsbD (63 - v.toNat) = true)) ∧
    (∃ v, exec (.ctz d a) s = .next (s.retireG d v) ∧
      v.toNat ≤ 64 ∧ (∀ k, k < v.toNat → (s.g a).getLsbD k = false) ∧ (v.toNat < 64 → (s.g a).getLsbD v.toNat = true)) ∧
    (∃ v, exec (.popc d a) s = .next (s.retireG d v) ∧
      v.toNat = ((List.range 64).filter (fun k => (s.g a).getLsbD k)).length) ∧
    (∃ v, exec (.brev d a) s = .next (s.retireG d v) ∧ ∀ k, k < 64 → v.getLsbD k = (s.g a).getLsbD (63 - k)) ∧
    (∃ v, exec (.bswp d a) s = .next (s.retireG d v) ∧
      ∀ k, k < 8 → v.extractLsb' (8 * k) 8 = (s.g a).extractLsb' (8 * (7 - k)) 8)

/-- What retiring with a register write is (11 R314; 12 R336, R338): gd takes the value, or nothing for g0, which reads as
zero; every other general register, every other thread, all memory and all other state stand; the next issue is at PC + 4 and
one instruction more counts as retired. The integer and bit operations do nothing else. -/
def Obligations.RetiringWritesOneRegister : Prop :=
  ∀ (s : State) (d : BitVec 5) (v : Word),
    let t := s.retireG d v
    s.onlyThread t ∧ s.th.onlyRegs t.th [d.toNat] ∧ t.g d = (if d = 0 then 0 else v) ∧ t.th.pc = s.th.pc + 4 ∧
      t.th.park = .running ∧ t.th.qcount = s.th.qcount + 1

/-! ## Compare and skip, branches, calls -/

/-- SK, SKI and FSK (12 R345 to R347): a true condition sends the next issue past the n annulled words, a false one to PC + 4;
no register is written. The conditions of SK and SKI are those of the table; FSK ORs NV into FSTAT and does not take FP while
NVE is clear.

BR, JR and DBNZ (12 R348, R349, R352): the next issue is at the target, and only DBNZ writes a register. -/
def Obligations.SkipsAndBranches : Prop :=
  (∀ (s : State) (c : BitVec 4) (n : BitVec 2) (a b : BitVec 5) (imm : BitVec 13) (p : BitVec 1) (fc : BitVec 3),
      s.performs → n ≠ 0 →
      let holds := fun (x y : Word) => (match c.toNat with
        | 0 => x = y | 1 => x ≠ y | 2 => x.toInt < y.toInt | 3 => y.toInt ≤ x.toInt | 4 => x.toNat < y.toNat
        | 5 => y.toNat ≤ x.toNat | 6 => x.toInt ≤ y.toInt | 7 => y.toInt < x.toInt | 8 => x.toNat ≤ y.toNat
        | 9 => y.toNat < x.toNat | 10 => x.getLsbD (y.toNat % 64) = true | _ => x.getLsbD (y.toNat % 64) = false)
      let past := s.th.pc + 4 * (n.setWidth 64 + 1)
      (c.toNat ≤ 11 → (holds (s.g a) (s.g b) → exec (.sk c n a b) s = .next (s.retireTo past)) ∧
        (¬ holds (s.g a) (s.g b) → exec (.sk c n a b) s = .next (s.retireTo (s.th.pc + 4)))) ∧
      (c.toNat ≤ 11 → (holds (s.g a) (imm.signExtend 64) → exec (.ski c n a imm) s = .next (s.retireTo past)) ∧
        (¬ holds (s.g a) (imm.signExtend 64) → exec (.ski c n a imm) s = .next (s.retireTo (s.th.pc + 4)))) ∧
      (let q := fpCond (precFmt p) s.th.ftz fc.toNat (fpCode p (s.g a)) (fpCode p (s.g b));
        s.th.fpTraps q.2 = false →
        exec (.fsk p fc n a b) s =
          .next ((s.setTh (s.th.orFlags q.2)).retireTo (if q.1 = true then past else s.th.pc + 4)))) ∧
  (∀ (s : State) (imm24 : BitVec 24) (imm : BitVec 14) (a d : BitVec 5), s.performs →
      exec (.br imm24) s = .next (s.retireTo (s.th.pc + imm24.signExtend 64 * 4)) ∧
      ((s.g a).toNat % 4 = 0 → exec (.jr a) s = .next (s.retireTo (s.g a))) ∧
      exec (.dbnz d imm) s =
        .next ((s.setG d (s.g d - 1)).retireTo
          (if s.g d - 1 ≠ 0 then s.th.pc + imm.signExtend 64 * 4 else s.th.pc + 4)))

/-- CALL, CALLR and RET (10 R276; 12 R350, R351): a call that finds fewer than three resident older frames moves the window
(the old g24 to g31 are g16 to g23, with the return address in g23, g24 to g31 are zero, the old g16 to g23 become the newest
older frame); a return that finds a resident frame, or none anywhere, moves it back. CALLR reads its target before the window
moves. g0 to g15, memory and all other state stand.

WINDOW_SPILL and WINDOW_FILL (10 R277): a due spill writes the oldest of three resident frames to the 64 bytes below WSP,
lowers WSP by 64 and counts it in NSPILL; a due fill reads the 64 bytes at WSP, free of uncorrectable errors, back as the only
older frame. -/
def Obligations.CallsSpillsAndFills : Prop :=
  (∀ (s : State) (imm : BitVec 24) (a : BitVec 5), s.performs →
      let moved := fun (target : Word) (t : State) => s.onlyThread t ∧
        t.th = { s.th with g := t.th.g, older := (List.range 8).map (fun k => s.th.gr (16 + k)) :: s.th.older,
                           pc := target, park := .running, qcount := s.th.qcount + 1 } ∧
        (∀ r, r < 16 → t.th.gr r = s.th.gr r) ∧ (∀ k, k < 7 → t.th.gr (16 + k) = s.th.gr (24 + k)) ∧
        t.th.gr 23 = s.th.pc + 4 ∧ (∀ k, k < 8 → t.th.gr (24 + k) = 0)
      (s.th.older.length ≠ 3 →
        (∃ t, exec (.call imm) s = .next t ∧ moved (s.th.pc + imm.signExtend 64 * 4) t) ∧
        ((s.g a).toNat % 4 = 0 → ∃ t, exec (.callr a) s = .next t ∧ moved (s.g a) t)) ∧
      ((s.th.gr 23).toNat % 4 = 0 →
        ∀ f rest, (s.th.older = f :: rest ∧ f.length = 8) ∨
            (s.th.older = [] ∧ s.th.nspill = 0 ∧ f = List.replicate 8 0 ∧ rest = []) →
          ∃ t, exec .ret s = .next t ∧ s.onlyThread t ∧
            t.th = { s.th with g := t.th.g, older := rest, pc := s.th.gr 23, park := .running,
                               qcount := s.th.qcount + 1 } ∧
            (∀ r, r < 16 → t.th.gr r = s.th.gr r) ∧ (∀ k, k < 8 → t.th.gr (24 + k) = s.th.gr (16 + k)) ∧
            (∀ k, k < 8 → t.th.gr (16 + k) = nth 0 f k))) ∧
  (∀ (s : State) (f0 f1 f2 : List Word),
      let n := s.arg.n
      let x := s.thread n
      x.live = true →
      (x.older = [f0, f1, f2] → s.frameCause n (x.wsp - 64).toNat = none →
        ∃ t, exec .windowSpill s = .next t ∧
          t.thread n = { x with older := [f0, f1], wsp := x.wsp - 64, nspill := x.nspill + 1 } ∧
          (f2.length = 8 → t.bytes (s.regionPa n (x.wsp - 64).toNat) 64 = f2.flatMap wordBytes) ∧
          s.sameBytesBut t (s.regionPa n (x.wsp - 64).toNat) (8 * f2.length) ∧ (∀ u, u ≠ n → t.thread u = s.thread u)) ∧
      (x.older = [] → x.nspill ≠ 0 → s.frameCause n x.wsp.toNat = none →
        s.hasUe (s.regionPa n x.wsp.toNat) 64 = false →
        exec .windowFill s = .next (s.setThread n { x with
          older := [(chunks 8 (s.bytes (s.regionPa n x.wsp.toNat) 64)).map wordOf], wsp := x.wsp + 64,
          nspill := x.nspill - 1 })))

/-! ## Traps -/

/-- Taking a trap (10 R282): a thread with a vector and no trap under way saves the pc in EPC, the cause in ECAUSE and the
value in EVAL, sets INTRAP and issues next at TVEC; its registers and everything else stand. Otherwise it stops and the cause
goes to its job's supervisor as a record (05 R133, R134).

TRAP, BRK and ERET (13 R417, R418): TRAP takes SYSCALL with EPC past it and EVAL = e; that it counts as retired is the model's
choice (log entry 40). BRK takes BREAK with EPC at it; ERET goes on at EPC with INTRAP clear, and is ILLEGAL, with an EVAL
that the spec leaves open, while INTRAP is clear. -/
def Obligations.TrapsAreTaken : Prop :=
  (∀ (s : State) (cause : Nat) (v : Word),
      (s.th.tvec ≠ 0 → s.th.intrap = false →
        ∃ t, s.trap cause v = t ∧ s.onlyThread t ∧
          t.th = { s.th with epc := s.th.pc, ecause := BitVec.ofNat 64 cause, eval := v, intrap := true, pc := s.th.tvec,
                             park := .running, region := none }) ∧
      ((s.th.tvec = 0 ∨ s.th.intrap = true) →
        s.trap cause v = (s.setTh { s.th with park := .stopped, region := none }).sendRecord s.th.job
          (recordBytes cause 0 s.th.job s.th.tid.toNat s.ptime v s.th.pc 0xFFFF 0xFF
            [if s.th.intrap = true then 1 else 0]))) ∧
  (∀ (s : State) (e : BitVec 14), s.performs →
      (s.th.tvec ≠ 0 → s.th.intrap = false →
        (∃ t, exec (.trap e) s = .next t ∧ s.onlyThread t ∧
          t.th = { s.th with epc := s.th.pc + 4, ecause := 0x14, eval := e.setWidth 64, intrap := true, pc := s.th.tvec,
                             park := .running, qcount := s.th.qcount + 1 }) ∧
        (∃ t, exec (.brk e) s = .next t ∧ s.onlyThread t ∧
          t.th = { s.th with epc := s.th.pc, ecause := 0x13, eval := e.setWidth 64, intrap := true, pc := s.th.tvec,
                             park := .running })) ∧
      (s.th.intrap = true →
        ∃ t, exec .eret s = .next t ∧ s.onlyThread t ∧
          t.th = { s.th with intrap := false, pc := s.th.epc, park := .running, qcount := s.th.qcount + 1 }) ∧
      (s.th.intrap = false → exec .eret s = .next (s.trapFree 0x01)))

/-! ## Floating point -/

/-- FADD, FSUB, FMUL, FDIV, FSQRT, FMA, FMS, FNMA, FMIN, FMAX, FCVT and FRND (08 R234; 13 R374 to R379): the exceptions that
the operation raises are ORed into FSTAT; where none of them is enabled, gd takes the result zero-extended and the instruction
retires; where one is, FP is taken with EVAL naming the exceptions and lane 0, and gd stands.

What the result of FADD, FSUB, FMUL and FMA is (08 R231; 13 R374, R375): of operands that are no NaN, taken as exact values,
the exact result is formed, an invalid one is the canonical NaN with NV, and any other is rounded once in the instruction's
mode; a NaN operand is passed on quietened, with NV only for a signalling one. -/
def Obligations.FpResultsAreExactThenRounded : Prop :=
  (∀ (s : State) (d a b c k : BitVec 5) (rm : BitVec 3) (p : BitVec 1), s.performs →
      let f := precFmt p
      let m := s.th.modeOf rm
      let z := s.th.ftz
      let x := fpCode p (s.g a)
      let y := fpCode p (s.g b)
      let w := fpCode p (s.g c)
      let m4 := if rm = 4 then RMode.sr ((s.g b).toNat % 2 ^ 32) else m
      ∀ q ∈ ([(.fadd d a b rm p, fpAdd f m z x y), (.fsub d a b rm p, fpSub f m z x y), (.fmul d a b rm p, fpMul f m z x y),
              (.fdiv d a b rm p, fpDiv f m z x y), (.fsqrt d a rm p, fpSqrt f m z x),
              (.fma d a b c rm p, fpFma f m z false false x y w), (.fms d a b c rm p, fpFma f m z false true x y w),
              (.fnma d a b c rm p, fpFma f m z true false x y w), (.fmin d a b p, fpMinMax f false z x y),
              (.fmax d a b p, fpMinMax f true z x y), (.fcvt d a b k rm, fcvtResult k.toNat m4 z (s.g a)),
              (.frnd d a rm p, fpRnd f m z x)] : List (Instr × FRes)),
        let s1 := s.setTh { s.th with fstat := s.th.fstat ||| BitVec.ofNat 64 q.2.flags }
        (Nat.land q.2.flags (bits s.th.fctl.toNat 12 8) = 0 →
          exec q.1 s = .next (s1.retireG d (BitVec.ofNat 64 q.2.code))) ∧
        (Nat.land q.2.flags (bits s.th.fctl.toNat 12 8) ≠ 0 →
          exec q.1 s = .next (s1.trap 0x0B (BitVec.ofNat 64 (q.2.flags + 256))))) ∧
  (∀ (f : Fmt) (m : RMode) (a b c : Nat),
      (f.isNan a = false → f.isNan b = false → f.isNan c = false →
        let out := fun v => (match v with
          | FVal.nan => ({ code := f.canonNan, flags := fNv } : FRes)
          | v => f.deliver m false v)
        fpAdd f m false a b = out (addV (isRdn m) (f.dec a) (f.dec b)) ∧
        fpSub f m false a b = out (addV (isRdn m) (f.dec a) (negV (f.dec b))) ∧
        fpMul f m false a b = out (mulV (f.dec a) (f.dec b)) ∧
        fpFma f m false false false a b c = out (addV (isRdn m) (mulV (f.dec a) (f.dec b)) (f.dec c))) ∧
      (f.isNan a = true → (fpAdd f m false a b).code = f.quiet a ∧
        ((fpAdd f m false a b).flags = if f.isSnan a || f.isSnan b then fNv else 0)))

/-- FCLS and FSGN raise nothing and write gd (13 R377, R379): the class of the operand as one bit, and the first operand's
magnitude with the second's sign, its opposite, or the two signs' exclusive or. -/
def Obligations.FpClassAndSign : Prop :=
  ∀ (s : State) (d a b : BitVec 5) (op : BitVec 3) (p : BitVec 1), s.performs →
    let f := precFmt p
    let x := fpCode p (s.g a)
    let sy := f.neg (fpCode p (s.g b))
    exec (.fcls d a p) s = .next (s.retireG d (BitVec.ofNat 64 (2 ^ fpClass f x))) ∧
    (op.toNat ≤ 2 →
      exec (.fsgn d a b op p) s = .next (s.retireG d (BitVec.ofNat 64 (f.signed
        (if op = 0 then sy else if op = 1 then !sy else f.neg x != sy) (x % f.signBit)))))

/-! ## Vectors -/

/-- The element-wise operations on integer elements (13 R380 to R383): every element of every active lane of vd takes the
value that the operation gives of the elements at its place, an inactive lane is kept, or cleared with pol = 1; no flag is
raised, and no other register, no memory and no other state changes. -/
def Obligations.VectorIntegerElements : Prop :=
  ∀ (s : State) (vd va vb vc : BitVec 3) (me : BitVec 1) (vm : BitVec 3) (pol : BitVec 1) (ew : BitVec 3) (fn : BitVec 4),
    s.performs → ew.toNat < 4 →
    let n := ewBits ew
    let sg := fun (v : Nat) => if v < 2 ^ (n - 1) then (v : Int) else (v : Int) - (2 ^ n : Nat)
    let un := fn.getLsbD 0
    ∀ q ∈ ([(.vadd vd va vb me vm pol ew fn, fun x y _ => (x + y) % 2 ^ n),
            (.vsub vd va vb me vm pol ew fn, fun x y _ => (x + 2 ^ n - y) % 2 ^ n),
            (.vmul vd va vb me vm pol ew fn, fun x y _ => x * y % 2 ^ n),
            (.vfma vd va vb vc me vm pol ew fn, fun x y z => (x * y + z) % 2 ^ n),
            (.vmin vd va vb me vm pol ew fn, fun x y _ =>
              if un = true then (if x ≤ y then x else y) else (if sg x ≤ sg y then x else y)),
            (.vmax vd va vb me vm pol ew fn, fun x y _ =>
              if un = true then (if x ≤ y then y else x) else (if sg x ≤ sg y then y else x)),
            (.vshf vd va vb me vm pol ew fn, fun x y _ => match fn.toNat with
              | 0 => x * 2 ^ (y % n) % 2 ^ n
              | 1 => x / 2 ^ (y % n)
              | 2 => ((sg x / (2 ^ (y % n) : Nat)) % (2 ^ n : Nat)).toNat
              | _ => (x * 2 ^ (y % n) + x / 2 ^ (n - y % n)) % 2 ^ n),
            (.vcmp vd va vb me vm pol ew fn, fun x y _ => if elemCond fn n x y = true then 2 ^ n - 1 else 0)] :
          List (Instr × (Nat → Nat → Nat → Nat))),
      ∃ t, exec q.1 s = .next t ∧ s.onlyThread t ∧ s.th.onlyVregs t.th [vd.toNat] ∧ t.th.fstat = s.th.fstat ∧
        t.th.pc = s.th.pc + 4 ∧
        ∀ i, i < 8 →
          (s.th.active me vm i = true → ∀ j, j < 64 / n →
            nth 0 (elems n (t.th.lane vd.toNat i)) j =
              q.2 (nth 0 (elems n (s.th.lane va.toNat i)) j) (nth 0 (elems n (s.th.lane vb.toNat i)) j)
                (nth 0 (elems n (s.th.lane vc.toNat i)) j)) ∧
          (s.th.active me vm i = false →
            t.th.lane vd.toNat i = if pol = 1 then 0 else s.th.lane vd.toNat i)

/-- The lane-wise operations, floating-point elements among them (08 R234; 13 R380 to R386, R389, R413): the exceptions of the
active lanes are ORed into FSTAT; where none is enabled the active lanes of vd take their results, an inactive one is kept or
cleared, and the instruction retires; where one is, FP is taken with EVAL naming the exceptions and the lanes that raised an
enabled one, and vd stands.

VRED, VEXT and RNG (13 R385, R389, R412): VRED joins the elements of the active lanes in a balanced tree and writes lane 0,
the other lanes cleared; VEXT writes the element to a general register, sign-extended for an integer code; RNG writes the
active lanes from the generator and raises STREAM_EXHAUSTED, writing nothing, where an active lane's position is the last. -/
def Obligations.VectorLanesAndReductions : Prop :=
  (∀ (s : State) (vd va vb vc sew : BitVec 3) (ga : BitVec 5) (me : BitVec 1) (vm : BitVec 3) (pol : BitVec 1)
      (ew rm : BitVec 3) (fn : BitVec 4) (hi f1 : BitVec 1), s.performs →
      let f := ewFmt ew
      let m := s.th.modeOf (fn.setWidth 3)
      let z := s.th.ftz
      let n := ewBits ew
      let lane := fun (v : BitVec 3) (i : Nat) => s.th.lane v.toNat i
      let per := fun (g : Nat → Word × Nat) => (List.range 8).map g
      let ew3 := fun (g : Nat → Nat → Nat → FRes) => s.elemwise n g va vb vc
      let act := s.th.activeLanes me vm
      ∀ q ∈ ([(ew.toNat ≥ 4, .vadd vd va vb me vm pol ew fn, s.elemwise n (fun x y _ => fpAdd f m z x y) va vb 0),
              (ew.toNat ≥ 4, .vsub vd va vb me vm pol ew fn, s.elemwise n (fun x y _ => fpSub f m z x y) va vb 0),
              (ew.toNat ≥ 4, .vmul vd va vb me vm pol ew fn, s.elemwise n (fun x y _ => fpMul f m z x y) va vb 0),
              (ew.toNat ≥ 4, .vfma vd va vb vc me vm pol ew fn, ew3 (fpFma f m z false false)),
              (True, .vdiv vd va vb me vm pol ew fn, s.elemwise n (fun x y _ => fpDiv f m z x y) va vb 0),
              (ew.toNat ≥ 4, .vmin vd va vb me vm pol ew fn, s.elemwise n (fun x y _ => fpMinMax f false z x y) va vb 0),
              (ew.toNat ≥ 4, .vmax vd va vb me vm pol ew fn, s.elemwise n (fun x y _ => fpMinMax f true z x y) va vb 0),
              (fn.toNat ≤ 4, .vlog vd va vb me vm pol fn, per (fun i =>
                (if fn = 0 then lane va i &&& lane vb i else if fn = 1 then lane va i ||| lane vb i
                 else if fn = 2 then lane va i ^^^ lane vb i else if fn = 3 then lane va i &&& ~~~(lane vb i)
                 else ~~~(lane va i), 0))),
              (ew.toNat ≥ 4, .vcmp vd va vb me vm pol ew fn, s.elemwise n (fun x y _ =>
                { code := if (fpCond f z fn.toNat x y).1 = true then 2 ^ n - 1 else 0,
                  flags := (fpCond f z fn.toNat x y).2 }) va vb 0),
              (True, .vsel vd va vb vc me vm pol, per (fun i =>
                (if (lane vc i).toNat % 2 = 1 then lane va i else lane vb i, 0))),
              (True, .vprm vd va vb vc me vm pol f1, per (fun i =>
                let k := (lane vb i).toNat
                (if f1 = 0 then lane va (k % 8) else if k % 16 < 8 then lane va (k % 16) else lane vc (k % 16 - 8), 0))),
              (True, .vbrd vd ga me vm pol ew,
                List.replicate 8 (laneOf n (List.replicate (64 / n) ((s.g ga).toNat % 2 ^ n)), 0)),
              (True, .vcvt vd va vb sew me vm pol ew hi rm, per (fun i =>
                cvtLane sew ew (hi == 1)
                  (fun j => if rm = 4 then .sr ((lane vb i).toNat / 2 ^ (32 * j) % 2 ^ 32) else s.th.modeOf rm) z
                  (lane va i) (lane vd i))),
              (True, .gmb vd va vb vc me vm pol fn, per (s.gmbLane fn vd va vb vc))] :
            List (Prop × Instr × List (Word × Nat))),
        q.1 →
        let fl := orAll (act.map (fun i => (nth (0, 0) q.2.2 i).2))
        let s1 := s.setTh { s.th with fstat := s.th.fstat ||| BitVec.ofNat 64 fl }
        (Nat.land fl (bits s.th.fctl.toNat 12 8) = 0 →
          exec q.2.1 s = .next ((s1.setTh (s1.th.writeLanes vd me vm pol (q.2.2.map (·.1)))).retire)) ∧
        (Nat.land fl (bits s.th.fctl.toNat 12 8) ≠ 0 →
          exec q.2.1 s = .next (s1.trap 0x0B (fpEval fl (s.trapLanes act q.2.2))))) ∧
  (∀ (s : State) (vd va vb vc : BitVec 3) (ga : BitVec 5) (me : BitVec 1) (vm : BitVec 3) (pol : BitVec 1) (ew : BitVec 3)
      (fn : BitVec 4) (lane j : BitVec 3), s.performs →
      (let t := treeReduce (redJoin s.th ew fn.toNat) { code := 0, lanes := 0, flags := 0, bad := 0 }
          (Nat.log2 (512 / ewBits ew)) (s.th.redLeaves va me vm ew fn.toNat);
        let s1 := s.setTh { s.th with fstat := s.th.fstat ||| BitVec.ofNat 64 t.flags };
        (s.th.fpTraps t.flags = false →
          exec (.vred vd va me vm ew fn) s =
            .next ((s1.setTh (s1.th.setVreg vd.toNat (BitVec.ofNat 64 t.code :: List.replicate 7 0))).retire)) ∧
        (s.th.fpTraps t.flags = true →
          exec (.vred vd va me vm ew fn) s = .next (s1.trap 0x0B (fpEval t.flags t.bad)))) ∧
      (let e := (s.th.lane vd.toNat lane.toNat).toNat / 2 ^ (ewBits ew * j.toNat) % 2 ^ ewBits ew;
        j.toNat < 64 / ewBits ew →
        exec (.vext vd ga lane ew j) s =
          .next (s.retireG ga (if ew.toNat < 4 then (BitVec.ofNat (ewBits ew) e).signExtend 64 else BitVec.ofNat 64 e))) ∧
      (let last := fun (i : Nat) => (s.th.lane vb.toNat i).toNat % 2 ^ 40 = 2 ^ 40 - 1;
        ((∀ i ∈ s.th.activeLanes me vm, ¬ last i) →
          exec (.rng vd va vb vc me vm pol ew) s =
            .next ((s.setTh (s.th.writeLanes vd me vm pol
              ((List.range 8).map (s.rngLaneValue (ew == 3) va vb vc)))).retire)) ∧
        ((∃ i ∈ s.th.activeLanes me vm, last i) →
          exec (.rng vd va vb vc me vm pol ew) s = .next (s.trapFree 0x0C))))

/-! ## Loads and stores -/

/-- LD, LDX and LDC complete (06 R151; 11 R313, R316, R317; 12 R353 to R356): where the parts of the access translate with
read permission, are storage, and are read (from the store buffer, the remote line cache or their homes; an `.acq` form of die
scope or wider first waits for a buffered store that it meets), gd takes the bytes, the first the least significant, extended
as the width says, after the acquire of an `.acq` form. An aligned doubleword of a readable register is read likewise, once
the store buffer is empty, with the acquire of an `.acq` form.

A plain load of bytes of one home that is not far returns what memory holds there (07 R181 to R183; 12 R355): the store buffer
covers none of them and the home accepts the read. Only gd, the pc, the count and the two notes for scope widening change; all
memory stands. -/
def Obligations.LoadsReadMemory : Prop :=
  (∀ (s : State) (d base idx : BitVec 5) (ord sc : BitVec 2) (off : BitVec 9) (wc : BitVec 3), s.performs → wc ≠ 7 →
      let n := 2 ^ (wc.toNat % 4)
      let ea := s.g base + off.signExtend 64 * BitVec.ofNat 64 n
      let ex := s.g base + s.g idx * BitVec.ofNat 64 (2 ^ sc.toNat)
      ∀ q ∈ ([(.ld d base ord off wc, 0x30, ea, ord == 2, false), (.ldx d base idx wc ord sc, 0x32, ex, ord == 2, false),
              (.ldc d base ord off wc, 0x34, ea, ord == 2, true)] : List (Instr × Nat × Word × Bool × Bool)),
        ∀ (ps : List Part), s.xparts q.2.1 q.2.2.1.toNat n needRd = .ok ps →
          (∀ (b : List Byte) (s1 : State), s.storageCheck q.2.2.1 n ps = .ok false →
            (q.2.2.2.1 = true → s.acqWaits ps = false) →
            s.loadAll q.2.1 q.2.2.1 ps (q.2.2.2.2 || (q.2.2.2.1 && (s.acqEff ps).atLeast .die)) = .ok (b, s1) →
            exec q.1 s = .next ((if q.2.2.2.1 = true then s1.acquire (s.acqEff ps) else s1).retireG d
              (if 4 ≤ wc.toNat then BitVec.ofNat 64 (natOf b) else (BitVec.ofNat (8 * n) (natOf b)).signExtend 64))) ∧
          (∀ (v : Word) (p : Part) (rest : List Part), ps = p :: rest → s.storageCheck q.2.2.1 n ps = .ok true →
            s.th.sb = [] → s.mmioRead s.who p.pa = some v →
            exec q.1 s = .next ((if q.2.2.2.1 = true then (s.noteAccess p.pa).acquire (s.partsAcq ps)
              else s.noteAccess p.pa).retireG d (loadValue wc (wordBytes v))))) ∧
  (∀ (s : State) (d base : BitVec 5) (off : BitVec 9) (wc : BitVec 3) (a : Nat) (l : Leaf), s.performs → wc ≠ 7 →
      let n := 2 ^ (wc.toNat % 4)
      let ea := s.g base + off.signExtend 64 * BitVec.ofNat 64 n
      ea.toNat % 256 + n ≤ 256 → s.xlate s.cur ea.toNat needRd = .pa a l →
      (∀ k, k < n → spaceOf (a + k) ≠ .mmio ∧ spaceOf (a + k) ≠ .hole) → isView a = false →
      coverOf s.th.sb [{ va := ea.toNat, pa := a, len := n, leaf := l }] = .none →
      s.isFar (coreOf s.cur) a = false → (s.core (coreOf s.cur)).line (a / 128) = none → s.readAns a n s.th.job = .ok →
      ∃ t, exec (.ld d base 0 off wc) s = .next t ∧ s.onlyThread t ∧
        t.g d = (if d = 0 then 0 else if 4 ≤ wc.toNat then BitVec.ofNat 64 (natOf (s.bytes a n))
          else (BitVec.ofNat (8 * n) (natOf (s.bytes a n))).signExtend 64) ∧
        (∀ r, r ≠ d → t.g r = s.g r) ∧
        t.th = { s.th with g := t.th.g, pc := s.th.pc + 4, park := .running, qcount := s.th.qcount + 1,
                           far := t.th.far, readScope := t.th.readScope })

/-- ST and STX complete (07 R181, R186; 12 R337, R338, R353 to R355): where the parts translate with write permission and are
storage of no latched vintage copy, and the buffer has room, the low bytes of gs enter the store buffer as its youngest entry
and the instruction retires; a `.rel` form does its release first. Memory stands until the entry drains. -/
def Obligations.StoresEnterTheBuffer : Prop :=
  ∀ (s s1 : State) (src base idx : BitVec 5) (ord sc : BitVec 2) (off : BitVec 9) (wc : BitVec 3) (ps : List Part),
    s.performs → wc.toNat ≤ 3 →
    let n := 2 ^ wc.toNat
    let ea := s.g base + off.signExtend 64 * BitVec.ofNat 64 n
    let ex := s.g base + s.g idx * BitVec.ofNat 64 (2 ^ sc.toNat)
    ∀ q ∈ ([(.st src base ord off wc, 0x31, ea), (.stx src base idx wc ord sc, 0x33, ex)] : List (Instr × Nat × Word)),
      s.xparts q.2.1 q.2.2.toNat n needWr = .ok ps → s.storageCheck q.2.2 n ps = .ok false → s.storeLatched ps = false →
      (if ord = 1 then s.beforeRelease q.2.1 (s.th.effRelease (s.partsScope ps)) = .ok s1 else s1 = s) →
      s1.th.sb.length < 16 → s1.cur = s.cur →
      ∃ t, exec q.1 s = .next t ∧ s1.onlyThread t ∧
        t.th = { s1.th with
          sb := s1.th.sb ++ [{ parts := cutParts ps (bytesOf n (s.g src).toNat), tag := s1.plainTag.tag,
                               rel := ord == 1 }],
          digest := digestStore s1.th.digest q.2.2 (bytesOf n (s.g src).toNat),
          pc := s1.th.pc + 4, park := .running, qcount := s1.th.qcount + 1, far := t.th.far }

/-- STORE_BUFFER_DRAIN (07 R181; 12 R358): the oldest entry of a thread's buffer, one part to a home that is not far and that
accepts it, leaves the buffer and its bytes stand at the entry's address; every other byte of memory and every other thread
stand.

The other events of the memory path. RLC_EVICTION writes the dirty words of a line through to their homes, each that its home
accepts, writes no other byte, and drops the line (06 R149). PAGE_WALK serves the first walk that meets no migrating page
together with every walk of the same page, each filling the TLBs or raising XLATE (06 R144, R146). MOVED_REISSUE translates a
thread's buffered stores again and changes nothing else (06 R156). PRF never faults and always retires; while the cache has
room it leaves memory, fills at most one line of the issuing core and changes nothing else (12 R357). -/
def Obligations.MemoryPathEvents : Prop :=
  (∀ (s : State) (p : SbPart) (tag : Scope) (rel : Bool) (rest : List SbEntry),
      let n := s.arg.n
      (s.thread n).sb = { parts := [p], tag := tag, rel := rel } :: rest →
      (∀ q ∈ s.parts, q.2.heldStores.contains n = false) → s.writeAns p.pa p.data.length (s.thread n).job = .ok →
      isView p.pa = false → (s.isFar (coreOf n) p.pa = false ∨ rel = true) →
      ∃ t, exec .storeBufferDrain s = .next t ∧ t.bytes p.pa p.data.length = p.data ∧
        s.sameBytesBut t p.pa p.data.length ∧ t.thread n = { s.thread n with sb := rest } ∧
        (∀ u, u ≠ n → t.thread u = s.thread u)) ∧
  (∀ (s : State),
      (∃ t, exec .rlcEviction s = .next t ∧ (t.core s.arg.n).line s.arg.m = none ∧
        ((s.core s.arg.n).line s.arg.m = none → s.sameBytes t) ∧
        ∀ l, (s.core s.arg.n).line s.arg.m = some l →
          (∀ i, i < 16 → l.dirty.getLsbD i = true →
            s.writeAns (s.arg.m * 128 + i * 8) 8 (s.thread ((Store.get none i l.who).getD (0, 0, WTag.init)).1).job = .ok →
            t.bytes (s.arg.m * 128 + i * 8) 8 = l.word i) ∧
          (∀ a, (∀ i, i < 16 → l.dirty.getLsbD i = true → a < s.arg.m * 128 + i * 8 ∨ s.arg.m * 128 + i * 8 + 8 ≤ a) →
            t.byte a = s.byte a)) ∧
      (∀ q, (s.walkQueue s.arg.n).find? s.walkReady = some q →
        let same := fun (r : WalkReq) => r.job == q.job && decide (r.va.toNat / 4096 = q.va.toNat / 4096)
        exec .pageWalk s = .next (((s.walkQueue s.arg.n).filter same).foldl
          (fun z r => z.walkDone r (s.walk q.job q.va.toNat))
          { s with walks := Store.put [] s.arg.n ((s.walkQueue s.arg.n).filter (fun r => !same r)) s.walks })) ∧
      (∃ t, exec .movedReissue s = .next t ∧ t = { s with threads := t.threads } ∧
        (∀ u, u ≠ s.arg.n → t.thread u = s.thread u) ∧
        t.thread s.arg.n = { s.thread s.arg.n with sb := (t.thread s.arg.n).sb } ∧
        (t.thread s.arg.n).sb.map (fun e => (e.tag, e.rel, e.parts.map (fun p => (p.va, p.data)))) =
          (s.thread s.arg.n).sb.map (fun e => (e.tag, e.rel, e.parts.map (fun p => (p.va, p.data))))) ∧
      (∀ (base : BitVec 5) (off : BitVec 9), s.performs → (s.core (coreOf s.cur)).rlc.length < 256 →
        ∃ t, exec (.prf base off) s = .next t ∧ t.th = s.th.go (s.th.pc + 4) 1 ∧
          t = { s with threads := t.threads, cores := t.cores } ∧ (∀ u, u ≠ s.cur → t.thread u = s.thread u) ∧
          (∀ c, c ≠ coreOf s.cur → t.core c = s.core c) ∧
          (t.core (coreOf s.cur) = s.core (coreOf s.cur) ∨
            ∃ l, t.core (coreOf s.cur) = (s.core (coreOf s.cur)).putLine l)))

/-- VLD, VST, VGTH and VSCT complete (13 R387, R388): every active lane's address is checked before any lane is performed; a
load then gives each active lane its 8 bytes, a store enters the buffer as one entry, and one without an active lane stores
nothing. A lane of a gather or scatter that names a register is performed there, once the store buffer is empty, in ascending
order (06 R139). -/
def Obligations.VectorMemoryAccesses : Prop :=
  ∀ (s s1 s2 : State) (vd vc : BitVec 3) (ga : BitVec 5) (me : BitVec 1) (vm : BitVec 3) (pol : BitVec 1)
    (ord sc : BitVec 2) (ls : List (Nat × List Part)) (l : List (Nat × Word)), s.performs →
    let row := fun (i : Nat) => s.g ga + BitVec.ofNat 64 (8 * i)
    let idx := fun (i : Nat) => s.g ga + (s.th.lane vc.toNat i) <<< sc.toNat
    let act := s.th.activeLanes me vm
    (s.allLanes 0x5D needRd true row act = .ok ls → s.halfCovered (ls.flatMap (·.2)) = false →
      (ord = 2 → s.acqWaits (ls.flatMap (·.2)) = false) →
      s.readLanes 0x5D row (ord == 2 && (s.partsAcq (ls.flatMap (·.2))).atLeast .die) ls = .ok (l, s1) →
      s2 = (if ord = 2 then s1.acquire (Scope.max (s.partsAcq (ls.flatMap (·.2))) (sbTag s.th.sb (ls.flatMap (·.2))))
        else s1) →
      exec (.vld vd ga me vm pol ord) s = .next ((s2.setTh (s2.th.loadLanes vd me vm pol l)).retire)) ∧
    (s.allLanes 0x5F needRd false idx act = .ok ls → (∀ q ∈ ls, s.halfCovered q.2 = false) →
      (s.th.sb = [] ∨ ∀ q ∈ ls, mmioLane q = false) →
      s.readLanes 0x5F idx false ls = .ok (l, s1) →
      exec (.vgth vd ga vc me vm pol sc) s = .next ((s1.setTh (s1.th.loadLanes vd me vm pol l)).retire)) ∧
    (s.allLanes 0x5E needWr true row act = .ok ls →
      (if ord = 1 then s.beforeRelease 0x5E (s.th.effRelease (s.partsScope (ls.flatMap (·.2)))) = .ok s1 else s1 = s) →
      (if ls = [] then s2 = s1 else s1.enterStore 0x5E (mergeParts (s1.th.laneStores vd ls)) (ord == 1) true = .ok s2) →
      exec (.vst vd ga me vm pol ord) s = .next ((s2.digestLanes vd row ls).retire)) ∧
    (s.allLanes 0x60 needWr false idx act = .ok ls → (s.th.sb = [] ∨ ∀ q ∈ ls, mmioLane q = false) →
      (if ls.filter (fun q => !mmioLane q) = [] then s2 = s
        else s.enterStore 0x60 (s.th.laneStores vd (ls.filter (fun q => !mmioLane q))) false = .ok s2) →
      exec (.vsct vd ga vc me vm pol sc) s = .next (((s2.putLanes vd ls).digestLanes vd idx ls).retire))

/-! ## Gated requests -/

/-- The gated instructions in free mode (07 R203, R204; 12 R359 to R363; 13 R415, R416): once their checks and waits are done,
the request is served at its gate at once and the gate is offered to the requests that wait there; LDF and LDP of an empty
word, and STE of a full one, park at the gate. GATED_REQUEST_SERVICE serves the first request that its gate can serve.

AMO and CAS at their home (12 R361 to R363): a home that accepts both the read and the write replaces the value by the
operation's, modulo the width, and gd takes the old value, sign-extended for `.w`; a CAS that finds another value writes
nothing. Of an address in the full/empty view the value is the word's bit, which bit 0 of the new value becomes, and no byte
of memory changes (06 R148). Relaxed forms, shown here, order nothing else; every other byte stands.

LDF, LDP, STE, STF and FEC at the word's home (07 R191; 12 R359, R360): LDF takes the word of a full bit and empties it, LDP
leaves it full; STE writes where it is empty and fills it, STF writes in any case; FEC empties it. A request that may not
proceed yet is not served. -/
def Obligations.GatedRequestsAtTheirHome : Prop :=
  (∀ (s r1 t : State) (d a b c base : BitVec 5) (off : BitVec 9) (w : BitVec 1) (ord : BitVec 2) (fn : BitVec 4) (pa : Nat),
      s.performs → (s.job s.th.job).gmode = 0 →
      let va := s.g base + off.signExtend 64 * 8
      let sz := if w = 1 then 8 else 4
      (s.atomicStart 0x3B (s.g a) sz (ord == 1) = .ok (pa, r1) → r1.th.job = s.th.job → r1.jobs = s.jobs →
        exec (.amo d a b w ord fn) s = .next (((r1.evictFor pa).serveAmo pa (s.g a) sz fn.toNat (s.g b) (ord == 1)
          d.toNat).gateServed s.th.job (homeOf s.iltab pa) r1.th.tid.toNat |>.nudge (homeOf s.iltab pa))) ∧
      (s.atomicStart 0x3C (s.g a) sz (ord == 1) = .ok (pa, r1) → r1.th.job = s.th.job → r1.jobs = s.jobs →
        exec (.cas d a b c w ord) s = .next (((r1.evictFor pa).serveCas pa (s.g a) sz (s.g b) (s.g c) (ord == 1)
          d.toNat).gateServed s.th.job (homeOf s.iltab pa) r1.th.tid.toNat |>.nudge (homeOf s.iltab pa))) ∧
      (∀ e ∈ ([(.ldf d base off, 0x36, needRw, true), (.ldp d base off, 0x38, needRd, false)] :
          List (Instr × Nat × Need × Bool)),
        s.feCheck e.2.1 va e.2.2.1 = .ok pa → s.sbClear e.2.1 pa 8 = .ok () →
        (s.serveTake pa d.toNat e.2.2.2 = some t →
          exec e.1 s = .next ((t.gateServed s.th.job (homeOf s.iltab pa) s.th.tid.toNat).nudge (homeOf s.iltab pa))) ∧
        (s.wordFull pa = false → ∃ u, exec e.1 s = .next u ∧ u.th.park = .gate (homeOf s.iltab pa) ∧
          u.th.gr d.toNat = s.th.gr d.toNat ∧ s.sameBytes u)) ∧
      (∀ e ∈ ([(.ste d base off, 0x37, true), (.stf d base off, 0x39, false)] : List (Instr × Nat × Bool)),
        s.feCheck e.2.1 va needWr = .ok pa → s.readyRelease e.2.1 (s.th.effRelease (s.naturalScope pa)) = .ok r1 →
        r1.th.job = s.th.job → r1.jobs = s.jobs →
        (r1.servePut pa va (s.g d) e.2.2 = some t →
          exec e.1 s = .next ((t.gateServed s.th.job (homeOf s.iltab pa) r1.th.tid.toNat).nudge (homeOf s.iltab pa))) ∧
        (e.2.2 = true → r1.wordFull pa = true → ∃ u, exec e.1 s = .next u ∧ u.th.park = .gate (homeOf s.iltab pa) ∧
          u.wordFull pa = true ∧ (∀ k, u.th.gr k = r1.th.gr k) ∧ r1.sameBytes u)) ∧
      (s.feCheck 0x3A va needWr = .ok pa →
        exec (.fec base off) s =
          .next (((s.serveClear pa).gateServed s.th.job (homeOf s.iltab pa) s.th.tid.toNat).nudge (homeOf s.iltab pa))) ∧
      exec (.alc d a) s = .next (((s.serveAlc (s.g a) d.toNat).gateServed s.th.job 2560 s.th.tid.toNat).nudge 2560) ∧
      exec (.fre a) s = .next (((s.serveFre (s.g a)).gateServed s.th.job 2560 s.th.tid.toNat).nudge 2560) ∧
      (∀ q rest, s.gateQueue.filter (fun r => r.gate == s.arg.n) = q :: rest → q.held = false →
        (s.job q.job).gmode = 0 → s.serveReq q = some t → exec .gatedRequestService s = .next (t.nudge s.arg.n))) ∧
  (∀ (s : State) (pa size fn d : Nat) (va operand new : Word), (size = 4 ∨ size = 8) → fn ≤ 8 →
      (isView pa = true → pa % size = 0) → s.readAns pa size s.th.job = .ok → s.writeAns pa size s.th.job = .ok →
      let old := if isView pa = true then (if pa % 8 = 0 ∧ s.wordFull pa = true then 1 else 0) else natOf (s.bytes pa size)
      let put := fun (v : Nat) (t : State) =>
        (isView pa = false → natOf (t.bytes pa size) = v ∧ s.sameBytesBut t pa size) ∧
        (isView pa = true → s.sameBytes t ∧ t.wordFull pa = if pa % 8 = 0 then decide (v % 2 = 1) else s.wordFull pa)
      let w := 8 * size
      let b := operand.toNat % 2 ^ w
      let sg := fun (v : Nat) => if v < 2 ^ (w - 1) then (v : Int) else (v : Int) - (2 ^ w : Nat)
      let reg := (BitVec.ofNat w old).signExtend 64
      (let t := s.serveAmo pa va size fn operand true d;
        put (match fn with
          | 0 => (old + b) % 2 ^ w | 1 => old &&& b | 2 => old ||| b | 3 => old ^^^ b
          | 4 => if sg old ≤ sg b then old else b | 5 => if sg old ≤ sg b then b else old
          | 6 => Nat.min old b | 7 => Nat.max old b | _ => b) t ∧ t.th.pc = s.th.pc + 4 ∧ (∀ r, t.th.gr r = if r = d ∧ r ≠ 0 then reg else s.th.gr r)) ∧
      (let t := s.serveCas pa va size operand new true d;
        (old = b → put (new.toNat % 2 ^ w) t) ∧ (old ≠ b → s.sameBytes t ∧ t.wordFull pa = s.wordFull pa) ∧ t.th.pc = s.th.pc + 4 ∧ (∀ r, t.th.gr r = if r = d ∧ r ≠ 0 then reg else s.th.gr r))) ∧
  (∀ (s : State) (pa d : Nat) (va v : Word) (e : Bool),
      (s.wordFull pa = false → s.serveTake pa d e = none) ∧
      (s.wordFull pa = true → s.hasUe pa 8 = false → s.acqScope (s.naturalScope pa) pa 8 = .core →
        ∃ t, s.serveTake pa d e = some t ∧ t.wordFull pa = !e ∧ s.sameBytes t ∧ t.th.pc = s.th.pc + 4 ∧
          (∀ r, t.th.gr r = if r = d ∧ r ≠ 0 then wordOf (s.bytes pa 8) else s.th.gr r)) ∧
      (s.wordFull pa = true → s.servePut pa va v true = none) ∧
      (e = false ∨ s.wordFull pa = false → s.th.effRelease (s.naturalScope pa) = .core →
        ∃ t, s.servePut pa va v e = some t ∧ t.wordFull pa = true ∧ t.bytes pa 8 = wordBytes v ∧ s.sameBytesBut t pa 8 ∧
          t.th.pc = s.th.pc + 4 ∧ (∀ r, t.th.gr r = s.th.gr r)) ∧
      (let t := s.serveClear pa
       t.wordFull pa = false ∧ s.sameBytes t ∧ t.th.pc = s.th.pc + 4 ∧ (∀ r, t.th.gr r = s.th.gr r)))

/-! ## Atomic regions and fences -/

/-- Recording (12 R365): ARB captures its address and starts recording; while a thread records, every instruction of opcodes
0x01 to 0x26, SK and SKI is recorded without effect, an ARL or ARS through the region's register within its line is recorded,
and every other instruction but ARC, or one beyond the limits, raises REGION_ABORT with EVAL the address of the ARB. Outside a
region ARL, ARS and ARC raise REGION_ABORT with EVAL 0.

ARC ships the region to its line's home (12 R366, R367): once its line translates with the permissions that it needs and its
release is done, the region is performed there in one request, as all of its stores or none; a region with a skip that reaches
the ARC raises REGION_ABORT. The recorded instructions run on a copy of the registers and of the line: an ARL reads the line,
an ARS writes into it, SK and SKI annul the next n instructions where their condition holds, and an annulled instruction does
nothing. Where the copy of ARC's abandon register is 0, the line takes the bytes that the region stored, every other byte of
memory stands, gd takes status 0, every other register takes its value from the copy, the stores enter DIGEST in program
order, and the region's instructions retire together. Where it is not, the region is abandoned: no byte and no register but
gd, which takes 1, is written. -/
def Obligations.AtomicRegions : Prop :=
  (∀ (s : State) (d a base : BitVec 5) (off : BitVec 9) (wc : BitVec 3),
      let n := 2 ^ (wc.toNat % 4)
      (s.performs → exec (.arb a) s = .next (s.setTh { s.th with
          region := some { pc := s.th.pc, base := a.toNat, addr := s.g a, body := [], accesses := 0 },
          pc := s.th.pc + 4, park := .running })) ∧
      (∀ r, s.th.region = some r →
        let va := r.addr + off.signExtend 64 * BitVec.ofNat 64 n
        let more := fun (i : Instr) (k : Nat) => s.setTh { s.th with
          region := some { r with body := r.body ++ [i], accesses := r.accesses + k }, pc := s.th.pc + 4 }
        (∀ (i : Instr) (w : BitVec 32), i.isNewt = true → encode i = .w32 w →
          let op := (w.extractLsb' 24 8).toNat
          (op ≤ 0x28 → r.body.length < 24 → exec i s = .next (more i 0)) ∧
          (op ≤ 0x28 → 24 ≤ r.body.length → exec i s = .next (s.trap 0x0A r.pc)) ∧
          (0x28 < op → op ≠ 0x3E → op ≠ 0x3F → op ≠ 0x40 → exec i s = .next (s.trap 0x0A r.pc))) ∧
        (∀ i ∈ ([.arl d base off wc, .ars d base off wc] : List Instr),
          (base.toNat = r.base → r.body.length < 24 → r.accesses < 8 → va.toNat % n = 0 → va.toNat / 128 = r.addr.toNat / 128 →
            exec i s = .next (more i 1)) ∧
          (base.toNat ≠ r.base ∨ 24 ≤ r.body.length ∨ 8 ≤ r.accesses → exec i s = .next (s.trap 0x0A r.pc)) ∧
          (base.toNat = r.base → r.body.length < 24 → r.accesses < 8 →
            (va.toNat % n ≠ 0 ∨ va.toNat / 128 ≠ r.addr.toNat / 128) → exec i s = .next (s.trap 0x03 va)))) ∧
      (s.performs → ∀ i ∈ ([.arl d base off wc, .ars d base off wc, .arc d a] : List Instr),
        exec i s = .next (s.trap 0x0A 0))) ∧
  ((∀ (q : RegRun) (r : Region) (i : Instr), q.skip ≠ 0 → q.stepOne r i = { q with skip := q.skip - 1 }) ∧
    (∀ (q : RegRun) (r : Region) (c : BitVec 4) (n : BitVec 2) (d a b base : BitVec 5) (imm : BitVec 13) (off : BitVec 9)
        (wc : BitVec 3), q.skip = 0 →
      let o := r.offset off wc
      let k := wcSize wc
      q.stepOne r (.sk c n a b) =
        { q with skip := if skipCond c (q.x.gr a.toNat) (q.x.gr b.toNat) = true then n.toNat else 0, ran := q.ran + 1 } ∧
      q.stepOne r (.ski c n a imm) =
        { q with skip := if skipCond c (q.x.gr a.toNat) (imm.signExtend 64) = true then n.toNat else 0, ran := q.ran + 1 } ∧
      q.stepOne r (.add d a b) =
        { q with x := q.x.setGr d.toNat (q.x.gr a.toNat + q.x.gr b.toNat), skip := 0, ran := q.ran + 1 } ∧
      q.stepOne r (.arl d base off wc) =
        { q with x := q.x.setGr d.toNat (loadValue wc ((q.line.drop o).take k)), reads := q.reads ++ [(o, k)], ran := q.ran + 1 } ∧
      q.stepOne r (.ars d base off wc) =
        (let v := storeBytes (q.x.gr d.toNat) k
         { q with line := q.line.take o ++ v ++ q.line.drop (o + v.length), stores := q.stores ++ [(o, v)], ran := q.ran + 1 })) ∧
    ∀ (s s1 : State) (d a : BitVec 5) (r : Region) (p : Part), s.th.region = some r →
      (r.skipsOut = true → exec (.arc d a) s = .next (s.trap 0x0A r.pc)) ∧
      (r.skipsOut = false → (s.job s.th.job).gmode = 0 →
        s.xpart 0x40 (r.addr.toNat / 128 * 128) 128 (if r.body.any isArs then needRw else needRd) = .ok p →
        noStorage p.pa = false → s.readyRelease 0x40 (s.th.effRelease (s.naturalScope p.pa)) = .ok s1 →
        s1.th.job = s.th.job → s1.jobs = s.jobs →
        exec (.arc d a) s = .next (((((s1.noteLatch p.pa).evictFor p.pa).serveRegion p.pa
          (BitVec.ofNat 64 (r.addr.toNat / 128 * 128)) d.toNat a.toNat).gateServed s.th.job (homeOf s.iltab p.pa)
            s1.th.tid.toNat).nudge (homeOf s.iltab p.pa))) ∧
      (let base := p.pa / 128 * 128;
        let q := r.run s.th (s.homeBytes base 128);
        let t := s.serveRegion p.pa 0 d.toNat a.toNat;
        let ended := t.th.region = none ∧ t.th.pc = s.th.pc + 4 ∧ t.th.park = .running ∧ t.th.qcount = s.th.qcount + (q.ran + 2);
        s.hasUe base 128 = false →
        (q.x.gr a.toNat ≠ 0 → s.regionAns base q true = .ok →
          s.sameBytes t ∧ ended ∧ t.th.digest = s.th.digest ∧
            (∀ k, t.th.gr k = if k = d.toNat ∧ k ≠ 0 then 1 else s.th.gr k)) ∧
        (q.x.gr a.toNat = 0 → s.regionAns base q false = .ok → (∀ x ∈ (s.core (coreOf s.cur)).rlc, x.dirty = 0) →
          ended ∧ (∀ k, t.th.gr k = if k = d.toNat ∧ k ≠ 0 then 0 else q.x.gr k) ∧
          t.th.digest = q.stores.foldl (fun g x => digestStore g (r.addr / 128 * 128 + BitVec.ofNat 64 x.1) x.2) s.th.digest ∧
          s.sameBytesBut t base 128 ∧
          (isView base = false → ∀ o, o < 128 →
            t.byte (base + o) = if q.writes o = true then nth 0 q.line o else s.byte (base + o)) ∧
          (isView base = true → s.sameBytes t ∧ ∀ i, i < 16 →
            t.wordFull (base + 8 * i) = if q.writes (8 * i) = true then (nth 0 q.line (8 * i)).getLsbD 0
              else s.wordFull (base + 8 * i)))))

/-- FENCE and BFENCE complete (06 R174, R175; 07 R186, R187, R189; 12 R368 to R370): with an empty store buffer, no remote
operation outstanding where the effective scope is pkg or wider and no deferred cause due, FENCE releases, acquires, forgets
the widening read so far and retires; BFENCE, with none left of the commands that the banks it names held at its issue and no
error of the thread there, acquires at pkg and retires. A FENCE with buffered stores waits. -/
def Obligations.FencesComplete : Prop :=
  ∀ (s : State) (a : BitVec 5) (sc : BitVec 3), s.performs →
    let e := Scope.max (s.th.effRelease (scopeOfCode sc.toNat)) s.th.readScope
    let w := s.writeThrough e
    (s.th.sb = [] → (e.atLeast .pkg = true → s.outstanding = 0) → w.takeDeferred (e.atLeast .pkg) = none →
      exec (.fence sc) s =
        .next ((((w.release e).acquire e).setTh { ((w.release e).acquire e).th with readScope := .core }).retire)) ∧
    (s.th.sb ≠ [] → exec (.fence sc) s = .next (s.setTh { s.th with park := .retry 0x41 })) ∧
    (∀ pa, s.fencePa a sc = .ok pa →
      (match s.th.park with
        | .bank _ left => ∀ e ∈ left, e.2 = 0
        | _ => ∀ q ∈ s.banks, s.fenceHas sc pa q.1 = true → q.2.fifo = []) →
      (∀ q ∈ s.banks, s.fenceHas sc pa q.1 = true → Store.get none (threadKey s.th.job s.th.tid) q.2.pend = none) →
      exec (.bfence a sc) s = .next ((s.acquire .pkg).retire))

/-! ## System registers, time and translation -/

/-- SYR, SYW, TIME and TIME.rot (10 R274, R280; 13 R419, R422): each system register reads as the table says; a write by a
level that may not make it raises PRIV; an allowed one changes that register alone, in the bits it keeps, SEED being the
job's. -/
def Obligations.SystemRegisters : Prop :=
  ∀ (s : State) (d a : BitVec 5), s.performs →
    let x := s.th
    let j := s.job x.job
    let flag := fun (b : Bool) (k : Nat) => if b = true then 2 ^ k else 0
    (∀ q ∈ ([(0, x.tid.setWidth 64), (1, BitVec.ofNat 64 (s.cur / 16)), (2, BitVec.ofNat 64 (s.cur % 16)),
             (3, BitVec.ofNat 64 j.asid), (4, x.seed), (5, x.wsp), (6, x.tvec), (7, x.epc), (8, x.ecause &&& 0xFF),
             (9, x.eval), (10, x.fstat), (11, x.fctl), (13, BitVec.ofNat 64 (j.gmode % 4)), (14, x.digest),
             (15, s.pkg.clock.ptime),
             (16, BitVec.ofNat 64 (flag x.rpe 0 + flag x.wpe 1 + flag x.vpe 2 + flag x.intrap 3 + x.wkind.toNat * 2 ^ 4 +
               x.nspill.toNat * 2 ^ 16))] : List (BitVec 14 × Word)),
      exec (.syr d q.1) s = .next (s.retireG d q.2)) ∧
    exec (.syr d 12) s = .next (s.retireG d
      (if j.gmode = 2 then BitVec.ofNat 64 (j.qlog2 + (x.qnum % 2 ^ 56) * 2 ^ 8) else 0)) ∧
    exec (.time d) s = .next (s.retireG d s.pkg.clock.ptime) ∧
    exec (.timeRot d) s = .next (s.retireG d (BitVec.ofNat 64 (s.cyc - s.powerUp))) ∧
    (let v := s.g a
     ∀ q ∈ ([(5, { x with wsp := v }), (6, { x with tvec := v }), (7, { x with epc := v }),
             (8, { x with ecause := v &&& 0xFF }), (9, { x with eval := v }), (10, { x with fstat := v &&& 0x1F }),
             (11, { x with fctl := v &&& 0x1F07 })] : List (BitVec 14 × Thread)),
      exec (.syw a q.1) s = .next ((s.setTh q.2).retire)) ∧
    (x.level = .user → ∀ sel ∈ ([0, 1, 2, 3, 4, 12, 13, 14, 15] : List (BitVec 14)),
      exec (.syw a sel) s = .next (s.trapFree 0x02)) ∧
    (x.level = .supervisor → exec (.syw a 4) s = .next ((s.setJob x.job { j with seed := s.g a }).retire) ∧
      exec (.syw a 13) s = .next (s.trapFree 0x02)) ∧
    (∃ t, exec (.syw a 16) s = .next t ∧ s.onlyThread t ∧ (∀ r, t.th.gr r = x.gr r) ∧ t.th.pc = x.pc + 4 ∧
      t.th.rpe = (x.rpe && !(s.g a).getLsbD 0) ∧ t.th.wpe = (x.wpe && !(s.g a).getLsbD 1) ∧
      t.th.vpe = (x.vpe && !(s.g a).getLsbD 2) ∧ t.th.intrap = x.intrap)

/-- TLBI of a page and of all, and MIGR (06 R149, R155; 13 R420, R421): an invalidation takes the entries of the page, or of
the job, and no other, out of the core's L1 TLB and the quad's L2 TLB, drops the core's lines of the ROX pages removed, which
lines of all those being the model's choice (log entry 41), and retires. MIGR is privileged, waits for the store buffer,
answers a status where the page may not move (in the order of the checks and for a page mapped more than once as log entries
42 and 43 say, the model's choice), and otherwise sets MIG in every PTE that names the frame by a leaf of its size, leaving
every other entry of the tables, takes the frame out of every TLB of cores, quads and engines and out of every core's lines,
and parks the thread. MIGRATION_END moves the first page that no bank command holds and answers 0.

Memory-mapped registers (06 R139; 13 R414): a write that the register's rule permits performs it, another does nothing as an
event; ALLOCCFG sets the arena and its one free block, of the arena's whole size, and is ignored where a user kernel runs or
the value is not proper. -/
def Obligations.TranslationAndRegisterWrites : Prop :=
  (∀ (s : State) (d a b : BitVec 5) (l : Leaf) (pte at_ lv : Nat) (m : Migration),
      (s.performs →
        (let c := coreOf s.cur
         let asid := (s.job s.th.job).asid
         let ends := fun (t : State) (gone : Leaf → Bool) =>
           t.th.pc = s.th.pc + 4 ∧ t.th.park = .running ∧ (∀ r, t.th.gr r = s.th.gr r) ∧
           (t.core c).tlb = (s.core c).tlb.filter (fun e => !gone e) ∧
           Store.get [] (quadOf c) t.quadTlb = (Store.get [] (quadOf c) s.quadTlb).filter (fun e => !gone e) ∧
           (∀ e ∈ (s.core c).tlb ++ Store.get [] (quadOf c) s.quadTlb, gone e = true →
             ∀ x ∈ (t.core c).rlc, x.rox = true → overlap (x.num * 128) 128 e.pa e.size = 0)
         (∃ t, exec (.tlbi a) s = .next t ∧
           ends t (fun e => e.asid == asid && decide (e.page ≠ 0) && decide ((s.g a).toNat / e.page = e.va / e.page))) ∧
         (∃ t, exec .tlbiAll s = .next t ∧ ends t (fun e => e.asid == asid) ∧ ∀ x ∈ (t.core c).rlc, x.rox = false)) ∧
        (s.th.level = .user → exec (.migr d a b) s = .next (s.trapFree 0x02)) ∧
        (s.th.level ≠ .user → s.th.sb ≠ [] → exec (.migr d a b) s = .next (s.setTh { s.th with park := .retry 0x86 })) ∧
        (s.th.level ≠ .user → s.th.sb = [] →
          let s1 := s.release (s.th.effRelease .pkg)
          let va := (s1.g a).toNat
          let old := l.at_ va - va % l.page
          let st := s1.migrStatus l (bit pte 11) old (s1.g b)
          (s1.walk s1.th.job va = .fail → exec (.migr d a b) s = .next (s1.trapFree 0x04)) ∧
          (s1.walk s1.th.job va = .bad → exec (.migr d a b) s = .next (s1.trapFree 0x10)) ∧
          (s1.walk s1.th.job va = .migrating → exec (.migr d a b) s = .next ((s1.acquire .pkg).retireG d 5)) ∧
          (s1.walk s1.th.job va = .leaf l pte at_ lv → st ≠ 0 →
            exec (.migr d a b) s = .next ((s1.acquire .pkg).retireG d (BitVec.ofNat 64 st))) ∧
          (s1.walk s1.th.job va = .leaf l pte at_ lv → st = 0 →
            ∃ t, exec (.migr d a b) s = .next t ∧ t.th.park = .migr ∧
              t.migrations = (((s1.rewritePtes old l.page old true).shootDown old l.page).dropFrame old l.page).migrations ++
                [{ job := s1.th.job, va := va - va % l.page, size := l.page, old := old, new := (s1.g b).toNat, thr := s1.cur,
                   d := d.toNat, held := [] }] ∧
              (∀ c, ∀ e ∈ (t.core c).tlb, overlap e.pa e.size old l.page = 0) ∧
              (∀ q, ∀ e ∈ Store.get [] q t.quadTlb, overlap e.pa e.size old l.page = 0) ∧
              (∀ q ∈ t.engines, ∀ e ∈ q.2.tlb, overlap e.pa e.size old l.page = 0) ∧
              (∀ c, ∀ x ∈ (t.core c).rlc, overlap (x.num * 128) 128 old l.page = 0) ∧
              ((∀ p ∈ s1.pool, p.1 % 8 = 0) → (∀ c, ∀ x ∈ (s1.core c).rlc, x.dirty = 0) →
                ∀ k ∈ s1.pteAddrs,
                  let v := s1.value k 8
                  let f := v / 2 ^ 12 % 2 ^ 28 * 4096
                  t.value k 8 = if v % 2 = 1 ∧ pageBytes (v / 2 ^ 5 % 8) = l.page ∧ old ≤ f ∧ f < old + l.page
                    then v ||| 2 ^ 9 else v)))) ∧
      (s.migrations.find? (fun k => !s.bauBusy k.old k.size) = some m →
        let s2 := (({ s.movePage m with migrations := s.migrations.filter (fun k => k != m) }).rewritePtes m.old m.size m.new
          false).migrAnswer m
        exec .migrationEnd s = .next { s2 with
          agenda := (s.storesTo m.old m.size).map (fun t => .event .movedReissue (Arg.ofN t)) ++ m.held.map packetAct ++
            s2.agenda })) ∧
  (∀ (s : State),
      (∀ r, regAt s.arg.n = some r → s.mayWrite s.arg.who r = true →
        exec .registerWrite s = .next (s.mmioWrite s.arg.who r s.arg.v)) ∧
      (∀ r, regAt s.arg.n = some r → s.mayWrite s.arg.who r = false → exec .registerWrite s = .next s) ∧
      (let v := s.arg.v.toNat
       s.userKernelRuns s.arg.n = false → (v % 64 = 0 ∨ (16 ≤ v % 64 ∧ v % 64 ≤ 36)) →
        v / 2 ^ 12 % 2 ^ 36 * 4096 % 2 ^ (v % 64) = 0 →
        ∃ t, exec .alccfgWrite s = .next t ∧ (t.job s.arg.n).sizelog2 = v % 64 ∧
          (t.job s.arg.n).base = BitVec.ofNat 64 (v / 2 ^ 12 % 2 ^ 36 * 4096) ∧ (t.job s.arg.n).liveBlocks = [] ∧
          (t.job s.arg.n).freeBlocks = (if v % 64 = 0 then [] else [(0, v % 64)]) ∧
          t = { s with jobs := t.jobs } ∧ ∀ k, k ≠ s.arg.n → t.job k = s.job k) ∧
      (let v := s.arg.v.toNat
       s.userKernelRuns s.arg.n = true ∨ (v % 64 ≠ 0 ∧ (v % 64 < 16 ∨ 36 < v % 64)) ∨
          v / 2 ^ 12 % 2 ^ 36 * 4096 % 2 ^ (v % 64) ≠ 0 →
        exec .alccfgWrite s = .next s))

/-! ## Messages, threads and barriers -/

/-- SEND, RPC, RPLY and RECV complete (10 R283, R284, R288; 13 R390 to R392): with a proper operand, an empty store buffer and
room in the send queue, SEND and RPC put the out registers on their way, cut to the length, as a message to the core and
handler index named, RPC waiting for its token; RPLY sends all 64 bytes to the token's core; RECV of a ring that holds an
entry returns its TAIL.

Where SEND, RECV and HTW stop short (10 R283, R285; 13 R390, R391, R393): an operand with bits above 22 or a length beyond 64
is ILLEGAL with EVAL the operand; index 63 from user level is PRIV; a ring or entry number out of range is ILLEGAL; a ring of
another job PROT; an empty ring, or a full send queue, waits, with nothing sent.

HTW completes (10 R283, R285; 13 R393): a proper handler entry of the job that owns the core's table is set, with what a task
it starts takes from the writing thread, and a proper ring descriptor is set and enabled or not as bit 21 says.

MESSAGE_DELIVERY and RPLY_DELIVERY (10 R284 to R286, R288): a message for a ring that is enabled, lies as HTW lets it (R283)
and has room is written as the 64 bytes of its payload at BASE + (TAIL mod N) × 64, as its meta word at BASE + N × 64 + (TAIL
mod N) × 8 and as TAIL + 1, no other byte changing; the message leaves the list; a reply wakes the caller that waits for its
token with the 64 bytes in g24 to g31, and one that matches no caller, in a slot or saved, is counted and dropped. -/
def Obligations.MessagesCallsAndRings : Prop :=
  (∀ (s : State) (d a : BitVec 5), s.performs → s.th.sb = [] →
      let w := (s.g a).toNat
      let len := w / 2 ^ 16 % 2 ^ 7
      let dst := w % 1024
      let out := (List.range 8).flatMap (fun k => wordBytes (s.th.gr (24 + k)))
      let sc := s.th.effRelease (s.towards dst)
      let r := s.release sc
      (w < 2 ^ 23 → len ≤ 64 → (w / 2 ^ 10 % 64 ≠ 63 ∨ s.th.level ≠ .user) → r.sendQueue (coreOf s.cur) < 16 →
        ∃ t, exec (.send a) s = .next t ∧ t.th.pc = s.th.pc + 4 ∧ t.th.park = .running ∧ (∀ k, t.th.gr k = s.th.gr k) ∧
          t.msgs = r.msgs ++ [
            { src := coreOf s.cur, slot := slotOf s.cur, dst := dst, hidx := w / 2 ^ 10 % 64, len := len,
              payload := (out.take len ++ List.replicate 64 0).take 64, call := false, engine := false, sys := false,
              token := 0, tid := s.th.tid, job := s.th.job, tag := Scope.max sc s.th.carry, num := r.msgSeq, quantum := s.th.qnum,
              seq := s.th.qseq, held := (r.job s.th.job).gmode == 2 }] ∧ t.msgSeq = r.msgSeq + 1) ∧
      (w < 2 ^ 23 → len ≤ 56 → (w / 2 ^ 10 % 64 ≠ 63 ∨ s.th.level ≠ .user) → r.sendQueue (coreOf s.cur) < 16 →
        let tok := BitVec.ofNat 32 (coreOf s.cur + slotOf s.cur * 2 ^ 10 + s.th.rpcSeq.toNat * 2 ^ 14)
        ∃ t, exec (.rpc a) s = .next t ∧ t.th.park = .rpc tok ∧ t.th.pc = s.th.pc ∧ t.th.rpcSeq = s.th.rpcSeq + 1 ∧
          ∃ m, t.msgs = r.msgs ++ [m] ∧ m.dst = dst ∧ m.hidx = w / 2 ^ 10 % 64 ∧ m.call = true ∧ m.token = tok ∧
            m.payload.take 56 = (out.take len ++ List.replicate 56 0).take 56) ∧
      (let tok : BitVec 32 := (s.g a).setWidth 32
       let r := s.release (s.th.effRelease (s.towards (tok.toNat % 1024)))
       r.sendQueue (coreOf s.cur) < 16 →
        ∃ t, exec (.rply a) s = .next t ∧ t.th.pc = s.th.pc + 4 ∧
          ∃ p, t.replies = r.replies ++ [p] ∧ p.token = tok ∧ p.src = coreOf s.cur ∧ p.payload = out ∧ p.num = r.msgSeq) ∧
      (let c := coreOf s.cur
       let q := s.ring c w
       w ≤ 15 → q.en = true → (s.core c).ringJob = some s.th.job → s.ringCount c q ≠ 0 →
        exec (.recv d a) s = .next
          (((s.noteRead (q.tailPa c) 8).acquire (s.recvScope c q)).retireG d
            (BitVec.ofNat 64 (natOf (s.bytes (q.tailPa c) 8)))))) ∧
  (∀ (s : State) (d a b c : BitVec 5), s.performs →
      let w := (s.g a).toNat
      let k := coreOf s.cur
      (2 ^ 23 ≤ w ∨ 64 < w / 2 ^ 16 % 2 ^ 7 → exec (.send a) s = .next (s.trap 0x01 (s.g a))) ∧
      (w < 2 ^ 23 → w / 2 ^ 16 % 2 ^ 7 ≤ 64 → w / 2 ^ 10 % 64 = 63 → s.th.level = .user →
        exec (.send a) s = .next (s.trapFree 0x02)) ∧
      (w < 2 ^ 23 → w / 2 ^ 16 % 2 ^ 7 ≤ 64 → (w / 2 ^ 10 % 64 ≠ 63 ∨ s.th.level ≠ .user) → s.th.sb = [] →
        16 ≤ (s.release (s.th.effRelease (s.towards (w % 1024)))).sendQueue k →
        exec (.send a) s = .next (s.setTh { s.th with park := .blocked 0x65 })) ∧
      (15 < w → exec (.recv d a) s = .next (s.trapFree 0x01)) ∧
      (w ≤ 15 → ((s.ring k w).en = false ∨ (s.core k).ringJob ≠ some s.th.job) →
        exec (.recv d a) s = .next (s.trapFree 0x05)) ∧
      (w ≤ 15 → (s.ring k w).en = true → (s.core k).ringJob = some s.th.job → s.ringCount k (s.ring k w) = 0 →
        exec (.recv d a) s = .next (s.setTh { s.th with park := .retry 0x66 })) ∧
      (79 < w → exec (.htw a b c) s = .next (s.trapFree 0x01))) ∧
  (∀ (s : State) (a b c : BitVec 5), s.performs → (s.core (coreOf s.cur)).ringJob = some s.th.job →
      let n := (s.g a).toNat
      let lo := (s.g b).toNat
      let k := s.core (coreOf s.cur)
      (n < 64 → lo < 2 ^ 22 → (s.g c).toNat < 2 ^ 48 → lo % 4 ≠ 3 →
        let h : HEntry :=
          { kind := BitVec.ofNat 2 lo, ring := lo / 4 % 16, slots := BitVec.ofNat 16 (lo / 64), pc := s.g c, job := s.th.job,
            kid := s.th.kid, fctl := s.th.fctl, tvec := s.th.tvec, seed := s.th.seed, level := s.th.level };
        exec (.htw a b c) s = .next
          ((s.setCore (coreOf s.cur) { k with handlers := Store.put HEntry.init n h k.handlers }).retire)) ∧
      (let r := n - 64
       let base := lo % 2 ^ 17
       let lg := lo / 2 ^ 17 % 2 ^ 4
       let u := s.kernel s.th.job s.th.kid
       64 ≤ n → n ≤ 79 → lo < 2 ^ 22 → base % 64 = 0 → lg ≤ 10 → (s.ring (coreOf s.cur) r).en = false → base ≠ 0 →
        u.lsoff + 16 ≤ base → base + 72 * 2 ^ lg ≤ u.lsoff + u.lslen →
        (lo / 2 ^ 21 % 2 = 1 → s.ringEntries (coreOf s.cur) s.th.kid r + 2 ^ lg ≤ u.rings) →
        let q : Ring := { base := base, log2n := lg, en := lo / 2 ^ 21 % 2 == 1, kid := s.th.kid };
        exec (.htw a b c) s = .next
          ((s.setCore (coreOf s.cur) { k with rings := Store.put Ring.init r q k.rings }).retire))) ∧
  (∀ (s : State),
      (∀ m h, s.msgs[s.arg.n]? = some m → m.held = false → s.behind m.src m.dst m.num m.job m.tid = false → m.src < 1024 →
        (s.job m.job).gmode = 0 → (s.core m.dst).ringJob ≠ none → m.engine = false →
        h = Store.get HEntry.init m.hidx (s.core m.dst).handlers → h.kind = 1 →
        let q := s.ring m.dst h.ring
        q.en = true → s.ringCount m.dst q < 2 ^ q.log2n → q.base % 64 = 0 → 16 ≤ q.base →
        let tail := natOf (s.bytes (localPa m.dst (q.base - 8)) 8)
        let n := 2 ^ q.log2n
        let entry := localPa m.dst (q.base + tail % n * 64)
        let word := localPa m.dst (q.base + n * 64 + tail % n * 8)
        ∃ t, exec .messageDelivery s = .next t ∧ t.msgs = s.msgs.eraseIdx s.arg.n ∧ t.threads = s.threads ∧
          t.bytes entry 64 = (m.payload.take 64 ++ List.replicate 64 0).take 64 ∧
          natOf (t.bytes word 8) = ((if m.sys = true then 0 else m.src + m.slot * 2 ^ 10) + m.hidx * 2 ^ 14 + m.len * 2 ^ 20 +
            (if m.call = true then 2 ^ 28 else 0) + (if m.sys = true then 2 ^ 30 else 0) +
            (if m.call = true then m.token.toNat else if m.sys = true then 0 else m.tid.toNat + m.job * 2 ^ 14) * 2 ^ 32) % 2 ^ 64 ∧
          t.bytes (localPa m.dst (q.base - 8)) 8 = wordBytes (BitVec.ofNat 64 tail + 1) ∧
          ∀ a, (a < entry ∨ entry + 64 ≤ a) → (a < word ∨ word + 8 ≤ a) →
            (a < localPa m.dst (q.base - 8) ∨ localPa m.dst q.base ≤ a) → t.byte a = s.byte a) ∧
      (∀ p t x, s.replies[s.arg.n]? = some p → p.held = false →
        s.behind p.src (p.token.toNat % 1024) p.num p.job p.tid = false → (s.job p.job).gmode = 0 →
        (s.threads.find? (fun y => y.2.live && y.2.park == .rpc p.token) = some (t, x) → s.thread t = x →
          ∃ u, exec .rplyDelivery s = .next u ∧ u.replies = s.replies.eraseIdx s.arg.n ∧
            (u.thread t).pc = x.pc + 4 ∧ (u.thread t).park = .running ∧
            (∀ k, k < 8 → (u.thread t).gr (24 + k) = wordOf (sub (p.payload ++ List.replicate 64 0) (8 * k) 8))) ∧
        (s.threads.find? (fun y => y.2.live && y.2.park == .rpc p.token) = none →
          s.kernels.find? (fun k => k.2.savedThreads.any (fun y => y.park == .rpc p.token)) = none →
          ∃ u, exec .rplyDelivery s = .next u ∧ u.replies = s.replies.eraseIdx s.arg.n ∧ u.threads = s.threads ∧
            (u.core (p.token.toNat % 1024)).strayReplies = (s.core (p.token.toNat % 1024)).strayReplies + 1)))

/-- SPWN and SPAWN_SERVICE (05 R119; 10 R278, R287; 13 R394): SPWN asks the core named in ga for a thread at g(b) with the
four registers from g(c), and waits; the service of a request that no earlier message of its source to the core precedes takes
the lowest free reserved slot of the mask and the lowest free logical id, and the requester goes on with the id. Without a
free slot the requester takes RESERVE, whose EVAL the spec leaves open, and a request that no thread waits for stays. A core
number above 1023 is ILLEGAL.

QUIT (05 R112; 10 R287; 13 R395): with an empty store buffer, nothing sent to a peer outstanding, and, once the core's remote
line cache has been written through, no refused store or deferred cause, no transfer of its kernel that it would leave behind
and no digest to compare, the slot becomes free and the kernel is completed next where this was its last thread. That the slot
keeps its RPC sequence number is the model's choice (log entry 31). A buffered store makes it wait. -/
def Obligations.ThreadsAreSpawnedAndQuit : Prop :=
  (∀ (s : State) (d a b c : BitVec 5),
      (s.performs → (s.g a).toNat ≤ 1023 → s.th.sb = [] → c.toNat ≤ 28 →
        let sc := s.th.effRelease (s.towards (s.g a).toNat)
        let r := s.release sc
        ∃ t q, exec (.spwn d a b c) s = .next t ∧ t.th.park = .spawn ∧ t.th.pc = s.th.pc ∧ t.spawns = r.spawns ++ [q] ∧
          q.core = (s.g a).toNat ∧ q.waiter = some (s.cur, d.toNat) ∧ q.job = s.th.job ∧ q.kid = s.th.kid ∧
          q.src = coreOf s.cur ∧ q.num = r.msgSeq ∧ q.tag = Scope.max sc s.th.carry ∧ q.pc = s.g b ∧ q.regs = [r.th.gr c.toNat, r.th.gr (c.toNat + 1), r.th.gr (c.toNat + 2), r.th.gr (c.toNat + 3)] ∧
          q.fctl = s.th.fctl ∧ q.tvec = s.th.tvec ∧ q.seed = s.th.seed) ∧
      (s.performs → 1023 < (s.g a).toNat → exec (.spwn d a b c) s = .next (s.trapFree 0x01)) ∧
      (∀ r slot rest id w dd, s.spawns[s.arg.n]? = some r → r.held = false → (s.job r.job).gmode = 0 →
        s.behind r.src r.core r.num r.job r.tid = false → r.waiter = some (w, dd) →
        s.freeSlots r.job r.kid r.core r.slots = slot :: rest → s.freeId r.job = some id →
        w ≠ r.core * 16 + slot → (∀ l ∈ (s.core r.core).rlc, l.dirty = 0) →
        ∃ t, exec .spawnService s = .next t ∧ t.spawns = s.spawns.eraseIdx s.arg.n ∧
          (let x := t.thread (r.core * 16 + slot)
           x.live = true ∧ x.job = r.job ∧ x.kid = r.kid ∧ x.level = (s.kernel r.job r.kid).level ∧
            x.tid = BitVec.ofNat 14 id ∧ x.pc = r.pc ∧ x.fctl = r.fctl ∧ x.tvec = r.tvec ∧ x.seed = r.seed ∧
            x.park = .running ∧ x.intrap = false ∧ x.nspill = 0 ∧ x.fstat = 0 ∧ x.digest = 0) ∧
          (t.thread w).pc = (s.thread w).pc + 4 ∧ (t.thread w).park = .running ∧
          (t.thread w).gr dd = if dd = 0 then 0 else BitVec.ofNat 64 id) ∧
      (∀ r, s.spawns[s.arg.n]? = some r → r.held = false → (s.job r.job).gmode = 0 →
        s.behind r.src r.core r.num r.job r.tid = false → s.freeSlots r.job r.kid r.core r.slots = [] →
        (r.waiter = none → exec .spawnService s = .next s) ∧
        (∀ w dd, r.waiter = some (w, dd) → exec .spawnService s =
          .next (({ s with spawns := dropAt s.spawns s.arg.n } : State).drawn.trapOf w 0x16 s.freeVal (s.thread w).pc)))) ∧
  (∀ (s : State), s.performs →
      (let w := s.writeThrough .pkg
       s.th.sb = [] → w.outstanding = 0 → w.ueDue w.cur = false → w.takeDeferred true = none → (s.job s.th.job).gmode = 0 →
        (w.lastOfKernel && w.copying s.th.job s.th.kid) = false →
        ∃ t, exec .quit s = .next t ∧ t.th = { Thread.init with rpcSeq := s.th.rpcSeq } ∧ w.sameBytes t ∧
          (∀ u, u ≠ s.cur → t.thread u = w.thread u) ∧
          t.agenda = (if w.lastOfKernel = true then
            [.event .kernelComplete (Arg.ofNM s.th.job s.th.kid)] else []) ++ w.agenda) ∧
      (s.th.sb ≠ [] → exec .quit s = .next (s.setTh { s.th with park := .retry 0x6B })))

/-- Barriers (10 R289; 13 R396; 03 R68): BAR of a count from 1 to 16,384 releases, joins the episode of its scope, of the
scope's holder and of its id and waits; a member of a pod whose port towards the root is up sends its arrival there by
side-band, the root telling all (on which ports is the model's choice, log entries 129 and 150); the arrival that completes
the count has the episode completed next; the completion, once the ports over which its arrivals came are up, ends the
episode, lets every participant go on and, for a pod, tells the members. A count that is 0 or too large, or differs from the
episode's, is ILLEGAL; a barrier that another job's episode holds makes the thread wait. A side-band arrival over a port that
is up adds to a pod barrier, or opens its episode, and a side-band release ends it; one over a port that is down does nothing
(03 R70). An episode that other packages' arrivals opened takes the job of the first thread that arrives here, the model's
choice (log entry 142).

QSC, WFT and their releases (10 R290; 13 R397, R398): QSC parks; its check, once its scope is idle for the job, clears the
activity bits; each cycle and each check notes whether the scope has left idle since (the model's choice, log entry 24); 2,048
cycles later a wait without activity ends, in ordered mode at a quantum's end (07 R205), with the job's others that are over,
and one with activity begins again. WFT of a time that has come retires, of another parks, and its release waits for PTIME.

QUANTUM_END (07 R205): once every thread of an ordered job has retired its quantum or is blocked, its held requests, messages,
replies and spawns are offered in the order of service, then the tasks that delivered messages start; the job enters the next
quantum, every live thread of the job begins its count again, and the barriers and quiescence waits that are satisfied end
next; before that nothing happens. The model's choice: the order in which held requests are offered (log entry 128). -/
def Obligations.BarriersQuietWaitsAndQuanta : Prop :=
  (∀ (s : State) (a : BitVec 5) (id sc : BitVec 3) (e : Episode),
      let scope := if sc = 4 ∧ s.pkg.pod.form = false then Scope.pkg else scopeOfCode sc.toNat
      let n := (s.g a).toNat
      (s.performs → 1 ≤ n → n ≤ 16384 → s.th.sb = [] → (scope.atLeast .pkg = true → s.outstanding = 0) →
        s.takeDeferred (scope.atLeast .pkg) = none →
        let key := barKey scope (scopeInst scope (coreOf s.cur)) id.toNat
        let eff := s.th.effRelease scope
        let r := s.release eff
        e = { (r.episode key).getD (Episode.fresh key r.th.job) with
          job := some ((((r.episode key).getD (Episode.fresh key r.th.job)).job).getD r.th.job) } →
        (e.job ≠ some r.th.job → exec (.bar a id sc) s = .next (s.setTh { s.th with park := .blocked 0x6C })) ∧
        (e.job = some r.th.job → e.complete = false →
        (e.count = none ∨ e.count = some n) →
          let t := (r.putEpisode (e.arrive (some n) (some r.cur) (Scope.max eff r.th.carry))).parkOn (.bar key)
          exec (.bar a id sc) s = .next (if scope = .pod ∧ s.pkg.pod.isRoot = false
            then (match s.pkg.pod.upstream with
              | some k => if (s.pkg.pod.port k).up = true then t.sideband [k] 4 id.toNat t.ptime (bytesOf 2 n ++ [0]) else t
              | none => t)
            else t.barCheck key)) ∧
        (e.job = some r.th.job → e.complete = false → e.count ≠ none → e.count ≠ some n →
          exec (.bar a id sc) s = .next (r.trapFree 0x01))) ∧
      (s.performs → (n = 0 ∨ 16384 < n) → exec (.bar a id sc) s = .next (s.trapFree 0x01)) ∧
      (s.episode s.arg.n = some e → e.complete = true → (∀ p ∈ e.ports, (s.pkg.pod.port p).up = true) →
        let t := e.parked.foldl (fun w t => w.depart t (Scope.max (barKeyScope e.key) e.tag))
          { s with episodes := s.episodes.filter (fun f => f.key != e.key) }
        exec .barrierEpisodeComplete s = .next (if barKeyScope e.key = .pod
          then t.sideband t.pkg.pod.livePorts 4 (e.key % 8) t.ptime (bytesOf 2 (e.count.getD 0) ++ [1]) else t)) ∧
      (s.episode s.arg.n = some e → (e.complete = false ∨ ∃ p ∈ e.ports, (s.pkg.pod.port p).up = false) →
        exec .barrierEpisodeComplete s = .next s) ∧
      (let key := barKey .pod 0 (s.arg.n % 8)
       let count := if s.arg.m = 0 then none else some s.arg.m
       let port := s.arg.v.toNat
       ((s.pkg.pod.port port).up = true →
        (s.arg.b = false → s.episode key = some e →
          exec .sidebandBar s = .next ((s.putEpisode { e.arrive count none .pkg with ports := (port :: e.ports).eraseDups }).barCheck
            key)) ∧
        (s.arg.b = false → s.episode key = none →
          exec .sidebandBar s = .next ((s.putEpisode
            { key := key, job := none, count := count, arrivals := 1, parked := [], tag := .pkg, ports := [port] }).barCheck
            key)) ∧
        (s.arg.b = true → s.episode key = some e → exec .sidebandBar s = .next (s.endEpisode e))) ∧
       ((s.pkg.pod.port port).up = false → exec .sidebandBar s = .next s))) ∧
  (∀ (s : State) (a : BitVec 5) (sc : BitVec 3),
      (s.performs → exec (.qsc sc) s = .next (s.setTh { s.th with park := .qsc (scopeOfCode sc.toNat) none false }) ∧
        ((s.g a).toNat ≤ s.pkg.clock.ptime.toNat → exec (.wft a) s = .next s.retire) ∧
        (s.pkg.clock.ptime.toNat < (s.g a).toNat → exec (.wft a) s = .next (s.setTh { s.th with park := .wft (s.g a) }))) ∧
      (let n := s.arg.n
       let x := s.thread n
       (∀ w, x.park = .wft w →
        (w.toNat ≤ s.pkg.clock.ptime.toNat → exec .wftRelease s = .next (s.setThread n (x.go (x.pc + 4) 1))) ∧
        (s.pkg.clock.ptime.toNat < w.toNat → exec .wftRelease s = .next s)) ∧
       (∀ scope bit_, x.park = .qsc scope none bit_ →
        exec .qscQuietCheck s = .next (if s.quiet scope (coreOf n) x.job = true
          then s.setThread n { x with park := .qsc scope (some s.cyc) false } else s)) ∧
       (∀ scope since bit_, x.park = .qsc scope (some since) bit_ →
        let active := bit_ || !s.quiet scope (coreOf n) x.job
        (s.cyc < since + 2048 →
          exec .qscQuietCheck s = .next (s.setThread n { x with park := .qsc scope (some since) active })) ∧
        (since + 2048 ≤ s.cyc → active = true →
          exec .qscQuietCheck s = .next (s.setThread n { x with park := .qsc scope none false })) ∧
        (since + 2048 ≤ s.cyc → active = false → (s.job x.job).gmode = 2 → s.arg.b = false →
          exec .qscQuietCheck s = .next s) ∧
        (since + 2048 ≤ s.cyc → active = false → ((s.job x.job).gmode ≠ 2 ∨ s.arg.b = true) →
          exec .qscQuietCheck s = .next ((s.qscWith n).foldl (fun w u => w.depart u .pkg) (s.depart n .pkg))) ∧
        ((s.noteActivity).thread n).park = .qsc scope (some since) active) ∧
       (∀ u, u ∈ s.qscWith n ↔ u ≠ n ∧ u ∈ s.jobThreads x.job ∧ ∃ scope since, (s.thread u).park = .qsc scope (some since) false ∧
         since + 2048 ≤ s.cyc ∧ s.quiet scope (coreOf u) (s.thread u).job = true))) ∧
  (∀ (s : State),
      let j := s.arg.n
      let rs := sortBy (fun (r : GateReq) => gateKey (s.job j).quantum r.tid r.seq) (s.gateQueue.filter (fun r => r.job == j))
      let s0 := (s.offerAll rs).renumber j
      let s1 := ((s0.heldSent j).foldl State.offerSent s0).offerTasks j
      (s.quantumOver j = false → exec .quantumEnd s = .next s) ∧
      (s.quantumOver j = true → Store.rising 0 s1.threads = true → ∃ t, exec .quantumEnd s = .next t ∧
        (t.job j).quantum = (s1.job j).quantum + 1 ∧ t.mem = s1.mem ∧
        t.agenda = (t.fullEpisodes j).map (fun k => .event .barrierEpisodeComplete (Arg.ofN k)) ++
          (s.qscThreads j).map (fun u => .event .qscQuietCheck { Arg.ofN u with b := true }) ++ s1.agenda ∧
        ∀ u, if (s1.thread u).live = true ∧ (s1.thread u).job = j
          then t.thread u = { s1.thread u with qcount := 0, qnum := (s1.thread u).qnum + 1, qseq := 0 }
          else t.thread u = s1.thread u))

/-! ## Remote operations -/

/-- RST and RINC (03 R57, R58, R63; 13 R371, R405, R406; 10 R300): with fewer than 64 operations outstanding, a usable peer
entry and a context, RST sends the low 1, 2, 4 or 8 bytes of g(c) for the peer's address g(b) and enters them in DIGEST, and
RINC sends g(c) as an addend for the peer's word or, of counter kind, for the peer's counter; both retire. The packet takes
the peer entry whole as it leaves. An entry that cannot be used sets RPE with cause 0, the thread going on; 64 outstanding, or
no context, parks it. A RINC of a misaligned address is MISALIGN.

How a remote operation ends (03 R52, R54, R63; 13 R371): an acknowledgement takes the operation out, and one of a copy engine
counts its transfer's part as done; a failure sets RPE of the thread that issued it with the peer and the cause, 1 for the
retransmission limit, 2 for a refusal by the target and 3 for a response that fails TSS; a context that has been idle for 10
ms closes.

Packets at this target (03 R51, R53, R58, R59, R61; 07 R202): a packet of an open job that is no duplicate, comes in its
connection's order and waits for nothing is performed whole and answered: an RMA write, an RMA read with the bytes at the
homes, a fetching add with the old value, another add with no data; a cause found on the way refuses it with that cause; its
number is then taken. That a packet accesses the job's space at user level and that an add passes no order gate is the model's
choice (log entries 49 and 136). A duplicate does nothing; one ahead of its ordered connection is kept; one in the off state
is not received; one that fails TSS authentication is discarded and counted; one that names no open job is refused with PROT;
one whose window is suspended is kept. -/
def Obligations.RemoteOperationsAndPackets : Prop :=
  (∀ (s r : State) (a b c : BitVec 5) (w : BitVec 2) (rel kind : BitVec 1), s.performs →
      let peer := (s.g a).toNat % 4096
      let data := (wordBytes (s.g c)).take (2 ^ w.toNat)
      let pkt : OutPkt :=
        { kind := 0, op := 0, job := s.th.job, peer := peer, va := s.g b, data := data, rel := false,
          entry := s.peerEntry s.th.job peer, ports := s.routeOf (s.peerEntry s.th.job peer) }
      let inc : OutPkt :=
        { pkt with
          kind := if kind = 1 then 2 else 1
          va := if kind = 1 then s.g b &&& 0x3FFF else s.g b
          data := wordBytes (s.g c), rel := rel == 1 }
      (s.outstanding < 64 → s.entryUsable s.th.job peer = true → s.pdcFull s.th.job peer = false →
        ∃ t, exec (.rst a b c w) s = .next t ∧ t.th = { s.th with
            pc := s.th.pc + 4, park := .running, qcount := s.th.qcount + 1, digest := digestStore s.th.digest (s.g b) data } ∧
          t.outbox = s.outbox ++ [pkt] ∧ s.sameBytes t ∧
          ∃ o, t.remotes = s.remotes ++ [o] ∧ o.thr = some s.cur ∧ o.peer = peer ∧ o.waiting = false) ∧
      ((if rel = 1 then s.beforeRelease 0x77 (s.th.effRelease .pod) else .ok s) = .ok r →
        (kind = 0 → (s.g b).toNat % 8 = 0) → r.outstanding < 64 → r.entryUsable s.th.job peer = true →
        r.pdcFull s.th.job peer = false →
        ∃ t, exec (.rinc a b c rel kind) s = .next t ∧ t.th = r.th.go (s.th.pc + 4) 1 ∧
          t.outbox = r.outbox ++ [{ inc with entry := r.peerEntry s.th.job peer, ports := r.routeOf (r.peerEntry s.th.job peer) }] ∧
          ∃ o, t.remotes = r.remotes ++ [o] ∧ o.thr = some s.cur ∧ o.peer = peer ∧ o.waiting = false) ∧
      (kind = 0 → (s.g b).toNat % 8 ≠ 0 → exec (.rinc a b c rel kind) s = .next (s.trap 0x03 (s.g b))) ∧
      (s.outstanding < 64 → s.entryUsable s.th.job peer = false →
        ∃ t, exec (.rst a b c w) s = .next t ∧ t.th.pc = s.th.pc + 4 ∧ t.outbox = s.outbox ∧ t.th.rpe = true ∧
          (s.th.rpe = false → t.th.rpeDetail = BitVec.ofNat 64 peer)) ∧
      (64 ≤ s.outstanding → exec (.rst a b c w) s = .next (s.setTh { s.th with park := .retry 0x76 })) ∧
      (s.entryUsable s.th.job peer = true → s.pdcFull s.th.job peer = true →
        ∃ t, exec (.rst a b c w) s = .next t ∧ t.th = { s.th with park := .retry 0x76 } ∧ t.outbox = s.outbox)) ∧
  (∀ (s : State) (r : RemoteOp) (t : Nat),
      (s.sentRemote s.arg.n = some r →
        (r.engine = none → exec .remoteAck s = .next (s.dropRemote r)) ∧
        (∀ e num, r.engine = some (e, num) → ∃ u, exec .remoteAck s = .next u ∧
          u.remotes = s.remotes.filter (fun o => o.id != r.id) ∧
          (u.engine e).queue = (s.engine e).queue.map (fun x => if x.num = num then { x with remote := x.remote - 1 } else x)) ∧
        (r.engine = none → r.cmd = none → r.thr = some t → (s.thread t).live = true → (s.thread t).job = r.job →
          (s.thread t).tid = r.tid → (s.thread t).rpe = false →
          ∀ q ∈ ([(.retransmissionLimit, 1), (.negativeAcknowledgement, if s.arg.b = true then 3 else 2)] :
            List (Instr × Nat)),
            exec q.1 s = .next ((s.dropRemote r).setThread t { s.thread t with
              rpe := true, rpeDetail := BitVec.ofNat 64 (r.peer % 4096 + q.2 * 4096) }))) ∧
      (∀ p, s.pdcs.find? (fun p => p.id == s.arg.n) = some p →
        s.remotes.any (fun r => !r.waiting && r.job == p.job && r.peer == p.peer) = false →
        (p.idleSince + 19000000 ≤ s.cyc → s.remotes.find? (·.waiting) = none →
          exec .pdcIdleClose s = .next { s with pdcs := s.pdcs.filter (fun q => q.id != p.id) }) ∧
        (s.cyc < p.idleSince + 19000000 → exec .pdcIdleClose s = .next s))) ∧
  (∀ (s s1 : State) (j c a : Nat) (bs : List Byte),
      let p := s.arg.pkt
      let va := p.va.toNat
      let all : List Instr := [.rmaWrite, .rmaRead, .fetchAdd, .nonFetchingAtomicAdd]
      let took := fun (w : State) => if w.pktHeld p = true then w else w.donePkt p
      (s.pkg.power.st = .off → ∀ i ∈ all, exec i s = .next s) ∧
      (s.pkg.power.st ≠ .off → p.data.length ≤ 9216 → p.auth = false → ∀ i ∈ all,
        exec i s = .next (s.setPkg { s.pkg with tssDiscards := s.pkg.tssDiscards + 1 })) ∧
      (p.auth = true → s.dupPkt p = true → ∀ i ∈ all, exec i s = .next s) ∧
      (s.pkg.power.st ≠ .off → p.data.length ≤ 9216 → p.auth = true → s.dupPkt p = false → p.ordered = true →
        p.psn ≠ (s.conn p.conn).next → ∀ q ∈ ([(.rmaWrite, 0), (.rmaRead, 1), (.fetchAdd, 2), (.nonFetchingAtomicAdd, 3)] :
          List (Instr × Nat)),
        exec q.1 s = .next (s.setConn p.conn { s.conn p.conn with early := (s.conn p.conn).early ++ [(q.2, p)] })) ∧
      (s.pkg.power.st ≠ .off → p.data.length ≤ 9216 → p.auth = true → s.dupPkt p = false →
        (p.ordered = true → p.psn = (s.conn p.conn).next) → packetQueue p.jobid = none →
        (s.packetJob p.jobid = none → ∀ i ∈ all, exec i s = .next (took (s.refusePkt p 0x05))) ∧
        (s.packetJob p.jobid = some j →
        (s.rangeWait j .user { rd := false, wr := true, x := false } va p.data.length = none →
          s.mmioAt j va { rd := false, wr := true, x := false } = none → p.accum = none →
          (s.writeVa j .user va p.data tagPkg false = .ok s1 → exec .rmaWrite s = .next (took (s1.answer p 0 []))) ∧
          (s.writeVa j .user va p.data tagPkg false = .error c → exec .rmaWrite s = .next (took (s.refusePkt p c)))) ∧
        (s.rangeWait j .user { rd := true, wr := false, x := false } va p.len = none →
          s.mmioAt j va { rd := true, wr := false, x := false } = none →
          (s.readVa j .user va p.len = .ok bs → exec .rmaRead s = .next (took (s.answer p 2 bs))) ∧
          (s.readVa j .user va p.len = .error c → exec .rmaRead s = .next (took (s.refusePkt p c)))) ∧
        (s.rangeWait j .user { rd := true, wr := true, x := false } va 8 = none →
          (p.counter = none → va % 8 ≠ 0 → ∀ i ∈ ([.fetchAdd, .nonFetchingAtomicAdd] : List Instr),
            exec i s = .next (took (s.refusePkt p 0x03))) ∧
          (∀ l, va % 8 = 0 → s.xlateWalk j .user va { rd := true, wr := true, x := false } = .pa a l →
            noStorage a = false → isView a = false → s.readAns a 8 j = .ok → s.writeAns a 8 j = .ok →
            let old := BitVec.ofNat 64 (natOf (s.bytes a 8))
            let t := s.perform a (wordBytes (old + p.addend)) tagPkg
            exec .fetchAdd s = .next (took (t.answer p 2 (wordBytes old))) ∧
            (p.counter = none → exec .nonFetchingAtomicAdd s = .next (took (t.answer p 0 []))))) ∧
        (∀ n, p.counter = some n →
          ((s.counter n).owner = some j →
            exec .nonFetchingAtomicAdd s = .next (took ((s.answer p 0 []).push .counterFeedWrite (Arg.ofNV n p.addend)))) ∧
          ((s.counter n).owner ≠ some j → exec .nonFetchingAtomicAdd s = .next (took (s.refusePkt p 0x05)))) ∧
        (∀ k, s.rangeWait j .user { rd := false, wr := true, x := false } va p.data.length = some (.part k) →
          exec .rmaWrite s =
            .next (s.setPart k { s.part k with heldPackets := (s.part k).heldPackets ++ [(0, p)] })))))

/-! ## Bank arithmetic units -/

/-- BCMD (06 R170, R173; 13 R411): a descriptor at a multiple of 8 that passes every check, with no buffered store of the
thread to its ranges and fewer than 16 commands at the bank, joins the bank's commands with its addresses translated and its
scalars, and the thread retires. A proper length and format is checked first (5), then the operation (4), then translation and
permission, then HBM (1), the line (2) and the bank (3), each as BAU_ERROR with EVAL the number. A full bank makes it wait.

BAU_COMMAND (06 R171 to R173): the bank takes its oldest command, of any number of sectors. COPY puts the bytes of A into D;
an element of D becomes the formula of the table, computed on FP32 values with each operation rounded as it says and written
in the command's format, FP32 or BF16: AXPY, SCALE, ADD, MUL, FMA, CLAMP, ADW and FILL write D, MOM writes D and A, SSQ and
MAXABS write one FP32 word; A and B being D itself or lying apart from it, every byte outside what is written stands. A sector
whose source holds an uncorrectable error stays unwritten and is counted, as each of MOM's two is. An empty bank does nothing.
-/
def Obligations.BankCommands : Prop :=
  (∀ (s r : State) (a : BitVec 5) (ws : List Word) (ps : List (Nat × Nat)), s.performs →
      ((s.g a).toNat % 8 ≠ 0 → exec (.bcmd a) s = .next (s.trap 0x03 (s.g a))) ∧
      ((s.g a).toNat % 8 = 0 → s.loadWords 0x7C (s.g a) 6 = .ok (ws, r) →
        let h := (nth 0 ws 0).toNat
        let d := bauDesc ws
        (h / 2 ^ 16 % 2 ^ 8 = 0 ∨ 8 < h / 2 ^ 16 % 2 ^ 8 ∨ 1 < h / 2 ^ 8 % 2 ^ 8 →
          exec (.bcmd a) s = .next (r.trap 0x0F 5)) ∧
        (d.bad = false → 12 ≤ h % 16 → exec (.bcmd a) s = .next (r.trap 0x0F 4)) ∧
        (d.bad = false → h % 16 < 12 → r.bauXlate d.ranges = .ok ps → d.ranges.any (fun q => q.1 % q.2.2.2 != 0) = false →
          let b := bankOf r.iltab ((ps.map (·.1)).headD 0)
          (ps.any (fun p => decide (tileBase ≤ p.1)) = true → exec (.bcmd a) s = .next (r.trap 0x0F 1)) ∧
          (ps.any (fun p => decide (tileBase ≤ p.1)) = false →
            (ps.any (fun p => decide (256 < p.1 % 256 + p.2)) = true → exec (.bcmd a) s = .next (r.trap 0x0F 2)) ∧
            (ps.any (fun p => decide (256 < p.1 % 256 + p.2)) = false →
              (ps.any (fun p => bankOf r.iltab p.1 != b) = true → exec (.bcmd a) s = .next (r.trap 0x0F 3)) ∧
              (ps.any (fun p => bankOf r.iltab p.1 != b) = false → r.storesPending ps = false →
                (16 ≤ (r.bank b).fifo.length → exec (.bcmd a) s = .next (r.setTh { r.th with park := .retry 0x7C })) ∧
                ((r.bank b).fifo.length < 16 → ∃ t c, exec (.bcmd a) s = .next t ∧
                  t.th = (r.flushRanges ps).th.go ((r.flushRanges ps).th.pc + 4) 1 ∧
                  (t.bank b).fifo = ((r.flushRanges ps).bank b).fifo ++ [c] ∧ c.op = h % 16 ∧
                  c.nsec = h / 2 ^ 16 % 2 ^ 8 ∧ c.bf16 = (h / 2 ^ 8 % 2 ^ 8 == 1) ∧ c.d = (ps.map (·.1)).headD 0 ∧
                  c.s1 = nth 0 ws 4 ∧ c.s2 = nth 0 ws 5 ∧ c.thr = threadKey r.th.job r.th.tid ∧ c.tid = r.th.tid ∧ c.job = r.th.job))))))) ∧
  (∀ (s : State) (c : BauCmd) (rest : List BauCmd),
      let b := s.arg.n
      ((s.bank b).fifo = [] → exec .bauCommand s = .next s) ∧
      (let n := 32 * c.nsec
       let w := if c.bf16 = true then 2 else 4
       let f := if c.bf16 = true then bf16 else fp32
       let val := fun (pa k : Nat) => f.dec (natOf (s.bytes (pa + w * k) w))
       let put := fun (v : FVal) => bytesOf w (f.rne v)
       let rnd := fun (v : FVal) => fp32.dec (fp32.rne v)
       let mul := fun (x y : FVal) => rnd (mulV x y)
       let add := fun (x y : FVal) => rnd (addV false x y)
       let k1 := fp32.dec (c.s1.toNat % 2 ^ 32)
       let k2 := fp32.dec (c.s1.toNat / 2 ^ 32)
       let k3 := fp32.dec (c.s2.toNat % 2 ^ 32)
       let k4 := fp32.dec (c.s2.toNat / 2 ^ 32)
       let sound := fun (pa m : Nat) => s.hasUe pa m = false ∧ ∀ i, i < c.nsec → s.latchedAt (pa + 32 * i) = false
       let apart := fun (p q : Nat) => overlap p n q n = 0
       (s.bank b).fifo = c :: rest → (bauUsesA c.op = true → s.hasUe c.a n = false) → (bauUsesB c.op = true → s.hasUe c.b n = false) →
       (c.op < 12 → c.op ∉ [6, 8, 9] → sound c.d n → (c.a = c.d ∨ apart c.d c.a) → (c.b = c.d ∨ apart c.d c.b) →
         ∃ t, exec .bauCommand s = .next t ∧ (t.bank b).fifo = rest ∧ s.sameBytesBut t c.d n ∧
           (c.op = 10 → t.bytes c.d n = s.bytes c.a n) ∧
           (c.op ≠ 10 → ∀ k, k < n / w →
             let x := val c.a k
             let y := val c.b k
             let z := val c.d k
             t.bytes (c.d + w * k) w = put (match c.op with
               | 0 => add (mul k1 x) z
               | 1 => mul k1 x
               | 2 => add x y
               | 3 => mul x y
               | 4 => rnd (addV false (mulV x y) z)
               | 5 => if x = .nan then .nan else fp32.dec (fp32.minCode (fp32.maxOf (fp32.rne x) (fp32.rne k1)) (fp32.rne k2))
               | 7 => add (add z (negV (rnd (divV 32 (mul k1 x) (add (rnd (sqrtV 32 (mul k3 y))) k4))))) (negV (mul k2 z))
               | _ => if c.bf16 = true then bf16.dec (c.s1.toNat % 2 ^ 16) else k1))) ∧
       (c.op = 6 → sound c.d n → sound c.a n → apart c.d c.a → (c.b = c.d ∨ apart c.d c.b) → (c.b = c.a ∨ apart c.a c.b) →
         ∃ t, exec .bauCommand s = .next t ∧ (t.bank b).fifo = rest ∧
           (∀ k, k < n / w →
             let x := val c.a k
             let y := val c.b k
             let z := val c.d k
             t.bytes (c.d + w * k) w = put (add (mul k1 z) (mul k2 y)) ∧
               t.bytes (c.a + w * k) w = put (add (mul k3 x) (mul (mul k4 y) y))) ∧
           ∀ a, (a < c.d ∨ c.d + n ≤ a) → (a < c.a ∨ c.a + n ≤ a) → t.byte a = s.byte a) ∧
       (c.op = 8 ∨ c.op = 9 → s.hasUe c.d 4 = false → s.latchedAt c.d = false →
         let l := (List.range (n / w)).map (val c.a)
         ∃ t, exec .bauCommand s = .next t ∧ (t.bank b).fifo = rest ∧ s.sameBytesBut t c.d 4 ∧
           t.bytes c.d 4 = bytesOf 4 (fp32.rne (if FVal.nan ∈ l then .nan
             else if c.op = 8 then l.foldl (fun acc x => add acc (mul x x)) (.fin false 0 0)
             else l.foldl (fun acc x => if cmpV acc (absV x) < 0 then absV x else acc) (.fin false 0 0))))) ∧
      ((s.bank b).fifo = c :: rest → c.nsec = 1 → c.op ∉ [8, 9] → (bauUsesA c.op && s.hasUe c.a 32) = true →
        ∃ t, exec .bauCommand s = .next t ∧ s.sameBytes t ∧ (t.bank b).fifo = rest ∧
          ((s.bank b).errs.toNat < 2 ^ 16 - 2 → (t.bank b).errs = (s.bank b).errs + (if c.op = 6 then 2 else 1))))

/-! ## Copy engines and ullage counters -/

/-- CPS, CPQ, HWT and HRL (10 R291, R295, R296; 13 R399, R401, R402): CPS writes one shadow, ELT's reserved bits staying 0;
CPQ returns the TID's status, 3 for one that is not the kernel's, and acquires where it is done; HWT goes on once the handle
is in the state asked for; HRL frees a handle of its kernel, or none's, that is at rest, and is PROT for another's.

CPL and the transfers (10 R292 to R297; 13 R400): CPL whose handles may be taken claims them for its kernel, and where they
are ready releases, queues a transfer with the thread's shadows at an engine with room on its die and returns its TID; while a
store, a handle or the engines make it wait it only holds the claim; it is RESERVE or PROT by its checks. The engine starts
the first transfer of its queue that waits for no suspended window, and performs it whole (model's choice, log entry 45), and,
once every remote part is acknowledged, ends it: it is counted and the TID takes its status.

ULS and ULR (06 R158, R163; 13 R403, R404): ULS of a counter of no other job, from a proper descriptor whose range is mapped
and bound within the limits, arms it with COUNT 0 and returns 0, TOTAL 0 disarms it, a range beyond the limits returns its
status; ULR returns a state word. A number above 16,383 or a bad descriptor is ILLEGAL, a counter of firmware, of the queues'
range (04 R77) or of another job PROT. Model's choice: dirty lines are written through before the arming (log entry 66).

What counts and what it starts (06 R159 to R163, R494): a report or a feed adds to an armed counter's COUNT; reaching TOTAL
for the first time fires it and performs its action once; a disarmed counter ignores both; a write of TOTAL is taken and
compared with COUNT. A KIND 3 action adds 1 to its word where its home lets it and is a record of the cause where not. A
launch starts its thread in a free slot. Model's choices: COUNT modulo 2^48 (log entry 47), TOTAL compared before it is cut
(67), a KIND 3 action held at a suspended window (174). -/
def Obligations.CopiesHandlesAndCounters : Prop :=
  (∀ (s : State) (d a h : BitVec 5) (sel : BitVec 14) (st : BitVec 2), s.performs →
      let k := s.core (coreOf s.cur)
      let x := Store.get Handle.init h.toNat k.handles
      (exec (.cps a sel) s =
        .next ((s.setTh { s.th with shadows := (Store.put 0 sel.toNat
          (if sel = 11 then s.g a &&& 0xF_FFFF_F7FF else s.g a) s.th.shadows) }).retire)) ∧
      (Store.get none ((s.g a).toNat % 65536) k.tids = none → exec (.cpq d a) s = .next (s.retireG d 3)) ∧
      (∀ q, Store.get none ((s.g a).toNat % 65536) k.tids = some q → q.job = s.th.job → q.kid = s.th.kid →
        exec (.cpq d a) s = .next ((if q.status.toNat % 4 = 1 ∨ q.status.toNat % 4 = 2 then s.acquire .pkg else s).retireG d
          q.status)) ∧
      (x.st = ([.free, .filling, .full, .draining] : List HState).getD st.toNat .free →
        exec (.hwt st h) s = .next (if st = 0 ∨ st = 2 then s.acquire .pkg else s).retire) ∧
      (x.st ≠ ([.free, .filling, .full, .draining] : List HState).getD st.toNat .free →
        exec (.hwt st h) s = .next (s.setTh { s.th with park := .retry 0x72 })) ∧
      ((x.owner = none ∨ x.owner = some (s.th.job, s.th.kid)) → (x.st = .free ∨ x.st = .full) →
        exec (.hrl h) s =
          .next ((s.setCore (coreOf s.cur) { k with handles := Store.put Handle.init h.toNat Handle.init k.handles }).retire)) ∧
      ((x.owner = none ∨ x.owner = some (s.th.job, s.th.kid)) → (x.st = .filling ∨ x.st = .draining) →
        exec (.hrl h) s = .next (s.setTh { s.th with park := .retry 0x73 })) ∧
      (∀ o, x.owner = some o → o ≠ (s.th.job, s.th.kid) → exec (.hrl h) s = .next (s.trapFree 0x05))) ∧
  (∀ (s : State) (d : BitVec 5) (e : Nat) (t : Transfer) (rest : List Transfer),
      let elt := (shadow s.th.shadows 11).toNat
      let hs := (dstHandle elt).toList ++ (srcHandle elt).toList
      let cl := s.claimHandles hs
      let r := cl.release (s.th.effRelease .die)
      let ready := (r.core (coreOf s.cur)).handlesReady (dstHandle elt) (srcHandle elt)
      (∀ h ∈ hs, ((cl.core (coreOf s.cur)).handle h).owner = some (s.th.job, s.th.kid) ∧
        ((cl.core (coreOf s.cur)).handle h).st = ((s.core (coreOf s.cur)).handle h).st) ∧
      (s.performs → s.cplCheck hs = none →
        (s.th.sb ≠ [] ∨ ready = false ∨ r.pickEngine (dieOf (coreOf s.cur)) = none) →
        exec (.cpl d) s = .next (cl.setTh { s.th with park := .retry 0x70 })) ∧
      (s.performs → ∀ c, s.cplCheck hs = some c → exec (.cpl d) s = .next (s.trapFree c)) ∧
      (s.performs → s.cplCheck hs = none → s.th.sb = [] → ready = true →
        r.pickEngine (dieOf (coreOf s.cur)) = some e →
        ∃ u n q, exec (.cpl d) s = .next u ∧ u.th = (r.th.setGr d.toNat (BitVec.ofNat 64 n)).go (s.th.pc + 4) 1 ∧
          (u.engine e).queue = (r.engine e).queue ++ [q] ∧ q.tidNum = n ∧ q.shadows = s.th.shadows ∧ q.job = s.th.job ∧
          q.kid = s.th.kid ∧ q.core = coreOf s.cur ∧ q.started = false ∧
          ∃ v, Store.get none n (u.core (coreOf s.cur)).tids = some v ∧ v.status = 0 ∧ v.job = s.th.job ∧ v.kid = s.th.kid) ∧
      ((s.engine s.arg.n).queue = [] → exec .copyTransferStart s = .next s ∧ exec .copyTransferComplete s = .next s) ∧
      ((s.engine s.arg.n).queue = t :: rest →
        ((∀ x ∈ t :: rest, x.started = false) → s.ordReady t = true → s.engineHeld s.arg.n t.num = false →
          (s.runTransfer s.arg.n t).waits = none →
          let q := s.runTransfer s.arg.n t
          exec .copyTransferStart s = .next ((q.st.mapTransfer s.arg.n t.num (fun x =>
            { x with started := true, err := q.err, oor := q.oor, clipped := isClipped x.shadows && q.err != 1 })).sendParts
              s.arg.n t q.sends.reverse)) ∧
        ((∃ x ∈ t :: rest, x.started = true) → exec .copyTransferStart s = .next s) ∧
        ((∀ x ∈ t :: rest, x.started = false ∨ x.remote ≠ 0) → exec .copyTransferComplete s = .next s) ∧
        (t.started = true → t.remote = 0 →
          ∃ u, exec .copyTransferComplete s = .next u ∧ s.sameBytes u ∧
            (u.engine s.arg.n).done = (s.engine s.arg.n).done + 1 ∧
            (u.engine s.arg.n).queue = (t :: rest).filter (fun x => x.num != t.num) ∧
            (∀ v, Store.get none t.tidNum (s.core t.core).tids = some v → v.job = t.job → v.kid = t.kid →
              Store.get none t.tidNum (u.core t.core).tids = some { v with status := t.status })))) ∧
  (∀ (s r : State) (d a b : BitVec 5) (ws : List Word) (rs : List (Nat × Nat)), s.performs →
      let n := (s.g a).toNat
      let mine := fun (k : Counter) => k.fw = false ∧ ¬ (3840 ≤ n ∧ n < 4096) ∧ (k.owner = none ∨ k.owner = some s.th.job)
      (16383 < n → exec (.uls d a b) s = .next (s.trapFree 0x01) ∧ exec (.ulr d a) s = .next (s.trapFree 0x01)) ∧
      (n ≤ 16383 →
        (mine (s.counter n) →
          let k := s.counter n
          let flag := fun (f : Bool) (i : Nat) => if f = true then 2 ^ i else 0
          exec (.ulr d a) s = .next ((s.acquire .pkg).retireG d (BitVec.ofNat 64
            (k.count.toNat + flag k.armed 48 + flag k.fired 49 + flag k.overran 50 + k.owner.getD 0 * 2 ^ 52 +
              flag k.owner.isSome 60)))) ∧
        (¬ mine (s.counter n) → exec (.ulr d a) s = .next (s.trapFree 0x05)) ∧
        ((s.g b).toNat % 8 ≠ 0 → exec (.uls d a b) s = .next (s.trap 0x03 (s.g b))) ∧
        ((s.g b).toNat % 8 = 0 → s.loadWords 0x74 (s.g b) 8 = .ok (ws, r) →
          (nth 0 ws 2 ≠ 0 → badUls ws = true → exec (.uls d a b) s = .next (r.trap 0x01 (s.g b))) ∧
          (r.th.sb = [] → r.th.job = s.th.job → mine (r.counter n) →
            (nth 0 ws 2 = 0 → exec (.uls d a b) s = .next ((r.setCounter n
              { r.counter n with total := 0, armed := false, owner := none, ranges := [], frags := [] }).retireG d 0)) ∧
            (nth 0 ws 2 ≠ 0 → badUls ws = false → r.bindRange r.th.job (nth 0 ws 0).toNat (nth 0 ws 1).toNat = .ok rs →
              let f := r.flushRlc (coreOf r.cur)
              let st := f.ulsStatus n rs
              (st ≠ 0 → exec (.uls d a b) s = .next (f.retireG d (BitVec.ofNat 64 st))) ∧
              (st = 0 → ∃ u, exec (.uls d a b) s = .next u ∧ u.th = (f.th.setGr d.toNat 0).go (f.th.pc + 4) 1 ∧
                (u.counter n).total = (nth 0 ws 2).setWidth 48 ∧ (u.counter n).count = 0 ∧ (u.counter n).armed = true ∧
                (u.counter n).fired = false ∧ (u.counter n).overran = false ∧ (u.counter n).owner = some s.th.job ∧
                (u.counter n).ranges = rs)))))) ∧
  (∀ (s : State) (c : Counter),
      (s.counter s.arg.n = c → c.armed = false → exec .counterFeedWrite s = .next s) ∧
      (s.counter s.arg.n = c → c.armed = true → c.fired = true → c.overran = true →
        exec .counterFeedWrite s = .next (s.setCounter s.arg.n { c with count := c.count + s.arg.v.setWidth 48 })) ∧
      (s.counter s.arg.n = c → c.armed = true → c.fired = false →
        (c.count + s.arg.v.setWidth 48).toNat < c.total.toNat →
        exec .counterFeedWrite s = .next (s.setCounter s.arg.n { c with count := c.count + s.arg.v.setWidth 48 })) ∧
      (s.counter s.arg.n = c → c.armed = true → c.fired = false →
        (c.count + s.arg.v.setWidth 48).toNat = c.total.toNat →
        exec .counterFeedWrite s = .next ((s.setCounter s.arg.n
          { c with count := c.count + s.arg.v.setWidth 48, fired := true }).ullageAction s.arg.n)) ∧
      (let s1 := s.setCounter s.arg.n { c with count := c.count + s.arg.v.setWidth 48, fired := true }
       s.counter s.arg.n = c → c.armed = true → c.fired = false → (c.count + s.arg.v.setWidth 48).toNat = c.total.toNat →
        c.fw = false → c.kind.toNat = 3 → noStorage c.incPa = false → s.foreign c.job c.incPa 8 = false → isView c.incPa = false →
        (s.writeAns c.incPa 8 c.job = .ok → s.hasUe c.incPa 8 = false →
          ∃ t, exec .counterFeedWrite s = .next t ∧ s.sameBytesBut t c.incPa 8 ∧
            t.bytes c.incPa 8 = wordBytes (BitVec.ofNat 64 (natOf (s.bytes c.incPa 8) + 1))) ∧
        (∀ p, s.writeAns c.incPa 8 c.job = .held p → exec .counterFeedWrite s =
          .next (s1.setPart p { s.part p with heldIncs := (s.part p).heldIncs ++ [(s.arg.n, c.incPa)] })) ∧
        (∀ k, s.writeAns c.incPa 8 c.job = .cause k →
          exec .counterFeedWrite s = .next (s1.counterRecord s.arg.n k (BitVec.ofNat 64 c.incPa)))) ∧
      (s.counter s.arg.m = c → c.armed = false →
        exec .ullageCountReport s = .next (s.setCounter s.arg.m { c with frags := Store.put 0 s.arg.n 0 c.frags })) ∧
      (s.counter s.arg.m = c → c.armed = true → c.fired = false →
        (c.count + BitVec.ofNat 48 (Store.get 0 s.arg.n c.frags)).toNat < c.total.toNat →
        exec .ullageCountReport s = .next (s.setCounter s.arg.m
          { c with frags := Store.put 0 s.arg.n 0 c.frags
                   count := c.count + BitVec.ofNat 48 (Store.get 0 s.arg.n c.frags) })) ∧
      (s.counter s.arg.n = c → (c.armed = false ∨ c.fired = true) →
        exec .counterTotalWrite s = .next (s.setCounter s.arg.n { c with total := s.arg.v.setWidth 48 })) ∧
      (s.counter s.arg.n = c → c.armed = true → c.fired = false →
        (c.count.toNat < (s.arg.v.setWidth 48).toNat →
          exec .counterTotalWrite s = .next (s.setCounter s.arg.n { c with total := s.arg.v.setWidth 48 })) ∧
        (c.count = s.arg.v.setWidth 48 →
          exec .counterTotalWrite s = .next ((s.setCounter s.arg.n
            { c with total := s.arg.v.setWidth 48, fired := true }).ullageAction s.arg.n))) ∧
      (∀ i r slot rest id, (indexed s.spawns).find? (fun p => p.2.counter == some s.arg.n) = some (i, r) →
        r.waiter = none → r.held = false → (s.job r.job).gmode = 0 → s.freeSlots r.job r.kid r.core r.slots = slot :: rest → s.freeId r.job = some id →
        ∃ t, exec .ullageLaunch s = .next t ∧ t.spawns = s.spawns.eraseIdx i ∧
          (let x := t.thread (r.core * 16 + slot)
           x.live = true ∧ x.job = r.job ∧ x.kid = r.kid ∧ x.tid = BitVec.ofNat 14 id ∧ x.pc = r.pc ∧ x.park = .running)))

/-! ## Trellis streams -/

/-- Control and k instructions of a stream (14 R424, R427 to R433; 09 R243 to R246): in the cycle of its issue each has its
effect and the stream goes on past it after its occupancy: DLY after n1 + 1 cycles, the others after 1. NOP, DLY and WUT
change nothing else; TKP enters a token at the end of the cycle; KLI, KLIHI, KLIADD, KLIMUL and KOP write a k register; TKW
takes a token; BLK opens its body for its count or skips it; END ends the stream; BRC runs or skips the BLK or END after it, a
BRC that ends a block which runs again skipping nothing, the model's choice (log entry 86). One whose halfwords hold an
uncorrectable error raises MEMORY_UE (02 R43). In any other cycle an instruction changes nothing, and TKW stays where no token
is there. -/
def Obligations.StreamControl : Prop :=
  ∀ (s : State) (n1 : BitVec 10) (ka kb kd ks w : BitVec 4) (fifo : BitVec 3) (i20 : BitVec 20) (i16 : BitVec 16)
    (op : BitVec 2) (len : BitVec 12) (kind sense : BitVec 1) (count : BitVec 13) (bit : BitVec 6),
    let past := fun (t : State) (n occ : Nat) => (t.setCs (t.cs.advance n occ)).undecide
    let r1 := s.loaded 1
    let r2 := s.loaded 2
    (s.mayIssue = false → ∀ i ∈ ([.nop, .dly n1, .wut ka kb, .tkp fifo ks, .tkw fifo kd, .kli kd i20, .kliHi kd i16,
        .kliAdd kd ks i16, .kliMul kd ks i16, .kop op kd ks, .blk len kind count, .endT, .brc w bit sense] : List Instr),
      exec i s = .next s) ∧
    (s.mayIssue = true →
      (∀ q ∈ ([(.nop, 1, 1, r1), (.dly n1, 1, n1.toNat + 1, r1), (.wut ka kb, 2, 1, r2),
          (.tkp fifo ks, 1, 1, r1.later 0 (.token fifo.toNat (r1.kr ks))),
          (.kli kd i20, 2, 1, r2.setKr kd (i20.signExtend 32)),
          (.kliHi kd i16, 2, 1, r2.setKr kd (BitVec.ofNat 32 (i16.toNat * 2 ^ 16 + (r2.kr kd).toNat % 2 ^ 16))),
          (.kliAdd kd ks i16, 2, 1, r2.setKr kd (r2.kr ks + i16.signExtend 32)),
          (.kliMul kd ks i16, 2, 1, r2.setKr kd (r2.kr ks * i16.setWidth 32)),
          (.kop 0 kd ks, 1, 1, r1.setKr kd (r1.kr kd + r1.kr ks)), (.kop 1 kd ks, 1, 1, r1.setKr kd (r1.kr kd - r1.kr ks)),
          (.kop 2 kd ks, 1, 1, r1.setKr kd (r1.kr ks)), (.kop 3 kd ks, 1, 1, r1.setKr kd (r1.kr kd + ks.signExtend 32))] :
            List (Instr × Nat × Nat × State)),
        (s.fetchUe q.2.1 = false → exec q.1 s = .next (past q.2.2.2 q.2.1 q.2.2.1)) ∧
        (s.fetchUe q.2.1 = true → exec q.1 s = .next s.ueStop)) ∧
      (s.ct.fifo fifo.toNat ≠ [] → s.fetchUe 1 = false →
        exec (.tkw fifo kd) s = .next (past (r1.popToken fifo.toNat kd) 1 1)) ∧
      (s.fetchUe 1 = false → exec .endT s = .next (r1.setCs { r1.cs with ended := true }).undecide) ∧
      (s.fetchUe 1 = true → exec .endT s = .next s.ueStop ∧
        (s.ct.fifo fifo.toNat ≠ [] → exec (.tkw fifo kd) s = .next s.ueStop)) ∧
      (s.fetchUe 2 = true → ∀ i ∈ ([.blk len kind count, .brc w bit sense] : List Instr), exec i s = .next s.ueStop) ∧
      (s.fetchUe 2 = false →
       let c := if kind = 0 then count.toNat else (r2.cs.kr (count.toNat % 16)).toNat
       let body := { r2.cs with spc := r2.cs.spc + 2, next := r2.cs.next + 1 }
       (c = 0 → exec (.blk len kind count) s = .next (past r2 (2 + len.toNat) 1)) ∧
       (c ≠ 0 → r2.cs.outer = none → exec (.blk len kind count) s = .next (r2.setCs { body with
        outer := some { start := r2.cs.spc + 2, len := len.toNat, left := c,
                        held := decide (2 + len.toNat ≤ 1024) } }).undecide) ∧
       (∀ o, c ≠ 0 → r2.cs.outer = some o → exec (.blk len kind count) s = .next (r2.setCs { body with
        inner := some { start := r2.cs.spc + 2, len := len.toNat, left := c,
                        held := decide (2 + len.toNat ≤ 1024) || o.held } }).undecide)) ∧
      (∀ run, s.fetchUe 2 = false → (s.decision = some (.brc run) ∨
          (s.decision = none ∧ run = ((Store.get 0 w.toNat s.ct.visible).getLsbD bit.toNat == (sense == 1)))) →
        (run = true → exec (.brc w bit sense) s = .next (past r2 2 1)) ∧
        (run = false → (r2.cs.advance 2 1).spc ≠ r2.cs.spc + 2 → exec (.brc w bit sense) s = .next (past r2 2 1)) ∧
        (run = false → (r2.cs.advance 2 1).spc = r2.cs.spc + 2 →
          ∀ i z, s.instrAt s.curTile s.curSt (r2.cs.spc + 2) (r2.cs.next + 1) = some (i, z) →
          let skip := fun (n : Nat) => (r2.setCs ((r2.cs.advance 2 1).advance n 0)).undecide
          (∀ l k c, i = .blk l k c → exec (.brc w bit sense) s = .next (skip (2 + l.toNat))) ∧
          (i = .endT → exec (.brc w bit sense) s = .next (skip 1))))) ∧
    (s.ct.fifo fifo.toNat = [] → exec (.tkw fifo kd) s = .next s)

/-- HLD, TLD, HST and HAC (14 R427, R434 to R437): with the address that the check point translated, the transfer becomes
granules of 64 bytes, granule j due 640 + j cycles after the issue, a load carrying the bytes at their homes, a store those of
the tile, which are read at the issue as the model chooses (log entry 16); the stream goes on after a cycle per granule,
MEMORY_UE of a source coming at the issue too (log entry 50, the model's choice). Where no place was found the partition
faults with BLOCKMAP and the stream stays; where the instruction's own halfwords hold an uncorrectable error it is MEMORY_UE
(02 R43).

LKS, LKR, LKA, WIN, WCL, PRD, VLT and SCP (14 R438 to R445; 09 R254, R264, R268): LKS sends n1 + 1 flits of 64 bytes that
depart from the next cycle on; LKR and LKA cover the n1 + 1 cycles from the next on; WIN opens its window in the next cycle,
to close n cycles after its issue or at a WCL, one that its WCL's check point has met already as that decided (log entry 59,
the model's choice); WCL closes its window in this cycle; PRD reads half of the visible post register, or whether it was
posted; VLT puts the latch that its check point took in its slot; SCP's copy takes effect when its last cycle ends. A source
or an instruction whose own halfwords hold an uncorrectable error raises MEMORY_UE (02 R43). -/
def Obligations.StreamTransfersAndExchange : Prop :=
  (∀ (s : State) (kt kv : BitVec 4) (n16 : BitVec 14) (vchk : BitVec 1) (aty : BitVec 2), s.mayIssue = true →
      let past := fun (t : State) (n occ : Nat) =>
        let u := t.setCs (t.cs.advance n occ)
        if occ = 0 then { u with agenda := .stream s.curTile s.curSt :: u.agenda } else u.undecide
      let n := 16 * n16.toNat
      let occ := ceilDiv n 64
      let r := s.loaded 2
      (s.hbmChoice kt kv n16 = none →
        ∀ i ∈ ([.hld kt kv n16, .tld kt kv n16 vchk, .hst kt kv n16, .hac kt kv n16 aty] : List Instr),
          exec i s = .next s.blockmapStop) ∧
      (∀ off pas, s.hbmChoice kt kv n16 = some (off, pas) →
        (∀ q ∈ ([(.hld kt kv n16, true, none, none),
            (.tld kt kv n16 vchk, true, none, some (r.tldTrailer pas vchk)), (.hst kt kv n16, false, none, none),
            (.hac kt kv n16 aty, false, some aty.toNat, none)] :
              List (Instr × Bool × Option Nat × Option (List Byte × Bool × Option Latch))),
          s.fetchUe 2 = false → q.2.1 = true ∨ s.sramUe s.curTile off n = false →
          ∃ l, exec q.1 s = .next (past (r.addGranules l) 2 occ) ∧
            l.length = ceilDiv ((pas.map (·.2.1)).foldl (· + ·) 0) 64 ∧
            ∀ (j : Nat) (g : Granule), l[j]? = some g → g.cyc = r.cp.scyc + 640 + j ∧ g.load = q.2.1 ∧ g.acum = q.2.2.1 ∧ g.off = off + 64 * j ∧
              g.trailer = (if j + 1 = l.length then q.2.2.2 else none) ∧
              g.data = if q.2.1 = true then r.rangeBytes g.pas
                else r.sram (off + 64 * j) (Nat.min 64 ((pas.map (·.2.1)).foldl (· + ·) 0 - 64 * j))) ∧
        (s.sramUe s.curTile off n = true →
          ∀ i ∈ ([.hst kt kv n16, .hac kt kv n16 aty] : List Instr), exec i s = .next s.ueStop) ∧
        (s.fetchUe 2 = true →
          ∀ i ∈ ([.hld kt kv n16, .tld kt kv n16 vchk, .hst kt kv n16, .hac kt kv n16 aty] : List Instr),
            exec i s = .next s.ueStop))) ∧
  (∀ (s : State) (ks kt kl kd w id : BitVec 4) (form dir ty part slot : BitVec 2) (out : BitVec 1) (n1 : BitVec 10)
      (n22 : BitVec 22) (n16 : BitVec 14), s.mayIssue = true →
      let past := fun (t : State) (n occ : Nat) =>
        let u := t.setCs (t.cs.advance n occ)
        if occ = 0 then { u with agenda := .stream s.curTile s.curSt :: u.agenda } else u.undecide
      let r := s.loaded 2
      let line := fun (t : State) (k : BitVec 4) => (t.kr k).toNat / 64 * 64
      let para := fun (t : State) (k : BitVec 4) => (t.kr k).toNat / 16 * 16
      let n := n1.toNat + 1
      let b := 16 * n16.toNat
      (s.fetchUe 2 = true → ∀ i ∈ ([.lks ks form dir n1, .lkr kt dir n1, .lka kl dir out n1 ty kd, .win id n22, .wcl id,
        .prd kd w part, .vlt slot, .scp kt ks n16] : List Instr), exec i s = .next s.ueStop) ∧
      (s.fetchUe 2 = false →
      (s.sramUe s.curTile (line s ks) (64 * n) = false →
        exec (.lks ks form dir n1) s = .next (past ((List.range n).foldl (fun (t : State) (j : Nat) =>
          t.sendFlit form.toNat dir.toNat (r.cp.scyc + 1 + j) (r.sram (line s ks + 64 * j) 64)) r) 2 n)) ∧
      exec (.lkr kt dir n1) s = .next (past (r.addRecv
        { dir := dir.toNat, first := r.cp.scyc + 1, n := n, seq := r.ct.seq, kind := 0, ty := 0, off := line r kt, dst := 0 })
        2 1) ∧
      exec (.lka kl dir out n1 ty kd) s = .next (past (r.addRecv
        { dir := dir.toNat, first := r.cp.scyc + 1, n := n, seq := r.ct.seq, kind := if out = 0 then 1 else 2, ty := ty.toNat,
          off := line r kl, dst := line r kd }) 2 1) ∧
      (∀ d, r.cp.winDefs.find? (fun d => d.wid == id.toNat) = some d →
        ∃ x, exec (.win id n22) s = .next (past (r.setCt { r.ct with
            wins := r.ct.wins.filter (fun y => y.defn.wid != id.toNat) ++ [x] }) 2 1) ∧
          (r.ct.early d.wid = none → x.defn = d ∧ x.isOpen = false ∧ x.passed = false ∧
            x.close = if n22 = 0 then none else some (r.cp.scyc + n22.toNat)) ∧
          (∀ y, r.ct.early d.wid = some y → x.defn = y.defn ∧ x.passed = y.passed ∧ x.close = y.close) ∧
          x.opens = r.cp.scyc + 1 ∧ x.byWcl = (n22 == 0)) ∧
      (r.cp.winDefs.find? (fun d => d.wid == id.toNat) = none → exec (.win id n22) s = .next (past r 2 1)) ∧
      exec (.wcl id) s = .next (past ((r.setCt { r.ct with wins := r.ct.wins.map (fun (x : Win) =>
        if x.defn.wid = id.toNat then { x with close := some r.cp.scyc } else x) }).push .windowClose
          (Arg.ofNM r.curTile id.toNat)) 2 1) ∧
      (let v := Store.get 0 w.toNat r.ct.visible
       exec (.prd kd w part) s = .next (past (r.setKr kd
        (if part = 0 then v.setWidth 32 else if part = 1 then (v >>> 32).setWidth 32
         else if r.ct.visPosted.getLsbD w.toNat = true then 1 else 0)) 2 1)) ∧
      (∀ sl l, s.decision = some (.vlt sl l) →
        exec (.vlt slot) s = .next (past (r.setCp { r.cp with latches := setAt r.cp.latches sl l }) 2 1)) ∧
      (s.sramUe s.curTile (para s ks) b = false →
        exec (.scp kt ks n16) s = .next (past (r.later (2 * ceilDiv b 256 - 1) (.sram (para r kt) (r.sram (para s ks) b) false))
          2 (2 * ceilDiv b 256))) ∧
      (s.sramUe s.curTile (para s ks) b = true → exec (.scp kt ks n16) s = .next s.ueStop) ∧
      (s.sramUe s.curTile (line s ks) (64 * n) = true → exec (.lks ks form dir n1) s = .next s.ueStop)))

/-- F-stream instructions (14 R427, R446 to R453): each reads its count of packed elements from the tile at its issue and its
result takes effect after the stated cycles; a conversion of no elements takes none, its stream issuing again in the cycle;
rounding mode 4 counts a use of the stochastic stream; TRN's result is the transposed 64 × 64 tile, FMT's the k register's
word repeated. A source in error, or a granule in error that PAK's result covers in part, raises MEMORY_UE at the issue, the
model's choice of the time (log entry 50), as does an instruction in error.

M-stream instructions and the vector unit (14 R427, R454 to R466): WLD lays out a weight tile; MMA's row m takes effect c0 + m
+ 6 cycles after the issue; ACZ clears rows at the end of the cycle; ACR delivers rows from an accumulator bank; VAR, VCM, VSL
and VRD act on the elements of y registers, VLY and VSY move 256 bytes, VTR moves a row between a y register and a bank. A
source in error, or a granule in error that the result of WLD or ACR covers in part, raises MEMORY_UE at the issue, the
model's choice of the time (log entry 50); the offsets of ACR and WLD are taken without masking, its choice too (log entry
63). -/
def Obligations.StreamFormatsAndMath : Prop :=
  (∀ (s : State) (kt ks kn kp : BitVec 4) (f df sf sh : BitVec 5) (rm : BitVec 3) (nosat sx : BitVec 1) (ty op sz : BitVec 2)
      (n16 : BitVec 14), s.mayIssue = true →
      let past := fun (t : State) (n occ : Nat) =>
        let u := t.setCs (t.cs.advance n occ)
        if occ = 0 then { u with agenda := .stream s.curTile s.curSt :: u.agenda } else u.undecide
      let r := s.loaded 2
      let c := Nat.min (s.kr kn).toNat 65536
      let src := (s.kr ks).toNat / 16 * 16
      let dst := (r.kr kt).toNat / 16 * 16
      let steps := ceilDiv c 32
      let z := 2 ^ sz.toNat
      let torn := fun (b : List Byte) => brokenEnds dst b.length
      (s.fetchUe 2 = true → ∀ i ∈ ([.qnt kt ks f rm nosat ty kn, .dqn kt ks f rm nosat ty kn, .cvt kt ks df sf rm nosat kn,
        .srs kt ks f rm sh kn, .trn kt ks sz, .pak kt ks op sx kn, .fmt kt kp n16] : List Instr), exec i s = .next s.ueStop) ∧
      (s.fetchUe 2 = false →
      (∀ q ∈ ([(.qnt kt ks f rm nosat ty kn, packedLen (qtype ty).bits c, 2 * steps + 1, 2 * steps + 1, rm,
            fun b => r.quantTile f.toNat rm nosat (decodeList (qtype ty) b c), false),
          (.dqn kt ks f rm nosat ty kn, dqnLen f.toNat c, 2 * steps, 2 * steps, rm,
            fun b => r.convTo (qtype ty) rm (nosat == 0) (dqnValues f.toNat c b), false),
          (.cvt kt ks df sf rm nosat kn, packedLen (elemOf sf.toNat).bits c, 2 * steps, 2 * steps, rm,
            fun b => r.convTo (elemOf df.toNat) rm (nosat == 0) (decodeList (elemOf sf.toNat) b c), false),
          (.srs kt ks f rm sh kn, 4 * c, 2 * steps, 2 * steps, rm,
            fun b => r.convTo (elemOf f.toNat) rm true ((decodeList (.int 32) b c).map (FVal.downBy sh.toNat)), false),
          (.trn kt ks sz, 4096 * z, 32 * z, 32 * z, 0, transpose64 z, false),
          (.pak kt ks op sx kn, pakLen op c, 2 * ceilDiv c 256, 2 * ceilDiv c 256, 0, pakBytes op sx c, true)] :
            List (Instr × Nat × Nat × Nat × BitVec 3 × (List Byte → List Byte) × Bool)),
        let n := q.2.1
        let w := r.later q.2.2.1 (.sram dst (q.2.2.2.2.2.1 (r.sram src n)) false)
        let bad := s.sramUe s.curTile src n = true ∨
          (q.2.2.2.2.2.2 = true ∧ ∃ x ∈ torn (q.2.2.2.2.2.1 (s.sram src n)), s.sramUe s.curTile x.1 x.2 = true)
        (¬ bad →
          exec q.1 s = .next (past (if q.2.2.2.2.1 = 4 then w.setCs { w.cs with sr := w.cs.sr + 1 } else w) 2 q.2.2.2.1)) ∧
        (bad → exec q.1 s = .next s.ueStop)) ∧
      exec (.fmt kt kp n16) s = .next (past (r.later (ceilDiv (16 * n16.toNat) 256 - 1) (.sram dst
        (List.replicate (4 * n16.toNat) (bytesOf 4 (r.kr kp).toNat)).flatten false)) 2 (ceilDiv (16 * n16.toNat) 256)) ∧
      (∀ (b : List Byte) (i j k : Nat), i < 64 → j < 64 → k < z →
        nth 0 (transpose64 z b) ((64 * j + i) * z + k) = nth 0 b ((64 * i + j) * z + k)))) ∧
  (∀ (s : State) (kt ks ka kw kr kb : BitVec 4) (f af wf y yd ya yb yc : BitVec 5) (bank : BitVec 1) (m1 row : BitVec 6)
      (rm vop : BitVec 3) (nosat : BitVec 1) (aty et : BitVec 2) (op cond : BitVec 4) (off : BitVec 16), s.mayIssue = true →
      let past := fun (t : State) (occ : Nat) =>
        let u := t.setCs (t.cs.advance 2 occ)
        if occ = 0 then { u with agenda := .stream s.curTile s.curSt :: u.agenda } else u.undecide
      let r := s.loaded 2
      let t := r.ct
      let el := fun (v : BitVec 5) (i : Nat) => yElem et (t.yreg v.toNat) i
      let each := fun (g : Nat → Nat) => yPack et ((List.range (etCount et)).map g)
      let addr := (s.kr kb).toNat / 8 * 8 + 8 * off.toNat
      let a0 := (s.kr ka).toNat / 16 * 16
      let w0 := (s.kr kw).toNat / 16 * 16
      let n := m1.toNat + 1
      let an := mmaLen af.toNat (n * kOf af.toNat)
      let wn := mmaLen wf.toNat (kOf af.toNat * nOf af.toNat)
      let len := wldBytes f.toNat
      let acr := bits (s.kr kr).toNat 13 8 + 1
      let drawn := fun (q : State) => q.quantTile f.toNat rm nosat (acrValues q.ct (bank == 1) aty.toNat ((q.kr kr).toNat % 64) acr)
      let torn := fun (k : Nat) => ∃ x ∈ brokenEnds (s.kr kt).toNat k, s.sramUe s.curTile x.1 x.2 = true
      (s.fetchUe 2 = true → ∀ i ∈ ([.acz bank row m1, .var yd ya yb yc et op, .vsy kb y off, .vcm yd ya yb cond et,
        .vsl yd ya yb yc et vop, .vrd yd ya vop et, .vtr bank bank row y, .acr kt kr bank aty f rm nosat, .vly kb y off,
        .wld kt ks f, .mma ka kw af wf bank m1] : List Instr), exec i s = .next s.ueStop) ∧
      (s.fetchUe 2 = false →
      (∀ q ∈ ([(.acz bank row m1, r.later 0 (.acc (bank == 1) (256 * row.toNat) (List.replicate (256 * n) 0))),
          (.var yd ya yb yc et 15, let v := varCvt (yb.setWidth 2) et (yc.toNat % 2) t.ftz (t.yreg ya.toNat)
            r.later 3 (.yreg yd.toNat v.1 v.2)),
          (.vsy kb y off, r.later 0 (.sram addr (t.yreg y.toNat) false)),
          (.vcm yd ya yb cond et, r.later 1 (.yreg yd.toNat 0 (each (fun i =>
            if vcmHolds et t.ftz cond.toNat (el ya i) (el yb i) = true then 2 ^ etBits et - 1 else 0)))),
          (.vsl yd ya yb yc et 4, r.later 1 (.ftz (yc.getLsbD 0))),
          (.vrd yd ya vop et, r.later 7 (.yreg yd.toNat 0
            (bytesOf 256 (treeReduce (vrdOp et t.ftz vop.toNat) 0 6 (yElems et (t.yreg ya.toNat)))))),
          (.vtr 0 bank row y, r.later 1 (.yreg y.toNat 0 (t.row (bank == 1) row.toNat))),
          (.vtr 1 bank row y, r.later 1 (.acc (bank == 1) (256 * row.toNat) (t.yreg y.toNat)))] : List (Instr × State)),
        exec q.1 s = .next (past q.2 1)) ∧
      (op ≠ 15 → exec (.var yd ya yb yc et op) s = .next (past (r.later (if op = 6 ∨ op = 7 then 15 else 3)
        (.yreg yd.toNat 0 (each (fun i => varElem et t.ftz op.toNat (el ya i) (el yb i) (el yc i))))) 1)) ∧
      (vop ≠ 4 → exec (.vsl yd ya yb yc et vop) s = .next (past (r.later 1 (.yreg yd.toNat 0 (each (fun i =>
        vslElem et vop.toNat yc.toNat (t.yreg ya.toNat) (t.yreg yb.toNat) (t.yreg yc.toNat) i)))) 1)) ∧
      (¬ torn (drawn s).length → ∃ w, exec (.acr kt kr bank aty f rm nosat) s = .next (past w (acr + 1)) ∧
        let v := r.later (acr + 2) (.sram (r.kr kt).toNat (drawn r) false)
        w = if rm = 4 then v.setCs { v.cs with sr := v.cs.sr + 1 } else v) ∧
      (torn (drawn s).length → exec (.acr kt kr bank aty f rm nosat) s = .next s.ueStop) ∧
      (s.sramUe s.curTile addr 256 = false →
        exec (.vly kb y off) s = .next (past (r.later 2 (.yreg y.toNat 0 (r.sram addr 256))) 1)) ∧
      (s.sramUe s.curTile (s.kr ks).toNat len = false → ¬ torn len →
        exec (.wld kt ks f) s = .next (past (r.later (2 * ceilDiv len 256) (.sram (r.kr kt).toNat
          (wldLayout f.toNat (r.sram (r.kr ks).toNat len)) false)) (2 * ceilDiv len 256))) ∧
      (s.sramUe s.curTile a0 an = false → s.sramUe s.curTile w0 wn = false →
        exec (.mma ka kw af wf bank m1) s = .next (past ((List.range n).foldl (fun (q : State) (m : Nat) =>
          q.later (mmaLead af wf + m + 6)
            (.mma (bank == 1) m af.toNat wf.toNat (actRow af.toNat n m (r.sram a0 an)) (r.sram w0 wn))) r) (mmaLead af wf + n))) ∧
      (s.sramUe s.curTile addr 256 = true → exec (.vly kb y off) s = .next s.ueStop) ∧
      (s.sramUe s.curTile (s.kr ks).toNat len = true ∨ torn len → exec (.wld kt ks f) s = .next s.ueStop) ∧
      (s.sramUe s.curTile a0 an = true ∨ s.sramUe s.curTile w0 wn = true → exec (.mma ka kw af wf bank m1) s = .next s.ueStop)))

/-! ## Partitions -/

/-- How a partition's schedule advances (09 R246 to R256, R262; 05 R135): a loading partition whose time has come runs from
schedule cycle −L on, no earlier, the anchor of a spanning one telling its other packages; a running one passes its check
point, opens and closes its windows in their cycles, lets the granules and flits of a cycle arrive or leave the package and
ends with its streams; a flit from another package is taken for TLAT cycles after its departure; a frozen one passes no check
point and does not end; a held POST is offered again; a cycle with no freeze and no fault goes on; a freeze that is over lets
the partition go on in the same cycle; a stall past its window's time-out is SLIP_TIMEOUT. The model's choice: schedule cycle
−L first (log entry 53), the X stream that a SLIP_TIMEOUT names (126), and the flit and its body by which an anchor starts the
other parts (156). -/
def Obligations.PlaneEvents : Prop :=
  ∀ (s : State),
    let k := s.arg.n
    let p := s.part k
    let tl := s.tile k
    (p.st = .running → p.started = true → p.frozen = false → exec .checkPoint s = .next (s.checkPoint k)) ∧
    (p.frozen = true → exec .checkPoint s = .next s ∧ exec .scheduleEnd s = .next s) ∧
    (p.st = .loading → p.started = false → p.startPtime.toNat ≤ s.pkg.clock.ptime.toNat + p.lead → s.isPart p = false →
      let t := s.setPart k { p with st := .running, started := true, scyc := -(p.lead : Int), startAt := s.cyc + p.lead }
      exec .scheduleStart s = .next ((if p.span = true then t.sideband (s.partPorts p) 3 p.flitId
        (s.pkg.clock.ptime + BitVec.ofNat 64 p.lead) (t.linkBody 0 0 p.job p.claimNo [p.ox, p.oy, p.w, p.h]) else t).push
          .checkPoint (Arg.ofN k))) ∧
    (s.pkg.clock.ptime.toNat + p.lead < p.startPtime.toNat → exec .scheduleStart s = .next s) ∧
    (let s1 := s.resolve k
     let q := s1.part k
     (q.st = .running → q.started = true → q.frozen = false → q.freezes = [] → q.faults = [] →
      exec .freezeTakesEffect s = .next { s1.setPart k q with agenda := (s1.setPart k q).cycleActs k ++ s1.agenda }) ∧
     (q.frozen = true → exec .freezeTakesEffect s = .next s) ∧
     (q.frozen = true → q.st ≠ .preempted → q.freezes.filter (fun f => decide (f.cyc = q.scyc) && !f.isOver s.cyc) = [] →
      let s2 := s1.setPart k { q with
        frozen := false, st := .running, freezes := q.freezes.filter (fun f => !decide (f.cyc = q.scyc)) }
      exec .freezeEnd s = .next { s2 with agenda := s2.cycleActs k ++ s2.agenda }) ∧
     (q.frozen = false → exec .freezeEnd s = .next s1)) ∧
    (p.frozen = false → exec .slipTimeout s = .next s) ∧
    (∀ f t w, p.frozen = true → p.st = .running → f ∈ p.freezes → f.cause = .stall t w → f.cyc = p.scyc → f.ends = none →
      p.stallFrom + p.timeoutOf w ≤ s.cyc →
      ∃ (late : List Nat) (fl : List PFault) (s2 : State), exec .slipTimeout s = .next (fl.foldl (fun v x => v.takeFault k x) s2) ∧ t ∈ late ∧
        let s1 := late.foldl (fun v x => v.noteFault k p.scyc 0x40 (some x) (some .x) []) s
        fl = sortFaults ((s1.part k).faults.filter (fun x => decide (x.cyc = p.scyc)))) ∧
    (∀ w, tl.wins.find? (fun w => w.defn.wid == s.arg.m) = some w →
      ((s.partOf k).goes = true → tl.part ≠ none → w.opens = (s.partOf k).scyc → w.isOpen = false →
        exec .windowOpen s =
          .next (s.setTile k ((tl.resetPosts w.defn.mask (s.partOf k).defaults).putWin { w with isOpen := true }))) ∧
      (w.opens ≠ (s.partOf k).scyc → exec .windowOpen s = .next s)) ∧
    ((s.partOf k).goes = true → tl.part ≠ none →
      exec .windowClose s = .next (s.setTile k { tl with
        wins := tl.wins.filter (fun w => !(w.defn.wid == s.arg.m && w.close == some (s.partOf k).scyc)) })) ∧
    (∀ q, s.posts[k]? = some q →
      exec .postArrival s = .next (State.performPost { s with posts := s.posts.eraseIdx k } q true)) ∧
    (tl.part = none → exec .hbmGranuleLanding s = .next s) ∧
    (∀ pk, tl.part = some pk → (s.part pk).st ≠ .preempted →
      (∀ g ∈ tl.gran, g.dueNow (s.part pk) s.cyc = true → g.passed ≠ none) →
      exec .hbmGranuleLanding s =
        .next ((tl.gran.filter (fun g => g.dueNow (s.part pk) s.cyc)).foldl (fun w g => w.landGranule k g) s)) ∧
    (s.arg.bytes = [] → ∀ f, (s.part s.arg.m).flits[k]? = some f → (s.part s.arg.m).goes = true →
      f.cyc = (s.part s.arg.m).scyc →
      let t := s.setPart s.arg.m { s.part s.arg.m with flits := (s.part s.arg.m).flits.eraseIdx k }
      exec .meshFlitArrival s = .next (match f.away with
        | some slot => t.flitAway s.arg.m f slot
        | none => t.arrive s.arg.m f)) ∧
    (s.arg.bytes ≠ [] → ∀ pk, tl.part = some pk → (s.part pk).started = true → (s.part pk).span = true →
      (s.part pk).scyc ≤ s.arg.i + s.pkg.pod.tlat.toNat →
      exec .meshFlitArrival s = .next (s.crossing pk k s.arg.m s.arg.i s.arg.b s.arg.bytes)) ∧
    (s.scheduleOver k = true → p.span = false →
      exec .scheduleEnd s = .next (((s.takePending k).endPartition k 0 p.result).launchDone p.job p.launch))

/-- POST and WWT (05 R125; 09 R253, R254, R258; 13 R407, R408): a POST with proper fields for a tile that a partition of the
job runs on, or is pre-empted on, releases and is performed on the tile, or on all tiles of the partition, its thread waiting
for it; WWT of a window that is open returns the window's check cycle, else it waits. A bad field is ILLEGAL; a tile of
another job's partition is PROT for a POST and WINDOW for a WWT, a tile with none WINDOW. The model's choice: a register POST
before SCYC 0 that retires with no effect (log entry 71), the scope at which a WWT acquires (72) and its WINDOW at another
job's tile (179).

VPUB and VQRY (06 R164 to R166; 13 R409, R410): VPUB of a copy of the job's own set, that no partition has latched, raises the
set's number by 1, makes the copy the published one, tags the copy's pages and returns the new number; a copy number out of
range is VINTAGE with EVAL 1, a latched copy 2, a number at its largest 3, another's set PROT. VQRY returns the set's state in
two registers. -/
def Obligations.PostsWaitsAndVintages : Prop :=
  (∀ (s r : State) (d a b : BitVec 5) (k : Nat) (x : Win), s.performs →
      let w := (s.g a).toNat
      let t := w % 1024
      let q : Post :=
        { thr := s.cur, part := k, tiles := if w / 2 ^ 10 % 2 = 1 then (s.part k).tiles else [t], form := w / 2 ^ 11 % 4,
          sel := w / 2 ^ 13 % 16, idx := w / 2 ^ 17 % 512, value := s.g b }
      (2 ^ 26 ≤ w ∨ q.form = 3 ∨ (q.form ≠ 2 ∧ q.idx ≠ 0) ∨ (q.form = 1 ∧ 2 ≤ q.sel) ∨ (q.form = 2 ∧ q.sel ≠ 0) →
        exec (.post a b) s = .next (s.trap 0x01 (s.g a))) ∧
      (postBad w = false →
        (s.addressed s.th.job t = none →
          exec (.post a b) s = .next (s.trapFree (if s.anyPartition t = true then 0x05 else 0x06))) ∧
        (s.addressed s.th.job t = some k → s.beforeRelease 0x78 .pkg = .ok r →
          (q.form ≠ 0 ∨ r.beforeStart k = false →
            exec (.post a b) s = .next ((r.setTh { r.th with park := .post }).performPost q false)) ∧
          (q.form = 0 → r.beforeStart k = true → exec (.post a b) s = .next r.retire))) ∧
      (2 ^ 14 ≤ w → exec (.wwt d a) s = .next (s.trap 0x01 (s.g a))) ∧
      (w < 2 ^ 14 → s.th.wwtFor = none →
        (s.addressed s.th.job t = none → exec (.wwt d a) s = .next (s.trapFree 0x06)) ∧
        (s.addressed s.th.job t = some k →
          ((s.tileOf k t).wins.find? (fun y => y.defn.wid == w / 2 ^ 10 % 16 && y.isOpen) = some x →
            exec (.wwt d a) s =
              .next ((s.acquire (s.wwtScope k t)).retireG d (x.checkCycle (s.part k).lead))) ∧
          ((s.tileOf k t).wins.find? (fun y => y.defn.wid == w / 2 ^ 10 % 16 && y.isOpen) = none →
            exec (.wwt d a) s = .next (s.setTh { s.th with park := .wwt k }))))) ∧
  (∀ (s : State) (d a b : BitVec 5), s.performs →
      let v := (s.g a).toNat
      let k := (s.g b).toNat
      let x := s.vset v
      let mine := v < 1024 ∧ x.used = true ∧ x.owner = s.th.job
      (¬ mine → exec (.vqry d a) s = .next (s.trapFree 0x05)) ∧
      (¬ mine → s.takeDeferred true = none → exec (.vpub d a b) s = .next (s.trapFree 0x05)) ∧
      (mine → exec (.vqry d a) s = .next ((s.setG d (BitVec.ofNat 64 (x.pub.toNat + x.pubcopy * 2 ^ 32 + x.ncopy * 2 ^ 34))).retireG
        (d + 1) (BitVec.ofNat 64 (natOf (x.latch.flatMap (fun l => bytesOf 2 l.toNat)))))) ∧
      (mine → s.takeDeferred true = none →
        (x.ncopy ≤ k → exec (.vpub d a b) s = .next (s.trap 0x07 1)) ∧
        (k < x.ncopy → nth 0 x.latch k ≠ 0 → exec (.vpub d a b) s = .next (s.trap 0x07 2)) ∧
        (k < x.ncopy → nth 0 x.latch k = 0 → x.pub = 0xFFFFFFFF → exec (.vpub d a b) s = .next (s.trap 0x07 3)) ∧
        (k < x.ncopy → nth 0 x.latch k = 0 → x.pub ≠ 0xFFFFFFFF → s.th.sb = [] →
          let r := s.release .pkg
          let t := { r with pageTags := r.pageTags.map (fun (p : Nat × PageTag) =>
            if p.2.member = some (v, k) then (p.1, { p.2 with tag := x.pub + 1 }) else p) }
          exec (.vpub d a b) s =
            .next ((t.setVset v { x with pub := x.pub + 1, pubcopy := k }).retireG d ((x.pub + 1).setWidth 64)))))

/-! ## Host commands -/

/-- Commands from the queues (04 R79 to R83, R85, R86): the store of a slot's last doorbell of an enabled queue takes the
record's number, its status and its bytes into the queue, BADREC for a record that is not proper, BADSEQ for a number that is
not the slot's next, and the queue takes its turn; a queue that is not enabled does nothing; while 16 of the slots' threads
run, or in retention, the command is kept. A completion whose record may be sent writes 28 bytes at its place in the ring from
byte 4 on, then the sequence number at byte 0, and the command is no longer owed; while no packet delivery context is free the
command stays owed (03 R54).

Which commands are refused and how (04 R86, R101): a command that the package's state refuses ends with the status alone:
DEGRADED for JOB.OPEN in a degraded package, BADJOB for one that names a job that is not open. -/
def Obligations.CommandsAreTakenOrRefused : Prop :=
  (∀ (s : State),
      let q := s.arg.n
      let sl := s.arg.m
      let s0 := s.setPkg { s.pkg with heldCmds := s.pkg.heldCmds.erase (q, sl) }
      let x := s0.queue q
      let b := s0.bytes (x.base + 64 * sl) 64
      ((4 ≤ q ∨ 64 ≤ sl ∨ x.enable = false) → exec .commandThread s = .next s) ∧
      (q < 4 → sl < 64 → x.enable = true →
        (s.arg.b = true → exec .commandThread s = .next (s.takeTurn q)) ∧
        (s.arg.b = false → s0.holdsCmd b = true →
          exec .commandThread s = .next (s0.keepCmd q sl (s0.pkg.power.st == .retention))) ∧
        (s.arg.b = false → s0.holdsCmd b = false → 16 ≤ s0.cmdThreads → exec .commandThread s = .next (s0.keepCmd q sl false)) ∧
        (s.arg.b = false → s0.holdsCmd b = false → s0.cmdThreads < 16 →
          let num := (x.nextseq.toNat + (sl + 64 - x.nextseq.toNat % 64) % 64) % 2 ^ 32
          let st := if recordOk b = false then 1 else if natOf (b.take 4) ≠ num then 2 else 0
          exec .commandThread s =
            .next (((s0.armSlot q sl).setQueue q { x with waiting := x.waiting ++ [(num, st, b)] }).takeTurn q))) ∧
      (∀ c, s.pkg.pendCmds.find? (fun c => c.isCmd q s.arg.m && c.ready) = some c →
        (s.hostBusy q c.seq = true → exec .commandCompletion s = .next s) ∧
        (s.hostBusy q c.seq = false → s.entryUsable hostJob q = true → s.pdcFull hostJob q = true → c.waits = true →
          exec .commandCompletion s = .next s) ∧
        (s.hostBusy q c.seq = false → s.entryUsable hostJob q = true → s.pdcFull hostJob q = true → c.waits = false →
          let r := s.notePdcWait hostJob q
          exec .commandCompletion s = .next (r.setPkg { r.pkg with pendCmds := s.pkg.pendCmds.map (fun p =>
            if p.isCmd q c.seq then { p with waits := true } else p) })) ∧
        (s.hostBusy q c.seq = false → ¬ (s.entryUsable hostJob q = true ∧ s.pdcFull hostJob q = true) →
          let place := (s.queue q).ring.toNat / 32 * 32 + c.seq % 64 * 32
          let s1 := s.setPkg { s.pkg with pendCmds := s.pkg.pendCmds.filter (fun p => !p.isCmd q c.seq) }
          exec .commandCompletion s =
            .next ((s1.hostWrite q c.seq (place + 4) (c.body s.pkg.clock.ptime)).hostWrite q c.seq place (bytesOf 4 c.seq)))) ∧
      (s.pkg.pendCmds.find? (fun c => c.isCmd q s.arg.m && c.ready) = none → exec .commandCompletion s = .next s)) ∧
  (∀ (s : State),
      let c := cmdOf s.arg.n s.arg.bytes
      (∀ st, s.cmdRefused c = some st →
        ∀ i ∈ ([.jobOpen, .jobClose, .map, .peer, .seed, .vintage, .query, .attest, .debug, .fwload, .start, .schedLoad,
            .klaunch, .preempt, .resume, .log, .power] : List Instr),
          exec i s = .next (s.doneCmd c st noResult)) ∧
      (s.pkg.starts.safe = false → s.logRefused c = false → s.pkg.sec.st = .degraded → c.op = 1 → s.cmdRefused c = some 12) ∧
      (s.pkg.starts.safe = false → s.logRefused c = false → s.pkg.sec.st = .secure → 2 ≤ c.op → c.op ≤ 10 →
        (256 ≤ c.job ∨ (s.job c.job).st = .closed) → s.cmdRefused c = some 4))

/-- Commands about one job (04 R87 to R92; 05 R102): JOB.OPEN takes the lowest free job and ASID with a new table, or is
BADARG or NORES; JOB.CLOSE ends the job's commands, launches, transfers, units, threads, counters and sets and erases its
tables, logs, peer table and key; MAP writes the leaves of its range and drops the job's TLB entries over it; PEER writes an
entry of the job's table; SEED sets the job's seed; VINTAGE reads or publishes; QUERY returns what its kind names. The model's
choice: JOB.CLOSE ends and completes in one act (log entry 80). -/
def Obligations.JobCommands : Prop :=
  ∀ (s : State), let c := cmdOf s.arg.n s.arg.bytes; s.cmdRefused c = none →
    let ends : Nat → Out := fun st => .next (s.doneCmd c st noResult)
    (let bad := 3 < c.arg 16 1 ∨ 3 < c.arg 17 1 ∨ c.arg 18 1 < 8 ∨ 16 < c.arg 18 1
     (bad → exec .jobOpen s = ends 5) ∧
     (¬ bad → lowestFree 256 (fun j => (s.job j).st == .closed) = none → exec .jobOpen s = ends 6) ∧
     (∀ j asid tab r key, ¬ bad → lowestFree 256 (fun j => (s.job j).st == .closed) = some j → s.freeAsid = some asid →
      s.takeTable j = some (tab, r) → s.debugKey c.q (c.arg 44 8) = some key →
      ∃ t k, exec .jobOpen s = .next (t.doneCmd c 0 (result16 (bytesOf 2 j ++ bytesOf 2 asid ++ bytesOf 4 (0x1000 + j)))) ∧
        t = { r.setJob j k with ptroot := Store.put 0 j tab r.ptroot, jobOpened := true } ∧ k.st = .opened ∧ k.asid = asid ∧
        k.cls = c.arg 16 1 ∧ k.gmode = c.arg 17 1 ∧ k.qlog2 = c.arg 18 1 ∧ k.seed = BitVec.ofNat 64 (c.arg 20 8) ∧
        k.deadline = BitVec.ofNat 64 (c.arg 28 8) ∧ k.wcrt = BitVec.ofNat 64 (c.arg 36 8) ∧ k.key = key)) ∧
    exec .jobClose s = .next ((s.closeJob c.job).doneCmd c 0 noResult) ∧
    (let s1 := ((s.setJob c.job { s.job c.job with st := .closed }).passResumes c.job).closeCmds c.job
     let s2 := (((s1.dropLaunches c.job).stopTransfers c.job).stopUnits c.job 10).stopThreads c.job
     let e := ((s2.freeCounters c.job).eraseSets c.job).eraseJob c.job
     s.closeJob c.job = e.sendAllWaiting ∧ e.job c.job = Job.init ∧ Store.get 0 c.job e.ptroot = 0 ∧
     (∀ p ∈ e.pool, p.2 ≠ some c.job) ∧ (∀ p ∈ e.gateLogs, p.1 / 4096 ≠ c.job) ∧ e.pkg.sec.access ≠ .jobDebug c.job ∧
     (∀ a, 0xFEE0000000 + c.job * 0x20000 ≤ a → a < 0xFEE0000000 + c.job * 0x20000 + 0x20000 → Store.get 0 a e.peers = 0)) ∧
    exec .seed s = .next ((s.setJob c.job { s.job c.job with seed := BitVec.ofNat 64 (c.arg 16 8) }).doneCmd c 0 noResult) ∧
    (4095 < c.arg 16 2 → exec .peer s = ends 5) ∧
    (c.arg 16 2 ≤ 4095 → exec .peer s = .next (((List.range 4).foldl (fun (t : State) k =>
      t.peerWrite (0xFEE0000000 + c.job * 0x20000 + c.arg 16 2 * 32 + 8 * k) (c.arg (20 + 8 * k) 8)) s).doneCmd c 0 noResult)) ∧
    (∀ bs, s.queryResult (c.arg 16 1) c.job = some bs → exec .query s = .next (s.doneCmd c 0 (result16 bs))) ∧
    (s.queryResult (c.arg 16 1) c.job = none → exec .query s = ends 5) ∧
    (let va := c.arg 16 8
     let pte := c.arg 24 8
     let count := c.arg 32 4
     let size := pageBytes (pte / 2 ^ 5 % 8)
     let ls := mapLeaves va pte count
     (s.badMap va pte count = true → exec .map s = ends 5) ∧
     (s.badMap va pte count = false → ls.any (fun l => s.walk c.job l.1 == .migrating) = false →
      (State.writeLeaves c.job (levelOf (pte / 2 ^ 5 % 8)) (pte % 2 == 1) ls s = none → exec .map s = ends 6) ∧
      (∀ r, State.writeLeaves c.job (levelOf (pte / 2 ^ 5 % 8)) (pte % 2 == 1) ls s = some r →
        exec .map s = .next ((r.tlbDrop (fun l => l.asid == (s.job c.job).asid &&
          decide (overlap l.va l.size va (count * size) ≠ 0)) (s.oldPages c.job ls)).doneCmd c 0 noResult)))) ∧
    (let v := c.arg 16 4
     let k := c.arg 21 1
     (1 < c.arg 20 1 ∨ 3 < k ∨ (c.arg 20 1 = 0 ∧ k ≠ 0) ∨ s.ownsSet c.job (BitVec.ofNat 64 v) = false →
       exec .vintage s = ends 5) ∧
     (s.ownsSet c.job (BitVec.ofNat 64 v) = true → c.arg 20 1 = 0 → k = 0 →
      exec .vintage s = .next (s.doneCmd c 0 (s.vset v).result)) ∧
     (s.ownsSet c.job (BitVec.ofNat 64 v) = true → c.arg 20 1 = 1 → k ≤ 3 →
      ((s.vset v).bar k ≠ none → exec .vintage s = ends 7) ∧
      ((s.vset v).bar k = none →
        exec .vintage s = .next ((s.publish v k).doneCmd c 0 ((s.publish v k).vset v).result))))

/-- Commands about the package (04 R87, R92 to R99; 02 R36, R39, R49): ATTEST sends a signed report; DEBUG enters a state that
its token allows, or leaves it; FWLOAD stores an image that passes its checks; START asks for a warm or cold start; LOG sends
what its kind names; POWER sets the cap within 1,200 to 3,000, asks for retention or, from retention, for a start. The model's
choice: a START that is warm only from retention (log entry 81), DEBUG that leaves a state it is not in and FWLOAD of an image
that does not parse (82), a POWER OP 1 that holds all units and an OP 2 outside retention (104), the slot of an image whose
KIND did not run (173). -/
def Obligations.PackageCommands : Prop :=
  ∀ (s : State), let c := cmdOf s.arg.n s.arg.bytes; s.cmdRefused c = none →
    let ends : Nat → Out := fun st => .next (s.doneCmd c st noResult)
    let k := c.arg 16 1
    let sec := s.pkg.sec
    let pw := s.pkg.power
    (1 < c.arg 56 1 → exec .attest s = ends 5) ∧
    (c.arg 56 1 = 0 → s.entryUsable hostJob c.q = false → exec .attest s = ends 11) ∧
    (c.arg 56 1 = 0 → s.entryUsable hostJob c.q = true →
      let body := s.reportBody (sub c.bytes 16 32) none
      exec .attest s = .next ((s.doneCmd c 0 noResult).hostBuffer c (c.arg 48 8) (body ++ identitySign body))) ∧
    (1 < c.arg 24 1 → exec .debug s = ends 5) ∧
    (c.arg 24 1 ≤ 1 → sec.access = .full → exec .debug s = ends 7) ∧
    (c.arg 24 1 = 1 → sec.access ≠ .full →
      (sec.access = .locked → exec .debug s = ends 7) ∧
      (sec.access ≠ .locked →
        exec .debug s = .next ((s.setPkg { s.pkg with sec := { sec with access := .locked } }).doneCmd c 0 noResult))) ∧
    (c.arg 24 1 = 0 → sec.access ≠ .full →
      (s.hostRead c.q (c.arg 16 8) 128 = none → exec .debug s = ends 11) ∧
      (∀ tk, s.hostRead c.q (c.arg 16 8) 128 = some tk →
        (s.tokenOk tk = false → exec .debug s = ends 8) ∧
        (s.tokenOk tk = true → field tk 4 1 = 2 → exec .debug s = .next (s.enterFull.doneCmd c 0 noResult)) ∧
        (s.tokenOk tk = true → field tk 4 1 ≠ 2 → sec.access = .locked →
          exec .debug s = .next ((s.enterJobDebug (field tk 6 2) (field tk 8 8)).doneCmd c 0 noResult)))) ∧
    (s.hostRead c.q (c.arg 16 8) (c.arg 24 4) = none → exec .fwload s = ends 11) ∧
    (∀ b, s.hostRead c.q (c.arg 16 8) (c.arg 24 4) = some b →
      (s.imageOk b = false → exec .fwload s = ends 8) ∧
      (s.imageOk b = true → exec .fwload s =
        .next ((s.setPkg { s.pkg with sec := (sec.store b).2 }).doneCmd c 0 (result16 (bytesOf 1 (sec.store b).1))))) ∧
    (1 < k → exec .start s = ends 5) ∧
    (k ≤ 1 → ∃ st, exec .start s = .next ((s.setPkg { s.pkg with starts := st }).doneCmd c 0 noResult) ∧
      st.asked = some (decide (k = 0 ∧ pw.st = .retention ∧ s.pkg.starts.safe = false))) ∧
    (4 < k → exec .log s = ends 5) ∧
    (k ≤ 4 → k ≠ 3 → s.entryUsable hostJob c.q = true →
      let b := (s.logData k c.job).take (c.arg 20 4)
      exec .log s = .next (((State.doneCmd { s with free := s.free + s.logFree k c.job } c 0
        (result16 (bytesOf 4 b.length))).hostBuffer c (c.arg 24 8) b))) ∧
    (k = 0 → (c.arg 18 2 < 1200 ∨ 3000 < c.arg 18 2) → exec .power s = ends 5) ∧
    (k = 0 → 1200 ≤ c.arg 18 2 → c.arg 18 2 ≤ 3000 → exec .power s =
      .next ((s.setPkg { s.pkg with power := { pw with cap := c.arg 18 2 } }).doneCmd c 0 noResult)) ∧
    (k = 1 → exec .power s = .next (((s.setPkg { s.pkg with power := { pw with toRetention := true } }).holdAll).doneCmd c 0
      noResult)) ∧
    (k = 2 → pw.st = .retention → exec .power s = .next ((s.setPkg { s.pkg with
      starts := { s.pkg.starts with asked := some true } }).doneCmd c 0 noResult)) ∧
    (k = 2 → pw.st ≠ .retention → exec .power s = ends 7) ∧
    (2 < k → exec .power s = ends 5)

/-! ## Launches and pre-emption -/

/-- Launches (04 R87; 05 R108 to R119, R495): SCHED.LOAD and KLAUNCH submit what their records say, a store to a launch port
what the 64-byte descriptor says; a queued launch whose turn it is is accepted, refused, or stays; a kernel with no thread
left ends and its launch is complete; records held for a supervisor are sent once there is one. -/
def Obligations.LaunchesAreServed : Prop :=
  ∀ (s : State),
    let c := cmdOf s.arg.n s.arg.bytes
    let j := s.arg.n
    (s.cmdRefused c = none → exec .schedLoad s = .next (s.submitCmd c { c.ask true (c.arg 24 4) with
      origin := c.arg 28 1, w := c.arg 29 1, h := c.arg 30 1, startAt := BitVec.ofNat 64 (c.arg 32 8) })) ∧
    (s.cmdRefused c = none → exec .klaunch s = .next (s.submitCmd c { c.ask false (c.arg 24 4) with
      listVa := c.arg 28 8
      args := [BitVec.ofNat 64 (c.arg 36 8), BitVec.ofNat 64 (c.arg 44 8), BitVec.ofNat 64 (c.arg 52 8)] })) ∧
    ((s.job j).st = .closed → exec .launchPort s = .next s) ∧
    (∀ b, (s.job j).st ≠ .closed → s.readVa j .supervisor s.arg.v.toNat 64 = .ok b → s.arg.v.toNat % 64 = 0 →
      badDescriptor b = false → exec .launchPort s = .next (s.submit (askOf j s.arg.v b)
        { s with submits := s.submits ++ [(j, s.arg.v)] })) ∧
    (s.launches.find? (fun l => l.num == s.arg.n && l.resumes.isNone) = none → exec .launchAccept s = .next s) ∧
    (∀ l, s.launches.find? (fun l => l.num == s.arg.n && l.resumes.isNone) = some l →
      (s.considered l = false → exec .launchAccept s = .next s) ∧
      (s.considered l = true → s.resWaits l.job l.res = false →
        (∀ r id, s.take l = .accepted r id → exec .launchAccept s = .next (r.launched l id)) ∧
        (∀ z, s.take l = .refused z → exec .launchAccept s =
          .next (((s.unqueue l).dropClaims l).refuseLaunch l.job l.res l.cmd 9 z)) ∧
        (∀ r, s.take l = .waits r → exec .launchAccept s = .next r) ∧
        (s.take l = .lacks → l.nowait = false → l.cls ≠ 1 → exec .launchAccept s = .next s))) ∧
    ((s.kernel j s.arg.m).st = .running → s.kernelLives j s.arg.m = false → s.counterHolds j s.arg.m = false →
      exec .kernelComplete s = .next ((s.endKernel j s.arg.m 0).launchDone j s.arg.m)) ∧
    (s.kernelLives j s.arg.m = true → exec .kernelComplete s = .next s) ∧
    (s.supervisor j = none → exec .heldRecordDelivery s = .next s) ∧
    ((s.job j).heldRecords = [] → exec .heldRecordDelivery s = .next s) ∧
    (∀ t, s.supervisor j = some t → (s.job j).heldRecords ≠ [] →
      exec .heldRecordDelivery s = .next ((s.job j).heldRecords.foldl (fun w b => w.postRecord j t b)
        (s.setJob j { s.job j with heldRecords := [] })))

/-- Pre-emption and resumption (04 R90; 05 R118, R121 to R130): PREEMPT of a unit that runs holds it for the host, of another
is BADSTATE, as of a job that is held or none of whose units runs, and RESUME releases it, with its effect point at the
restore; a held partition stops L cycles later, or at once while frozen, with a PREEMPT record; a held kernel begins to be
saved; the save is done once the unit has drained and no stack retrains; a unit whose resumption's turn it is and that finds
its place is restored, the POSTs kept for it being applied after the accesses held for it. The model's choice: a loading
partition is stopped at once and a RESUME of a job releases every unit of it (log entry 103); the kept POSTs come after the
held accesses, which go on in the order stores, transfers, packets and loads (160). -/
def Obligations.UnitsArePreemptedAndRestored : Prop :=
  ∀ (s : State),
    let c := cmdOf s.arg.n s.arg.bytes
    let cmd := (c.q, c.seq)
    let id := c.arg 18 4
    let kind := c.arg 16 1
    let pk := s.arg.n
    let kid := s.arg.m
    let k := s.kernel pk kid
    let p := s.part pk
    let bad : Out := .next (s.doneCmd c 7 noResult)
    (s.cmdRefused c = none →
      (kind = 0 → exec .preempt s = (if (s.part (unitKey c.job id)).mayHold = true
        then .next (s.moving c (fun w => w.hostHoldPart (unitKey c.job id) cmd)) else bad)) ∧
      (kind = 1 → exec .preempt s = (if (s.kernel c.job id).mayHold = true
        then .next (s.moving c (fun w => w.hostHoldKernel c.job id cmd)) else bad)) ∧
      (kind = 2 → exec .preempt s = (if (s.job c.job).st = .held ∨ s.jobRunsUnits c.job = false then bad
        else .next (s.moving c (fun w => w.hostHoldJob c.job cmd)))) ∧
      (kind = 0 → exec .resume s = (if (s.part (unitKey c.job id)).hostHold = true
        then .next (s.resuming c (fun w => w.releasePart (unitKey c.job id) cmd)) else bad)) ∧
      (kind = 1 → exec .resume s = (if (s.kernel c.job id).hostHold = true
        then .next (s.resuming c (fun w => w.releaseKernel c.job id cmd)) else bad)) ∧
      (kind = 2 → exec .resume s = (if (s.job c.job).st = .held
        then .next (s.resuming c (fun w => w.releaseJob c.job cmd)) else bad)) ∧
      (2 < kind → exec .preempt s = .next (s.doneCmd c 5 noResult) ∧ exec .resume s = .next (s.doneCmd c 5 noResult))) ∧
    (p.hostHold = false → p.deadlineHold = false → exec .partitionPreemption s = .next s) ∧
    (p.hostHold = true → p.stopping = false → p.isPreempted = false →
      (p.st = .loading →
        exec .partitionPreemption s =
          .next ((s.partRecord pk 0).setPart pk { p with st := .preempted, stoppedAt := s.pkg.clock.ptime })) ∧
      (p.st = .running →
        let r := s.partRecord pk 0
        let q := r.part pk
        q.span = false → (q.frozen = false → exec .partitionPreemption s = .next (r.setPart pk { q with
          freezes := q.freezes ++ [{ cyc := q.scyc + q.lead, cause := .preempt, ends := none }] })) ∧
        (q.frozen = true → exec .partitionPreemption s = .next (r.setPart pk { q with
          freezes := q.freezes ++ [{ cyc := q.scyc, cause := .preempt, ends := none }]
          st := .preempted, stoppedAt := s.pkg.clock.ptime, stopCyc := s.cyc })))) ∧
    (k.st = .running → k.hostHold = true →
      exec .kernelPreemption s =
        .next (((s.kernelRecord pk kid 0).setKernel pk kid { k with st := .saving }).closeRuns pk)) ∧
    (k.hostHold = false → k.deadlineHold = false → exec .kernelPreemption s = .next s) ∧
    (s.arg.b = true → exec .preemptSaveDone s =
      .next (if k.st = .saving ∧ s.kernelDrained pk kid = true ∧ s.retrains (unitKey pk kid) = false then s.kernelSaved pk kid else s)) ∧
    (s.arg.b = false → exec .preemptSaveDone s = .next (if p.isPreempted = true ∧
      p.tiles.any (fun t => (s.tile t).part == some pk) = true ∧ s.drained pk = true ∧ s.retrains pk = false
        then s.partSaved pk else s)) ∧
    (s.arg.b = true → exec .partitionRestore s = .next (s.applyKept pk)) ∧
    (let held := p.heldPackets.map packetAct ++ (s.heldLoads pk).map (fun t => Act.issue (coreOf t) (slotOf t))
     ∃ r : State, s.letGo pk = { r with agenda := held ++ [.event .partitionRestore { Arg.ofN pk with b := true }] ++ r.agenda }) ∧
    (∀ l n, s.arg.b = false → s.launches.find? (fun l => l.resumes == some (false, pk)) = some l → s.resumeNum pk = some n →
      exec .partitionRestore s = .next (if s.considered l = true ∧ s.canRestore pk = true
        then (s.unqueue l).restorePart pk n else s)) ∧
    (∀ l at_, s.launches.find? (fun l => l.job == pk && l.resumes == some (true, kid)) = some l →
      s.restoreCores pk kid = some at_ →
      exec .kernelRestore s = .next (if s.considered l = true ∧ k.st = .preempted
        then (s.unqueue l).restoreKernel pk kid at_ else s)) ∧
    (s.launches = [] → (s.arg.b = false → exec .partitionRestore s = .next s) ∧ exec .kernelRestore s = .next s)

/-- Deadlines, faulted partitions, hangs and gating (05 R121, R131, R132, R135, R136): a deadline that comes is logged once,
where the job runs then, and never after; a command to continue checks a faulted partition again and lets it go on, another
ends it with BADSTATE and its last fault; a partition or core without progress for the hang time is told to the supervisor; a
core blocked long enough has its clock gated, and after one millisecond its power. -/
def Obligations.DeadlinesHangsAndGating : Prop :=
  ∀ (s : State),
    let n := s.arg.n
    let x := s.job n
    let k := s.core n
    (x.st ≠ .closed → x.cls = 0 → x.missed = false → x.deadline.toNat ≤ s.pkg.clock.ptime.toNat →
      let r := s.setJob n { x with missed := true }
      (x.started = true → ¬ (s.partsOf n = [] ∧ s.kernelsOf n = []) → exec .deadlineMiss s = .next (r.logEvent .deadlineMiss n 1)) ∧
      (x.started = false ∨ (s.partsOf n = [] ∧ s.kernelsOf n = []) → exec .deadlineMiss s = .next r)) ∧
    ((x.cls ≠ 0 ∨ x.missed = true ∨ s.pkg.clock.ptime.toNat < x.deadline.toNat) → exec .deadlineMiss s = .next s) ∧
    (s.headOf 0 = none → exec .deadlinePreemption s = .next s) ∧
    (∀ l, s.headOf 0 = some l → l.job = n → l.resumes = none → s.considered l = true → s.lacksFor l = true →
      let v := State.choose l (s.candidates [3, 2, 1]) s
      (x.started = true → exec .deadlinePreemption s = .next (v.1.foldl State.holdFor s)) ∧
      (x.started = false → s.pkg.clock.ptime.toNat + x.wcrt.toNat + s.saveEstimate l v.1 v.2 + deadlineGuard < x.deadline.toNat →
        exec .deadlinePreemption s = .next s)) ∧
    (s.partNo n = none → exec .pctlContinue s = .next s ∧ exec .pctlAbort s = .next s) ∧
    (∀ pk, s.partNo n = some pk →
      exec .pctlAbort s = .next (s.endPartition pk 7 (resultAt 20 (bytesOf 1 (s.part pk).lastFault) noResult)) ∧
      ((s.part pk).st ≠ .faulted → exec .pctlContinue s = .next s) ∧
      (let r := s.checkAgain pk
       (s.part pk).st = .faulted → (s.part pk).stuck = false →
        (r.part pk).faults.filter (fun f => decide (f.cyc = (r.part pk).scyc)) = [] →
        let q := r.part pk
        let ended := q.freezes.filter (fun f => decide (f.cause = .fault) && f.ends.isNone)
        exec .pctlContinue s =
          .next (ended.foldl (fun w f => w.castEnd q f.cyc (r.cyc + q.lead)) (r.setPart pk (q.continued r.cyc))))) ∧
    (s.arg.b = true → (s.part n).frozen = false → exec .hang s = .next s) ∧
    (s.arg.b = true → (s.part n).frozen = true → (s.part n).st ≠ .preempted → s.hangDue (s.part n).frozenAt = true →
      ∃ w, exec .hang s = .next (s.drawn.sendRecord (s.part n).job (recordBytes 0x11 1 (s.part n).job
        ((s.part n).num.getD 0) s.pkg.clock.ptime w (BitVec.ofInt 64 (s.part n).scyc) 0xFFFF 0xFF
        (List.replicate 4 0 ++ bytesOf 4 (s.part n).launch)))) ∧
    (s.arg.b = false → k.blockedSince = none → exec .hang s = .next s) ∧
    (∀ t, k.gating = .running → k.blockedSince = some t →
      (t + gateAfter ≤ s.cyc → exec .coreClockGate s = .next (s.setCore n { k with gating := .clockGated s.cyc })) ∧
      (s.cyc < t + gateAfter → exec .coreClockGate s = .next s)) ∧
    (∀ t, k.gating = .clockGated t →
      (t + 1900000 ≤ s.cyc → exec .corePowerGate s = .next (s.setCore n { k with gating := .powerGated })) ∧
      (s.cyc < t + 1900000 → exec .corePowerGate s = .next s))

/-! ## Fabric -/

/-- Pods, tendrils and Ethernet ports (03 R50, R51, R65, R69 to R71; 04 R78, R79): an enabling store enables a usable queue; a
pod forms with its used ports untrained and dissolves unless a spanning partition runs; a training sets a port up where the
neighbour names what the declared torus has there and the latency is within the pod's, an error on a link that is up is a LINK
fault of every partition that uses it; a discarded frame, a neighbour's request, a port going down and a training are taken by
the port, with what was under way on it. A member is locked once an exchange since its upstream port came up has left nothing
to correct. The model's choice: a mismatch at training that un-forms a formed pod (log entry 108) and packets that are sent
again at once when a port goes down (124). -/
def Obligations.PodsAndPorts : Prop :=
  ∀ (s : State),
    let n := s.arg.n
    let pod := s.pkg.pod
    let x := pod.port n
    (n < 4 → s.queueUsable n = true → (s.queue n).enable = false →
      exec .ahqctlEnable s = .next ((s.setQueue n { s.queue n with enable := true }).armSlots n)) ∧
    ((4 ≤ n ∨ s.queueUsable n = false ∨ (s.queue n).enable = true) → exec .ahqctlEnable s = .next s) ∧
    (pod.form = true → exec .podForm s = .next s) ∧
    (pod.form = false → ∃ t, exec .podForm s = .next t ∧ t.pkg.pod.form = true ∧ t.pkg.clock.lastExchange = 0 ∧ t.pkg.clock.exchanged = false ∧
      t.pkg.pod.locked = Pod.isRoot { pod with form := true, ports := t.pkg.pod.ports, bars := [] }) ∧
    (s.placedParts.any (fun p => p.2.span) = false →
      exec .podDissolve s = .next (s.setPod { pod with form := false, locked := false, bars := [] })) ∧
    (s.placedParts.any (fun p => p.2.span) = true → exec .podDissolve s = .next s) ∧
    (n < 6 → pod.portUsed n = true → (x.lockLost = false ∨ s.portParts n = []) →
      (s.arg.bytes.map (·.toNat) = pod.neighbour n →
        let up := decide (s.arg.m ≤ pod.tlat.toNat)
        exec .tendrilTraining s = .next ((s.setPort n
          { x with up := up, latency := s.arg.m, matched := true, lockLost := x.lockLost && !up }).newPort n)) ∧
      (s.arg.bytes.map (·.toNat) ≠ pod.neighbour n → ∃ t, exec .tendrilTraining s = .next t ∧ t.pkg.pod.form = false ∧ t.pkg.pod.locked = false ∧
        (t.pkg.pod.port n).up = false ∧ (t.pkg.pod.port n).matched = false)) ∧
    (n < 6 → x.up = true →
      let r := (s.portParts n).foldl (fun (w : State) pk =>
        w.noteFault pk ((w.part pk).scyc + (w.part pk).lead) 0x47 none none []) s
      (s.arg.m ≠ 2 → exec .link s = .next r) ∧
      (s.arg.m = 2 → exec .link s =
        .next (((r.setPort n { x with up := false, lockLost := true }).logEvent .linkDown n 0).newPort n))) ∧
    (∀ r : State, (r.newPort n).pkg.clock.exchanged = (r.pkg.clock.exchanged && decide (r.pkg.pod.upstream ≠ some n)) ∧
      (r.newPort n).pkg.pod.locked = (r.pkg.pod.form && (r.pkg.pod.isRoot || ((r.newPort n).pkg.clock.exchanged &&
        decide (r.pkg.clock.corr = 0) && decide (r.pkg.clock.phase = 0) && r.pkg.pod.upstreamUp)))) ∧
    (x.up = false → exec .link s = .next s) ∧
    (n < 8 → (s.eth n).up = true →
      (s.arg.v.toNat ≤ 9216 →
        (s.arg.m = 0 → exec .frameReceive s = .next (s.setEth n { s.eth n with discV4 := (s.eth n).discV4 + 1 })) ∧
        (s.arg.m = 1 → exec .frameReceive s = .next (s.setEth n { s.eth n with discType := (s.eth n).discType + 1 })) ∧
        (s.arg.m = 2 → exec .frameReceive s = .next (s.setEth n { s.eth n with discService := (s.eth n).discService + 1 })) ∧
        (s.arg.m = 3 →
          exec .frameReceive s = .next (s.setEth n { s.eth n with discSemantics := (s.eth n).discSemantics + 1 }))) ∧
      (9216 < s.arg.v.toNat → exec .frameReceive s = .next s) ∧
      (s.arg.bytes.length ≤ 9216 →
        ∃ t, exec .neighbourDiscovery s = .next t ∧ (t.eth n).answered = (s.eth n).answered + 1 ∧
          ∃ p, t.outbox = s.outbox ++ [p] ∧ p.kind = 7 ∧ p.data = (if s.arg.b = true then s.arg.bytes
            else bytesOf 16 (s.eth n).addr.toNat ++ bytesOf 6 (s.eth n).mac.toNat)) ∧
      exec .ethernetPortDown s =
        .next ((s.remotes.filter (fun o => !o.waiting && o.pkt.ports.getLsbD n)).foldl State.reroute
          ((s.setEth n { s.eth n with up := false }).logEvent .portDown n 0))) ∧
    (n < 8 → s.pkg.starts.safe = false →
      (s.arg.b = true → exec .ethernetPortTraining s =
        .next ((s.remotes.filter (fun o => !o.waiting && o.pkt.ports == 0)).foldl State.reroute
          (s.setEth n { s.eth n with up := true }))) ∧
      (s.arg.b = false →
        exec .ethernetPortTraining s = .next ((s.setEth n { s.eth n with up := false }).logEvent .portDown n 1))) ∧
    ((s.eth n).up = false → ∀ i ∈ ([.frameReceive, .neighbourDiscovery, .ethernetPortDown] : List Instr), exec i s = .next s)

/-- Time (03 R72 to R76): a correction of at least 1,024 cycles steps PTIME at once, a smaller one moves it by 1 every 1,024
cycles, and so the clock's phase; a member exchanges time stamps with its parent and corrects itself by the offset; a root
disciplined by PTP spreads each correction by side-band, for 16 + TLAT cycles after its last flit leaves; a TIMESTAMP carries
the time at which it leaves; a member takes a CORR flit's correction for its time. The model's choice: the floor of the halved
round trip and the correction cut towards 0 (log entry 110), and the one WHEN of a CORR flit on every port (112).

Side-band flits (03 R67, R68; 09 R271): FREEZE, RESUME, BCAST and FAULT of a spanning partition that has started act on its
freezes, time samples, latches and choices at the times that they carry, those of a number without one do nothing, but that a
RESUME starts a part that a claim placed; a LINKMGT flit is a claim, an answer, a claim given up, a part over or the end, by
its code; a claim on an exhausted package, or one that goes to retention, is answered busy; a flit of a reserved type is
counted as discarded. The model's choice: the codes 1 to 5 of LINKMGT, their bodies and the protocol (log entry 156). -/
def Obligations.TimeAndSideband : Prop :=
  (∀ (s : State),
      let c := s.pkg.clock
      let pod := s.pkg.pod
      let ptp := s.pkg.ptp
      (c.corrAt = [] →
        (c.corr = 0 → exec .ptimeCorrectionStep s = .next s) ∧
        (1024 ≤ c.corr.natAbs → ∃ t, exec .ptimeCorrectionStep s = .next t ∧ t.pkg.clock.corr = 0 ∧
          t.pkg.clock.ptime = c.ptime + BitVec.ofInt 64 c.corr ∧ t.pkg.ptp.stepped = true) ∧
        (c.corr ≠ 0 → c.corr.natAbs < 1024 → s.cyc < c.lastCorr + 1024 → exec .ptimeCorrectionStep s = .next s) ∧
        (c.corr ≠ 0 → c.corr.natAbs < 1024 → c.lastCorr + 1024 ≤ s.cyc →
          ∃ t, exec .ptimeCorrectionStep s = .next t ∧ t.pkg.clock.lastCorr = s.cyc ∧
            t.pkg.clock.ptime = (if 0 < c.corr then c.ptime + 1 else c.ptime - 1) ∧
            t.pkg.clock.corr.natAbs + 1 = c.corr.natAbs)) ∧
      ((c.phase = 0 ∨ s.cyc < c.lastPhase + 1024) → exec .clockPhaseStep s = .next s) ∧
      (c.phase ≠ 0 → c.lastPhase + 1024 ≤ s.cyc → ∃ t, exec .clockPhaseStep s = .next t ∧
        t.pkg.clock.phase.natAbs + 1 = c.phase.natAbs ∧ t.pkg.clock.lastPhase = s.cyc ∧ t.pkg.clock.ptime = c.ptime) ∧
      (∀ k, pod.upstream = some k →
        (s.exchangeDue = true → exec .timestampExchange s =
          .next ((s.setClock { c with lastExchange := Nat.max 1 s.cyc }).sideband [k] 1 k (s.slotTime k) [])) ∧
        (s.exchangeDue = false → exec .timestampExchange s = .next s)) ∧
      (pod.upstream = none → exec .timestampExchange s = .next s) ∧
      (pod.form = false → exec .timestamp s = .next s) ∧
      (∀ t1 t2 t3 t4, s.arg.n < 6 → pod.isMember = true → (pod.port s.arg.n).up = true → pod.upstream = some s.arg.n →
        s.arg.ints = [t1, t2, t3, t4] →
        let off := t2 - (t1 + ((t4 - t1) - (t3 - t2)) / 2)
        exec .timestamp s = .next (s.setClock { c with corr := (-off).tdiv 16, phase := (-off).tmod 16, exchanged := true }).relock) ∧
      (s.arg.n < 6 → pod.form = true → pod.isMember = false → (pod.port s.arg.n).up = true →
        exec .timestamp s = .next (s.sideband [s.arg.n] 1 s.arg.n (s.slotTime s.arg.n) [])) ∧
      (let stamp := c.ptime.toNat * 16 + s.arg.v.toNat % 16
       let off : Int := stamp - 16 * ptp.target s.arg.i
       (ptp.enable = false → s.arg.n < 8 → (s.eth s.arg.n).up = true →
          exec .ptpEventMessage s = .next (s.setEth s.arg.n { s.eth s.arg.n with stamp := stamp })) ∧
       (ptp.enable = false → (s.eth s.arg.n).up = false → exec .ptpEventMessage s = .next s) ∧
       (ptp.enable = true → ptp.port.toNat = s.arg.n → ptp.domain.toNat = s.arg.m → ptpForm s.arg.bytes = true → pod.form = false →
        s.arg.n < 8 → (s.eth s.arg.n).up = true → ∃ t, exec .ptpEventMessage s = .next t ∧ (t.eth s.arg.n).stamp = stamp ∧
          t.pkg.clock = { c with corr := (-off).tdiv 16 } ∧ t.pkg.ptp.offset = BitVec.ofInt 32 ((off * 10).tdiv (16 * 19))) ∧
       (ptp.enable = true → ptp.port.toNat = s.arg.n → ptp.domain.toNat = s.arg.m → ptpForm s.arg.bytes = true → pod.form = true →
        pod.isRoot = true → s.arg.n < 8 → (s.eth s.arg.n).up = true →
        let last := (pod.livePorts.map s.slotWait).foldl Nat.max 0
        let at_ := c.ptime + BitVec.ofNat 64 (last + 16 + pod.tlat.toNat)
        ∃ t r : State, exec .ptpEventMessage s = .next t ∧ t = r.sideband pod.livePorts 6 0 at_ (wordBytes (BitVec.ofInt 64 ((-off).tdiv 16))) ∧
          t.pkg.clock = { c with corrAt := c.corrAt ++ [(at_, (-off).tdiv 16)] })) ∧
      (pod.isMember = true →
        exec .corr s = .next (s.setClock { c with corrAt := c.corrAt ++ [(s.arg.v, s.arg.i)] })) ∧
      (pod.isMember = false → exec .corr s = .next s)) ∧
  (∀ (s : State),
      let n := s.arg.n
      let b := s.arg.bytes
      let x := s.pkg.pod.port n
      let j := field b 2 2
      let no := field b 4 4
      let from_ := (field b 16 1, field b 17 1)
      (s.spanNo n = none → ∀ i ∈ ([.sidebandFreeze, .bcast, .sidebandFault] : List Instr), exec i s = .next s) ∧
      (s.spanNo n = none → s.partOfClaim j no = none → exec .sidebandResume s = .next s) ∧
      (∀ pk, s.spanNo n = none → s.partOfClaim j no = some pk → (s.part pk).started = false → s.isAnchor (s.part pk) = false →
        exec .sidebandResume s = .next (s.setPart pk { s.part pk with
          startPtime := s.arg.v, flitId := n, sample := some (s.arg.v.toNat, s.cyc + (s.arg.v.toNat - s.pkg.clock.ptime.toNat)) })) ∧
      (∀ pk, s.spanNo n = some pk →
        let p := s.part pk
        let wait := s.arg.v.toNat - s.pkg.clock.ptime.toNat
        let freeze := fun (cyc : Int) (w : Cause) => s.addFreeze pk cyc w none
        exec .sidebandFreeze s = .next (freeze (if p.frozen = true then p.scyc else p.scyc + (wait : Int)) .sideband) ∧
        exec .sidebandResume s = .next (s.setPart pk { p with freezes := p.freezes.map (fun (f : Freeze) =>
          if f.cause = .sideband ∧ f.ends = none then { f with ends := some (s.cyc + wait) } else f) }) ∧
        (s.arg.m = 0 → exec .bcast s = .next (s.castFreeze pk (toSigned 64 (field b 0 8)) s.arg.v)) ∧
        (s.arg.m = 1 → exec .bcast s = .next (s.setPart pk { p with
          sample := some ((wordOf (b.take 8) + (s.pkg.clock.ptime - s.arg.v)).toNat, s.cyc) })) ∧
        (s.arg.m = 2 → exec .bcast s = .next (s.castLatch pk (field b 0 1) (field b 1 4) (toSigned 64 (field b 5 8)))) ∧
        (s.arg.m = 3 →
          exec .bcast s = .next (s.castChoice pk (toSigned 64 (field b 0 8)) (field b 8 4) (field b 12 4))) ∧
        (s.isAnchor p = true →
          exec .sidebandFault s = .next (s.noteHere pk (toSigned 64 s.arg.v.toNat) s.arg.m none none [])) ∧
        (s.isAnchor p = false → exec .sidebandFault s = .next (freeze (toSigned 64 s.arg.v.toNat) .fault))) ∧
      (n < 6 → x.up = true → s.pkg.pod.form = true →
        (field b 0 1 = 1 → exec .linkmgt s = .next (s.answerClaim s.arg.m b)) ∧
        (field b 0 1 = 2 → exec .linkmgt s = .next (s.takeAnswer j no (field b 1 1) from_)) ∧
        (field b 0 1 = 3 ∨ field b 0 1 = 5 → exec .linkmgt s = .next (s.endPart j no)) ∧
        (field b 0 1 = 4 → exec .linkmgt s = .next (s.partOver j no from_)) ∧
        (field b 0 1 = 0 ∨ 5 < field b 0 1 → exec .linkmgt s = .next s)) ∧
      (∀ d o image, parseSched image = .ok d → (s.job j).st = .closed → s.takeClaim j no n o image = (2, s)) ∧
      (∀ d o image, parseSched image = .ok d → (s.job j).st ≠ .closed → (s.pkg.power.exhausted = true ∨ s.pkg.power.toRetention = true) →
        s.takeClaim j no n o image = (3, s)) ∧
      (∀ d o image, parseSched image = .ok d → (s.job j).st ≠ .closed → (s.part (unitKey j (claimId no))).st = .free →
        s.canPlace (unitKey j (claimId no)) { s.wantedAt d j o with claimNo := no } = false →
        s.takeClaim j no n o image = (3, s)) ∧
      (n < 6 → x.up = true → (s.arg.m = 0 ∨ 8 < s.arg.m) →
        exec .sidebandReserved s = .next (s.setPort n { x with discarded := x.discarded + 1 })) ∧
      (x.up = false → exec .linkmgt s = .next s ∧ exec .sidebandReserved s = .next s))

/-! ## Power, starts and upkeep -/

/-- Power and thermal management (02 R32, R36 to R38): samples are kept by the hundred; above the cap the duty rises by one
step, at or below 95 % of it falls by one; each interval fixes its duty; a hot die forces the greatest duty until it is
released; a thermal trip turns the package off; a rail is enabled in order, and one that fails turns it off. The model's
choice: 95 % of the cap inclusive (log entry 113) and the mean of the samples made so far (144).

Starts, retention, margins and access (02 R35, R39 to R41, R47 to R49; 04 R100): RESET asks for a start, cold but from
retention; a start sequence that no step fails leaves the package active, a failed one notes it; an idle package may enter
retention, which keeps what the spec keeps; a plan or a low monitor sets the bands; a security fault degrades a secure
package; job access ends in time. The model's choice: a security fault ignored in provisioning and a reset from retention that
is warm (log entry 116), and two clock domains a die (115). -/
def Obligations.PowerStartsAndRetention : Prop :=
  (∀ (s : State),
      let n := s.arg.n
      let p := s.pkg.power
      let sum := p.samples.foldl (· + ·) 0
      let len := p.samples.length
      (p.st ≠ .off → exec .powerSample s = .next (s.setPower { p with samples := (n :: p.samples).take 100 })) ∧
      (p.st ≠ .off → 0 < len →
        (p.cap * len < sum → exec .throttleStep s = .next (s.setPower (p.withDuty (p.duty + 1)))) ∧
        (100 * sum ≤ 95 * p.cap * len → exec .throttleStep s = .next (s.setPower (p.withDuty (p.duty - 1)))) ∧
        (sum ≤ p.cap * len → 95 * p.cap * len < 100 * sum → exec .throttleStep s = .next s)) ∧
      (p.duty = 0 → exec .throttleInterval s = .next (s.setPower { p with interval := s.cyc, intervalDuty := 0 })) ∧
      (p.duty ≠ 0 → s.parts = [] →
        exec .throttleInterval s = .next (s.setPower { p with interval := s.cyc, intervalDuty := p.duty })) ∧
      (n < 5 → p.st ≠ .off → ∃ t, exec .thermalFloor s = .next t ∧ t.pkg.power.duty = 12 ∧ t.pkg.power.therm = true ∧
        n ∈ t.pkg.power.hot) ∧
      (∃ t, exec .thermalFloorRelease s = .next t ∧ n ∉ t.pkg.power.hot ∧
        (p.hot = [n] → t.pkg.power.therm = false ∧ t.pkg.power.duty = Nat.min p.duty 12)) ∧
      (p.st ≠ .off → ∃ t, exec .thermalTrip s = .next t ∧ t.pkg.power.st = .off ∧ t.pkg.power.tripOut = true ∧
        t.pkg.power.rails = []) ∧
      (n < 12 → (∀ i, i < 12 → railOrder i < railOrder n → Store.get false i p.rails = true) →
        (s.arg.b = true → exec .railEnable s = .next (s.setPower { p with rails := Store.put false n true p.rails })) ∧
        (s.arg.b = false → exec .railEnable s = .next (s.turnOff (p.st != .off)))) ∧
      (p.st = .off → ∀ i ∈ ([.powerSample, .throttleStep, .thermalFloor, .thermalTrip, .marginPlan] : List Instr),
        exec i s = .next s)) ∧
  (∀ (s : State),
      let n := s.arg.n
      let p := s.pkg.power
      let rails := (List.range 12).all (fun i => Store.get false i p.rails)
      let band := Store.get 0 (n * 2 + s.arg.m) s.pkg.bands
      (rails = true → p.st = .retention → exec .reset s = .next (s.setPkg { s.pkg with
        starts := { s.pkg.starts with asked := some true } })) ∧
      (rails = true → p.st ≠ .retention → ∃ t, exec .reset s = .next t ∧ t.pkg.starts.asked = some false ∧ t.mem = [] ∧
        t.threads = [] ∧ t.jobs = [] ∧ t.parts = []) ∧
      (rails = false → exec .reset s = .next s) ∧
      (s.pkg.starts.asked = none → exec .startSequence s = .next s) ∧
      (∀ warm, s.pkg.starts.asked = some warm →
        let s0 := if warm = true then s else s.coldState
        (s0.failedStep warm s.arg.b n = 0 → exec .startSequence s = .next (s0.startOk warm s.arg.b s.arg.bytes)) ∧
        (s0.failedStep warm s.arg.b n ≠ 0 →
          exec .startSequence s = .next (s0.startFails warm s.arg.b (s0.failedStep warm s.arg.b n) s.arg.bytes))) ∧
      (s.isIdle = true → s.allSaved = true → s.pkg.starts.asked = none → p.st = .idle →
        ∃ t, exec .retentionEntry s = .next t ∧ t.pkg.power = { p with st := .retention } ∧ t.quadTlb = [] ∧
          (∀ a, t.byte a = if s.heldByte a = true then s.byte a else 0) ∧ t.threads = s.threads ∧ t.jobs = s.jobs) ∧
      ((s.isIdle = false ∨ s.allSaved = false) → exec .retentionEntry s = .next s) ∧
      (p.st ≠ .off → exec .marginPlan s = .next ((s.makePlan true s.arg.bytes).logEvent .marginPlan 0 0)) ∧
      (n < 4 → s.arg.m < 2 → p.st ≠ .off →
        (band < 12 → exec .marginMonitorLow s =
          .next (s.setPkg { s.pkg with bands := Store.put 0 (n * 2 + s.arg.m) (band + 1) s.pkg.bands })) ∧
        (12 ≤ band → exec .marginMonitorLow s =
          .next ((s.setPower { p with exhausted := true }).holdAll.logEvent .marginExhausted n s.arg.m))) ∧
      (s.pkg.sec.st = .secure → exec .securityFault s = .next (s.setPkg { s.pkg with sec := { s.pkg.sec with st := .degraded } })) ∧
      (s.pkg.sec.st ≠ .secure → exec .securityFault s = .next s) ∧
      (∀ j, s.pkg.sec.access = .jobDebug j →
        (s.pkg.sec.notAfter.toNat ≤ s.pkg.clock.ptime.toNat → exec .debugExpiry s =
          .next (s.setPkg { s.pkg with sec := { s.pkg.sec with access := .locked } })) ∧
        (s.pkg.clock.ptime.toNat < s.pkg.sec.notAfter.toNat → exec .debugExpiry s = .next s)) ∧
      (s.pkg.sec.access = .locked → exec .debugExpiry s = .next s))

/-- Upkeep of the memories (02 R42 to R46; 05 R130): a patrol scrub counts what it corrects and marks and logs what it cannot,
and takes a period of 1 h to 168 h at the end of a pass; a lagging scrub is logged; an alert's back-off disturbs its stack; a
retraining begins at once, or waits while a save to the stack is under way but no longer than 38,000,000 cycles; during a save
a stack may fall back to a slower rate; the end of a retraining sets the stack's rate. The model's choice: the period
programmed at the end of a pass (log entry 171), and a save that counts as under way until it is done (121). -/
def Obligations.MemoriesAreMaintained : Prop :=
  ∀ (s : State),
    let n := s.arg.n
    let x := s.stack n
    let v := s.arg.v.toNat
    let r := if n = s.pkg.scrubNext then s.setPkg { s.pkg with
      scrubNext := (n + 1) % 2 ^ 34, scrubHours := if n + 1 = 2 ^ 34 ∧ 1 ≤ v ∧ v ≤ 168 then v else s.pkg.scrubHours } else s
    (32 * n < tileBase → (s.arg.m = 2 ∨ s.hasUe (32 * n) 32 = true) →
      exec .patrolScrub s = .next (State.logEvent { r with ue := Store.put false (32 * n) true s.ue } .scrubUncorrectable n 0)) ∧
    (32 * n < tileBase → s.arg.m = 1 → s.hasUe (32 * n) 32 = false →
      let k := stackOf s.iltab (32 * n)
      exec .patrolScrub s = .next (r.setStack k { s.stack k with corrected := (s.stack k).corrected + 1 })) ∧
    (32 * n < tileBase → s.arg.m = 0 → s.hasUe (32 * n) 32 = false → exec .patrolScrub s = .next r) ∧
    (tileBase ≤ 32 * n → exec .patrolScrub s = .next r) ∧
    exec .sramScrub s = .next (if s.arg.b = true then s.logEvent .scrubLag n 0 else s) ∧
    (8 ≤ n → ∀ i ∈ ([.alertBackOff, .hbmRetrainRequest, .hbmFallbackRate] : List Instr), exec i s = .next s) ∧
    (n < 8 →
      (∃ t, exec .alertBackOff s = .next t ∧ s.cyc ≤ (t.stack n).disturbed ∧ x.disturbed ≤ (t.stack n).disturbed ∧ t.rowAlert n = false) ∧
      (x.retraining = true → exec .hbmRetrainRequest s = .next s) ∧
      (x.retraining = false → s.saving n = true → exec .hbmRetrainRequest s =
        .next (s.setStack n { x with asked := some s.arg.m, deferred := some (x.deferred.getD s.cyc) })) ∧
      (x.retraining = false → s.saving n = false → exec .hbmRetrainRequest s =
        .next (s.setStack n { x with asked := some s.arg.m, deferred := none, retraining := true })) ∧
      (s.saving n = true → exec .hbmFallbackRate s = .next (s.setStack n { x with rate := 96 })) ∧
      (s.saving n = false → exec .hbmFallbackRate s = .next s)) ∧
    (x.deferred = none → exec .retrainDeferExpiry s = .next s) ∧
    (∀ t, x.deferred = some t →
      (t + 38000000 ≤ s.cyc ∨ s.saving n = false →
        exec .retrainDeferExpiry s = .next (s.setStack n { x with deferred := none, retraining := true })) ∧
      (s.cyc < t + 38000000 → s.saving n = true → exec .retrainDeferExpiry s = .next s)) ∧
    (x.retraining = true → exec .hbmRetrainingEnd s = .next (s.setStack n
      { x with retraining := false, rate := x.asked.getD 128, asked := none, disturbed := s.cyc })) ∧
    (x.retraining = false → exec .hbmRetrainingEnd s = .next s)

/-! ## Reset and invariants -/

/-- What reset leaves in the registers that the spec gives a reset value (02 R34; 03 R71, R76; 04 R79; 05 R132, R136; 06 R140,
R163, R176; 08 R233; 10 R281, R297, R298; 13 R414): firmware reads HANGCFG as 10,000, AHQCTL of queue 0 as enabled and of the
others as 0, and ILTAB, the counters, bank and engine status, partitions, order gates, allocators and PTP registers as 0;
every thread's FSTAT and FCTL are 0, nothing is pending, no window is spilled; PTIME is 0. -/
def Obligations.ResetState : Prop :=
  let fw : Who := { level := .firmware, job := 0 }
  (∀ q ∈ ([(0xFED0010100, 10000), (0xFEF0000200, 1), (0xFEF0000220, 0), (0xFEF0000240, 0), (0xFEF0000260, 0), (0xFE20000000, 0),
      (0xFE00000000, 0), (0xFE00000008, 0), (0xFE50000000, 0), (0xFE30000000, 0), (0xFED0010000, 0), (0xFE40000000, 0),
      (0xFE40000008, 0), (0xFE40000010, 0), (0xFE40008000, 0), (0xFEF0000110, 0), (0xFEF0000118, 0)] : List (Nat × Word)),
    State.reset.mmioRead fw q.1 = some q.2) ∧
  (∀ t, let x := State.reset.thread t
    x.fstat = 0 ∧ x.fctl = 0 ∧ x.rpe = false ∧ x.wpe = false ∧ x.vpe = false ∧ x.intrap = false ∧ x.nspill = 0) ∧
  State.reset.pkg.clock.ptime = 0

/-- The memory of the state after reset is in canonical form: addresses strictly rising, no entry equal to the byte that an
unlisted address reads as (log entry 2). -/
def Obligations.ResetMemoryWellFormed : Prop := State.reset.memWf

/-- Every step keeps the canonical form of memory: from any state whose memory has it, a step that answers a next state leaves
a memory that has it, so that equal memories are equal data (log entry 2). -/
def Obligations.MemoryStaysCanonical : Prop :=
  ∀ (s t : State), s.memWf → step s = .next t → t.memWf

/-! ## Frames -/

/-- Register forms touch registers alone (12 R338; 05 R133, R134): whatever way one ends, memory, the other threads and all
else stand but a record of a trap that is sent or kept, and of its own thread only the general and vector registers, the pc,
the wait, the count of retired instructions, FSTAT, the trap registers and the recording can differ.

Streams touch no thread (09 R240, R243): an instruction of a trellis stream leaves memory, every thread, the cores, the jobs,
the kernels and the engines as they are; what it writes to a tile's SRAM takes effect later. -/
def Obligations.FramesOfRegistersAndStreams : Prop :=
  (∀ (i : Instr) (s t : State), i.registersOnly = true → exec i s = .next t →
      t = { s with threads := t.threads, jobs := t.jobs, msgs := t.msgs, msgSeq := t.msgSeq, free := t.free } ∧
      (∀ u, u ≠ s.cur → t.thread u = s.thread u) ∧
      t.th = { s.th with
        g := t.th.g, v := t.th.v, pc := t.th.pc, park := t.th.park, qcount := t.th.qcount, fstat := t.th.fstat
        epc := t.th.epc, ecause := t.th.ecause, eval := t.th.eval, intrap := t.th.intrap, region := t.th.region }) ∧
  (∀ (i : Instr) (s t : State), i.isStream = true → exec i s = .next t →
      t.mem = s.mem ∧ t.threads = s.threads ∧ t.cores = s.cores ∧ t.jobs = s.jobs ∧ t.kernels = s.kernels ∧
      t.engines = s.engines)

/-! ## Completion -/

/-- PRF, LDF, STE, LDP, STF and FEC complete (07 R191; 12 R357, R359, R360): PRF retires, with the line of a far address in
the core's cache where it can be filled; with nothing left to order, in free mode and with an address that translates to an
aligned word of a local store, LDF of a full word takes it and empties it, LDP takes it and leaves it full, STE of an empty
word and STF of any write it and fill it, FEC empties it, and each retires. -/
def Obligations.FullEmptyAccessesComplete : Prop :=
  ∀ (s : State) (d base : BitVec 5) (off : BitVec 9) (pa : Nat) (l : Leaf),
    let va := s.g base + off.signExtend 64 * 8
    let c := coreOf s.cur
    (s.performs → ∃ t, exec (.prf base off) s = .next t ∧ s.retired t ∧
      (s.xlate s.cur va.toNat needRd = .pa pa l → s.isFar c pa = true → s.migratingAt pa = false →
        s.fillUe c (pa / 128 * 128) 128 = false → ((t.core c).line (pa / 128)).isSome = true)) ∧
    (s.clear → (s.job s.th.job).gmode = 0 → va.toNat % 8 = 0 → (∃ k o, spaceOf pa = .loc k o) →
      (s.xlate s.cur va.toNat needRw = .pa pa l → s.wordFull pa = true → s.hasUe pa 8 = false →
        ∃ t, exec (.ldf d base off) s = .next t ∧ s.retired t ∧ t.wordFull pa = false ∧
          t.g d = if d = 0 then 0 else wordOf (s.bytes pa 8)) ∧
      (s.xlate s.cur va.toNat needRd = .pa pa l → s.wordFull pa = true → s.hasUe pa 8 = false →
        ∃ t, exec (.ldp d base off) s = .next t ∧ s.retired t ∧ t.wordFull pa = true ∧
          t.g d = if d = 0 then 0 else wordOf (s.bytes pa 8)) ∧
      (s.xlate s.cur va.toNat needWr = .pa pa l →
        (s.wordFull pa = false → ∃ t, exec (.ste d base off) s = .next t ∧ s.retired t ∧ t.wordFull pa = true ∧
          t.bytes pa 8 = wordBytes (s.g d)) ∧
        (∃ t, exec (.stf d base off) s = .next t ∧ s.retired t ∧ t.wordFull pa = true ∧ t.bytes pa 8 = wordBytes (s.g d)) ∧
        (∃ t, exec (.fec base off) s = .next t ∧ s.retired t ∧ t.wordFull pa = false)))

/-- AMO, CAS, ARB, ARL, ARS and ARC complete (12 R361 to R363, R365 to R367): with nothing left to order, in free mode and
with an aligned address that translates to storage whose home accepts the access, AMO writes its new value and CAS its new
value or nothing, gd takes the old one, and each retires; ARB begins a region and ARL and ARS are recorded in it; ARC runs it,
writing its line or, where it is abandoned, nothing, returns its status and goes on after it. -/
def Obligations.AtomicsAndRegionsComplete : Prop :=
  ∀ (s : State) (d a b c : BitVec 5) (w : BitVec 1) (ord : BitVec 2) (fn : BitVec 4) (off : BitVec 9) (wc : BitVec 3)
    (pa : Nat) (l : Leaf),
    (let n := if w = 1 then 8 else 4
     let old := natOf (s.homeBytes pa n)
     s.clear → (s.job s.th.job).gmode = 0 → (s.g a).toNat % n = 0 → s.xlate s.cur (s.g a).toNat needRw = .pa pa l →
     noStorage pa = false → s.readAns pa n s.th.job = .ok → s.writeAns pa n s.th.job = .ok →
      (∃ t, exec (.amo d a b w ord fn) s = .next t ∧ s.retired t ∧
        (isView pa = false → t.bytes pa n = bytesOf n (amoNew fn.toNat n old ((s.g b).toNat % 2 ^ (8 * n)))) ∧
        (isView pa = true → s.sameBytes t) ∧
        t.g d = if d = 0 then 0 else if n = 8 ∨ fn = 9 then BitVec.ofNat 64 old else (BitVec.ofNat 32 old).signExtend 64) ∧
      (∃ t, exec (.cas d a b c w ord) s = .next t ∧ s.retired t ∧
        (isView pa = false →
          t.bytes pa n = if old = (s.g b).toNat % 2 ^ (8 * n) then bytesOf n (s.g c).toNat else s.bytes pa n) ∧
        (isView pa = true → s.sameBytes t) ∧
        t.g d = if d = 0 then 0 else if n = 8 then BitVec.ofNat 64 old else (BitVec.ofNat 32 old).signExtend 64)) ∧
    (s.performs → ∃ t, exec (.arb a) s = .next t ∧ t.th.pc = s.th.pc + 4 ∧ t.th.park = .running ∧
      t.th.region = some { pc := s.th.pc, base := a.toNat, addr := s.g a, body := [], accesses := 0 }) ∧
    (∀ r : Region, s.th.region = some r →
      (let n := 2 ^ (wc.toNat % 4)
       let va := r.addr + off.signExtend 64 * BitVec.ofNat 64 n
       r.base = b.toNat → r.body.length < 24 → r.accesses < 8 → va.toNat % n = 0 → va.toNat / 128 = r.addr.toNat / 128 →
       ∀ i ∈ ([.arl d b off wc, .ars d b off wc] : List Instr),
        ∃ t, exec i s = .next t ∧ t.th.pc = s.th.pc + 4 ∧
          t.th.region = some { r with body := r.body ++ [i], accesses := r.accesses + 1 }) ∧
      (let line := pa / 128 * 128
       let q := r.run { s.th with latchSeen := s.latchedAt pa } (s.homeBytes line 128)
       s.atRest → (s.job s.th.job).gmode = 0 → r.skipsOut = false →
       s.xlate s.cur (r.addr.toNat / 128 * 128) (if r.body.any isArs then needRw else needRd) = .pa pa l →
       noStorage pa = false → s.hasUe line 128 = false →
       (∀ o n, o < 128 → n ≤ 8 → s.readAns (line + o) n s.th.job = .ok) →
       (∀ o, o < 128 → s.writeAns (line + o) 1 s.th.job = .ok) →
        ∃ t, exec (.arc d a) s = .next t ∧ t.th.pc = s.th.pc + 4 ∧ t.th.park = .running ∧ t.th.region = none ∧
          t.g d = (if d = 0 ∨ q.x.gr a.toNat = 0 then 0 else 1) ∧ s.sameBytesBut t line 128 ∧
          (q.x.gr a.toNat = 0 → isView line = false → ∀ o, o < 128 →
            t.byte (line + o) = if q.writes o = true then nth 0 q.line o else s.byte (line + o)) ∧
          (q.x.gr a.toNat ≠ 0 → s.sameBytes t)))

/-- SEND, RECV, RPC, RPLY and HTW complete, and messages and replies arrive (10 R283 to R286, R288; 13 R390 to R393): with an
empty store buffer, room in the core's send queue and a proper operand, SEND puts its message on its way and retires, RPC its
call and waits for the reply, RPLY its reply; RECV of a ring with an entry returns TAIL; HTW sets a handler entry;
MESSAGE_DELIVERY writes a message's 64 bytes and its meta word into its ring, whose TAIL it advances, and RPLY_DELIVERY lets
its caller go on. The model's choice: the sequence number of a call (log entry 31). -/
def Obligations.MessagesAndCallsComplete : Prop :=
  ∀ (s : State) (d a b c : BitVec 5),
    let w := (s.g a).toNat
    let me := coreOf s.cur
    let k := s.core me
    let out := (List.range 8).flatMap (fun i => wordBytes (s.th.gr (24 + i)))
    let tok := BitVec.ofNat 32 (me + slotOf s.cur * 2 ^ 10 + s.th.rpcSeq.toNat * 2 ^ 14)
    (s.performs → s.th.sb = [] → s.sendQueue me < 16 →
      (w < 2 ^ 23 → (w / 2 ^ 10 % 64 ≠ 63 ∨ s.th.level ≠ .user) → w / 2 ^ 16 % 2 ^ 7 ≤ 64 →
        ∃ t m, exec (.send a) s = .next t ∧ s.retired t ∧ t.msgs = s.msgs ++ [m] ∧ m.src = me ∧ m.dst = w % 1024 ∧
          m.hidx = w / 2 ^ 10 % 64 ∧ m.len = w / 2 ^ 16 % 2 ^ 7 ∧ m.call = false ∧ m.job = s.th.job ∧ m.tid = s.th.tid ∧
          m.payload = (out.take m.len ++ List.replicate 64 0).take 64) ∧
      (w < 2 ^ 23 → (w / 2 ^ 10 % 64 ≠ 63 ∨ s.th.level ≠ .user) → w / 2 ^ 16 % 2 ^ 7 ≤ 56 →
        ∃ t m, exec (.rpc a) s = .next t ∧ t.th.park = .rpc tok ∧ t.th.rpcSeq = s.th.rpcSeq + 1 ∧ t.msgs = s.msgs ++ [m] ∧
          m.dst = w % 1024 ∧ m.hidx = w / 2 ^ 10 % 64 ∧ m.call = true ∧ m.token = tok) ∧
      (∃ t p, exec (.rply a) s = .next t ∧ s.retired t ∧ t.replies = s.replies ++ [p] ∧ p.token = (s.g a).setWidth 32 ∧
        p.src = me ∧ p.payload = out)) ∧
    (let q := s.ring me w
     s.performs → w ≤ 15 → q.en = true → k.ringJob = some s.th.job → s.ringCount me q ≠ 0 →
      ∃ t, exec (.recv d a) s = .next t ∧ s.retired t ∧
        t.g d = if d = 0 then 0 else BitVec.ofNat 64 (natOf (s.bytes (q.tailPa me) 8))) ∧
    (let lo := (s.g b).toNat
     s.performs → w < 64 → lo < 2 ^ 22 → (s.g c).toNat < 2 ^ 48 → lo % 4 ≠ 3 → k.ringJob = some s.th.job →
      ∃ t h, exec (.htw a b c) s = .next t ∧ s.retired t ∧
        (t.core me).handlers = Store.put HEntry.init w h k.handlers ∧ h.kind = BitVec.ofNat 2 lo ∧ h.ring = lo / 4 % 16 ∧
        h.slots = BitVec.ofNat 16 (lo / 64) ∧ h.pc = s.g c ∧ h.job = s.th.job ∧ h.kid = s.th.kid) ∧
    (∀ m, s.msgs[s.arg.n]? = some m → m.held = false → s.behind m.src m.dst m.num m.job m.tid = false → m.src < 1024 →
      (s.job m.job).gmode = 0 → (s.core m.dst).ringJob ≠ none → m.engine = false →
      let h := Store.get HEntry.init m.hidx (s.core m.dst).handlers
      let q := s.ring m.dst h.ring
      h.kind = 1 → q.en = true → s.ringCount m.dst q < 2 ^ q.log2n → q.base % 64 = 0 → 16 ≤ q.base →
      let tail := natOf (s.bytes (q.tailPa m.dst) 8)
      let n := 2 ^ q.log2n
      ∃ t, exec .messageDelivery s = .next t ∧ t.msgs = s.msgs.eraseIdx s.arg.n ∧
        t.bytes (localPa m.dst (q.base + tail % n * 64)) 64 = (m.payload.take 64 ++ List.replicate 64 0).take 64 ∧
        natOf (t.bytes (localPa m.dst (q.base + n * 64 + tail % n * 8)) 8) =
          ((if m.sys = true then 0 else m.src + m.slot * 2 ^ 10) + m.hidx * 2 ^ 14 + m.len * 2 ^ 20 +
            (if m.call = true then 2 ^ 28 else 0) + (if m.sys = true then 2 ^ 30 else 0) +
            (if m.call = true then m.token.toNat else if m.sys = true then 0 else m.tid.toNat + m.job * 2 ^ 14) * 2 ^ 32) % 2 ^ 64 ∧
        t.bytes (q.tailPa m.dst) 8 = wordBytes (BitVec.ofNat 64 tail + 1)) ∧
    (∀ p t x, s.replies[s.arg.n]? = some p → p.held = false → (s.job p.job).gmode = 0 →
      s.behind p.src (p.token.toNat % 1024) p.num p.job p.tid = false →
      s.threads.find? (fun y => y.2.live && y.2.park == .rpc p.token) = some (t, x) → s.thread t = x →
      ∃ u, exec .rplyDelivery s = .next u ∧ u.replies = s.replies.eraseIdx s.arg.n ∧ (u.thread t).pc = x.pc + 4 ∧
        (u.thread t).park = .running ∧
        ∀ i, i < 8 → (u.thread t).gr (24 + i) = wordOf (sub (p.payload ++ List.replicate 64 0) (8 * i) 8))

/-- SPWN, QUIT, BAR, QSC and WFT complete, and what they wait for ends (05 R112, R119; 07 R205; 10 R287, R289, R290; 13 R394
to R398; 03 R68): SPWN sends its request and SPAWN_SERVICE answers it with the new thread's id; QUIT frees its slot; BAR joins
its episode, SIDEBAND_BAR adds an arrival, and BARRIER_EPISODE_COMPLETE lets every participant go on; QSC and WFT wait, and
QSC_QUIET_CHECK, once 2,048 cycles have passed without activity, and WFT_RELEASE let their threads go on; QUANTUM_END begins
the next quantum. The model's choice: QUIT keeps the sequence number of the slot's calls (log entry 31), and which waiting
threads count as idle for QSC (24). -/
def Obligations.ThreadsAndBarriersComplete : Prop :=
  ∀ (s : State) (d a b c : BitVec 5) (id sc : BitVec 3),
    let n := (s.g a).toNat
    let me := coreOf s.cur
    (s.performs → s.th.sb = [] → n ≤ 1023 →
      ∃ t q, exec (.spwn d a b c) s = .next t ∧ t.th.park = .spawn ∧ t.spawns = s.spawns ++ [q] ∧ q.core = n ∧
        q.waiter = some (s.cur, d.toNat) ∧ q.job = s.th.job ∧ q.kid = s.th.kid ∧ q.pc = s.g b) ∧
    (∀ r slot rest tid w dd, s.spawns[s.arg.n]? = some r → r.held = false → (s.job r.job).gmode = 0 →
      s.behind r.src r.core r.num r.job r.tid = false → r.waiter = some (w, dd) →
      s.freeSlots r.job r.kid r.core r.slots = slot :: rest → s.freeId r.job = some tid → w ≠ r.core * 16 + slot →
      ∃ t, exec .spawnService s = .next t ∧ (t.thread (r.core * 16 + slot)).live = true ∧
        (t.thread (r.core * 16 + slot)).pc = r.pc ∧ (t.thread w).pc = (s.thread w).pc + 4 ∧ (t.thread w).park = .running ∧
        (t.thread w).gr dd = if dd = 0 then 0 else BitVec.ofNat 64 tid) ∧
    (s.clear → s.outstanding = 0 → s.ueDue s.cur = false → (s.job s.th.job).gmode = 0 →
      (s.lastOfKernel && s.copying s.th.job s.th.kid) = false →
      ∃ t, exec .quit s = .next t ∧ t.th = { Thread.init with rpcSeq := s.th.rpcSeq }) ∧
    (let scope := if sc = 4 ∧ s.pkg.pod.form = false then Scope.pkg else scopeOfCode sc.toNat
     let key := barKey scope (scopeInst scope me) id.toNat
     s.clear → 1 ≤ n → n ≤ 16384 → s.outstanding = 0 → s.episode key = none →
      ∃ t e, exec (.bar a id sc) s = .next t ∧ t.th.park = .bar key ∧ t.episode key = some e ∧ e.arrivals = 1 ∧
        e.parked = [s.cur] ∧ e.count = some n ∧ e.job = some s.th.job) ∧
    (∀ e, s.episode s.arg.n = some e → e.complete = true → (∀ p ∈ e.ports, (s.pkg.pod.port p).up = true) →
      e.parked.Nodup → (∀ u ∈ e.parked, (s.thread u).live = true ∧ (s.job (s.thread u).job).gmode = 0) →
      ∃ t, exec .barrierEpisodeComplete s = .next t ∧ t.episode s.arg.n = none ∧
        ∀ u ∈ e.parked, (t.thread u).pc = (s.thread u).pc + 4 ∧ (t.thread u).park = .running) ∧
    (let key := barKey .pod 0 (s.arg.n % 8)
     (s.pkg.pod.port s.arg.v.toNat).up = true → s.arg.b = false →
      ∃ t e, exec .sidebandBar s = .next t ∧ t.episode key = some e ∧
        e.arrivals = ((s.episode key).map (·.arrivals)).getD 0 + 1) ∧
    (s.performs → ∃ t, exec (.qsc sc) s = .next t ∧ t.th.park = .qsc (scopeOfCode sc.toNat) none false) ∧
    (let u := s.arg.n
     let x := s.thread u
     (∀ scope since, x.park = .qsc scope (some since) false → s.quiet scope (coreOf u) x.job = true → since + 2048 ≤ s.cyc →
      x.live = true → (s.job x.job).gmode = 0 →
      ∃ t, exec .qscQuietCheck s = .next t ∧ (t.thread u).pc = x.pc + 4 ∧ (t.thread u).park = .running) ∧
     (∀ at_, x.park = .wft at_ → at_.toNat ≤ s.pkg.clock.ptime.toNat →
      ∃ t, exec .wftRelease s = .next t ∧ (t.thread u).pc = x.pc + 4 ∧ (t.thread u).park = .running)) ∧
    (s.performs → n ≤ s.pkg.clock.ptime.toNat → ∃ t, exec (.wft a) s = .next t ∧ s.retired t) ∧
    (s.quantumOver s.arg.n = true → s.gateQueue = [] → s.msgs = [] → s.replies = [] → s.spawns = [] →
      ∃ t, exec .quantumEnd s = .next t ∧ (t.job s.arg.n).quantum = (s.job s.arg.n).quantum + 1 ∧
        ∀ u ∈ s.jobThreads s.arg.n, (t.thread u).qcount = 0)

/-- CPS, CPL, CPQ, HWT, HRL, ULS and ULR complete, and the events of engines and counters (06 R158 to R163; 10 R291, R295 to
R297; 13 R399 to R404): CPS writes a shadow; CPL with ready handles and room at an engine queues its transfer and returns its
TID, which CPQ reads; HWT of a handle in the state asked for and HRL of one at rest retire; ULS of a proper descriptor arms
its counter and ULR reads it; COPY_TRANSFER_START starts the first transfer of an engine and COPY_TRANSFER_COMPLETE ends it;
counts, feeds and totals reach their counters, and ULLAGE_LAUNCH starts its thread. The model's choice: a transfer is
performed whole at its start (log entry 45). -/
def Obligations.CopiesAndCountersComplete : Prop :=
  ∀ (s : State) (d a b h : BitVec 5) (sel : BitVec 14) (st : BitVec 2) (pa : Nat),
    let k := s.core (coreOf s.cur)
    let x := Store.get Handle.init h.toNat k.handles
    let elt := (shadow s.th.shadows 11).toNat
    let e := s.arg.n
    (s.performs →
      (∃ t, exec (.cps a sel) s = .next t ∧ s.retired t ∧
        (sel ≠ 11 → Store.get 0 sel.toNat t.th.shadows = s.g a)) ∧
      (∃ t, exec (.cpq d a) s = .next t ∧ s.retired t ∧
        t.g d = if d = 0 then 0 else s.tidStatus ((s.g a).toNat % 65536)) ∧
      (x.st = ([.free, .filling, .full, .draining] : List HState).getD st.toNat .free →
        ∃ t, exec (.hwt st h) s = .next t ∧ s.retired t) ∧
      ((x.owner = none ∨ x.owner = some (s.th.job, s.th.kid)) → (x.st = .free ∨ x.st = .full) →
        ∃ t, exec (.hrl h) s = .next t ∧ s.retired t ∧ (t.core (coreOf s.cur)).handle h.toNat = Handle.init) ∧
      (∀ g, s.cplCheck ((dstHandle elt).toList ++ (srcHandle elt).toList) = none → s.th.sb = [] →
        k.handlesReady (dstHandle elt) (srcHandle elt) = true → s.pickEngine (dieOf (coreOf s.cur)) = some g →
        ∃ t q, exec (.cpl d) s = .next t ∧ s.retired t ∧ (t.engine g).queue = (s.engine g).queue ++ [q] ∧
          q.shadows = s.th.shadows ∧ q.job = s.th.job ∧ q.kid = s.th.kid ∧
          t.g d = if d = 0 then 0 else BitVec.ofNat 64 q.tidNum) ∧
      (let n := (s.g a).toNat
       n ≤ 16383 → s.notMine n = false →
        (∃ t, exec (.ulr d a) s = .next t ∧ s.retired t ∧
          t.g d = if d = 0 then 0 else BitVec.ofNat 64 ((s.counter n).read 8)) ∧
        (let ws := s.words pa 8
         s.atRest → s.nearWords (s.g b).toNat pa 8 →
          (nth 0 ws 2 = 0 → ∃ t, exec (.uls d a b) s = .next t ∧ s.retired t ∧ t.g d = 0 ∧ (t.counter n).armed = false) ∧
          (∀ rs, nth 0 ws 2 ≠ 0 → badUls ws = false → s.bindRange s.th.job (nth 0 ws 0).toNat (nth 0 ws 1).toNat = .ok rs →
            s.ulsStatus n rs = 0 → ∃ t, exec (.uls d a b) s = .next t ∧ s.retired t ∧ t.g d = 0 ∧
              (t.counter n).armed = true ∧ (t.counter n).count = 0 ∧ (t.counter n).total = (nth 0 ws 2).setWidth 48 ∧
              (t.counter n).owner = some s.th.job ∧ (t.counter n).ranges = rs)))) ∧
    (∀ t rest, (s.engine e).queue = t :: rest →
      ((∀ y ∈ t :: rest, y.started = false) → s.ordReady t = true → s.engineHeld e t.num = false →
        (s.runTransfer e t).waits = none →
        let q := s.runTransfer e t
        exec .copyTransferStart s = .next ((q.st.mapTransfer e t.num (fun y =>
          { y with started := true, err := q.err, oor := q.oor, clipped := isClipped y.shadows && q.err != 1 })).sendParts
            e t q.sends.reverse)) ∧
      (t.started = true → t.remote = 0 → ∃ u, exec .copyTransferComplete s = .next u ∧
        (u.engine e).done = (s.engine e).done + 1 ∧ (u.engine e).queue = (t :: rest).filter (fun y => y.num != t.num))) ∧
    (let y := s.counter e
     y.armed = true → y.fired = false → (y.count + s.arg.v.setWidth 48).toNat < y.total.toNat →
      exec .counterFeedWrite s = .next (s.setCounter e { y with count := y.count + s.arg.v.setWidth 48 })) ∧
    (let y := s.counter e
     (y.armed = false ∨ y.fired = true) →
      exec .counterTotalWrite s = .next (s.setCounter e { y with total := s.arg.v.setWidth 48 })) ∧
    (let y := s.counter s.arg.m
     let v := Store.get 0 e y.frags
     y.armed = true → y.fired = false → (y.count + BitVec.ofNat 48 v).toNat < y.total.toNat →
      exec .ullageCountReport s = .next (s.setCounter s.arg.m
        { y with frags := Store.put 0 e 0 y.frags, count := y.count + BitVec.ofNat 48 v })) ∧
    (∀ i r slot rest id, (indexed s.spawns).find? (fun p => p.2.counter == some e) = some (i, r) →
      r.waiter = none → r.held = false → (s.job r.job).gmode = 0 → s.freeSlots r.job r.kid r.core r.slots = slot :: rest →
      s.freeId r.job = some id →
      ∃ t, exec .ullageLaunch s = .next t ∧ t.spawns = s.spawns.eraseIdx i ∧
        (t.thread (r.core * 16 + slot)).live = true ∧ (t.thread (r.core * 16 + slot)).pc = r.pc)

/-- RST, RINC and BCMD complete, and the packets, answers and bank commands that arrive (03 R52, R53, R58, R59, R63; 06 R170,
R173; 13 R405, R406, R411): with a usable peer entry, a context and fewer than 64 operations outstanding RST and RINC send
their packet and retire; BCMD of a proper descriptor queues its command; a packet that this target accepts is performed and
answered; an acknowledgement, a failure or a refusal ends its operation, an idle context closes, and BAU_COMMAND takes the
oldest command of its bank. -/
def Obligations.RemoteAndBankCommandsComplete : Prop :=
  ∀ (s : State) (a b c : BitVec 5) (w : BitVec 2) (rel kind : BitVec 1) (j pa : Nat),
    let peer := (s.g a).toNat % 4096
    let p := s.arg.pkt
    let va := p.va.toNat
    let ans := fun (op : Nat) (data : List Byte) => s.outbox ++ [({ kind := 4, op := op, job := p.jobid, peer := 0, va := BitVec.ofNat 64 p.id, data := data, rel := false, ports := 0 } : OutPkt)]
    (s.clear → s.outstanding < 64 → s.entryUsable s.th.job peer = true → s.pdcFull s.th.job peer = false →
      (∃ t q, exec (.rst a b c w) s = .next t ∧ s.retired t ∧ t.outbox = s.outbox ++ [q] ∧ q.kind = 0 ∧ q.va = s.g b ∧
        q.data = (wordBytes (s.g c)).take (2 ^ w.toNat)) ∧
      ((kind = 0 → (s.g b).toNat % 8 = 0) →
        ∃ t q, exec (.rinc a b c rel kind) s = .next t ∧ s.retired t ∧ t.outbox = s.outbox ++ [q] ∧
          q.kind = (if kind = 1 then 2 else 1) ∧ q.data = wordBytes (s.g c) ∧ q.rel = (rel == 1))) ∧
    (let ws := s.words pa 6
     let y := bauDesc ws
     ∀ ps, s.clear → s.nearWords (s.g a).toNat pa 6 → y.bad = false → y.op < 12 → s.bauXlate y.ranges = .ok ps →
      s.bauCheck y.ranges ps = none → (s.bank (bankOf s.iltab ((ps.map (·.1)).headD 0))).fifo.length < 16 →
      let k := bankOf s.iltab ((ps.map (·.1)).headD 0)
      ∃ t q, exec (.bcmd a) s = .next t ∧ s.retired t ∧ (t.bank k).fifo = (s.bank k).fifo ++ [q] ∧ q.op = y.op ∧
        q.nsec = y.nsec ∧ q.d = (ps.map (·.1)).headD 0 ∧ q.s1 = nth 0 ws 4 ∧ q.s2 = nth 0 ws 5) ∧
    (∀ q rest, (s.bank s.arg.n).fifo = q :: rest →
      ∃ t, exec .bauCommand s = .next t ∧ (t.bank s.arg.n).fifo = rest) ∧
    (s.accepts p j →
      (s.onePiece j va p.data.length needWr pa → s.writeAns pa p.data.length j = .ok → p.accum = none →
        ∃ t, exec .rmaWrite s = .next t ∧ t.bytes pa p.data.length = p.data ∧ t.outbox = ans 0 []) ∧
      (s.onePiece j va p.len needRd pa → s.readAns pa p.len j = .ok →
        ∃ t, exec .rmaRead s = .next t ∧ t.outbox = ans 2 (s.bytes pa p.len)) ∧
      (s.onePiece j va 8 needRw pa → va % 8 = 0 → s.readAns pa 8 j = .ok → s.writeAns pa 8 j = .ok →
        let old := BitVec.ofNat 64 (natOf (s.bytes pa 8))
        (∃ t, exec .fetchAdd s = .next t ∧ t.bytes pa 8 = wordBytes (old + p.addend) ∧ t.outbox = ans 2 (wordBytes old)) ∧
        (p.counter = none →
          ∃ t, exec .nonFetchingAtomicAdd s = .next t ∧ t.bytes pa 8 = wordBytes (old + p.addend) ∧ t.outbox = ans 0 []))) ∧
    (∀ r, s.sentRemote s.arg.n = some r → r.engine = none → r.cmd = none →
      (∃ t, exec .remoteAck s = .next t ∧ t.remotes = s.remotes.filter (fun o => o.id != r.id)) ∧
      (∀ u, r.thr = some u → (s.thread u).live = true → (s.thread u).job = r.job → (s.thread u).tid = r.tid →
        (s.thread u).rpe = false →
        ∀ q ∈ ([(.retransmissionLimit, 1), (.negativeAcknowledgement, if s.arg.b = true then 3 else 2)] : List (Instr × Nat)),
          ∃ t, exec q.1 s = .next t ∧ t.remotes = s.remotes.filter (fun o => o.id != r.id) ∧ (t.thread u).rpe = true ∧
            (t.thread u).rpeDetail = BitVec.ofNat 64 (r.peer % 4096 + q.2 * 4096))) ∧
    (∀ q, s.pdcs.find? (fun q => q.id == s.arg.n) = some q → s.remotes = [] → q.idleSince + 19000000 ≤ s.cyc →
      exec .pdcIdleClose s = .next { s with pdcs := s.pdcs.filter (fun y => y.id != q.id) })

/-- POST, WWT, VPUB and VQRY complete (06 R164 to R166; 09 R253, R254, R258; 13 R407 to R410): with nothing left to order a
POST for a partition of the job that stands and has room for it retires; WWT of an open window returns its check cycle; VPUB
of a copy of the job's own set that no partition has latched publishes it and returns the new number; VQRY returns the set's
state. -/
def Obligations.PartitionAccessesComplete : Prop :=
  ∀ (s : State) (d a b : BitVec 5) (k : Nat),
    let w := (s.g a).toNat
    let t := w % 1024
    (let q : Post :=
      { thr := s.cur, part := k, tiles := if w / 2 ^ 10 % 2 = 1 then (s.part k).tiles else [t], form := w / 2 ^ 11 % 4,
        sel := w / 2 ^ 13 % 16, idx := w / 2 ^ 17 % 512, value := s.g b }
     s.clear → postBad w = false → s.addressed s.th.job t = some k → (s.part k).st ≠ .preempted → (s.part k).st ≠ .free →
     s.postRoom q = true → s.postBehind q = false →
      ∃ u, exec (.post a b) s = .next u ∧ s.retired u) ∧
    (∀ x, s.performs → w < 2 ^ 14 → s.addressed s.th.job t = some k → (s.th.wwtFor = none ∨ s.th.wwtFor = some k) →
      (s.tileOf k t).wins.find? (fun y => y.defn.wid == w / 2 ^ 10 % 16 && y.isOpen) = some x →
      ∃ u, exec (.wwt d a) s = .next u ∧ s.retired u ∧
        u.g d = if d = 0 then 0 else x.checkCycle (s.part k).lead) ∧
    (let x := s.vset w
     let n := (s.g b).toNat
     w < 1024 → x.used = true → x.owner = s.th.job →
      (s.clear → n < x.ncopy → nth 0 x.latch n = 0 → x.pub ≠ 0xFFFFFFFF →
        ∃ u, exec (.vpub d a b) s = .next u ∧ s.retired u ∧ (u.vset w).pub = x.pub + 1 ∧ (u.vset w).pubcopy = n ∧
          u.g d = if d = 0 then 0 else (x.pub + 1).setWidth 64) ∧
      (s.performs → d.toNat ≤ 30 → ∃ u, exec (.vqry d a) s = .next u ∧ s.retired u ∧
        (d ≠ 0 → u.g d = BitVec.ofNat 64 (x.pub.toNat + x.pubcopy * 2 ^ 32 + x.ncopy * 2 ^ 34)) ∧
        u.g (d + 1) = BitVec.ofNat 64 (natOf (x.latch.flatMap (fun l => bytesOf 2 l.toNat)))))

/-- ALC, FRE, TLBI, TLBI.all and MIGR complete, and the events of the memory path (06 R142, R146, R149, R155, R156; 07 R181,
R203; 12 R358; 13 R414 to R416, R420, R421): in free mode ALC returns a free block and FRE frees one; TLBI and TLBI.all leave
no entry of the page or the job; MIGR returns its status or parks while the page moves, and MIGRATION_END moves it and answers
0; a page walk lets its thread go on; drains, evictions, reissues, gate services and register writes are done. -/
def Obligations.AllocatorAndMemoryPathComplete : Prop :=
  ∀ (s : State) (d a b : BitVec 5),
    let me := coreOf s.cur
    let asid := (s.job s.th.job).asid
    let jb := s.job s.th.job
    (s.performs → jb.gmode = 0 →
      (∀ off j, jb.allocate (s.g a).toNat = some (off, j) →
        ∃ t, exec (.alc d a) s = .next t ∧ s.retired t ∧ t.job s.th.job = j ∧
          t.g d = if d = 0 then 0 else j.base + BitVec.ofNat 64 off) ∧
      (s.g a = 0 → ∃ t, exec (.fre a) s = .next t ∧ s.retired t) ∧
      (∀ j, s.g a ≠ 0 → jb.base.toNat ≤ (s.g a).toNat → jb.release ((s.g a).toNat - jb.base.toNat) = some j →
        ∃ t, exec (.fre a) s = .next t ∧ s.retired t ∧ t.job s.th.job = j)) ∧
    (s.performs →
      (∃ t, exec (.tlbi a) s = .next t ∧ s.retired t ∧ ∀ e ∈ (t.core me).tlb, e.ofPage asid (some (s.g a).toNat) = false) ∧
      (∃ t, exec .tlbiAll s = .next t ∧ s.retired t ∧ ∀ e ∈ (t.core me).tlb, e.asid ≠ asid)) ∧
    (∀ l pte at_ lv, s.clear → s.th.level ≠ .user → s.walk s.th.job (s.g a).toNat = .leaf l pte at_ lv →
      let va := (s.g a).toNat
      let old := l.at_ va - va % l.page
      let st := s.migrStatus l (bit pte 11) old (s.g b)
      (st ≠ 0 → ∃ t, exec (.migr d a b) s = .next t ∧ s.retired t ∧ t.g d = if d = 0 then 0 else BitVec.ofNat 64 st) ∧
      (st = 0 → ∃ t m, exec (.migr d a b) s = .next t ∧ t.th.park = .migr ∧ t.migrations = s.migrations ++ [m] ∧
        m.old = old ∧ m.new = (s.g b).toNat ∧ m.size = l.page ∧ m.thr = s.cur ∧ m.d = d.toNat)) ∧
    (∀ m, s.migrations.find? (fun k => !s.bauBusy k.old k.size) = some m → (s.thread m.thr).live = true →
      (s.thread m.thr).park = .migr →
      ∃ t, exec .migrationEnd s = .next t ∧ t.migrations = s.migrations.filter (fun k => k != m) ∧
        (t.thread m.thr).pc = (s.thread m.thr).pc + 4 ∧ (t.thread m.thr).park = .running) ∧
    (∀ q l pte at_ lv, (s.walkQueue s.arg.n).find? s.walkReady = some q → s.walk q.job q.va.toNat = .leaf l pte at_ lv →
      (s.thread q.thr).live = true → (s.thread q.thr).park = .walk q.va →
      ∃ t, exec .pageWalk s = .next t ∧ (t.thread q.thr).park = .running) ∧
    (let u := s.arg.n
     ∀ (p : SbPart) (tag : Scope) (rel : Bool) (rest : List SbEntry), (s.thread u).sb = { parts := [p], tag := tag, rel := rel } :: rest →
      (∀ q ∈ s.parts, q.2.heldStores.contains u = false) → s.writeAns p.pa p.data.length (s.thread u).job = .ok →
      isView p.pa = false → s.isFar (coreOf u) p.pa = false →
      ∃ t, exec .storeBufferDrain s = .next t ∧ t.bytes p.pa p.data.length = p.data ∧ (t.thread u).sb = rest) ∧
    (∃ t, exec .rlcEviction s = .next t ∧ (t.core s.arg.n).line s.arg.m = none) ∧
    (∃ t, exec .movedReissue s = .next t ∧ (t.thread s.arg.n).sb.length = (s.thread s.arg.n).sb.length) ∧
    (∀ q rest pa, s.gateQueue.filter (fun r => r.gate == s.arg.n) = q :: rest → q.held = false → (s.job q.job).gmode = 0 →
      q.op = .fec pa → ∃ t, exec .gatedRequestService s = .next t ∧ (t.thread q.thr).pc = (s.thread q.thr).pc + 4 ∧
        (t.thread q.thr).park = .running ∧ t.wordFull pa = false) ∧
    (∀ r, regAt s.arg.n = some r → s.mayWrite s.arg.who r = true →
      exec .registerWrite s = .next (s.mmioWrite s.arg.who r s.arg.v)) ∧
    (let v := s.arg.v.toNat
     s.userKernelRuns s.arg.n = false → (v % 64 = 0 ∨ (16 ≤ v % 64 ∧ v % 64 ≤ 36)) →
     v / 2 ^ 12 % 2 ^ 36 * 4096 % 2 ^ (v % 64) = 0 →
      ∃ t, exec .alccfgWrite s = .next t ∧ (t.job s.arg.n).sizelog2 = v % 64 ∧ (t.job s.arg.n).liveBlocks = [])

/-- No instruction and no event stops the machine: exec answers a next state for every one in every state, so that whatever
the spec raises is a next state too (05 R133; 10 R282). -/
def Obligations.ExecAnswersANextState : Prop := ∀ (i : Instr) (s : State), ∃ t, exec i s = .next t
end

