-- ==== Sys2Proof/Laws/Store.lean ====
section
/-! SUPPORT. What the sparse table does: read after write, and the canonical form kept by every operation on it. -/

namespace Sys2Proof

variable {α : Type}

@[simp] theorem Store.get_nil (d : α) (k : Nat) : Store.get d k [] = d := rfl

theorem Store.get_insert_same (d : α) (k : Nat) (v : α) (t : Store α) : Store.get d k (Store.insert k v t) = v := by
  induction t with
  | nil => simp [Store.insert, Store.get]
  | cons p t ih =>
    obtain ⟨j, w⟩ := p
    simp only [Store.insert]
    split
    · have : j ≠ k := by omega
      simp [Store.get, this, ih]
    · split <;> simp [Store.get]

theorem Store.get_insert_other (d : α) {k m : Nat} (h : m ≠ k) (v : α) (t : Store α) :
    Store.get d m (Store.insert k v t) = Store.get d m t := by
  induction t with
  | nil => simp [Store.insert, Store.get, h.symm]
  | cons p t ih =>
    obtain ⟨j, w⟩ := p
    simp only [Store.insert]
    split
    · simp [Store.get, ih]
    · split
      · have : j ≠ m := by omega
        simp [Store.get, h.symm, this]
      · simp [Store.get, h.symm]

theorem Store.get_erase_same (d : α) (k : Nat) (t : Store α) : Store.get d k (Store.erase k t) = d := by
  induction t with
  | nil => rfl
  | cons p t ih =>
    obtain ⟨j, w⟩ := p
    simp only [Store.erase]
    split
    · exact ih
    · simp [Store.get, *]

theorem Store.get_erase_other (d : α) {k m : Nat} (h : m ≠ k) (t : Store α) :
    Store.get d m (Store.erase k t) = Store.get d m t := by
  induction t with
  | nil => rfl
  | cons p t ih =>
    obtain ⟨j, w⟩ := p
    simp only [Store.erase]
    split
    · have : j ≠ m := by omega
      simp [Store.get, this, ih]
    · simp [Store.get, ih]

variable [DecidableEq α]

/-- A read of the key just written gives the value written. -/
@[simp] theorem Store.get_put_same (d : α) (k : Nat) (v : α) (t : Store α) : Store.get d k (Store.put d k v t) = v := by
  unfold Store.put
  split
  · next h => rw [Store.get_erase_same, h]
  · exact Store.get_insert_same d k v t

/-- A write leaves every other key alone. -/
theorem Store.get_put_other (d : α) {k m : Nat} (h : m ≠ k) (v : α) (t : Store α) :
    Store.get d m (Store.put d k v t) = Store.get d m t := by
  unfold Store.put
  split
  · exact Store.get_erase_other d h t
  · exact Store.get_insert_other d h v t

theorem Store.get_put (d : α) (k m : Nat) (v : α) (t : Store α) :
    Store.get d m (Store.put d k v t) = if m = k then v else Store.get d m t := by
  split
  · next h => rw [h, Store.get_put_same]
  · next h => exact Store.get_put_other d h v t

/-! ## The canonical form -/

omit [DecidableEq α] in
theorem Store.rising_mono {a b : Nat} (h : a ≤ b) {t : Store α} (ht : Store.rising b t = true) :
    Store.rising a t = true := by
  cases t with
  | nil => rfl
  | cons p t => simp only [Store.rising, Bool.and_eq_true, decide_eq_true_eq] at ht ⊢; exact ⟨by omega, ht.2⟩

omit [DecidableEq α] in
theorem Store.rising_insert (k : Nat) (v : α) (t : Store α) (lo : Nat) (hk : lo ≤ k) (ht : Store.rising lo t = true) :
    Store.rising lo (Store.insert k v t) = true := by
  induction t generalizing lo with
  | nil => simp [Store.insert, Store.rising, hk]
  | cons p t ih =>
    obtain ⟨j, w⟩ := p
    simp only [Store.rising, Bool.and_eq_true, decide_eq_true_eq] at ht
    simp only [Store.insert]
    split
    · simp only [Store.rising, Bool.and_eq_true, decide_eq_true_eq]
      exact ⟨ht.1, ih (j + 1) (by omega) ht.2⟩
    · split
      · next h => subst h; simp [Store.rising, hk, ht.2]
      · simp only [Store.rising, Bool.and_eq_true, decide_eq_true_eq]
        exact ⟨hk, by omega, ht.2⟩

omit [DecidableEq α] in
theorem Store.rising_filter (f : Nat × α → Bool) (t : Store α) (lo : Nat) (ht : Store.rising lo t = true) :
    Store.rising lo (t.filter f) = true := by
  induction t generalizing lo with
  | nil => rfl
  | cons p t ih =>
    obtain ⟨j, w⟩ := p
    simp only [Store.rising, Bool.and_eq_true, decide_eq_true_eq] at ht
    rw [List.filter_cons]
    split
    · simp only [Store.rising, Bool.and_eq_true, decide_eq_true_eq]
      exact ⟨ht.1, ih _ ht.2⟩
    · exact ih lo (Store.rising_mono (by omega) ht.2)

omit [DecidableEq α] in
theorem Store.erase_eq_filter (k : Nat) (t : Store α) : Store.erase k t = t.filter (fun p => p.1 != k) := by
  induction t with
  | nil => rfl
  | cons p t ih =>
    obtain ⟨j, w⟩ := p
    simp only [Store.erase, List.filter_cons]
    split <;> simp_all

omit [DecidableEq α] in
theorem Store.clearRange_eq_filter (lo hi : Nat) (t : Store α) :
    Store.clearRange lo hi t = t.filter (fun p => !(decide (lo ≤ p.1) && decide (p.1 < hi))) := by
  induction t with
  | nil => rfl
  | cons p t ih =>
    obtain ⟨j, w⟩ := p
    simp only [Store.clearRange, List.filter_cons]
    split <;> simp_all

omit [DecidableEq α] in
theorem Store.mem_insert {k : Nat} {v : α} {t : Store α} {p : Nat × α} (h : p ∈ Store.insert k v t) :
    p = (k, v) ∨ p ∈ t := by
  induction t with
  | nil => simpa [Store.insert] using h
  | cons q t ih =>
    obtain ⟨j, w⟩ := q
    simp only [Store.insert] at h
    split at h
    · rcases List.mem_cons.1 h with h | h
      · simp [h]
      · rcases ih h with h | h <;> simp [h]
    · split at h <;> rcases List.mem_cons.1 h with h | h <;> simp_all

theorem Store.wf_filter (d : α) (f : Nat × α → Bool) {t : Store α} (h : Store.wf d t = true) :
    Store.wf d (t.filter f) = true := by
  simp only [Store.wf, Bool.and_eq_true, List.all_eq_true, decide_eq_true_eq] at h ⊢
  exact ⟨Store.rising_filter f t 0 h.1, fun p hp => h.2 p (List.mem_filter.1 hp).1⟩

/-- A write keeps the canonical form. -/
theorem Store.wf_put (d : α) (k : Nat) (v : α) {t : Store α} (h : Store.wf d t = true) :
    Store.wf d (Store.put d k v t) = true := by
  unfold Store.put
  split
  · rw [Store.erase_eq_filter]; exact Store.wf_filter d _ h
  · next hv =>
    simp only [Store.wf, Bool.and_eq_true, List.all_eq_true, decide_eq_true_eq] at h ⊢
    refine ⟨Store.rising_insert k v t 0 (Nat.zero_le _) h.1, fun p hp => ?_⟩
    rcases Store.mem_insert hp with hp | hp
    · simpa [hp] using hv
    · exact h.2 p hp

/-- Clearing a range keeps the canonical form. -/
theorem Store.wf_clearRange (d : α) (lo hi : Nat) {t : Store α} (h : Store.wf d t = true) :
    Store.wf d (Store.clearRange lo hi t) = true := by
  rw [Store.clearRange_eq_filter]; exact Store.wf_filter d _ h

end Sys2Proof
end

