-- ==== Sys2Proof/Laws/Memory.lean ====
section
/-! SUPPORT. Memory: what is read after a write, and the canonical form, which every operation that writes memory keeps. -/

namespace Sys2Proof.Machine

open Sys2Proof

/-! ## Bytes of a table -/

theorem putBytes_wf (m : Store Byte) (pa : Nat) (b : List Byte) (h : Store.wf 0 m = true) :
    Store.wf 0 (putBytes m pa b) = true := by
  induction b generalizing m pa with
  | nil => exact h
  | cons x t ih => exact ih _ _ (Store.wf_put 0 pa x h)

theorem get_putBytes_outside (m : Store Byte) (pa k : Nat) (b : List Byte) (h : k < pa ∨ pa + b.length ≤ k) :
    Store.get 0 k (putBytes m pa b) = Store.get 0 k m := by
  induction b generalizing m pa with
  | nil => rfl
  | cons x t ih =>
    simp only [List.length_cons] at h
    rw [putBytes, ih _ _ (by omega), Store.get_put_other _ (by omega)]

theorem get_putBytes_inside (m : Store Byte) (pa i : Nat) (b : List Byte) (h : i < b.length) :
    Store.get 0 (pa + i) (putBytes m pa b) = b[i] := by
  induction b generalizing m pa i with
  | nil => simp at h
  | cons x t ih =>
    cases i with
    | zero => rw [putBytes, get_putBytes_outside _ _ _ _ (by omega)]; simp
    | succ i =>
      rw [putBytes, show pa + (i + 1) = pa + 1 + i by omega, ih _ _ _ (by simpa using h)]
      simp

/-! ## Bytes of memory -/

@[simp] theorem putMem_byte_outside (s : State) (pa a : Nat) (b : List Byte) (h : a < pa ∨ pa + b.length ≤ a) :
    (s.putMem pa b).byte a = s.byte a := get_putBytes_outside _ _ _ _ h

theorem putMem_byte_inside (s : State) (pa i : Nat) (b : List Byte) (h : i < b.length) :
    (s.putMem pa b).byte (pa + i) = b[i] := get_putBytes_inside _ _ _ _ h

@[simp] theorem putMem_bytes (s : State) (pa : Nat) (b : List Byte) : (s.putMem pa b).bytes pa b.length = b := by
  apply List.ext_getElem (by simp [State.bytes])
  intro i h1 h2
  simp only [State.bytes, List.getElem_map, List.getElem_range]
  exact putMem_byte_inside s pa i b h2

@[simp] theorem bytes_length (s : State) (pa n : Nat) : (s.bytes pa n).length = n := by simp [State.bytes]

/-- A write performed at a home leaves every byte outside it as it was. -/
theorem perform_byte_outside (s : State) (pa a : Nat) (b : List Byte) (w : WTag) (h : a < pa ∨ pa + b.length ≤ a)
    (hm : (s.perform pa b w).mem = (s.putMem pa b).mem) : (s.perform pa b w).byte a = s.byte a := by
  simp only [State.byte, hm]
  exact get_putBytes_outside _ _ _ _ h

/-! ## The canonical form -/

theorem reset_memWf : State.reset.memWf := by decide

theorem putMem_memWf (s : State) (pa : Nat) (b : List Byte) (h : s.memWf) : (s.putMem pa b).memWf :=
  putBytes_wf _ _ _ h

theorem filter_memWf (f : Nat × Byte → Bool) {m : Store Byte} (h : Memory.wf m) : Memory.wf (m.filter f) :=
  Store.wf_filter 0 f h

theorem clearRange_memWf (lo hi : Nat) {m : Store Byte} (h : Memory.wf m) : Memory.wf (Store.clearRange lo hi m) :=
  Store.wf_clearRange 0 lo hi h

/-- A fold of steps that each keep a property of the state keeps it. -/
theorem foldl_keeps {β : Type} (P : State → Prop) (f : State → β → State) (hf : ∀ s b, P s → P (f s b)) (l : List β)
    (s : State) (h : P s) : P (l.foldl f s) := by
  induction l generalizing s with
  | nil => exact h
  | cons b t ih => exact ih _ (hf s b h)

/-- A fold of steps that each leave a part of the state leaves it. -/
theorem foldl_same {β γ : Type} (p : State → γ) (f : State → β → State) (hf : ∀ s b, p (f s b) = p s) (l : List β)
    (s : State) : p (l.foldl f s) = p s := by
  induction l generalizing s with
  | nil => rfl
  | cons b t ih => exact (ih _).trans (hf s b)

@[simp] theorem foldl_mem {β : Type} (f : State → β → State) (l : List β) (s : State)
    (hf : ∀ s b, (f s b).mem = s.mem) : (l.foldl f s).mem = s.mem := foldl_same State.mem f hf l s

@[simp] theorem foldl_memWf {β : Type} (f : State → β → State) (l : List β) (s : State)
    (hf : ∀ s b, Memory.wf s.mem → Memory.wf (f s b).mem) (h : Memory.wf s.mem) : Memory.wf (l.foldl f s).mem :=
  foldl_keeps (fun s => Memory.wf s.mem) f hf l s h

end Sys2Proof.Machine
end

