-- ==== Sys2Proof/Laws/PerInstr.lean ====
section
/-! SUPPORT. The family `Coded`, one lemma for each constructor of Instr: the words that an instruction has tell what it
is. A 32-bit word belongs to exactly one plane, a 16-bit one to Jalgal-T, an event has no word and no field limit
(11 R312, R324; spec/opcode_table.json). -/

/-- The words of an instruction tell its plane (11 R312, R324). -/
def Sys2Proof.Laws.Coded.Statement (i : Sys2Proof.Instr) : Prop :=
  match Sys2Proof.encode i with
  | .w32 _ => i.isNewt = !i.isStream
  | .w16 _ => i.isStream = true ∧ i.isNewt = false
  | .none => i.isStream = false ∧ i.isNewt = false ∧ i.wf = true

theorem Sys2Proof.Laws.Coded.add (d a b : BitVec 5) : Sys2Proof.Laws.Coded.Statement (.add d a b) :=
  Eq.refl true

theorem Sys2Proof.Laws.Coded.sub (d a b : BitVec 5) : Sys2Proof.Laws.Coded.Statement (.sub d a b) :=
  Eq.refl true

theorem Sys2Proof.Laws.Coded.addi (d a : BitVec 5) (imm : BitVec 14) : Sys2Proof.Laws.Coded.Statement (.addi d a imm) :=
  Eq.refl true

theorem Sys2Proof.Laws.Coded.mul (d a b : BitVec 5) : Sys2Proof.Laws.Coded.Statement (.mul d a b) :=
  Eq.refl true

theorem Sys2Proof.Laws.Coded.mulh (d a b : BitVec 5) : Sys2Proof.Laws.Coded.Statement (.mulh d a b) :=
  Eq.refl true

theorem Sys2Proof.Laws.Coded.mulhu (d a b : BitVec 5) : Sys2Proof.Laws.Coded.Statement (.mulhu d a b) :=
  Eq.refl true

theorem Sys2Proof.Laws.Coded.div (d a b : BitVec 5) : Sys2Proof.Laws.Coded.Statement (.div d a b) :=
  Eq.refl true

theorem Sys2Proof.Laws.Coded.divu (d a b : BitVec 5) : Sys2Proof.Laws.Coded.Statement (.divu d a b) :=
  Eq.refl true

theorem Sys2Proof.Laws.Coded.rem (d a b : BitVec 5) : Sys2Proof.Laws.Coded.Statement (.rem d a b) :=
  Eq.refl true

theorem Sys2Proof.Laws.Coded.remu (d a b : BitVec 5) : Sys2Proof.Laws.Coded.Statement (.remu d a b) :=
  Eq.refl true

theorem Sys2Proof.Laws.Coded.andR (d a b : BitVec 5) : Sys2Proof.Laws.Coded.Statement (.andR d a b) :=
  Eq.refl true

theorem Sys2Proof.Laws.Coded.orR (d a b : BitVec 5) : Sys2Proof.Laws.Coded.Statement (.orR d a b) :=
  Eq.refl true

theorem Sys2Proof.Laws.Coded.xorR (d a b : BitVec 5) : Sys2Proof.Laws.Coded.Statement (.xorR d a b) :=
  Eq.refl true

theorem Sys2Proof.Laws.Coded.andn (d a b : BitVec 5) : Sys2Proof.Laws.Coded.Statement (.andn d a b) :=
  Eq.refl true

theorem Sys2Proof.Laws.Coded.lea (d base idx : BitVec 5) (sc : BitVec 2) : Sys2Proof.Laws.Coded.Statement (.lea d base idx sc) :=
  Eq.refl true

theorem Sys2Proof.Laws.Coded.andi (d a : BitVec 5) (imm : BitVec 14) : Sys2Proof.Laws.Coded.Statement (.andi d a imm) :=
  Eq.refl true

theorem Sys2Proof.Laws.Coded.ori (d a : BitVec 5) (imm : BitVec 14) : Sys2Proof.Laws.Coded.Statement (.ori d a imm) :=
  Eq.refl true

theorem Sys2Proof.Laws.Coded.xori (d a : BitVec 5) (imm : BitVec 14) : Sys2Proof.Laws.Coded.Statement (.xori d a imm) :=
  Eq.refl true

theorem Sys2Proof.Laws.Coded.shl (d a b : BitVec 5) : Sys2Proof.Laws.Coded.Statement (.shl d a b) :=
  Eq.refl true

theorem Sys2Proof.Laws.Coded.shr (d a b : BitVec 5) : Sys2Proof.Laws.Coded.Statement (.shr d a b) :=
  Eq.refl true

theorem Sys2Proof.Laws.Coded.sar (d a b : BitVec 5) : Sys2Proof.Laws.Coded.Statement (.sar d a b) :=
  Eq.refl true

theorem Sys2Proof.Laws.Coded.rot (d a b : BitVec 5) : Sys2Proof.Laws.Coded.Statement (.rot d a b) :=
  Eq.refl true

theorem Sys2Proof.Laws.Coded.shli (d a : BitVec 5) (imm : BitVec 14) : Sys2Proof.Laws.Coded.Statement (.shli d a imm) :=
  Eq.refl true

theorem Sys2Proof.Laws.Coded.shri (d a : BitVec 5) (imm : BitVec 14) : Sys2Proof.Laws.Coded.Statement (.shri d a imm) :=
  Eq.refl true

theorem Sys2Proof.Laws.Coded.sari (d a : BitVec 5) (imm : BitVec 14) : Sys2Proof.Laws.Coded.Statement (.sari d a imm) :=
  Eq.refl true

theorem Sys2Proof.Laws.Coded.roti (d a : BitVec 5) (imm : BitVec 14) : Sys2Proof.Laws.Coded.Statement (.roti d a imm) :=
  Eq.refl true

theorem Sys2Proof.Laws.Coded.clz (d a : BitVec 5) : Sys2Proof.Laws.Coded.Statement (.clz d a) :=
  Eq.refl true

theorem Sys2Proof.Laws.Coded.ctz (d a : BitVec 5) : Sys2Proof.Laws.Coded.Statement (.ctz d a) :=
  Eq.refl true

theorem Sys2Proof.Laws.Coded.popc (d a : BitVec 5) : Sys2Proof.Laws.Coded.Statement (.popc d a) :=
  Eq.refl true

theorem Sys2Proof.Laws.Coded.brev (d a : BitVec 5) : Sys2Proof.Laws.Coded.Statement (.brev d a) :=
  Eq.refl true

theorem Sys2Proof.Laws.Coded.bswp (d a : BitVec 5) : Sys2Proof.Laws.Coded.Statement (.bswp d a) :=
  Eq.refl true

theorem Sys2Proof.Laws.Coded.bext (d a : BitVec 5) (pos len1 : BitVec 6) : Sys2Proof.Laws.Coded.Statement (.bext d a pos len1) :=
  Eq.refl true

theorem Sys2Proof.Laws.Coded.bins (d a : BitVec 5) (pos len1 : BitVec 6) : Sys2Proof.Laws.Coded.Statement (.bins d a pos len1) :=
  Eq.refl true

theorem Sys2Proof.Laws.Coded.min (d a b : BitVec 5) : Sys2Proof.Laws.Coded.Statement (.min d a b) :=
  Eq.refl true

theorem Sys2Proof.Laws.Coded.max (d a b : BitVec 5) : Sys2Proof.Laws.Coded.Statement (.max d a b) :=
  Eq.refl true

theorem Sys2Proof.Laws.Coded.minu (d a b : BitVec 5) : Sys2Proof.Laws.Coded.Statement (.minu d a b) :=
  Eq.refl true

theorem Sys2Proof.Laws.Coded.maxu (d a b : BitVec 5) : Sys2Proof.Laws.Coded.Statement (.maxu d a b) :=
  Eq.refl true

theorem Sys2Proof.Laws.Coded.lih (d a : BitVec 5) (imm : BitVec 14) : Sys2Proof.Laws.Coded.Statement (.lih d a imm) :=
  Eq.refl true

theorem Sys2Proof.Laws.Coded.sk (cond : BitVec 4) (n : BitVec 2) (a b : BitVec 5) : Sys2Proof.Laws.Coded.Statement (.sk cond n a b) :=
  Eq.refl true

theorem Sys2Proof.Laws.Coded.ski (cond : BitVec 4) (n : BitVec 2) (a : BitVec 5) (imm : BitVec 13) : Sys2Proof.Laws.Coded.Statement (.ski cond n a imm) :=
  Eq.refl true

theorem Sys2Proof.Laws.Coded.fsk (p : BitVec 1) (cond : BitVec 3) (n : BitVec 2) (a b : BitVec 5) : Sys2Proof.Laws.Coded.Statement (.fsk p cond n a b) :=
  Eq.refl true

theorem Sys2Proof.Laws.Coded.br (imm : BitVec 24) : Sys2Proof.Laws.Coded.Statement (.br imm) :=
  Eq.refl true

theorem Sys2Proof.Laws.Coded.jr (a : BitVec 5) : Sys2Proof.Laws.Coded.Statement (.jr a) :=
  Eq.refl true

theorem Sys2Proof.Laws.Coded.call (imm : BitVec 24) : Sys2Proof.Laws.Coded.Statement (.call imm) :=
  Eq.refl true

theorem Sys2Proof.Laws.Coded.callr (a : BitVec 5) : Sys2Proof.Laws.Coded.Statement (.callr a) :=
  Eq.refl true

theorem Sys2Proof.Laws.Coded.ret : Sys2Proof.Laws.Coded.Statement (.ret) :=
  Eq.refl true

theorem Sys2Proof.Laws.Coded.dbnz (d : BitVec 5) (imm : BitVec 14) : Sys2Proof.Laws.Coded.Statement (.dbnz d imm) :=
  Eq.refl true

theorem Sys2Proof.Laws.Coded.ld (d base : BitVec 5) (ord : BitVec 2) (off : BitVec 9) (wc : BitVec 3) : Sys2Proof.Laws.Coded.Statement (.ld d base ord off wc) :=
  Eq.refl true

theorem Sys2Proof.Laws.Coded.st (s base : BitVec 5) (ord : BitVec 2) (off : BitVec 9) (wc : BitVec 3) : Sys2Proof.Laws.Coded.Statement (.st s base ord off wc) :=
  Eq.refl true

theorem Sys2Proof.Laws.Coded.ldx (d base idx : BitVec 5) (wc : BitVec 3) (ord sc : BitVec 2) : Sys2Proof.Laws.Coded.Statement (.ldx d base idx wc ord sc) :=
  Eq.refl true

theorem Sys2Proof.Laws.Coded.stx (s base idx : BitVec 5) (wc : BitVec 3) (ord sc : BitVec 2) : Sys2Proof.Laws.Coded.Statement (.stx s base idx wc ord sc) :=
  Eq.refl true

theorem Sys2Proof.Laws.Coded.ldc (d base : BitVec 5) (ord : BitVec 2) (off : BitVec 9) (wc : BitVec 3) : Sys2Proof.Laws.Coded.Statement (.ldc d base ord off wc) :=
  Eq.refl true

theorem Sys2Proof.Laws.Coded.prf (base : BitVec 5) (off : BitVec 9) : Sys2Proof.Laws.Coded.Statement (.prf base off) :=
  Eq.refl true

theorem Sys2Proof.Laws.Coded.ldf (d base : BitVec 5) (off : BitVec 9) : Sys2Proof.Laws.Coded.Statement (.ldf d base off) :=
  Eq.refl true

theorem Sys2Proof.Laws.Coded.ste (s base : BitVec 5) (off : BitVec 9) : Sys2Proof.Laws.Coded.Statement (.ste s base off) :=
  Eq.refl true

theorem Sys2Proof.Laws.Coded.ldp (d base : BitVec 5) (off : BitVec 9) : Sys2Proof.Laws.Coded.Statement (.ldp d base off) :=
  Eq.refl true

theorem Sys2Proof.Laws.Coded.stf (s base : BitVec 5) (off : BitVec 9) : Sys2Proof.Laws.Coded.Statement (.stf s base off) :=
  Eq.refl true

theorem Sys2Proof.Laws.Coded.fec (base : BitVec 5) (off : BitVec 9) : Sys2Proof.Laws.Coded.Statement (.fec base off) :=
  Eq.refl true

theorem Sys2Proof.Laws.Coded.amo (d a b : BitVec 5) (w : BitVec 1) (ord : BitVec 2) (fn : BitVec 4) : Sys2Proof.Laws.Coded.Statement (.amo d a b w ord fn) :=
  Eq.refl true

theorem Sys2Proof.Laws.Coded.cas (d a b c : BitVec 5) (w : BitVec 1) (ord : BitVec 2) : Sys2Proof.Laws.Coded.Statement (.cas d a b c w ord) :=
  Eq.refl true

theorem Sys2Proof.Laws.Coded.arb (a : BitVec 5) : Sys2Proof.Laws.Coded.Statement (.arb a) :=
  Eq.refl true

theorem Sys2Proof.Laws.Coded.arl (d base : BitVec 5) (off : BitVec 9) (wc : BitVec 3) : Sys2Proof.Laws.Coded.Statement (.arl d base off wc) :=
  Eq.refl true

theorem Sys2Proof.Laws.Coded.ars (s base : BitVec 5) (off : BitVec 9) (wc : BitVec 3) : Sys2Proof.Laws.Coded.Statement (.ars s base off wc) :=
  Eq.refl true

theorem Sys2Proof.Laws.Coded.arc (d a : BitVec 5) : Sys2Proof.Laws.Coded.Statement (.arc d a) :=
  Eq.refl true

theorem Sys2Proof.Laws.Coded.fence (sc : BitVec 3) : Sys2Proof.Laws.Coded.Statement (.fence sc) :=
  Eq.refl true

theorem Sys2Proof.Laws.Coded.bfence (a : BitVec 5) (sc : BitVec 3) : Sys2Proof.Laws.Coded.Statement (.bfence a sc) :=
  Eq.refl true

theorem Sys2Proof.Laws.Coded.fadd (d a b : BitVec 5) (rm : BitVec 3) (p : BitVec 1) : Sys2Proof.Laws.Coded.Statement (.fadd d a b rm p) :=
  Eq.refl true

theorem Sys2Proof.Laws.Coded.fsub (d a b : BitVec 5) (rm : BitVec 3) (p : BitVec 1) : Sys2Proof.Laws.Coded.Statement (.fsub d a b rm p) :=
  Eq.refl true

theorem Sys2Proof.Laws.Coded.fmul (d a b : BitVec 5) (rm : BitVec 3) (p : BitVec 1) : Sys2Proof.Laws.Coded.Statement (.fmul d a b rm p) :=
  Eq.refl true

theorem Sys2Proof.Laws.Coded.fdiv (d a b : BitVec 5) (rm : BitVec 3) (p : BitVec 1) : Sys2Proof.Laws.Coded.Statement (.fdiv d a b rm p) :=
  Eq.refl true

theorem Sys2Proof.Laws.Coded.fsqrt (d a : BitVec 5) (rm : BitVec 3) (p : BitVec 1) : Sys2Proof.Laws.Coded.Statement (.fsqrt d a rm p) :=
  Eq.refl true

theorem Sys2Proof.Laws.Coded.fma (d a b c : BitVec 5) (rm : BitVec 3) (p : BitVec 1) : Sys2Proof.Laws.Coded.Statement (.fma d a b c rm p) :=
  Eq.refl true

theorem Sys2Proof.Laws.Coded.fms (d a b c : BitVec 5) (rm : BitVec 3) (p : BitVec 1) : Sys2Proof.Laws.Coded.Statement (.fms d a b c rm p) :=
  Eq.refl true

theorem Sys2Proof.Laws.Coded.fnma (d a b c : BitVec 5) (rm : BitVec 3) (p : BitVec 1) : Sys2Proof.Laws.Coded.Statement (.fnma d a b c rm p) :=
  Eq.refl true

theorem Sys2Proof.Laws.Coded.fmin (d a b : BitVec 5) (p : BitVec 1) : Sys2Proof.Laws.Coded.Statement (.fmin d a b p) :=
  Eq.refl true

theorem Sys2Proof.Laws.Coded.fmax (d a b : BitVec 5) (p : BitVec 1) : Sys2Proof.Laws.Coded.Statement (.fmax d a b p) :=
  Eq.refl true

theorem Sys2Proof.Laws.Coded.fcvt (d a b kind : BitVec 5) (rm : BitVec 3) : Sys2Proof.Laws.Coded.Statement (.fcvt d a b kind rm) :=
  Eq.refl true

theorem Sys2Proof.Laws.Coded.fcls (d a : BitVec 5) (p : BitVec 1) : Sys2Proof.Laws.Coded.Statement (.fcls d a p) :=
  Eq.refl true

theorem Sys2Proof.Laws.Coded.fsgn (d a b : BitVec 5) (op : BitVec 3) (p : BitVec 1) : Sys2Proof.Laws.Coded.Statement (.fsgn d a b op p) :=
  Eq.refl true

theorem Sys2Proof.Laws.Coded.frnd (d a : BitVec 5) (rm : BitVec 3) (p : BitVec 1) : Sys2Proof.Laws.Coded.Statement (.frnd d a rm p) :=
  Eq.refl true

theorem Sys2Proof.Laws.Coded.vadd (vd va vb : BitVec 3) (me : BitVec 1) (vm : BitVec 3) (pol : BitVec 1) (ew : BitVec 3) (fn : BitVec 4) : Sys2Proof.Laws.Coded.Statement (.vadd vd va vb me vm pol ew fn) :=
  Eq.refl true

theorem Sys2Proof.Laws.Coded.vsub (vd va vb : BitVec 3) (me : BitVec 1) (vm : BitVec 3) (pol : BitVec 1) (ew : BitVec 3) (fn : BitVec 4) : Sys2Proof.Laws.Coded.Statement (.vsub vd va vb me vm pol ew fn) :=
  Eq.refl true

theorem Sys2Proof.Laws.Coded.vmul (vd va vb : BitVec 3) (me : BitVec 1) (vm : BitVec 3) (pol : BitVec 1) (ew : BitVec 3) (fn : BitVec 4) : Sys2Proof.Laws.Coded.Statement (.vmul vd va vb me vm pol ew fn) :=
  Eq.refl true

theorem Sys2Proof.Laws.Coded.vfma (vd va vb vc : BitVec 3) (me : BitVec 1) (vm : BitVec 3) (pol : BitVec 1) (ew : BitVec 3) (fn : BitVec 4) : Sys2Proof.Laws.Coded.Statement (.vfma vd va vb vc me vm pol ew fn) :=
  Eq.refl true

theorem Sys2Proof.Laws.Coded.vdiv (vd va vb : BitVec 3) (me : BitVec 1) (vm : BitVec 3) (pol : BitVec 1) (ew : BitVec 3) (fn : BitVec 4) : Sys2Proof.Laws.Coded.Statement (.vdiv vd va vb me vm pol ew fn) :=
  Eq.refl true

theorem Sys2Proof.Laws.Coded.vmin (vd va vb : BitVec 3) (me : BitVec 1) (vm : BitVec 3) (pol : BitVec 1) (ew : BitVec 3) (fn : BitVec 4) : Sys2Proof.Laws.Coded.Statement (.vmin vd va vb me vm pol ew fn) :=
  Eq.refl true

theorem Sys2Proof.Laws.Coded.vmax (vd va vb : BitVec 3) (me : BitVec 1) (vm : BitVec 3) (pol : BitVec 1) (ew : BitVec 3) (fn : BitVec 4) : Sys2Proof.Laws.Coded.Statement (.vmax vd va vb me vm pol ew fn) :=
  Eq.refl true

theorem Sys2Proof.Laws.Coded.vlog (vd va vb : BitVec 3) (me : BitVec 1) (vm : BitVec 3) (pol : BitVec 1) (fn : BitVec 4) : Sys2Proof.Laws.Coded.Statement (.vlog vd va vb me vm pol fn) :=
  Eq.refl true

theorem Sys2Proof.Laws.Coded.vshf (vd va vb : BitVec 3) (me : BitVec 1) (vm : BitVec 3) (pol : BitVec 1) (ew : BitVec 3) (fn : BitVec 4) : Sys2Proof.Laws.Coded.Statement (.vshf vd va vb me vm pol ew fn) :=
  Eq.refl true

theorem Sys2Proof.Laws.Coded.vcmp (vd va vb : BitVec 3) (me : BitVec 1) (vm : BitVec 3) (pol : BitVec 1) (ew : BitVec 3) (fn : BitVec 4) : Sys2Proof.Laws.Coded.Statement (.vcmp vd va vb me vm pol ew fn) :=
  Eq.refl true

theorem Sys2Proof.Laws.Coded.vsel (vd va vb vc : BitVec 3) (me : BitVec 1) (vm : BitVec 3) (pol : BitVec 1) : Sys2Proof.Laws.Coded.Statement (.vsel vd va vb vc me vm pol) :=
  Eq.refl true

theorem Sys2Proof.Laws.Coded.vred (vd va : BitVec 3) (me : BitVec 1) (vm ew : BitVec 3) (fn : BitVec 4) : Sys2Proof.Laws.Coded.Statement (.vred vd va me vm ew fn) :=
  Eq.refl true

theorem Sys2Proof.Laws.Coded.vld (vd : BitVec 3) (ga : BitVec 5) (me : BitVec 1) (vm : BitVec 3) (pol : BitVec 1) (ord : BitVec 2) : Sys2Proof.Laws.Coded.Statement (.vld vd ga me vm pol ord) :=
  Eq.refl true

theorem Sys2Proof.Laws.Coded.vst (vd : BitVec 3) (ga : BitVec 5) (me : BitVec 1) (vm : BitVec 3) (pol : BitVec 1) (ord : BitVec 2) : Sys2Proof.Laws.Coded.Statement (.vst vd ga me vm pol ord) :=
  Eq.refl true

theorem Sys2Proof.Laws.Coded.vgth (vd : BitVec 3) (ga : BitVec 5) (vc : BitVec 3) (me : BitVec 1) (vm : BitVec 3) (pol : BitVec 1) (sc : BitVec 2) : Sys2Proof.Laws.Coded.Statement (.vgth vd ga vc me vm pol sc) :=
  Eq.refl true

theorem Sys2Proof.Laws.Coded.vsct (vd : BitVec 3) (ga : BitVec 5) (vc : BitVec 3) (me : BitVec 1) (vm : BitVec 3) (pol : BitVec 1) (sc : BitVec 2) : Sys2Proof.Laws.Coded.Statement (.vsct vd ga vc me vm pol sc) :=
  Eq.refl true

theorem Sys2Proof.Laws.Coded.vbrd (vd : BitVec 3) (ga : BitVec 5) (me : BitVec 1) (vm : BitVec 3) (pol : BitVec 1) (ew : BitVec 3) : Sys2Proof.Laws.Coded.Statement (.vbrd vd ga me vm pol ew) :=
  Eq.refl true

theorem Sys2Proof.Laws.Coded.vext (vd : BitVec 3) (ga : BitVec 5) (lane ew j : BitVec 3) : Sys2Proof.Laws.Coded.Statement (.vext vd ga lane ew j) :=
  Eq.refl true

theorem Sys2Proof.Laws.Coded.vprm (vd va vb vc : BitVec 3) (me : BitVec 1) (vm : BitVec 3) (pol fn : BitVec 1) : Sys2Proof.Laws.Coded.Statement (.vprm vd va vb vc me vm pol fn) :=
  Eq.refl true

theorem Sys2Proof.Laws.Coded.vcvt (vd va vb sew : BitVec 3) (me : BitVec 1) (vm : BitVec 3) (pol : BitVec 1) (ew : BitVec 3) (hi : BitVec 1) (rm : BitVec 3) : Sys2Proof.Laws.Coded.Statement (.vcvt vd va vb sew me vm pol ew hi rm) :=
  Eq.refl true

theorem Sys2Proof.Laws.Coded.send (a : BitVec 5) : Sys2Proof.Laws.Coded.Statement (.send a) :=
  Eq.refl true

theorem Sys2Proof.Laws.Coded.recv (d a : BitVec 5) : Sys2Proof.Laws.Coded.Statement (.recv d a) :=
  Eq.refl true

theorem Sys2Proof.Laws.Coded.rpc (a : BitVec 5) : Sys2Proof.Laws.Coded.Statement (.rpc a) :=
  Eq.refl true

theorem Sys2Proof.Laws.Coded.rply (a : BitVec 5) : Sys2Proof.Laws.Coded.Statement (.rply a) :=
  Eq.refl true

theorem Sys2Proof.Laws.Coded.htw (a b c : BitVec 5) : Sys2Proof.Laws.Coded.Statement (.htw a b c) :=
  Eq.refl true

theorem Sys2Proof.Laws.Coded.spwn (d a b c : BitVec 5) : Sys2Proof.Laws.Coded.Statement (.spwn d a b c) :=
  Eq.refl true

theorem Sys2Proof.Laws.Coded.quit : Sys2Proof.Laws.Coded.Statement (.quit) :=
  Eq.refl true

theorem Sys2Proof.Laws.Coded.bar (a : BitVec 5) (id sc : BitVec 3) : Sys2Proof.Laws.Coded.Statement (.bar a id sc) :=
  Eq.refl true

theorem Sys2Proof.Laws.Coded.qsc (sc : BitVec 3) : Sys2Proof.Laws.Coded.Statement (.qsc sc) :=
  Eq.refl true

theorem Sys2Proof.Laws.Coded.wft (a : BitVec 5) : Sys2Proof.Laws.Coded.Statement (.wft a) :=
  Eq.refl true

theorem Sys2Proof.Laws.Coded.cps (a : BitVec 5) (sel : BitVec 14) : Sys2Proof.Laws.Coded.Statement (.cps a sel) :=
  Eq.refl true

theorem Sys2Proof.Laws.Coded.cpl (d : BitVec 5) : Sys2Proof.Laws.Coded.Statement (.cpl d) :=
  Eq.refl true

theorem Sys2Proof.Laws.Coded.cpq (d a : BitVec 5) : Sys2Proof.Laws.Coded.Statement (.cpq d a) :=
  Eq.refl true

theorem Sys2Proof.Laws.Coded.hwt (st : BitVec 2) (h : BitVec 5) : Sys2Proof.Laws.Coded.Statement (.hwt st h) :=
  Eq.refl true

theorem Sys2Proof.Laws.Coded.hrl (h : BitVec 5) : Sys2Proof.Laws.Coded.Statement (.hrl h) :=
  Eq.refl true

theorem Sys2Proof.Laws.Coded.uls (d a b : BitVec 5) : Sys2Proof.Laws.Coded.Statement (.uls d a b) :=
  Eq.refl true

theorem Sys2Proof.Laws.Coded.ulr (d a : BitVec 5) : Sys2Proof.Laws.Coded.Statement (.ulr d a) :=
  Eq.refl true

theorem Sys2Proof.Laws.Coded.rst (a b c : BitVec 5) (w : BitVec 2) : Sys2Proof.Laws.Coded.Statement (.rst a b c w) :=
  Eq.refl true

theorem Sys2Proof.Laws.Coded.rinc (a b c : BitVec 5) (rel kind : BitVec 1) : Sys2Proof.Laws.Coded.Statement (.rinc a b c rel kind) :=
  Eq.refl true

theorem Sys2Proof.Laws.Coded.post (a b : BitVec 5) : Sys2Proof.Laws.Coded.Statement (.post a b) :=
  Eq.refl true

theorem Sys2Proof.Laws.Coded.wwt (d a : BitVec 5) : Sys2Proof.Laws.Coded.Statement (.wwt d a) :=
  Eq.refl true

theorem Sys2Proof.Laws.Coded.vpub (d a b : BitVec 5) : Sys2Proof.Laws.Coded.Statement (.vpub d a b) :=
  Eq.refl true

theorem Sys2Proof.Laws.Coded.vqry (d a : BitVec 5) : Sys2Proof.Laws.Coded.Statement (.vqry d a) :=
  Eq.refl true

theorem Sys2Proof.Laws.Coded.bcmd (a : BitVec 5) : Sys2Proof.Laws.Coded.Statement (.bcmd a) :=
  Eq.refl true

theorem Sys2Proof.Laws.Coded.rng (vd va vb vc : BitVec 3) (me : BitVec 1) (vm : BitVec 3) (pol : BitVec 1) (ew : BitVec 3) : Sys2Proof.Laws.Coded.Statement (.rng vd va vb vc me vm pol ew) :=
  Eq.refl true

theorem Sys2Proof.Laws.Coded.gmb (vd va vb vc : BitVec 3) (me : BitVec 1) (vm : BitVec 3) (pol : BitVec 1) (fn : BitVec 4) : Sys2Proof.Laws.Coded.Statement (.gmb vd va vb vc me vm pol fn) :=
  Eq.refl true

theorem Sys2Proof.Laws.Coded.alc (d a : BitVec 5) : Sys2Proof.Laws.Coded.Statement (.alc d a) :=
  Eq.refl true

theorem Sys2Proof.Laws.Coded.fre (a : BitVec 5) : Sys2Proof.Laws.Coded.Statement (.fre a) :=
  Eq.refl true

theorem Sys2Proof.Laws.Coded.trap (e : BitVec 14) : Sys2Proof.Laws.Coded.Statement (.trap e) :=
  Eq.refl true

theorem Sys2Proof.Laws.Coded.eret : Sys2Proof.Laws.Coded.Statement (.eret) :=
  Eq.refl true

theorem Sys2Proof.Laws.Coded.syr (d : BitVec 5) (sel : BitVec 14) : Sys2Proof.Laws.Coded.Statement (.syr d sel) :=
  Eq.refl true

theorem Sys2Proof.Laws.Coded.syw (a : BitVec 5) (sel : BitVec 14) : Sys2Proof.Laws.Coded.Statement (.syw a sel) :=
  Eq.refl true

theorem Sys2Proof.Laws.Coded.tlbi (a : BitVec 5) : Sys2Proof.Laws.Coded.Statement (.tlbi a) :=
  Eq.refl true

theorem Sys2Proof.Laws.Coded.tlbiAll : Sys2Proof.Laws.Coded.Statement (.tlbiAll) :=
  Eq.refl true

theorem Sys2Proof.Laws.Coded.migr (d a b : BitVec 5) : Sys2Proof.Laws.Coded.Statement (.migr d a b) :=
  Eq.refl true

theorem Sys2Proof.Laws.Coded.time (d : BitVec 5) : Sys2Proof.Laws.Coded.Statement (.time d) :=
  Eq.refl true

theorem Sys2Proof.Laws.Coded.timeRot (d : BitVec 5) : Sys2Proof.Laws.Coded.Statement (.timeRot d) :=
  Eq.refl true

theorem Sys2Proof.Laws.Coded.brk (e : BitVec 14) : Sys2Proof.Laws.Coded.Statement (.brk e) :=
  Eq.refl true

theorem Sys2Proof.Laws.Coded.blk (len : BitVec 12) (kind : BitVec 1) (count : BitVec 13) : Sys2Proof.Laws.Coded.Statement (.blk len kind count) :=
  Eq.refl false

theorem Sys2Proof.Laws.Coded.nop : Sys2Proof.Laws.Coded.Statement (.nop) :=
  And.intro (Eq.refl true) (Eq.refl false)

theorem Sys2Proof.Laws.Coded.dly (n1 : BitVec 10) : Sys2Proof.Laws.Coded.Statement (.dly n1) :=
  And.intro (Eq.refl true) (Eq.refl false)

theorem Sys2Proof.Laws.Coded.wut (ka kb : BitVec 4) : Sys2Proof.Laws.Coded.Statement (.wut ka kb) :=
  Eq.refl false

theorem Sys2Proof.Laws.Coded.tkp (fifo : BitVec 3) (ks : BitVec 4) : Sys2Proof.Laws.Coded.Statement (.tkp fifo ks) :=
  And.intro (Eq.refl true) (Eq.refl false)

theorem Sys2Proof.Laws.Coded.tkw (fifo : BitVec 3) (kd : BitVec 4) : Sys2Proof.Laws.Coded.Statement (.tkw fifo kd) :=
  And.intro (Eq.refl true) (Eq.refl false)

theorem Sys2Proof.Laws.Coded.brc (w : BitVec 4) (bit : BitVec 6) (sense : BitVec 1) : Sys2Proof.Laws.Coded.Statement (.brc w bit sense) :=
  Eq.refl false

theorem Sys2Proof.Laws.Coded.kli (kd : BitVec 4) (imm : BitVec 20) : Sys2Proof.Laws.Coded.Statement (.kli kd imm) :=
  Eq.refl false

theorem Sys2Proof.Laws.Coded.kliHi (kd : BitVec 4) (imm : BitVec 16) : Sys2Proof.Laws.Coded.Statement (.kliHi kd imm) :=
  Eq.refl false

theorem Sys2Proof.Laws.Coded.kliAdd (kd ks : BitVec 4) (imm : BitVec 16) : Sys2Proof.Laws.Coded.Statement (.kliAdd kd ks imm) :=
  Eq.refl false

theorem Sys2Proof.Laws.Coded.kliMul (kd ks : BitVec 4) (imm : BitVec 16) : Sys2Proof.Laws.Coded.Statement (.kliMul kd ks imm) :=
  Eq.refl false

theorem Sys2Proof.Laws.Coded.kop (op : BitVec 2) (kd ks : BitVec 4) : Sys2Proof.Laws.Coded.Statement (.kop op kd ks) :=
  And.intro (Eq.refl true) (Eq.refl false)

theorem Sys2Proof.Laws.Coded.endT : Sys2Proof.Laws.Coded.Statement (.endT) :=
  And.intro (Eq.refl true) (Eq.refl false)

theorem Sys2Proof.Laws.Coded.hld (kt kv : BitVec 4) (n16 : BitVec 14) : Sys2Proof.Laws.Coded.Statement (.hld kt kv n16) :=
  Eq.refl false

theorem Sys2Proof.Laws.Coded.hst (kt kv : BitVec 4) (n16 : BitVec 14) : Sys2Proof.Laws.Coded.Statement (.hst kt kv n16) :=
  Eq.refl false

theorem Sys2Proof.Laws.Coded.hac (kt kv : BitVec 4) (n16 : BitVec 14) (aty : BitVec 2) : Sys2Proof.Laws.Coded.Statement (.hac kt kv n16 aty) :=
  Eq.refl false

theorem Sys2Proof.Laws.Coded.lks (ks : BitVec 4) (form dir : BitVec 2) (n1 : BitVec 10) : Sys2Proof.Laws.Coded.Statement (.lks ks form dir n1) :=
  Eq.refl false

theorem Sys2Proof.Laws.Coded.lkr (kt : BitVec 4) (dir : BitVec 2) (n1 : BitVec 10) : Sys2Proof.Laws.Coded.Statement (.lkr kt dir n1) :=
  Eq.refl false

theorem Sys2Proof.Laws.Coded.lka (kl : BitVec 4) (dir : BitVec 2) (out : BitVec 1) (n1 : BitVec 10) (ty : BitVec 2) (kd : BitVec 4) : Sys2Proof.Laws.Coded.Statement (.lka kl dir out n1 ty kd) :=
  Eq.refl false

theorem Sys2Proof.Laws.Coded.win (id : BitVec 4) (n : BitVec 22) : Sys2Proof.Laws.Coded.Statement (.win id n) :=
  Eq.refl false

theorem Sys2Proof.Laws.Coded.wcl (id : BitVec 4) : Sys2Proof.Laws.Coded.Statement (.wcl id) :=
  Eq.refl false

theorem Sys2Proof.Laws.Coded.prd (kd w : BitVec 4) (part : BitVec 2) : Sys2Proof.Laws.Coded.Statement (.prd kd w part) :=
  Eq.refl false

theorem Sys2Proof.Laws.Coded.vlt (slot : BitVec 2) : Sys2Proof.Laws.Coded.Statement (.vlt slot) :=
  Eq.refl false

theorem Sys2Proof.Laws.Coded.tld (kt kv : BitVec 4) (n16 : BitVec 14) (vchk : BitVec 1) : Sys2Proof.Laws.Coded.Statement (.tld kt kv n16 vchk) :=
  Eq.refl false

theorem Sys2Proof.Laws.Coded.scp (kt ks : BitVec 4) (n16 : BitVec 14) : Sys2Proof.Laws.Coded.Statement (.scp kt ks n16) :=
  Eq.refl false

theorem Sys2Proof.Laws.Coded.qnt (kt ks : BitVec 4) (fmt : BitVec 5) (rm : BitVec 3) (nosat : BitVec 1) (ty : BitVec 2) (kn : BitVec 4) : Sys2Proof.Laws.Coded.Statement (.qnt kt ks fmt rm nosat ty kn) :=
  Eq.refl false

theorem Sys2Proof.Laws.Coded.dqn (kt ks : BitVec 4) (fmt : BitVec 5) (rm : BitVec 3) (nosat : BitVec 1) (ty : BitVec 2) (kn : BitVec 4) : Sys2Proof.Laws.Coded.Statement (.dqn kt ks fmt rm nosat ty kn) :=
  Eq.refl false

theorem Sys2Proof.Laws.Coded.cvt (kt ks : BitVec 4) (dfmt sfmt : BitVec 5) (rm : BitVec 3) (nosat : BitVec 1) (kn : BitVec 4) : Sys2Proof.Laws.Coded.Statement (.cvt kt ks dfmt sfmt rm nosat kn) :=
  Eq.refl false

theorem Sys2Proof.Laws.Coded.trn (kt ks : BitVec 4) (sz : BitVec 2) : Sys2Proof.Laws.Coded.Statement (.trn kt ks sz) :=
  Eq.refl false

theorem Sys2Proof.Laws.Coded.pak (kt ks : BitVec 4) (op : BitVec 2) (sx : BitVec 1) (kn : BitVec 4) : Sys2Proof.Laws.Coded.Statement (.pak kt ks op sx kn) :=
  Eq.refl false

theorem Sys2Proof.Laws.Coded.srs (kt ks : BitVec 4) (fmt : BitVec 5) (rm : BitVec 3) (sh : BitVec 5) (kn : BitVec 4) : Sys2Proof.Laws.Coded.Statement (.srs kt ks fmt rm sh kn) :=
  Eq.refl false

theorem Sys2Proof.Laws.Coded.fmt (kt kp : BitVec 4) (n16 : BitVec 14) : Sys2Proof.Laws.Coded.Statement (.fmt kt kp n16) :=
  Eq.refl false

theorem Sys2Proof.Laws.Coded.wld (kt ks : BitVec 4) (fmt : BitVec 5) : Sys2Proof.Laws.Coded.Statement (.wld kt ks fmt) :=
  Eq.refl false

theorem Sys2Proof.Laws.Coded.mma (ka kw : BitVec 4) (afmt wfmt : BitVec 5) (bank : BitVec 1) (m1 : BitVec 6) : Sys2Proof.Laws.Coded.Statement (.mma ka kw afmt wfmt bank m1) :=
  Eq.refl false

theorem Sys2Proof.Laws.Coded.acr (kt kr : BitVec 4) (bank : BitVec 1) (aty : BitVec 2) (fmt : BitVec 5) (rm : BitVec 3) (nosat : BitVec 1) : Sys2Proof.Laws.Coded.Statement (.acr kt kr bank aty fmt rm nosat) :=
  Eq.refl false

theorem Sys2Proof.Laws.Coded.acz (bank : BitVec 1) (row0 m1 : BitVec 6) : Sys2Proof.Laws.Coded.Statement (.acz bank row0 m1) :=
  Eq.refl false

theorem Sys2Proof.Laws.Coded.var (yd ya yb yc : BitVec 5) (et : BitVec 2) (op : BitVec 4) : Sys2Proof.Laws.Coded.Statement (.var yd ya yb yc et op) :=
  Eq.refl false

theorem Sys2Proof.Laws.Coded.vly (kb : BitVec 4) (y : BitVec 5) (off : BitVec 16) : Sys2Proof.Laws.Coded.Statement (.vly kb y off) :=
  Eq.refl false

theorem Sys2Proof.Laws.Coded.vsy (kb : BitVec 4) (y : BitVec 5) (off : BitVec 16) : Sys2Proof.Laws.Coded.Statement (.vsy kb y off) :=
  Eq.refl false

theorem Sys2Proof.Laws.Coded.vrd (yd ya : BitVec 5) (op : BitVec 3) (et : BitVec 2) : Sys2Proof.Laws.Coded.Statement (.vrd yd ya op et) :=
  Eq.refl false

theorem Sys2Proof.Laws.Coded.vtr (dir bank : BitVec 1) (row : BitVec 6) (y : BitVec 5) : Sys2Proof.Laws.Coded.Statement (.vtr dir bank row y) :=
  Eq.refl false

theorem Sys2Proof.Laws.Coded.vcm (yd ya yb : BitVec 5) (cond : BitVec 4) (et : BitVec 2) : Sys2Proof.Laws.Coded.Statement (.vcm yd ya yb cond et) :=
  Eq.refl false

theorem Sys2Proof.Laws.Coded.vsl (yd ya yb yc : BitVec 5) (et : BitVec 2) (op : BitVec 3) : Sys2Proof.Laws.Coded.Statement (.vsl yd ya yb yc et op) :=
  Eq.refl false

theorem Sys2Proof.Laws.Coded.jobOpen : Sys2Proof.Laws.Coded.Statement (.jobOpen) :=
  And.intro (Eq.refl false) (And.intro (Eq.refl false) (Eq.refl true))

theorem Sys2Proof.Laws.Coded.jobClose : Sys2Proof.Laws.Coded.Statement (.jobClose) :=
  And.intro (Eq.refl false) (And.intro (Eq.refl false) (Eq.refl true))

theorem Sys2Proof.Laws.Coded.map : Sys2Proof.Laws.Coded.Statement (.map) :=
  And.intro (Eq.refl false) (And.intro (Eq.refl false) (Eq.refl true))

theorem Sys2Proof.Laws.Coded.peer : Sys2Proof.Laws.Coded.Statement (.peer) :=
  And.intro (Eq.refl false) (And.intro (Eq.refl false) (Eq.refl true))

theorem Sys2Proof.Laws.Coded.schedLoad : Sys2Proof.Laws.Coded.Statement (.schedLoad) :=
  And.intro (Eq.refl false) (And.intro (Eq.refl false) (Eq.refl true))

theorem Sys2Proof.Laws.Coded.klaunch : Sys2Proof.Laws.Coded.Statement (.klaunch) :=
  And.intro (Eq.refl false) (And.intro (Eq.refl false) (Eq.refl true))

theorem Sys2Proof.Laws.Coded.preempt : Sys2Proof.Laws.Coded.Statement (.preempt) :=
  And.intro (Eq.refl false) (And.intro (Eq.refl false) (Eq.refl true))

theorem Sys2Proof.Laws.Coded.resume : Sys2Proof.Laws.Coded.Statement (.resume) :=
  And.intro (Eq.refl false) (And.intro (Eq.refl false) (Eq.refl true))

theorem Sys2Proof.Laws.Coded.seed : Sys2Proof.Laws.Coded.Statement (.seed) :=
  And.intro (Eq.refl false) (And.intro (Eq.refl false) (Eq.refl true))

theorem Sys2Proof.Laws.Coded.vintage : Sys2Proof.Laws.Coded.Statement (.vintage) :=
  And.intro (Eq.refl false) (And.intro (Eq.refl false) (Eq.refl true))

theorem Sys2Proof.Laws.Coded.query : Sys2Proof.Laws.Coded.Statement (.query) :=
  And.intro (Eq.refl false) (And.intro (Eq.refl false) (Eq.refl true))

theorem Sys2Proof.Laws.Coded.attest : Sys2Proof.Laws.Coded.Statement (.attest) :=
  And.intro (Eq.refl false) (And.intro (Eq.refl false) (Eq.refl true))

theorem Sys2Proof.Laws.Coded.debug : Sys2Proof.Laws.Coded.Statement (.debug) :=
  And.intro (Eq.refl false) (And.intro (Eq.refl false) (Eq.refl true))

theorem Sys2Proof.Laws.Coded.log : Sys2Proof.Laws.Coded.Statement (.log) :=
  And.intro (Eq.refl false) (And.intro (Eq.refl false) (Eq.refl true))

theorem Sys2Proof.Laws.Coded.fwload : Sys2Proof.Laws.Coded.Statement (.fwload) :=
  And.intro (Eq.refl false) (And.intro (Eq.refl false) (Eq.refl true))

theorem Sys2Proof.Laws.Coded.start : Sys2Proof.Laws.Coded.Statement (.start) :=
  And.intro (Eq.refl false) (And.intro (Eq.refl false) (Eq.refl true))

theorem Sys2Proof.Laws.Coded.power : Sys2Proof.Laws.Coded.Statement (.power) :=
  And.intro (Eq.refl false) (And.intro (Eq.refl false) (Eq.refl true))

theorem Sys2Proof.Laws.Coded.commandThread : Sys2Proof.Laws.Coded.Statement (.commandThread) :=
  And.intro (Eq.refl false) (And.intro (Eq.refl false) (Eq.refl true))

theorem Sys2Proof.Laws.Coded.commandCompletion : Sys2Proof.Laws.Coded.Statement (.commandCompletion) :=
  And.intro (Eq.refl false) (And.intro (Eq.refl false) (Eq.refl true))

theorem Sys2Proof.Laws.Coded.heldRecordDelivery : Sys2Proof.Laws.Coded.Statement (.heldRecordDelivery) :=
  And.intro (Eq.refl false) (And.intro (Eq.refl false) (Eq.refl true))

theorem Sys2Proof.Laws.Coded.launchPort : Sys2Proof.Laws.Coded.Statement (.launchPort) :=
  And.intro (Eq.refl false) (And.intro (Eq.refl false) (Eq.refl true))

theorem Sys2Proof.Laws.Coded.launchAccept : Sys2Proof.Laws.Coded.Statement (.launchAccept) :=
  And.intro (Eq.refl false) (And.intro (Eq.refl false) (Eq.refl true))

theorem Sys2Proof.Laws.Coded.kernelComplete : Sys2Proof.Laws.Coded.Statement (.kernelComplete) :=
  And.intro (Eq.refl false) (And.intro (Eq.refl false) (Eq.refl true))

theorem Sys2Proof.Laws.Coded.deadlinePreemption : Sys2Proof.Laws.Coded.Statement (.deadlinePreemption) :=
  And.intro (Eq.refl false) (And.intro (Eq.refl false) (Eq.refl true))

theorem Sys2Proof.Laws.Coded.deadlineMiss : Sys2Proof.Laws.Coded.Statement (.deadlineMiss) :=
  And.intro (Eq.refl false) (And.intro (Eq.refl false) (Eq.refl true))

theorem Sys2Proof.Laws.Coded.partitionPreemption : Sys2Proof.Laws.Coded.Statement (.partitionPreemption) :=
  And.intro (Eq.refl false) (And.intro (Eq.refl false) (Eq.refl true))

theorem Sys2Proof.Laws.Coded.preemptSaveDone : Sys2Proof.Laws.Coded.Statement (.preemptSaveDone) :=
  And.intro (Eq.refl false) (And.intro (Eq.refl false) (Eq.refl true))

theorem Sys2Proof.Laws.Coded.kernelPreemption : Sys2Proof.Laws.Coded.Statement (.kernelPreemption) :=
  And.intro (Eq.refl false) (And.intro (Eq.refl false) (Eq.refl true))

theorem Sys2Proof.Laws.Coded.partitionRestore : Sys2Proof.Laws.Coded.Statement (.partitionRestore) :=
  And.intro (Eq.refl false) (And.intro (Eq.refl false) (Eq.refl true))

theorem Sys2Proof.Laws.Coded.kernelRestore : Sys2Proof.Laws.Coded.Statement (.kernelRestore) :=
  And.intro (Eq.refl false) (And.intro (Eq.refl false) (Eq.refl true))

theorem Sys2Proof.Laws.Coded.pctlContinue : Sys2Proof.Laws.Coded.Statement (.pctlContinue) :=
  And.intro (Eq.refl false) (And.intro (Eq.refl false) (Eq.refl true))

theorem Sys2Proof.Laws.Coded.pctlAbort : Sys2Proof.Laws.Coded.Statement (.pctlAbort) :=
  And.intro (Eq.refl false) (And.intro (Eq.refl false) (Eq.refl true))

theorem Sys2Proof.Laws.Coded.hang : Sys2Proof.Laws.Coded.Statement (.hang) :=
  And.intro (Eq.refl false) (And.intro (Eq.refl false) (Eq.refl true))

theorem Sys2Proof.Laws.Coded.coreClockGate : Sys2Proof.Laws.Coded.Statement (.coreClockGate) :=
  And.intro (Eq.refl false) (And.intro (Eq.refl false) (Eq.refl true))

theorem Sys2Proof.Laws.Coded.corePowerGate : Sys2Proof.Laws.Coded.Statement (.corePowerGate) :=
  And.intro (Eq.refl false) (And.intro (Eq.refl false) (Eq.refl true))

theorem Sys2Proof.Laws.Coded.registerWrite : Sys2Proof.Laws.Coded.Statement (.registerWrite) :=
  And.intro (Eq.refl false) (And.intro (Eq.refl false) (Eq.refl true))

theorem Sys2Proof.Laws.Coded.ahqctlEnable : Sys2Proof.Laws.Coded.Statement (.ahqctlEnable) :=
  And.intro (Eq.refl false) (And.intro (Eq.refl false) (Eq.refl true))

theorem Sys2Proof.Laws.Coded.podForm : Sys2Proof.Laws.Coded.Statement (.podForm) :=
  And.intro (Eq.refl false) (And.intro (Eq.refl false) (Eq.refl true))

theorem Sys2Proof.Laws.Coded.podDissolve : Sys2Proof.Laws.Coded.Statement (.podDissolve) :=
  And.intro (Eq.refl false) (And.intro (Eq.refl false) (Eq.refl true))

theorem Sys2Proof.Laws.Coded.alccfgWrite : Sys2Proof.Laws.Coded.Statement (.alccfgWrite) :=
  And.intro (Eq.refl false) (And.intro (Eq.refl false) (Eq.refl true))

theorem Sys2Proof.Laws.Coded.counterFeedWrite : Sys2Proof.Laws.Coded.Statement (.counterFeedWrite) :=
  And.intro (Eq.refl false) (And.intro (Eq.refl false) (Eq.refl true))

theorem Sys2Proof.Laws.Coded.counterTotalWrite : Sys2Proof.Laws.Coded.Statement (.counterTotalWrite) :=
  And.intro (Eq.refl false) (And.intro (Eq.refl false) (Eq.refl true))

theorem Sys2Proof.Laws.Coded.ullageCountReport : Sys2Proof.Laws.Coded.Statement (.ullageCountReport) :=
  And.intro (Eq.refl false) (And.intro (Eq.refl false) (Eq.refl true))

theorem Sys2Proof.Laws.Coded.ullageLaunch : Sys2Proof.Laws.Coded.Statement (.ullageLaunch) :=
  And.intro (Eq.refl false) (And.intro (Eq.refl false) (Eq.refl true))

theorem Sys2Proof.Laws.Coded.storeBufferDrain : Sys2Proof.Laws.Coded.Statement (.storeBufferDrain) :=
  And.intro (Eq.refl false) (And.intro (Eq.refl false) (Eq.refl true))

theorem Sys2Proof.Laws.Coded.rlcEviction : Sys2Proof.Laws.Coded.Statement (.rlcEviction) :=
  And.intro (Eq.refl false) (And.intro (Eq.refl false) (Eq.refl true))

theorem Sys2Proof.Laws.Coded.pageWalk : Sys2Proof.Laws.Coded.Statement (.pageWalk) :=
  And.intro (Eq.refl false) (And.intro (Eq.refl false) (Eq.refl true))

theorem Sys2Proof.Laws.Coded.gatedRequestService : Sys2Proof.Laws.Coded.Statement (.gatedRequestService) :=
  And.intro (Eq.refl false) (And.intro (Eq.refl false) (Eq.refl true))

theorem Sys2Proof.Laws.Coded.quantumEnd : Sys2Proof.Laws.Coded.Statement (.quantumEnd) :=
  And.intro (Eq.refl false) (And.intro (Eq.refl false) (Eq.refl true))

theorem Sys2Proof.Laws.Coded.messageDelivery : Sys2Proof.Laws.Coded.Statement (.messageDelivery) :=
  And.intro (Eq.refl false) (And.intro (Eq.refl false) (Eq.refl true))

theorem Sys2Proof.Laws.Coded.rplyDelivery : Sys2Proof.Laws.Coded.Statement (.rplyDelivery) :=
  And.intro (Eq.refl false) (And.intro (Eq.refl false) (Eq.refl true))

theorem Sys2Proof.Laws.Coded.spawnService : Sys2Proof.Laws.Coded.Statement (.spawnService) :=
  And.intro (Eq.refl false) (And.intro (Eq.refl false) (Eq.refl true))

theorem Sys2Proof.Laws.Coded.barrierEpisodeComplete : Sys2Proof.Laws.Coded.Statement (.barrierEpisodeComplete) :=
  And.intro (Eq.refl false) (And.intro (Eq.refl false) (Eq.refl true))

theorem Sys2Proof.Laws.Coded.qscQuietCheck : Sys2Proof.Laws.Coded.Statement (.qscQuietCheck) :=
  And.intro (Eq.refl false) (And.intro (Eq.refl false) (Eq.refl true))

theorem Sys2Proof.Laws.Coded.windowSpill : Sys2Proof.Laws.Coded.Statement (.windowSpill) :=
  And.intro (Eq.refl false) (And.intro (Eq.refl false) (Eq.refl true))

theorem Sys2Proof.Laws.Coded.windowFill : Sys2Proof.Laws.Coded.Statement (.windowFill) :=
  And.intro (Eq.refl false) (And.intro (Eq.refl false) (Eq.refl true))

theorem Sys2Proof.Laws.Coded.copyTransferStart : Sys2Proof.Laws.Coded.Statement (.copyTransferStart) :=
  And.intro (Eq.refl false) (And.intro (Eq.refl false) (Eq.refl true))

theorem Sys2Proof.Laws.Coded.copyTransferComplete : Sys2Proof.Laws.Coded.Statement (.copyTransferComplete) :=
  And.intro (Eq.refl false) (And.intro (Eq.refl false) (Eq.refl true))

theorem Sys2Proof.Laws.Coded.bauCommand : Sys2Proof.Laws.Coded.Statement (.bauCommand) :=
  And.intro (Eq.refl false) (And.intro (Eq.refl false) (Eq.refl true))

theorem Sys2Proof.Laws.Coded.movedReissue : Sys2Proof.Laws.Coded.Statement (.movedReissue) :=
  And.intro (Eq.refl false) (And.intro (Eq.refl false) (Eq.refl true))

theorem Sys2Proof.Laws.Coded.wftRelease : Sys2Proof.Laws.Coded.Statement (.wftRelease) :=
  And.intro (Eq.refl false) (And.intro (Eq.refl false) (Eq.refl true))

theorem Sys2Proof.Laws.Coded.remoteAck : Sys2Proof.Laws.Coded.Statement (.remoteAck) :=
  And.intro (Eq.refl false) (And.intro (Eq.refl false) (Eq.refl true))

theorem Sys2Proof.Laws.Coded.retransmissionLimit : Sys2Proof.Laws.Coded.Statement (.retransmissionLimit) :=
  And.intro (Eq.refl false) (And.intro (Eq.refl false) (Eq.refl true))

theorem Sys2Proof.Laws.Coded.pdcIdleClose : Sys2Proof.Laws.Coded.Statement (.pdcIdleClose) :=
  And.intro (Eq.refl false) (And.intro (Eq.refl false) (Eq.refl true))

theorem Sys2Proof.Laws.Coded.rmaWrite : Sys2Proof.Laws.Coded.Statement (.rmaWrite) :=
  And.intro (Eq.refl false) (And.intro (Eq.refl false) (Eq.refl true))

theorem Sys2Proof.Laws.Coded.rmaRead : Sys2Proof.Laws.Coded.Statement (.rmaRead) :=
  And.intro (Eq.refl false) (And.intro (Eq.refl false) (Eq.refl true))

theorem Sys2Proof.Laws.Coded.fetchAdd : Sys2Proof.Laws.Coded.Statement (.fetchAdd) :=
  And.intro (Eq.refl false) (And.intro (Eq.refl false) (Eq.refl true))

theorem Sys2Proof.Laws.Coded.nonFetchingAtomicAdd : Sys2Proof.Laws.Coded.Statement (.nonFetchingAtomicAdd) :=
  And.intro (Eq.refl false) (And.intro (Eq.refl false) (Eq.refl true))

theorem Sys2Proof.Laws.Coded.frameReceive : Sys2Proof.Laws.Coded.Statement (.frameReceive) :=
  And.intro (Eq.refl false) (And.intro (Eq.refl false) (Eq.refl true))

theorem Sys2Proof.Laws.Coded.neighbourDiscovery : Sys2Proof.Laws.Coded.Statement (.neighbourDiscovery) :=
  And.intro (Eq.refl false) (And.intro (Eq.refl false) (Eq.refl true))

theorem Sys2Proof.Laws.Coded.ptpEventMessage : Sys2Proof.Laws.Coded.Statement (.ptpEventMessage) :=
  And.intro (Eq.refl false) (And.intro (Eq.refl false) (Eq.refl true))

theorem Sys2Proof.Laws.Coded.ethernetPortDown : Sys2Proof.Laws.Coded.Statement (.ethernetPortDown) :=
  And.intro (Eq.refl false) (And.intro (Eq.refl false) (Eq.refl true))

theorem Sys2Proof.Laws.Coded.ethernetPortTraining : Sys2Proof.Laws.Coded.Statement (.ethernetPortTraining) :=
  And.intro (Eq.refl false) (And.intro (Eq.refl false) (Eq.refl true))

theorem Sys2Proof.Laws.Coded.tendrilTraining : Sys2Proof.Laws.Coded.Statement (.tendrilTraining) :=
  And.intro (Eq.refl false) (And.intro (Eq.refl false) (Eq.refl true))

theorem Sys2Proof.Laws.Coded.link : Sys2Proof.Laws.Coded.Statement (.link) :=
  And.intro (Eq.refl false) (And.intro (Eq.refl false) (Eq.refl true))

theorem Sys2Proof.Laws.Coded.timestamp : Sys2Proof.Laws.Coded.Statement (.timestamp) :=
  And.intro (Eq.refl false) (And.intro (Eq.refl false) (Eq.refl true))

theorem Sys2Proof.Laws.Coded.timestampExchange : Sys2Proof.Laws.Coded.Statement (.timestampExchange) :=
  And.intro (Eq.refl false) (And.intro (Eq.refl false) (Eq.refl true))

theorem Sys2Proof.Laws.Coded.sidebandFreeze : Sys2Proof.Laws.Coded.Statement (.sidebandFreeze) :=
  And.intro (Eq.refl false) (And.intro (Eq.refl false) (Eq.refl true))

theorem Sys2Proof.Laws.Coded.sidebandResume : Sys2Proof.Laws.Coded.Statement (.sidebandResume) :=
  And.intro (Eq.refl false) (And.intro (Eq.refl false) (Eq.refl true))

theorem Sys2Proof.Laws.Coded.sidebandBar : Sys2Proof.Laws.Coded.Statement (.sidebandBar) :=
  And.intro (Eq.refl false) (And.intro (Eq.refl false) (Eq.refl true))

theorem Sys2Proof.Laws.Coded.bcast : Sys2Proof.Laws.Coded.Statement (.bcast) :=
  And.intro (Eq.refl false) (And.intro (Eq.refl false) (Eq.refl true))

theorem Sys2Proof.Laws.Coded.corr : Sys2Proof.Laws.Coded.Statement (.corr) :=
  And.intro (Eq.refl false) (And.intro (Eq.refl false) (Eq.refl true))

theorem Sys2Proof.Laws.Coded.sidebandFault : Sys2Proof.Laws.Coded.Statement (.sidebandFault) :=
  And.intro (Eq.refl false) (And.intro (Eq.refl false) (Eq.refl true))

theorem Sys2Proof.Laws.Coded.linkmgt : Sys2Proof.Laws.Coded.Statement (.linkmgt) :=
  And.intro (Eq.refl false) (And.intro (Eq.refl false) (Eq.refl true))

theorem Sys2Proof.Laws.Coded.sidebandReserved : Sys2Proof.Laws.Coded.Statement (.sidebandReserved) :=
  And.intro (Eq.refl false) (And.intro (Eq.refl false) (Eq.refl true))

theorem Sys2Proof.Laws.Coded.ptimeCorrectionStep : Sys2Proof.Laws.Coded.Statement (.ptimeCorrectionStep) :=
  And.intro (Eq.refl false) (And.intro (Eq.refl false) (Eq.refl true))

theorem Sys2Proof.Laws.Coded.clockPhaseStep : Sys2Proof.Laws.Coded.Statement (.clockPhaseStep) :=
  And.intro (Eq.refl false) (And.intro (Eq.refl false) (Eq.refl true))

theorem Sys2Proof.Laws.Coded.powerSample : Sys2Proof.Laws.Coded.Statement (.powerSample) :=
  And.intro (Eq.refl false) (And.intro (Eq.refl false) (Eq.refl true))

theorem Sys2Proof.Laws.Coded.throttleStep : Sys2Proof.Laws.Coded.Statement (.throttleStep) :=
  And.intro (Eq.refl false) (And.intro (Eq.refl false) (Eq.refl true))

theorem Sys2Proof.Laws.Coded.throttleInterval : Sys2Proof.Laws.Coded.Statement (.throttleInterval) :=
  And.intro (Eq.refl false) (And.intro (Eq.refl false) (Eq.refl true))

theorem Sys2Proof.Laws.Coded.thermalFloor : Sys2Proof.Laws.Coded.Statement (.thermalFloor) :=
  And.intro (Eq.refl false) (And.intro (Eq.refl false) (Eq.refl true))

theorem Sys2Proof.Laws.Coded.thermalTrip : Sys2Proof.Laws.Coded.Statement (.thermalTrip) :=
  And.intro (Eq.refl false) (And.intro (Eq.refl false) (Eq.refl true))

theorem Sys2Proof.Laws.Coded.railEnable : Sys2Proof.Laws.Coded.Statement (.railEnable) :=
  And.intro (Eq.refl false) (And.intro (Eq.refl false) (Eq.refl true))

theorem Sys2Proof.Laws.Coded.reset : Sys2Proof.Laws.Coded.Statement (.reset) :=
  And.intro (Eq.refl false) (And.intro (Eq.refl false) (Eq.refl true))

theorem Sys2Proof.Laws.Coded.startSequence : Sys2Proof.Laws.Coded.Statement (.startSequence) :=
  And.intro (Eq.refl false) (And.intro (Eq.refl false) (Eq.refl true))

theorem Sys2Proof.Laws.Coded.retentionEntry : Sys2Proof.Laws.Coded.Statement (.retentionEntry) :=
  And.intro (Eq.refl false) (And.intro (Eq.refl false) (Eq.refl true))

theorem Sys2Proof.Laws.Coded.marginPlan : Sys2Proof.Laws.Coded.Statement (.marginPlan) :=
  And.intro (Eq.refl false) (And.intro (Eq.refl false) (Eq.refl true))

theorem Sys2Proof.Laws.Coded.marginMonitorLow : Sys2Proof.Laws.Coded.Statement (.marginMonitorLow) :=
  And.intro (Eq.refl false) (And.intro (Eq.refl false) (Eq.refl true))

theorem Sys2Proof.Laws.Coded.securityFault : Sys2Proof.Laws.Coded.Statement (.securityFault) :=
  And.intro (Eq.refl false) (And.intro (Eq.refl false) (Eq.refl true))

theorem Sys2Proof.Laws.Coded.debugExpiry : Sys2Proof.Laws.Coded.Statement (.debugExpiry) :=
  And.intro (Eq.refl false) (And.intro (Eq.refl false) (Eq.refl true))

theorem Sys2Proof.Laws.Coded.patrolScrub : Sys2Proof.Laws.Coded.Statement (.patrolScrub) :=
  And.intro (Eq.refl false) (And.intro (Eq.refl false) (Eq.refl true))

theorem Sys2Proof.Laws.Coded.sramScrub : Sys2Proof.Laws.Coded.Statement (.sramScrub) :=
  And.intro (Eq.refl false) (And.intro (Eq.refl false) (Eq.refl true))

theorem Sys2Proof.Laws.Coded.alertBackOff : Sys2Proof.Laws.Coded.Statement (.alertBackOff) :=
  And.intro (Eq.refl false) (And.intro (Eq.refl false) (Eq.refl true))

theorem Sys2Proof.Laws.Coded.hbmRetrainRequest : Sys2Proof.Laws.Coded.Statement (.hbmRetrainRequest) :=
  And.intro (Eq.refl false) (And.intro (Eq.refl false) (Eq.refl true))

theorem Sys2Proof.Laws.Coded.retrainDeferExpiry : Sys2Proof.Laws.Coded.Statement (.retrainDeferExpiry) :=
  And.intro (Eq.refl false) (And.intro (Eq.refl false) (Eq.refl true))

theorem Sys2Proof.Laws.Coded.hbmFallbackRate : Sys2Proof.Laws.Coded.Statement (.hbmFallbackRate) :=
  And.intro (Eq.refl false) (And.intro (Eq.refl false) (Eq.refl true))

theorem Sys2Proof.Laws.Coded.scheduleStart : Sys2Proof.Laws.Coded.Statement (.scheduleStart) :=
  And.intro (Eq.refl false) (And.intro (Eq.refl false) (Eq.refl true))

theorem Sys2Proof.Laws.Coded.checkPoint : Sys2Proof.Laws.Coded.Statement (.checkPoint) :=
  And.intro (Eq.refl false) (And.intro (Eq.refl false) (Eq.refl true))

theorem Sys2Proof.Laws.Coded.freezeTakesEffect : Sys2Proof.Laws.Coded.Statement (.freezeTakesEffect) :=
  And.intro (Eq.refl false) (And.intro (Eq.refl false) (Eq.refl true))

theorem Sys2Proof.Laws.Coded.freezeEnd : Sys2Proof.Laws.Coded.Statement (.freezeEnd) :=
  And.intro (Eq.refl false) (And.intro (Eq.refl false) (Eq.refl true))

theorem Sys2Proof.Laws.Coded.slipTimeout : Sys2Proof.Laws.Coded.Statement (.slipTimeout) :=
  And.intro (Eq.refl false) (And.intro (Eq.refl false) (Eq.refl true))

theorem Sys2Proof.Laws.Coded.postArrival : Sys2Proof.Laws.Coded.Statement (.postArrival) :=
  And.intro (Eq.refl false) (And.intro (Eq.refl false) (Eq.refl true))

theorem Sys2Proof.Laws.Coded.windowOpen : Sys2Proof.Laws.Coded.Statement (.windowOpen) :=
  And.intro (Eq.refl false) (And.intro (Eq.refl false) (Eq.refl true))

theorem Sys2Proof.Laws.Coded.windowClose : Sys2Proof.Laws.Coded.Statement (.windowClose) :=
  And.intro (Eq.refl false) (And.intro (Eq.refl false) (Eq.refl true))

theorem Sys2Proof.Laws.Coded.hbmGranuleLanding : Sys2Proof.Laws.Coded.Statement (.hbmGranuleLanding) :=
  And.intro (Eq.refl false) (And.intro (Eq.refl false) (Eq.refl true))

theorem Sys2Proof.Laws.Coded.meshFlitArrival : Sys2Proof.Laws.Coded.Statement (.meshFlitArrival) :=
  And.intro (Eq.refl false) (And.intro (Eq.refl false) (Eq.refl true))

theorem Sys2Proof.Laws.Coded.scheduleEnd : Sys2Proof.Laws.Coded.Statement (.scheduleEnd) :=
  And.intro (Eq.refl false) (And.intro (Eq.refl false) (Eq.refl true))

theorem Sys2Proof.Laws.Coded.thermalFloorRelease : Sys2Proof.Laws.Coded.Statement (.thermalFloorRelease) :=
  And.intro (Eq.refl false) (And.intro (Eq.refl false) (Eq.refl true))

theorem Sys2Proof.Laws.Coded.negativeAcknowledgement : Sys2Proof.Laws.Coded.Statement (.negativeAcknowledgement) :=
  And.intro (Eq.refl false) (And.intro (Eq.refl false) (Eq.refl true))

theorem Sys2Proof.Laws.Coded.migrationEnd : Sys2Proof.Laws.Coded.Statement (.migrationEnd) :=
  And.intro (Eq.refl false) (And.intro (Eq.refl false) (Eq.refl true))

theorem Sys2Proof.Laws.Coded.hbmRetrainingEnd : Sys2Proof.Laws.Coded.Statement (.hbmRetrainingEnd) :=
  And.intro (Eq.refl false) (And.intro (Eq.refl false) (Eq.refl true))
end

