-- ==== Sys2Proof/Laws/State.lean ====
section
/-! SUPPORT. What the updates of State leave alone, one lemma per field, and read after write of its tables. -/

namespace Sys2Proof.Machine

open Sys2Proof

/-! ## Read after write -/

@[simp] theorem State.thread_setThread_same (s : State) (k : Nat) (x : Thread) : (s.setThread k x).thread k = x := by
  simp [State.thread, State.setThread]

theorem State.thread_setThread_other (s : State) {k m : Nat} (h : m ≠ k) (x : Thread) : (s.setThread k x).thread m = s.thread m := by
  simp [State.thread, State.setThread, Store.get_put_other _ h]

@[simp] theorem State.core_setCore_same (s : State) (k : Nat) (x : Core) : (s.setCore k x).core k = x := by
  simp [State.core, State.setCore]

theorem State.core_setCore_other (s : State) {k m : Nat} (h : m ≠ k) (x : Core) : (s.setCore k x).core m = s.core m := by
  simp [State.core, State.setCore, Store.get_put_other _ h]

@[simp] theorem State.job_setJob_same (s : State) (k : Nat) (x : Job) : (s.setJob k x).job k = x := by
  simp [State.job, State.setJob]

theorem State.job_setJob_other (s : State) {k m : Nat} (h : m ≠ k) (x : Job) : (s.setJob k x).job m = s.job m := by
  simp [State.job, State.setJob, Store.get_put_other _ h]

@[simp] theorem State.tile_setTile_same (s : State) (k : Nat) (x : Tile) : (s.setTile k x).tile k = x := by
  simp [State.tile, State.setTile]

theorem State.tile_setTile_other (s : State) {k m : Nat} (h : m ≠ k) (x : Tile) : (s.setTile k x).tile m = s.tile m := by
  simp [State.tile, State.setTile, Store.get_put_other _ h]

@[simp] theorem State.part_setPart_same (s : State) (k : Nat) (x : Partition) : (s.setPart k x).part k = x := by
  simp [State.part, State.setPart]

theorem State.part_setPart_other (s : State) {k m : Nat} (h : m ≠ k) (x : Partition) : (s.setPart k x).part m = s.part m := by
  simp [State.part, State.setPart, Store.get_put_other _ h]

@[simp] theorem State.counter_setCounter_same (s : State) (k : Nat) (x : Counter) : (s.setCounter k x).counter k = x := by
  simp [State.counter, State.setCounter]

theorem State.counter_setCounter_other (s : State) {k m : Nat} (h : m ≠ k) (x : Counter) : (s.setCounter k x).counter m = s.counter m := by
  simp [State.counter, State.setCounter, Store.get_put_other _ h]

@[simp] theorem State.vset_setVset_same (s : State) (k : Nat) (x : VSet) : (s.setVset k x).vset k = x := by
  simp [State.vset, State.setVset]

theorem State.vset_setVset_other (s : State) {k m : Nat} (h : m ≠ k) (x : VSet) : (s.setVset k x).vset m = s.vset m := by
  simp [State.vset, State.setVset, Store.get_put_other _ h]

@[simp] theorem State.engine_setEngine_same (s : State) (k : Nat) (x : Engine) : (s.setEngine k x).engine k = x := by
  simp [State.engine, State.setEngine]

theorem State.engine_setEngine_other (s : State) {k m : Nat} (h : m ≠ k) (x : Engine) : (s.setEngine k x).engine m = s.engine m := by
  simp [State.engine, State.setEngine, Store.get_put_other _ h]

@[simp] theorem State.bank_setBank_same (s : State) (k : Nat) (x : Bank) : (s.setBank k x).bank k = x := by
  simp [State.bank, State.setBank]

theorem State.bank_setBank_other (s : State) {k m : Nat} (h : m ≠ k) (x : Bank) : (s.setBank k x).bank m = s.bank m := by
  simp [State.bank, State.setBank, Store.get_put_other _ h]

@[simp] theorem State.th_setTh (s : State) (x : Thread) : (s.setTh x).th = x := by simp [State.setTh, State.th, State.setThread, State.thread]

@[simp] theorem State.cur_setTh (s : State) (x : Thread) : (s.setTh x).cur = s.cur := rfl

/-- A second write of the executing thread hides the first. -/
theorem State.thread_setTh_other (s : State) {u : Nat} (h : u ≠ s.cur) (x : Thread) : (s.setTh x).thread u = s.thread u :=
  State.thread_setThread_other s h x

@[simp] theorem Thread.gr_zero (x : Thread) : x.gr 0 = 0 := rfl

theorem Thread.gr_setGr (x : Thread) (n m : Nat) (v : Word) :
    (x.setGr n v).gr m = if m = 0 then 0 else if m = n then v else x.gr m := by
  unfold Thread.setGr Thread.gr
  by_cases hm : m = 0
  · simp [hm]
  · by_cases hn : n = 0
    · simp [hn, hm]
    · simp [hn, hm, Store.get_put]

/-- A register write changes nothing of the thread but its registers. -/
theorem Thread.setGr_eq (x : Thread) (n : Nat) (v : Word) : x.setGr n v = { x with g := (x.setGr n v).g } := by
  unfold Thread.setGr; split <;> rfl

/-! ## Fields that an update leaves alone -/

@[simp] theorem State.setThread_cyc (s : State) (t : Nat) (x : Thread) : (s.setThread t x).cyc = s.cyc := rfl
@[simp] theorem State.setThread_powerUp (s : State) (t : Nat) (x : Thread) : (s.setThread t x).powerUp = s.powerUp := rfl
@[simp] theorem State.setThread_agenda (s : State) (t : Nat) (x : Thread) : (s.setThread t x).agenda = s.agenda := rfl
@[simp] theorem State.setThread_cur (s : State) (t : Nat) (x : Thread) : (s.setThread t x).cur = s.cur := rfl
@[simp] theorem State.setThread_curTile (s : State) (t : Nat) (x : Thread) : (s.setThread t x).curTile = s.curTile := rfl
@[simp] theorem State.setThread_curSt (s : State) (t : Nat) (x : Thread) : (s.setThread t x).curSt = s.curSt := rfl
@[simp] theorem State.setThread_arg (s : State) (t : Nat) (x : Thread) : (s.setThread t x).arg = s.arg := rfl
@[simp] theorem State.setThread_free (s : State) (t : Nat) (x : Thread) : (s.setThread t x).free = s.free := rfl
@[simp] theorem State.setThread_mem (s : State) (t : Nat) (x : Thread) : (s.setThread t x).mem = s.mem := rfl
@[simp] theorem State.setThread_fulls (s : State) (t : Nat) (x : Thread) : (s.setThread t x).fulls = s.fulls := rfl
@[simp] theorem State.setThread_ue (s : State) (t : Nat) (x : Thread) : (s.setThread t x).ue = s.ue := rfl
@[simp] theorem State.setThread_wtags (s : State) (t : Nat) (x : Thread) : (s.setThread t x).wtags = s.wtags := rfl
@[simp] theorem State.setThread_cores (s : State) (t : Nat) (x : Thread) : (s.setThread t x).cores = s.cores := rfl
@[simp] theorem State.setThread_quadTlb (s : State) (t : Nat) (x : Thread) : (s.setThread t x).quadTlb = s.quadTlb := rfl
@[simp] theorem State.setThread_walks (s : State) (t : Nat) (x : Thread) : (s.setThread t x).walks = s.walks := rfl
@[simp] theorem State.setThread_banks (s : State) (t : Nat) (x : Thread) : (s.setThread t x).banks = s.banks := rfl
@[simp] theorem State.setThread_engines (s : State) (t : Nat) (x : Thread) : (s.setThread t x).engines = s.engines := rfl
@[simp] theorem State.setThread_counters (s : State) (t : Nat) (x : Thread) : (s.setThread t x).counters = s.counters := rfl
@[simp] theorem State.setThread_vsets (s : State) (t : Nat) (x : Thread) : (s.setThread t x).vsets = s.vsets := rfl
@[simp] theorem State.setThread_pageTags (s : State) (t : Nat) (x : Thread) : (s.setThread t x).pageTags = s.pageTags := rfl
@[simp] theorem State.setThread_jobs (s : State) (t : Nat) (x : Thread) : (s.setThread t x).jobs = s.jobs := rfl
@[simp] theorem State.setThread_kernels (s : State) (t : Nat) (x : Thread) : (s.setThread t x).kernels = s.kernels := rfl
@[simp] theorem State.setThread_launches (s : State) (t : Nat) (x : Thread) : (s.setThread t x).launches = s.launches := rfl
@[simp] theorem State.setThread_launchSeq (s : State) (t : Nat) (x : Thread) : (s.setThread t x).launchSeq = s.launchSeq := rfl
@[simp] theorem State.setThread_submits (s : State) (t : Nat) (x : Thread) : (s.setThread t x).submits = s.submits := rfl
@[simp] theorem State.setThread_completed (s : State) (t : Nat) (x : Thread) : (s.setThread t x).completed = s.completed := rfl
@[simp] theorem State.setThread_msgs (s : State) (t : Nat) (x : Thread) : (s.setThread t x).msgs = s.msgs := rfl
@[simp] theorem State.setThread_msgSeq (s : State) (t : Nat) (x : Thread) : (s.setThread t x).msgSeq = s.msgSeq := rfl
@[simp] theorem State.setThread_replies (s : State) (t : Nat) (x : Thread) : (s.setThread t x).replies = s.replies := rfl
@[simp] theorem State.setThread_spawns (s : State) (t : Nat) (x : Thread) : (s.setThread t x).spawns = s.spawns := rfl
@[simp] theorem State.setThread_posts (s : State) (t : Nat) (x : Thread) : (s.setThread t x).posts = s.posts := rfl
@[simp] theorem State.setThread_gateQueue (s : State) (t : Nat) (x : Thread) : (s.setThread t x).gateQueue = s.gateQueue := rfl
@[simp] theorem State.setThread_gateLogs (s : State) (t : Nat) (x : Thread) : (s.setThread t x).gateLogs = s.gateLogs := rfl
@[simp] theorem State.setThread_pool (s : State) (t : Nat) (x : Thread) : (s.setThread t x).pool = s.pool := rfl
@[simp] theorem State.setThread_ptroot (s : State) (t : Nat) (x : Thread) : (s.setThread t x).ptroot = s.ptroot := rfl
@[simp] theorem State.setThread_iltab (s : State) (t : Nat) (x : Thread) : (s.setThread t x).iltab = s.iltab := rfl
@[simp] theorem State.setThread_jobOpened (s : State) (t : Nat) (x : Thread) : (s.setThread t x).jobOpened = s.jobOpened := rfl
@[simp] theorem State.setThread_episodes (s : State) (t : Nat) (x : Thread) : (s.setThread t x).episodes = s.episodes := rfl
@[simp] theorem State.setThread_remotes (s : State) (t : Nat) (x : Thread) : (s.setThread t x).remotes = s.remotes := rfl
@[simp] theorem State.setThread_remoteSeq (s : State) (t : Nat) (x : Thread) : (s.setThread t x).remoteSeq = s.remoteSeq := rfl
@[simp] theorem State.setThread_rx (s : State) (t : Nat) (x : Thread) : (s.setThread t x).rx = s.rx := rfl
@[simp] theorem State.setThread_pdcs (s : State) (t : Nat) (x : Thread) : (s.setThread t x).pdcs = s.pdcs := rfl
@[simp] theorem State.setThread_pdcSeq (s : State) (t : Nat) (x : Thread) : (s.setThread t x).pdcSeq = s.pdcSeq := rfl
@[simp] theorem State.setThread_peers (s : State) (t : Nat) (x : Thread) : (s.setThread t x).peers = s.peers := rfl
@[simp] theorem State.setThread_outbox (s : State) (t : Nat) (x : Thread) : (s.setThread t x).outbox = s.outbox := rfl
@[simp] theorem State.setThread_hostMem (s : State) (t : Nat) (x : Thread) : (s.setThread t x).hostMem = s.hostMem := rfl
@[simp] theorem State.setThread_migrations (s : State) (t : Nat) (x : Thread) : (s.setThread t x).migrations = s.migrations := rfl
@[simp] theorem State.setThread_parts (s : State) (t : Nat) (x : Thread) : (s.setThread t x).parts = s.parts := rfl
@[simp] theorem State.setThread_lastPctl (s : State) (t : Nat) (x : Thread) : (s.setThread t x).lastPctl = s.lastPctl := rfl
@[simp] theorem State.setThread_tiles (s : State) (t : Nat) (x : Thread) : (s.setThread t x).tiles = s.tiles := rfl
@[simp] theorem State.setThread_ratio (s : State) (t : Nat) (x : Thread) : (s.setThread t x).ratio = s.ratio := rfl
@[simp] theorem State.setThread_hangMs (s : State) (t : Nat) (x : Thread) : (s.setThread t x).hangMs = s.hangMs := rfl
@[simp] theorem State.setThread_pkg (s : State) (t : Nat) (x : Thread) : (s.setThread t x).pkg = s.pkg := rfl

@[simp] theorem State.setCore_cyc (s : State) (c : Nat) (x : Core) : (s.setCore c x).cyc = s.cyc := rfl
@[simp] theorem State.setCore_powerUp (s : State) (c : Nat) (x : Core) : (s.setCore c x).powerUp = s.powerUp := rfl
@[simp] theorem State.setCore_agenda (s : State) (c : Nat) (x : Core) : (s.setCore c x).agenda = s.agenda := rfl
@[simp] theorem State.setCore_cur (s : State) (c : Nat) (x : Core) : (s.setCore c x).cur = s.cur := rfl
@[simp] theorem State.setCore_curTile (s : State) (c : Nat) (x : Core) : (s.setCore c x).curTile = s.curTile := rfl
@[simp] theorem State.setCore_curSt (s : State) (c : Nat) (x : Core) : (s.setCore c x).curSt = s.curSt := rfl
@[simp] theorem State.setCore_arg (s : State) (c : Nat) (x : Core) : (s.setCore c x).arg = s.arg := rfl
@[simp] theorem State.setCore_free (s : State) (c : Nat) (x : Core) : (s.setCore c x).free = s.free := rfl
@[simp] theorem State.setCore_mem (s : State) (c : Nat) (x : Core) : (s.setCore c x).mem = s.mem := rfl
@[simp] theorem State.setCore_fulls (s : State) (c : Nat) (x : Core) : (s.setCore c x).fulls = s.fulls := rfl
@[simp] theorem State.setCore_ue (s : State) (c : Nat) (x : Core) : (s.setCore c x).ue = s.ue := rfl
@[simp] theorem State.setCore_wtags (s : State) (c : Nat) (x : Core) : (s.setCore c x).wtags = s.wtags := rfl
@[simp] theorem State.setCore_threads (s : State) (c : Nat) (x : Core) : (s.setCore c x).threads = s.threads := rfl
@[simp] theorem State.setCore_quadTlb (s : State) (c : Nat) (x : Core) : (s.setCore c x).quadTlb = s.quadTlb := rfl
@[simp] theorem State.setCore_walks (s : State) (c : Nat) (x : Core) : (s.setCore c x).walks = s.walks := rfl
@[simp] theorem State.setCore_banks (s : State) (c : Nat) (x : Core) : (s.setCore c x).banks = s.banks := rfl
@[simp] theorem State.setCore_engines (s : State) (c : Nat) (x : Core) : (s.setCore c x).engines = s.engines := rfl
@[simp] theorem State.setCore_counters (s : State) (c : Nat) (x : Core) : (s.setCore c x).counters = s.counters := rfl
@[simp] theorem State.setCore_vsets (s : State) (c : Nat) (x : Core) : (s.setCore c x).vsets = s.vsets := rfl
@[simp] theorem State.setCore_pageTags (s : State) (c : Nat) (x : Core) : (s.setCore c x).pageTags = s.pageTags := rfl
@[simp] theorem State.setCore_jobs (s : State) (c : Nat) (x : Core) : (s.setCore c x).jobs = s.jobs := rfl
@[simp] theorem State.setCore_kernels (s : State) (c : Nat) (x : Core) : (s.setCore c x).kernels = s.kernels := rfl
@[simp] theorem State.setCore_launches (s : State) (c : Nat) (x : Core) : (s.setCore c x).launches = s.launches := rfl
@[simp] theorem State.setCore_launchSeq (s : State) (c : Nat) (x : Core) : (s.setCore c x).launchSeq = s.launchSeq := rfl
@[simp] theorem State.setCore_submits (s : State) (c : Nat) (x : Core) : (s.setCore c x).submits = s.submits := rfl
@[simp] theorem State.setCore_completed (s : State) (c : Nat) (x : Core) : (s.setCore c x).completed = s.completed := rfl
@[simp] theorem State.setCore_msgs (s : State) (c : Nat) (x : Core) : (s.setCore c x).msgs = s.msgs := rfl
@[simp] theorem State.setCore_msgSeq (s : State) (c : Nat) (x : Core) : (s.setCore c x).msgSeq = s.msgSeq := rfl
@[simp] theorem State.setCore_replies (s : State) (c : Nat) (x : Core) : (s.setCore c x).replies = s.replies := rfl
@[simp] theorem State.setCore_spawns (s : State) (c : Nat) (x : Core) : (s.setCore c x).spawns = s.spawns := rfl
@[simp] theorem State.setCore_posts (s : State) (c : Nat) (x : Core) : (s.setCore c x).posts = s.posts := rfl
@[simp] theorem State.setCore_gateQueue (s : State) (c : Nat) (x : Core) : (s.setCore c x).gateQueue = s.gateQueue := rfl
@[simp] theorem State.setCore_gateLogs (s : State) (c : Nat) (x : Core) : (s.setCore c x).gateLogs = s.gateLogs := rfl
@[simp] theorem State.setCore_pool (s : State) (c : Nat) (x : Core) : (s.setCore c x).pool = s.pool := rfl
@[simp] theorem State.setCore_ptroot (s : State) (c : Nat) (x : Core) : (s.setCore c x).ptroot = s.ptroot := rfl
@[simp] theorem State.setCore_iltab (s : State) (c : Nat) (x : Core) : (s.setCore c x).iltab = s.iltab := rfl
@[simp] theorem State.setCore_jobOpened (s : State) (c : Nat) (x : Core) : (s.setCore c x).jobOpened = s.jobOpened := rfl
@[simp] theorem State.setCore_episodes (s : State) (c : Nat) (x : Core) : (s.setCore c x).episodes = s.episodes := rfl
@[simp] theorem State.setCore_remotes (s : State) (c : Nat) (x : Core) : (s.setCore c x).remotes = s.remotes := rfl
@[simp] theorem State.setCore_remoteSeq (s : State) (c : Nat) (x : Core) : (s.setCore c x).remoteSeq = s.remoteSeq := rfl
@[simp] theorem State.setCore_rx (s : State) (c : Nat) (x : Core) : (s.setCore c x).rx = s.rx := rfl
@[simp] theorem State.setCore_pdcs (s : State) (c : Nat) (x : Core) : (s.setCore c x).pdcs = s.pdcs := rfl
@[simp] theorem State.setCore_pdcSeq (s : State) (c : Nat) (x : Core) : (s.setCore c x).pdcSeq = s.pdcSeq := rfl
@[simp] theorem State.setCore_peers (s : State) (c : Nat) (x : Core) : (s.setCore c x).peers = s.peers := rfl
@[simp] theorem State.setCore_outbox (s : State) (c : Nat) (x : Core) : (s.setCore c x).outbox = s.outbox := rfl
@[simp] theorem State.setCore_hostMem (s : State) (c : Nat) (x : Core) : (s.setCore c x).hostMem = s.hostMem := rfl
@[simp] theorem State.setCore_migrations (s : State) (c : Nat) (x : Core) : (s.setCore c x).migrations = s.migrations := rfl
@[simp] theorem State.setCore_parts (s : State) (c : Nat) (x : Core) : (s.setCore c x).parts = s.parts := rfl
@[simp] theorem State.setCore_lastPctl (s : State) (c : Nat) (x : Core) : (s.setCore c x).lastPctl = s.lastPctl := rfl
@[simp] theorem State.setCore_tiles (s : State) (c : Nat) (x : Core) : (s.setCore c x).tiles = s.tiles := rfl
@[simp] theorem State.setCore_ratio (s : State) (c : Nat) (x : Core) : (s.setCore c x).ratio = s.ratio := rfl
@[simp] theorem State.setCore_hangMs (s : State) (c : Nat) (x : Core) : (s.setCore c x).hangMs = s.hangMs := rfl
@[simp] theorem State.setCore_pkg (s : State) (c : Nat) (x : Core) : (s.setCore c x).pkg = s.pkg := rfl

@[simp] theorem State.setJob_cyc (s : State) (j : Nat) (x : Job) : (s.setJob j x).cyc = s.cyc := rfl
@[simp] theorem State.setJob_powerUp (s : State) (j : Nat) (x : Job) : (s.setJob j x).powerUp = s.powerUp := rfl
@[simp] theorem State.setJob_agenda (s : State) (j : Nat) (x : Job) : (s.setJob j x).agenda = s.agenda := rfl
@[simp] theorem State.setJob_cur (s : State) (j : Nat) (x : Job) : (s.setJob j x).cur = s.cur := rfl
@[simp] theorem State.setJob_curTile (s : State) (j : Nat) (x : Job) : (s.setJob j x).curTile = s.curTile := rfl
@[simp] theorem State.setJob_curSt (s : State) (j : Nat) (x : Job) : (s.setJob j x).curSt = s.curSt := rfl
@[simp] theorem State.setJob_arg (s : State) (j : Nat) (x : Job) : (s.setJob j x).arg = s.arg := rfl
@[simp] theorem State.setJob_free (s : State) (j : Nat) (x : Job) : (s.setJob j x).free = s.free := rfl
@[simp] theorem State.setJob_mem (s : State) (j : Nat) (x : Job) : (s.setJob j x).mem = s.mem := rfl
@[simp] theorem State.setJob_fulls (s : State) (j : Nat) (x : Job) : (s.setJob j x).fulls = s.fulls := rfl
@[simp] theorem State.setJob_ue (s : State) (j : Nat) (x : Job) : (s.setJob j x).ue = s.ue := rfl
@[simp] theorem State.setJob_wtags (s : State) (j : Nat) (x : Job) : (s.setJob j x).wtags = s.wtags := rfl
@[simp] theorem State.setJob_threads (s : State) (j : Nat) (x : Job) : (s.setJob j x).threads = s.threads := rfl
@[simp] theorem State.setJob_cores (s : State) (j : Nat) (x : Job) : (s.setJob j x).cores = s.cores := rfl
@[simp] theorem State.setJob_quadTlb (s : State) (j : Nat) (x : Job) : (s.setJob j x).quadTlb = s.quadTlb := rfl
@[simp] theorem State.setJob_walks (s : State) (j : Nat) (x : Job) : (s.setJob j x).walks = s.walks := rfl
@[simp] theorem State.setJob_banks (s : State) (j : Nat) (x : Job) : (s.setJob j x).banks = s.banks := rfl
@[simp] theorem State.setJob_engines (s : State) (j : Nat) (x : Job) : (s.setJob j x).engines = s.engines := rfl
@[simp] theorem State.setJob_counters (s : State) (j : Nat) (x : Job) : (s.setJob j x).counters = s.counters := rfl
@[simp] theorem State.setJob_vsets (s : State) (j : Nat) (x : Job) : (s.setJob j x).vsets = s.vsets := rfl
@[simp] theorem State.setJob_pageTags (s : State) (j : Nat) (x : Job) : (s.setJob j x).pageTags = s.pageTags := rfl
@[simp] theorem State.setJob_kernels (s : State) (j : Nat) (x : Job) : (s.setJob j x).kernels = s.kernels := rfl
@[simp] theorem State.setJob_launches (s : State) (j : Nat) (x : Job) : (s.setJob j x).launches = s.launches := rfl
@[simp] theorem State.setJob_launchSeq (s : State) (j : Nat) (x : Job) : (s.setJob j x).launchSeq = s.launchSeq := rfl
@[simp] theorem State.setJob_submits (s : State) (j : Nat) (x : Job) : (s.setJob j x).submits = s.submits := rfl
@[simp] theorem State.setJob_completed (s : State) (j : Nat) (x : Job) : (s.setJob j x).completed = s.completed := rfl
@[simp] theorem State.setJob_msgs (s : State) (j : Nat) (x : Job) : (s.setJob j x).msgs = s.msgs := rfl
@[simp] theorem State.setJob_msgSeq (s : State) (j : Nat) (x : Job) : (s.setJob j x).msgSeq = s.msgSeq := rfl
@[simp] theorem State.setJob_replies (s : State) (j : Nat) (x : Job) : (s.setJob j x).replies = s.replies := rfl
@[simp] theorem State.setJob_spawns (s : State) (j : Nat) (x : Job) : (s.setJob j x).spawns = s.spawns := rfl
@[simp] theorem State.setJob_posts (s : State) (j : Nat) (x : Job) : (s.setJob j x).posts = s.posts := rfl
@[simp] theorem State.setJob_gateQueue (s : State) (j : Nat) (x : Job) : (s.setJob j x).gateQueue = s.gateQueue := rfl
@[simp] theorem State.setJob_gateLogs (s : State) (j : Nat) (x : Job) : (s.setJob j x).gateLogs = s.gateLogs := rfl
@[simp] theorem State.setJob_pool (s : State) (j : Nat) (x : Job) : (s.setJob j x).pool = s.pool := rfl
@[simp] theorem State.setJob_ptroot (s : State) (j : Nat) (x : Job) : (s.setJob j x).ptroot = s.ptroot := rfl
@[simp] theorem State.setJob_iltab (s : State) (j : Nat) (x : Job) : (s.setJob j x).iltab = s.iltab := rfl
@[simp] theorem State.setJob_jobOpened (s : State) (j : Nat) (x : Job) : (s.setJob j x).jobOpened = s.jobOpened := rfl
@[simp] theorem State.setJob_episodes (s : State) (j : Nat) (x : Job) : (s.setJob j x).episodes = s.episodes := rfl
@[simp] theorem State.setJob_remotes (s : State) (j : Nat) (x : Job) : (s.setJob j x).remotes = s.remotes := rfl
@[simp] theorem State.setJob_remoteSeq (s : State) (j : Nat) (x : Job) : (s.setJob j x).remoteSeq = s.remoteSeq := rfl
@[simp] theorem State.setJob_rx (s : State) (j : Nat) (x : Job) : (s.setJob j x).rx = s.rx := rfl
@[simp] theorem State.setJob_pdcs (s : State) (j : Nat) (x : Job) : (s.setJob j x).pdcs = s.pdcs := rfl
@[simp] theorem State.setJob_pdcSeq (s : State) (j : Nat) (x : Job) : (s.setJob j x).pdcSeq = s.pdcSeq := rfl
@[simp] theorem State.setJob_peers (s : State) (j : Nat) (x : Job) : (s.setJob j x).peers = s.peers := rfl
@[simp] theorem State.setJob_outbox (s : State) (j : Nat) (x : Job) : (s.setJob j x).outbox = s.outbox := rfl
@[simp] theorem State.setJob_hostMem (s : State) (j : Nat) (x : Job) : (s.setJob j x).hostMem = s.hostMem := rfl
@[simp] theorem State.setJob_migrations (s : State) (j : Nat) (x : Job) : (s.setJob j x).migrations = s.migrations := rfl
@[simp] theorem State.setJob_parts (s : State) (j : Nat) (x : Job) : (s.setJob j x).parts = s.parts := rfl
@[simp] theorem State.setJob_lastPctl (s : State) (j : Nat) (x : Job) : (s.setJob j x).lastPctl = s.lastPctl := rfl
@[simp] theorem State.setJob_tiles (s : State) (j : Nat) (x : Job) : (s.setJob j x).tiles = s.tiles := rfl
@[simp] theorem State.setJob_ratio (s : State) (j : Nat) (x : Job) : (s.setJob j x).ratio = s.ratio := rfl
@[simp] theorem State.setJob_hangMs (s : State) (j : Nat) (x : Job) : (s.setJob j x).hangMs = s.hangMs := rfl
@[simp] theorem State.setJob_pkg (s : State) (j : Nat) (x : Job) : (s.setJob j x).pkg = s.pkg := rfl

@[simp] theorem State.setTile_cyc (s : State) (t : Nat) (x : Tile) : (s.setTile t x).cyc = s.cyc := rfl
@[simp] theorem State.setTile_powerUp (s : State) (t : Nat) (x : Tile) : (s.setTile t x).powerUp = s.powerUp := rfl
@[simp] theorem State.setTile_agenda (s : State) (t : Nat) (x : Tile) : (s.setTile t x).agenda = s.agenda := rfl
@[simp] theorem State.setTile_cur (s : State) (t : Nat) (x : Tile) : (s.setTile t x).cur = s.cur := rfl
@[simp] theorem State.setTile_curTile (s : State) (t : Nat) (x : Tile) : (s.setTile t x).curTile = s.curTile := rfl
@[simp] theorem State.setTile_curSt (s : State) (t : Nat) (x : Tile) : (s.setTile t x).curSt = s.curSt := rfl
@[simp] theorem State.setTile_arg (s : State) (t : Nat) (x : Tile) : (s.setTile t x).arg = s.arg := rfl
@[simp] theorem State.setTile_free (s : State) (t : Nat) (x : Tile) : (s.setTile t x).free = s.free := rfl
@[simp] theorem State.setTile_mem (s : State) (t : Nat) (x : Tile) : (s.setTile t x).mem = s.mem := rfl
@[simp] theorem State.setTile_fulls (s : State) (t : Nat) (x : Tile) : (s.setTile t x).fulls = s.fulls := rfl
@[simp] theorem State.setTile_ue (s : State) (t : Nat) (x : Tile) : (s.setTile t x).ue = s.ue := rfl
@[simp] theorem State.setTile_wtags (s : State) (t : Nat) (x : Tile) : (s.setTile t x).wtags = s.wtags := rfl
@[simp] theorem State.setTile_threads (s : State) (t : Nat) (x : Tile) : (s.setTile t x).threads = s.threads := rfl
@[simp] theorem State.setTile_cores (s : State) (t : Nat) (x : Tile) : (s.setTile t x).cores = s.cores := rfl
@[simp] theorem State.setTile_quadTlb (s : State) (t : Nat) (x : Tile) : (s.setTile t x).quadTlb = s.quadTlb := rfl
@[simp] theorem State.setTile_walks (s : State) (t : Nat) (x : Tile) : (s.setTile t x).walks = s.walks := rfl
@[simp] theorem State.setTile_banks (s : State) (t : Nat) (x : Tile) : (s.setTile t x).banks = s.banks := rfl
@[simp] theorem State.setTile_engines (s : State) (t : Nat) (x : Tile) : (s.setTile t x).engines = s.engines := rfl
@[simp] theorem State.setTile_counters (s : State) (t : Nat) (x : Tile) : (s.setTile t x).counters = s.counters := rfl
@[simp] theorem State.setTile_vsets (s : State) (t : Nat) (x : Tile) : (s.setTile t x).vsets = s.vsets := rfl
@[simp] theorem State.setTile_pageTags (s : State) (t : Nat) (x : Tile) : (s.setTile t x).pageTags = s.pageTags := rfl
@[simp] theorem State.setTile_jobs (s : State) (t : Nat) (x : Tile) : (s.setTile t x).jobs = s.jobs := rfl
@[simp] theorem State.setTile_kernels (s : State) (t : Nat) (x : Tile) : (s.setTile t x).kernels = s.kernels := rfl
@[simp] theorem State.setTile_launches (s : State) (t : Nat) (x : Tile) : (s.setTile t x).launches = s.launches := rfl
@[simp] theorem State.setTile_launchSeq (s : State) (t : Nat) (x : Tile) : (s.setTile t x).launchSeq = s.launchSeq := rfl
@[simp] theorem State.setTile_submits (s : State) (t : Nat) (x : Tile) : (s.setTile t x).submits = s.submits := rfl
@[simp] theorem State.setTile_completed (s : State) (t : Nat) (x : Tile) : (s.setTile t x).completed = s.completed := rfl
@[simp] theorem State.setTile_msgs (s : State) (t : Nat) (x : Tile) : (s.setTile t x).msgs = s.msgs := rfl
@[simp] theorem State.setTile_msgSeq (s : State) (t : Nat) (x : Tile) : (s.setTile t x).msgSeq = s.msgSeq := rfl
@[simp] theorem State.setTile_replies (s : State) (t : Nat) (x : Tile) : (s.setTile t x).replies = s.replies := rfl
@[simp] theorem State.setTile_spawns (s : State) (t : Nat) (x : Tile) : (s.setTile t x).spawns = s.spawns := rfl
@[simp] theorem State.setTile_posts (s : State) (t : Nat) (x : Tile) : (s.setTile t x).posts = s.posts := rfl
@[simp] theorem State.setTile_gateQueue (s : State) (t : Nat) (x : Tile) : (s.setTile t x).gateQueue = s.gateQueue := rfl
@[simp] theorem State.setTile_gateLogs (s : State) (t : Nat) (x : Tile) : (s.setTile t x).gateLogs = s.gateLogs := rfl
@[simp] theorem State.setTile_pool (s : State) (t : Nat) (x : Tile) : (s.setTile t x).pool = s.pool := rfl
@[simp] theorem State.setTile_ptroot (s : State) (t : Nat) (x : Tile) : (s.setTile t x).ptroot = s.ptroot := rfl
@[simp] theorem State.setTile_iltab (s : State) (t : Nat) (x : Tile) : (s.setTile t x).iltab = s.iltab := rfl
@[simp] theorem State.setTile_jobOpened (s : State) (t : Nat) (x : Tile) : (s.setTile t x).jobOpened = s.jobOpened := rfl
@[simp] theorem State.setTile_episodes (s : State) (t : Nat) (x : Tile) : (s.setTile t x).episodes = s.episodes := rfl
@[simp] theorem State.setTile_remotes (s : State) (t : Nat) (x : Tile) : (s.setTile t x).remotes = s.remotes := rfl
@[simp] theorem State.setTile_remoteSeq (s : State) (t : Nat) (x : Tile) : (s.setTile t x).remoteSeq = s.remoteSeq := rfl
@[simp] theorem State.setTile_rx (s : State) (t : Nat) (x : Tile) : (s.setTile t x).rx = s.rx := rfl
@[simp] theorem State.setTile_pdcs (s : State) (t : Nat) (x : Tile) : (s.setTile t x).pdcs = s.pdcs := rfl
@[simp] theorem State.setTile_pdcSeq (s : State) (t : Nat) (x : Tile) : (s.setTile t x).pdcSeq = s.pdcSeq := rfl
@[simp] theorem State.setTile_peers (s : State) (t : Nat) (x : Tile) : (s.setTile t x).peers = s.peers := rfl
@[simp] theorem State.setTile_outbox (s : State) (t : Nat) (x : Tile) : (s.setTile t x).outbox = s.outbox := rfl
@[simp] theorem State.setTile_hostMem (s : State) (t : Nat) (x : Tile) : (s.setTile t x).hostMem = s.hostMem := rfl
@[simp] theorem State.setTile_migrations (s : State) (t : Nat) (x : Tile) : (s.setTile t x).migrations = s.migrations := rfl
@[simp] theorem State.setTile_parts (s : State) (t : Nat) (x : Tile) : (s.setTile t x).parts = s.parts := rfl
@[simp] theorem State.setTile_lastPctl (s : State) (t : Nat) (x : Tile) : (s.setTile t x).lastPctl = s.lastPctl := rfl
@[simp] theorem State.setTile_ratio (s : State) (t : Nat) (x : Tile) : (s.setTile t x).ratio = s.ratio := rfl
@[simp] theorem State.setTile_hangMs (s : State) (t : Nat) (x : Tile) : (s.setTile t x).hangMs = s.hangMs := rfl
@[simp] theorem State.setTile_pkg (s : State) (t : Nat) (x : Tile) : (s.setTile t x).pkg = s.pkg := rfl

@[simp] theorem State.setPart_cyc (s : State) (p : Nat) (x : Partition) : (s.setPart p x).cyc = s.cyc := rfl
@[simp] theorem State.setPart_powerUp (s : State) (p : Nat) (x : Partition) : (s.setPart p x).powerUp = s.powerUp := rfl
@[simp] theorem State.setPart_agenda (s : State) (p : Nat) (x : Partition) : (s.setPart p x).agenda = s.agenda := rfl
@[simp] theorem State.setPart_cur (s : State) (p : Nat) (x : Partition) : (s.setPart p x).cur = s.cur := rfl
@[simp] theorem State.setPart_curTile (s : State) (p : Nat) (x : Partition) : (s.setPart p x).curTile = s.curTile := rfl
@[simp] theorem State.setPart_curSt (s : State) (p : Nat) (x : Partition) : (s.setPart p x).curSt = s.curSt := rfl
@[simp] theorem State.setPart_arg (s : State) (p : Nat) (x : Partition) : (s.setPart p x).arg = s.arg := rfl
@[simp] theorem State.setPart_free (s : State) (p : Nat) (x : Partition) : (s.setPart p x).free = s.free := rfl
@[simp] theorem State.setPart_mem (s : State) (p : Nat) (x : Partition) : (s.setPart p x).mem = s.mem := rfl
@[simp] theorem State.setPart_fulls (s : State) (p : Nat) (x : Partition) : (s.setPart p x).fulls = s.fulls := rfl
@[simp] theorem State.setPart_ue (s : State) (p : Nat) (x : Partition) : (s.setPart p x).ue = s.ue := rfl
@[simp] theorem State.setPart_wtags (s : State) (p : Nat) (x : Partition) : (s.setPart p x).wtags = s.wtags := rfl
@[simp] theorem State.setPart_threads (s : State) (p : Nat) (x : Partition) : (s.setPart p x).threads = s.threads := rfl
@[simp] theorem State.setPart_cores (s : State) (p : Nat) (x : Partition) : (s.setPart p x).cores = s.cores := rfl
@[simp] theorem State.setPart_quadTlb (s : State) (p : Nat) (x : Partition) : (s.setPart p x).quadTlb = s.quadTlb := rfl
@[simp] theorem State.setPart_walks (s : State) (p : Nat) (x : Partition) : (s.setPart p x).walks = s.walks := rfl
@[simp] theorem State.setPart_banks (s : State) (p : Nat) (x : Partition) : (s.setPart p x).banks = s.banks := rfl
@[simp] theorem State.setPart_engines (s : State) (p : Nat) (x : Partition) : (s.setPart p x).engines = s.engines := rfl
@[simp] theorem State.setPart_counters (s : State) (p : Nat) (x : Partition) : (s.setPart p x).counters = s.counters := rfl
@[simp] theorem State.setPart_vsets (s : State) (p : Nat) (x : Partition) : (s.setPart p x).vsets = s.vsets := rfl
@[simp] theorem State.setPart_pageTags (s : State) (p : Nat) (x : Partition) : (s.setPart p x).pageTags = s.pageTags := rfl
@[simp] theorem State.setPart_jobs (s : State) (p : Nat) (x : Partition) : (s.setPart p x).jobs = s.jobs := rfl
@[simp] theorem State.setPart_kernels (s : State) (p : Nat) (x : Partition) : (s.setPart p x).kernels = s.kernels := rfl
@[simp] theorem State.setPart_launches (s : State) (p : Nat) (x : Partition) : (s.setPart p x).launches = s.launches := rfl
@[simp] theorem State.setPart_launchSeq (s : State) (p : Nat) (x : Partition) : (s.setPart p x).launchSeq = s.launchSeq := rfl
@[simp] theorem State.setPart_submits (s : State) (p : Nat) (x : Partition) : (s.setPart p x).submits = s.submits := rfl
@[simp] theorem State.setPart_completed (s : State) (p : Nat) (x : Partition) : (s.setPart p x).completed = s.completed := rfl
@[simp] theorem State.setPart_msgs (s : State) (p : Nat) (x : Partition) : (s.setPart p x).msgs = s.msgs := rfl
@[simp] theorem State.setPart_msgSeq (s : State) (p : Nat) (x : Partition) : (s.setPart p x).msgSeq = s.msgSeq := rfl
@[simp] theorem State.setPart_replies (s : State) (p : Nat) (x : Partition) : (s.setPart p x).replies = s.replies := rfl
@[simp] theorem State.setPart_spawns (s : State) (p : Nat) (x : Partition) : (s.setPart p x).spawns = s.spawns := rfl
@[simp] theorem State.setPart_posts (s : State) (p : Nat) (x : Partition) : (s.setPart p x).posts = s.posts := rfl
@[simp] theorem State.setPart_gateQueue (s : State) (p : Nat) (x : Partition) : (s.setPart p x).gateQueue = s.gateQueue := rfl
@[simp] theorem State.setPart_gateLogs (s : State) (p : Nat) (x : Partition) : (s.setPart p x).gateLogs = s.gateLogs := rfl
@[simp] theorem State.setPart_pool (s : State) (p : Nat) (x : Partition) : (s.setPart p x).pool = s.pool := rfl
@[simp] theorem State.setPart_ptroot (s : State) (p : Nat) (x : Partition) : (s.setPart p x).ptroot = s.ptroot := rfl
@[simp] theorem State.setPart_iltab (s : State) (p : Nat) (x : Partition) : (s.setPart p x).iltab = s.iltab := rfl
@[simp] theorem State.setPart_jobOpened (s : State) (p : Nat) (x : Partition) : (s.setPart p x).jobOpened = s.jobOpened := rfl
@[simp] theorem State.setPart_episodes (s : State) (p : Nat) (x : Partition) : (s.setPart p x).episodes = s.episodes := rfl
@[simp] theorem State.setPart_remotes (s : State) (p : Nat) (x : Partition) : (s.setPart p x).remotes = s.remotes := rfl
@[simp] theorem State.setPart_remoteSeq (s : State) (p : Nat) (x : Partition) : (s.setPart p x).remoteSeq = s.remoteSeq := rfl
@[simp] theorem State.setPart_rx (s : State) (p : Nat) (x : Partition) : (s.setPart p x).rx = s.rx := rfl
@[simp] theorem State.setPart_pdcs (s : State) (p : Nat) (x : Partition) : (s.setPart p x).pdcs = s.pdcs := rfl
@[simp] theorem State.setPart_pdcSeq (s : State) (p : Nat) (x : Partition) : (s.setPart p x).pdcSeq = s.pdcSeq := rfl
@[simp] theorem State.setPart_peers (s : State) (p : Nat) (x : Partition) : (s.setPart p x).peers = s.peers := rfl
@[simp] theorem State.setPart_outbox (s : State) (p : Nat) (x : Partition) : (s.setPart p x).outbox = s.outbox := rfl
@[simp] theorem State.setPart_hostMem (s : State) (p : Nat) (x : Partition) : (s.setPart p x).hostMem = s.hostMem := rfl
@[simp] theorem State.setPart_migrations (s : State) (p : Nat) (x : Partition) : (s.setPart p x).migrations = s.migrations := rfl
@[simp] theorem State.setPart_lastPctl (s : State) (p : Nat) (x : Partition) : (s.setPart p x).lastPctl = s.lastPctl := rfl
@[simp] theorem State.setPart_tiles (s : State) (p : Nat) (x : Partition) : (s.setPart p x).tiles = s.tiles := rfl
@[simp] theorem State.setPart_ratio (s : State) (p : Nat) (x : Partition) : (s.setPart p x).ratio = s.ratio := rfl
@[simp] theorem State.setPart_hangMs (s : State) (p : Nat) (x : Partition) : (s.setPart p x).hangMs = s.hangMs := rfl
@[simp] theorem State.setPart_pkg (s : State) (p : Nat) (x : Partition) : (s.setPart p x).pkg = s.pkg := rfl

@[simp] theorem State.setPkg_cyc (s : State) (x : Package) : (s.setPkg x).cyc = s.cyc := rfl
@[simp] theorem State.setPkg_powerUp (s : State) (x : Package) : (s.setPkg x).powerUp = s.powerUp := rfl
@[simp] theorem State.setPkg_agenda (s : State) (x : Package) : (s.setPkg x).agenda = s.agenda := rfl
@[simp] theorem State.setPkg_cur (s : State) (x : Package) : (s.setPkg x).cur = s.cur := rfl
@[simp] theorem State.setPkg_curTile (s : State) (x : Package) : (s.setPkg x).curTile = s.curTile := rfl
@[simp] theorem State.setPkg_curSt (s : State) (x : Package) : (s.setPkg x).curSt = s.curSt := rfl
@[simp] theorem State.setPkg_arg (s : State) (x : Package) : (s.setPkg x).arg = s.arg := rfl
@[simp] theorem State.setPkg_free (s : State) (x : Package) : (s.setPkg x).free = s.free := rfl
@[simp] theorem State.setPkg_mem (s : State) (x : Package) : (s.setPkg x).mem = s.mem := rfl
@[simp] theorem State.setPkg_fulls (s : State) (x : Package) : (s.setPkg x).fulls = s.fulls := rfl
@[simp] theorem State.setPkg_ue (s : State) (x : Package) : (s.setPkg x).ue = s.ue := rfl
@[simp] theorem State.setPkg_wtags (s : State) (x : Package) : (s.setPkg x).wtags = s.wtags := rfl
@[simp] theorem State.setPkg_threads (s : State) (x : Package) : (s.setPkg x).threads = s.threads := rfl
@[simp] theorem State.setPkg_cores (s : State) (x : Package) : (s.setPkg x).cores = s.cores := rfl
@[simp] theorem State.setPkg_quadTlb (s : State) (x : Package) : (s.setPkg x).quadTlb = s.quadTlb := rfl
@[simp] theorem State.setPkg_walks (s : State) (x : Package) : (s.setPkg x).walks = s.walks := rfl
@[simp] theorem State.setPkg_banks (s : State) (x : Package) : (s.setPkg x).banks = s.banks := rfl
@[simp] theorem State.setPkg_engines (s : State) (x : Package) : (s.setPkg x).engines = s.engines := rfl
@[simp] theorem State.setPkg_counters (s : State) (x : Package) : (s.setPkg x).counters = s.counters := rfl
@[simp] theorem State.setPkg_vsets (s : State) (x : Package) : (s.setPkg x).vsets = s.vsets := rfl
@[simp] theorem State.setPkg_pageTags (s : State) (x : Package) : (s.setPkg x).pageTags = s.pageTags := rfl
@[simp] theorem State.setPkg_jobs (s : State) (x : Package) : (s.setPkg x).jobs = s.jobs := rfl
@[simp] theorem State.setPkg_kernels (s : State) (x : Package) : (s.setPkg x).kernels = s.kernels := rfl
@[simp] theorem State.setPkg_launches (s : State) (x : Package) : (s.setPkg x).launches = s.launches := rfl
@[simp] theorem State.setPkg_launchSeq (s : State) (x : Package) : (s.setPkg x).launchSeq = s.launchSeq := rfl
@[simp] theorem State.setPkg_submits (s : State) (x : Package) : (s.setPkg x).submits = s.submits := rfl
@[simp] theorem State.setPkg_completed (s : State) (x : Package) : (s.setPkg x).completed = s.completed := rfl
@[simp] theorem State.setPkg_msgs (s : State) (x : Package) : (s.setPkg x).msgs = s.msgs := rfl
@[simp] theorem State.setPkg_msgSeq (s : State) (x : Package) : (s.setPkg x).msgSeq = s.msgSeq := rfl
@[simp] theorem State.setPkg_replies (s : State) (x : Package) : (s.setPkg x).replies = s.replies := rfl
@[simp] theorem State.setPkg_spawns (s : State) (x : Package) : (s.setPkg x).spawns = s.spawns := rfl
@[simp] theorem State.setPkg_posts (s : State) (x : Package) : (s.setPkg x).posts = s.posts := rfl
@[simp] theorem State.setPkg_gateQueue (s : State) (x : Package) : (s.setPkg x).gateQueue = s.gateQueue := rfl
@[simp] theorem State.setPkg_gateLogs (s : State) (x : Package) : (s.setPkg x).gateLogs = s.gateLogs := rfl
@[simp] theorem State.setPkg_pool (s : State) (x : Package) : (s.setPkg x).pool = s.pool := rfl
@[simp] theorem State.setPkg_ptroot (s : State) (x : Package) : (s.setPkg x).ptroot = s.ptroot := rfl
@[simp] theorem State.setPkg_iltab (s : State) (x : Package) : (s.setPkg x).iltab = s.iltab := rfl
@[simp] theorem State.setPkg_jobOpened (s : State) (x : Package) : (s.setPkg x).jobOpened = s.jobOpened := rfl
@[simp] theorem State.setPkg_episodes (s : State) (x : Package) : (s.setPkg x).episodes = s.episodes := rfl
@[simp] theorem State.setPkg_remotes (s : State) (x : Package) : (s.setPkg x).remotes = s.remotes := rfl
@[simp] theorem State.setPkg_remoteSeq (s : State) (x : Package) : (s.setPkg x).remoteSeq = s.remoteSeq := rfl
@[simp] theorem State.setPkg_rx (s : State) (x : Package) : (s.setPkg x).rx = s.rx := rfl
@[simp] theorem State.setPkg_pdcs (s : State) (x : Package) : (s.setPkg x).pdcs = s.pdcs := rfl
@[simp] theorem State.setPkg_pdcSeq (s : State) (x : Package) : (s.setPkg x).pdcSeq = s.pdcSeq := rfl
@[simp] theorem State.setPkg_peers (s : State) (x : Package) : (s.setPkg x).peers = s.peers := rfl
@[simp] theorem State.setPkg_outbox (s : State) (x : Package) : (s.setPkg x).outbox = s.outbox := rfl
@[simp] theorem State.setPkg_hostMem (s : State) (x : Package) : (s.setPkg x).hostMem = s.hostMem := rfl
@[simp] theorem State.setPkg_migrations (s : State) (x : Package) : (s.setPkg x).migrations = s.migrations := rfl
@[simp] theorem State.setPkg_parts (s : State) (x : Package) : (s.setPkg x).parts = s.parts := rfl
@[simp] theorem State.setPkg_lastPctl (s : State) (x : Package) : (s.setPkg x).lastPctl = s.lastPctl := rfl
@[simp] theorem State.setPkg_tiles (s : State) (x : Package) : (s.setPkg x).tiles = s.tiles := rfl
@[simp] theorem State.setPkg_ratio (s : State) (x : Package) : (s.setPkg x).ratio = s.ratio := rfl
@[simp] theorem State.setPkg_hangMs (s : State) (x : Package) : (s.setPkg x).hangMs = s.hangMs := rfl

@[simp] theorem State.push_cyc (s : State) (i : Instr) (a : Arg) : (s.push i a).cyc = s.cyc := rfl
@[simp] theorem State.push_powerUp (s : State) (i : Instr) (a : Arg) : (s.push i a).powerUp = s.powerUp := rfl
@[simp] theorem State.push_cur (s : State) (i : Instr) (a : Arg) : (s.push i a).cur = s.cur := rfl
@[simp] theorem State.push_curTile (s : State) (i : Instr) (a : Arg) : (s.push i a).curTile = s.curTile := rfl
@[simp] theorem State.push_curSt (s : State) (i : Instr) (a : Arg) : (s.push i a).curSt = s.curSt := rfl
@[simp] theorem State.push_arg (s : State) (i : Instr) (a : Arg) : (s.push i a).arg = s.arg := rfl
@[simp] theorem State.push_free (s : State) (i : Instr) (a : Arg) : (s.push i a).free = s.free := rfl
@[simp] theorem State.push_mem (s : State) (i : Instr) (a : Arg) : (s.push i a).mem = s.mem := rfl
@[simp] theorem State.push_fulls (s : State) (i : Instr) (a : Arg) : (s.push i a).fulls = s.fulls := rfl
@[simp] theorem State.push_ue (s : State) (i : Instr) (a : Arg) : (s.push i a).ue = s.ue := rfl
@[simp] theorem State.push_wtags (s : State) (i : Instr) (a : Arg) : (s.push i a).wtags = s.wtags := rfl
@[simp] theorem State.push_threads (s : State) (i : Instr) (a : Arg) : (s.push i a).threads = s.threads := rfl
@[simp] theorem State.push_cores (s : State) (i : Instr) (a : Arg) : (s.push i a).cores = s.cores := rfl
@[simp] theorem State.push_quadTlb (s : State) (i : Instr) (a : Arg) : (s.push i a).quadTlb = s.quadTlb := rfl
@[simp] theorem State.push_walks (s : State) (i : Instr) (a : Arg) : (s.push i a).walks = s.walks := rfl
@[simp] theorem State.push_banks (s : State) (i : Instr) (a : Arg) : (s.push i a).banks = s.banks := rfl
@[simp] theorem State.push_engines (s : State) (i : Instr) (a : Arg) : (s.push i a).engines = s.engines := rfl
@[simp] theorem State.push_counters (s : State) (i : Instr) (a : Arg) : (s.push i a).counters = s.counters := rfl
@[simp] theorem State.push_vsets (s : State) (i : Instr) (a : Arg) : (s.push i a).vsets = s.vsets := rfl
@[simp] theorem State.push_pageTags (s : State) (i : Instr) (a : Arg) : (s.push i a).pageTags = s.pageTags := rfl
@[simp] theorem State.push_jobs (s : State) (i : Instr) (a : Arg) : (s.push i a).jobs = s.jobs := rfl
@[simp] theorem State.push_kernels (s : State) (i : Instr) (a : Arg) : (s.push i a).kernels = s.kernels := rfl
@[simp] theorem State.push_launches (s : State) (i : Instr) (a : Arg) : (s.push i a).launches = s.launches := rfl
@[simp] theorem State.push_launchSeq (s : State) (i : Instr) (a : Arg) : (s.push i a).launchSeq = s.launchSeq := rfl
@[simp] theorem State.push_submits (s : State) (i : Instr) (a : Arg) : (s.push i a).submits = s.submits := rfl
@[simp] theorem State.push_completed (s : State) (i : Instr) (a : Arg) : (s.push i a).completed = s.completed := rfl
@[simp] theorem State.push_msgs (s : State) (i : Instr) (a : Arg) : (s.push i a).msgs = s.msgs := rfl
@[simp] theorem State.push_msgSeq (s : State) (i : Instr) (a : Arg) : (s.push i a).msgSeq = s.msgSeq := rfl
@[simp] theorem State.push_replies (s : State) (i : Instr) (a : Arg) : (s.push i a).replies = s.replies := rfl
@[simp] theorem State.push_spawns (s : State) (i : Instr) (a : Arg) : (s.push i a).spawns = s.spawns := rfl
@[simp] theorem State.push_posts (s : State) (i : Instr) (a : Arg) : (s.push i a).posts = s.posts := rfl
@[simp] theorem State.push_gateQueue (s : State) (i : Instr) (a : Arg) : (s.push i a).gateQueue = s.gateQueue := rfl
@[simp] theorem State.push_gateLogs (s : State) (i : Instr) (a : Arg) : (s.push i a).gateLogs = s.gateLogs := rfl
@[simp] theorem State.push_pool (s : State) (i : Instr) (a : Arg) : (s.push i a).pool = s.pool := rfl
@[simp] theorem State.push_ptroot (s : State) (i : Instr) (a : Arg) : (s.push i a).ptroot = s.ptroot := rfl
@[simp] theorem State.push_iltab (s : State) (i : Instr) (a : Arg) : (s.push i a).iltab = s.iltab := rfl
@[simp] theorem State.push_jobOpened (s : State) (i : Instr) (a : Arg) : (s.push i a).jobOpened = s.jobOpened := rfl
@[simp] theorem State.push_episodes (s : State) (i : Instr) (a : Arg) : (s.push i a).episodes = s.episodes := rfl
@[simp] theorem State.push_remotes (s : State) (i : Instr) (a : Arg) : (s.push i a).remotes = s.remotes := rfl
@[simp] theorem State.push_remoteSeq (s : State) (i : Instr) (a : Arg) : (s.push i a).remoteSeq = s.remoteSeq := rfl
@[simp] theorem State.push_rx (s : State) (i : Instr) (a : Arg) : (s.push i a).rx = s.rx := rfl
@[simp] theorem State.push_pdcs (s : State) (i : Instr) (a : Arg) : (s.push i a).pdcs = s.pdcs := rfl
@[simp] theorem State.push_pdcSeq (s : State) (i : Instr) (a : Arg) : (s.push i a).pdcSeq = s.pdcSeq := rfl
@[simp] theorem State.push_peers (s : State) (i : Instr) (a : Arg) : (s.push i a).peers = s.peers := rfl
@[simp] theorem State.push_outbox (s : State) (i : Instr) (a : Arg) : (s.push i a).outbox = s.outbox := rfl
@[simp] theorem State.push_hostMem (s : State) (i : Instr) (a : Arg) : (s.push i a).hostMem = s.hostMem := rfl
@[simp] theorem State.push_migrations (s : State) (i : Instr) (a : Arg) : (s.push i a).migrations = s.migrations := rfl
@[simp] theorem State.push_parts (s : State) (i : Instr) (a : Arg) : (s.push i a).parts = s.parts := rfl
@[simp] theorem State.push_lastPctl (s : State) (i : Instr) (a : Arg) : (s.push i a).lastPctl = s.lastPctl := rfl
@[simp] theorem State.push_tiles (s : State) (i : Instr) (a : Arg) : (s.push i a).tiles = s.tiles := rfl
@[simp] theorem State.push_ratio (s : State) (i : Instr) (a : Arg) : (s.push i a).ratio = s.ratio := rfl
@[simp] theorem State.push_hangMs (s : State) (i : Instr) (a : Arg) : (s.push i a).hangMs = s.hangMs := rfl
@[simp] theorem State.push_pkg (s : State) (i : Instr) (a : Arg) : (s.push i a).pkg = s.pkg := rfl

@[simp] theorem State.drawn_cyc (s : State) : (s.drawn).cyc = s.cyc := rfl
@[simp] theorem State.drawn_powerUp (s : State) : (s.drawn).powerUp = s.powerUp := rfl
@[simp] theorem State.drawn_agenda (s : State) : (s.drawn).agenda = s.agenda := rfl
@[simp] theorem State.drawn_cur (s : State) : (s.drawn).cur = s.cur := rfl
@[simp] theorem State.drawn_curTile (s : State) : (s.drawn).curTile = s.curTile := rfl
@[simp] theorem State.drawn_curSt (s : State) : (s.drawn).curSt = s.curSt := rfl
@[simp] theorem State.drawn_arg (s : State) : (s.drawn).arg = s.arg := rfl
@[simp] theorem State.drawn_mem (s : State) : (s.drawn).mem = s.mem := rfl
@[simp] theorem State.drawn_fulls (s : State) : (s.drawn).fulls = s.fulls := rfl
@[simp] theorem State.drawn_ue (s : State) : (s.drawn).ue = s.ue := rfl
@[simp] theorem State.drawn_wtags (s : State) : (s.drawn).wtags = s.wtags := rfl
@[simp] theorem State.drawn_threads (s : State) : (s.drawn).threads = s.threads := rfl
@[simp] theorem State.drawn_cores (s : State) : (s.drawn).cores = s.cores := rfl
@[simp] theorem State.drawn_quadTlb (s : State) : (s.drawn).quadTlb = s.quadTlb := rfl
@[simp] theorem State.drawn_walks (s : State) : (s.drawn).walks = s.walks := rfl
@[simp] theorem State.drawn_banks (s : State) : (s.drawn).banks = s.banks := rfl
@[simp] theorem State.drawn_engines (s : State) : (s.drawn).engines = s.engines := rfl
@[simp] theorem State.drawn_counters (s : State) : (s.drawn).counters = s.counters := rfl
@[simp] theorem State.drawn_vsets (s : State) : (s.drawn).vsets = s.vsets := rfl
@[simp] theorem State.drawn_pageTags (s : State) : (s.drawn).pageTags = s.pageTags := rfl
@[simp] theorem State.drawn_jobs (s : State) : (s.drawn).jobs = s.jobs := rfl
@[simp] theorem State.drawn_kernels (s : State) : (s.drawn).kernels = s.kernels := rfl
@[simp] theorem State.drawn_launches (s : State) : (s.drawn).launches = s.launches := rfl
@[simp] theorem State.drawn_launchSeq (s : State) : (s.drawn).launchSeq = s.launchSeq := rfl
@[simp] theorem State.drawn_submits (s : State) : (s.drawn).submits = s.submits := rfl
@[simp] theorem State.drawn_completed (s : State) : (s.drawn).completed = s.completed := rfl
@[simp] theorem State.drawn_msgs (s : State) : (s.drawn).msgs = s.msgs := rfl
@[simp] theorem State.drawn_msgSeq (s : State) : (s.drawn).msgSeq = s.msgSeq := rfl
@[simp] theorem State.drawn_replies (s : State) : (s.drawn).replies = s.replies := rfl
@[simp] theorem State.drawn_spawns (s : State) : (s.drawn).spawns = s.spawns := rfl
@[simp] theorem State.drawn_posts (s : State) : (s.drawn).posts = s.posts := rfl
@[simp] theorem State.drawn_gateQueue (s : State) : (s.drawn).gateQueue = s.gateQueue := rfl
@[simp] theorem State.drawn_gateLogs (s : State) : (s.drawn).gateLogs = s.gateLogs := rfl
@[simp] theorem State.drawn_pool (s : State) : (s.drawn).pool = s.pool := rfl
@[simp] theorem State.drawn_ptroot (s : State) : (s.drawn).ptroot = s.ptroot := rfl
@[simp] theorem State.drawn_iltab (s : State) : (s.drawn).iltab = s.iltab := rfl
@[simp] theorem State.drawn_jobOpened (s : State) : (s.drawn).jobOpened = s.jobOpened := rfl
@[simp] theorem State.drawn_episodes (s : State) : (s.drawn).episodes = s.episodes := rfl
@[simp] theorem State.drawn_remotes (s : State) : (s.drawn).remotes = s.remotes := rfl
@[simp] theorem State.drawn_remoteSeq (s : State) : (s.drawn).remoteSeq = s.remoteSeq := rfl
@[simp] theorem State.drawn_rx (s : State) : (s.drawn).rx = s.rx := rfl
@[simp] theorem State.drawn_pdcs (s : State) : (s.drawn).pdcs = s.pdcs := rfl
@[simp] theorem State.drawn_pdcSeq (s : State) : (s.drawn).pdcSeq = s.pdcSeq := rfl
@[simp] theorem State.drawn_peers (s : State) : (s.drawn).peers = s.peers := rfl
@[simp] theorem State.drawn_outbox (s : State) : (s.drawn).outbox = s.outbox := rfl
@[simp] theorem State.drawn_hostMem (s : State) : (s.drawn).hostMem = s.hostMem := rfl
@[simp] theorem State.drawn_migrations (s : State) : (s.drawn).migrations = s.migrations := rfl
@[simp] theorem State.drawn_parts (s : State) : (s.drawn).parts = s.parts := rfl
@[simp] theorem State.drawn_lastPctl (s : State) : (s.drawn).lastPctl = s.lastPctl := rfl
@[simp] theorem State.drawn_tiles (s : State) : (s.drawn).tiles = s.tiles := rfl
@[simp] theorem State.drawn_ratio (s : State) : (s.drawn).ratio = s.ratio := rfl
@[simp] theorem State.drawn_hangMs (s : State) : (s.drawn).hangMs = s.hangMs := rfl
@[simp] theorem State.drawn_pkg (s : State) : (s.drawn).pkg = s.pkg := rfl

end Sys2Proof.Machine
end

