-- ==== Sys2Proof/Tests/Slice0.lean ====
section
/-! SUPPORT. The model's own tests: terms that WellFormed refuses, words written out from the encodings, states that meet
the hypotheses of the obligations, and small one-step tests. -/

namespace Sys2Proof.Tests

open Sys2Proof
open Sys2Proof.Machine

set_option Elab.async false

/-! ## WellFormed refuses -/

/-- Shifts beyond 63, fields beyond bit 63, conditions beyond the table, a skip of nothing (12 R340, R343, R345). -/
theorem test_wf_refuses_integer :
    Instr.wf (.shli 1 1 64) = false ∧ Instr.wf (.shri 1 1 64) = false ∧ Instr.wf (.sari 1 1 64) = false ∧
    Instr.wf (.roti 1 1 64) = false ∧ Instr.wf (.bext 1 1 1 63) = false ∧ Instr.wf (.bins 1 1 63 1) = false ∧
    Instr.wf (.sk 12 1 1 1) = false ∧ Instr.wf (.sk 0 0 1 1) = false ∧ Instr.wf (.ski 12 1 1 1) = false ∧
    Instr.wf (.ski 0 0 1 1) = false ∧ Instr.wf (.ski 10 1 1 64) = false ∧ Instr.wf (.fsk 0 0 0 1 1) = false := by
  decide

/-- Width code 7, an unsigned store, wrong orderings, AMO functions beyond the table or of the wrong width, scopes
(12 R353 to R370; 11 R316, R317). -/
theorem test_wf_refuses_memory :
    Instr.wf (.ld 1 1 0 0 7) = false ∧ Instr.wf (.ld 1 1 1 0 3) = false ∧ Instr.wf (.ldc 1 1 3 0 3) = false ∧
    Instr.wf (.ldx 1 1 1 7 0 0) = false ∧ Instr.wf (.ldx 1 1 1 3 1 0) = false ∧ Instr.wf (.st 1 1 0 0 4) = false ∧
    Instr.wf (.st 1 1 2 0 3) = false ∧ Instr.wf (.stx 1 1 1 4 0 0) = false ∧ Instr.wf (.stx 1 1 1 3 2 0) = false ∧
    Instr.wf (.amo 1 1 1 1 2 0) = false ∧ Instr.wf (.amo 1 1 1 1 0 11) = false ∧ Instr.wf (.amo 1 1 1 1 0 9) = false ∧
    Instr.wf (.amo 1 1 1 0 0 10) = false ∧ Instr.wf (.cas 1 1 1 1 1 2) = false ∧ Instr.wf (.arl 1 1 0 7) = false ∧
    Instr.wf (.ars 1 1 0 4) = false ∧ Instr.wf (.fence 5) = false ∧ Instr.wf (.bfence 1 3) = false ∧
    Instr.wf (.bfence 0 4) = false := by
  decide

/-- Rounding codes 4 to 6, conversions and sign operations beyond the table (13 R374 to R379). -/
theorem test_wf_refuses_scalar_fp :
    Instr.wf (.fadd 1 1 1 4 0) = false ∧ Instr.wf (.fsub 1 1 1 5 0) = false ∧ Instr.wf (.fmul 1 1 1 6 0) = false ∧
    Instr.wf (.fdiv 1 1 1 4 0) = false ∧ Instr.wf (.fsqrt 1 1 4 0) = false ∧ Instr.wf (.frnd 1 1 4 0) = false ∧
    Instr.wf (.fma 1 1 1 1 4 0) = false ∧ Instr.wf (.fms 1 1 1 1 4 0) = false ∧ Instr.wf (.fnma 1 1 1 1 4 0) = false ∧
    Instr.wf (.fcvt 1 1 0 20 0) = false ∧ Instr.wf (.fcvt 1 1 0 1 4) = false ∧ Instr.wf (.fcvt 1 1 1 0 0) = false ∧
    Instr.wf (.fsgn 1 1 1 3 0) = false := by
  decide

/-- A mask register without a mask, function codes beyond each entry, elements of the wrong kind (11 R321; 13 R381 to
R389, R412, R413). -/
theorem test_wf_refuses_vector :
    Instr.wf (.vadd 1 1 1 0 1 0 3 0) = false ∧ Instr.wf (.vsub 1 1 1 0 0 1 3 0) = false ∧
    Instr.wf (.vmul 1 1 1 0 0 0 3 1) = false ∧ Instr.wf (.vfma 1 1 1 1 0 0 0 7 8) = false ∧
    Instr.wf (.vdiv 1 1 1 0 0 0 3 0) = false ∧ Instr.wf (.vmin 1 1 1 0 0 0 3 2) = false ∧
    Instr.wf (.vmax 1 1 1 0 0 0 7 1) = false ∧ Instr.wf (.vlog 1 1 1 0 0 0 5) = false ∧
    Instr.wf (.vlog 1 1 1 0 0 0 4) = false ∧ Instr.wf (.vshf 1 1 1 0 0 0 7 0) = false ∧
    Instr.wf (.vshf 1 1 1 0 0 0 3 4) = false ∧ Instr.wf (.vcmp 1 1 1 0 0 0 3 12) = false ∧
    Instr.wf (.vcmp 1 1 1 0 0 0 7 8) = false ∧ Instr.wf (.vsel 1 1 1 1 0 1 0) = false ∧
    Instr.wf (.vred 1 1 0 0 3 5) = false ∧ Instr.wf (.vred 1 1 0 0 7 3) = false ∧
    Instr.wf (.vld 1 1 0 0 0 1) = false ∧ Instr.wf (.vst 1 1 0 0 0 2) = false ∧ Instr.wf (.vgth 1 1 1 0 1 0 0) = false ∧
    Instr.wf (.vsct 1 1 1 0 1 0 0) = false ∧ Instr.wf (.vbrd 1 1 0 1 0 3) = false ∧
    Instr.wf (.vext 1 1 0 3 1) = false ∧ Instr.wf (.vprm 1 1 1 1 0 0 0 0) = false ∧
    Instr.wf (.vcvt 1 1 0 3 0 0 0 3 0 0) = false ∧ Instr.wf (.vcvt 1 1 0 7 0 0 0 4 0 0) = false ∧
    Instr.wf (.rng 1 1 1 1 0 0 0 6) = false ∧ Instr.wf (.gmb 1 1 1 0 0 0 0 3) = false ∧
    Instr.wf (.gmb 1 1 1 1 0 0 0 2) = false := by
  decide

/-- A register quadruple beyond g31, scopes and shadows and system registers beyond their lists, an odd pair (13 R394 to
R399, R410, R419). -/
theorem test_wf_refuses_system :
    Instr.wf (.spwn 1 1 1 29) = false ∧ Instr.wf (.bar 1 1 5) = false ∧ Instr.wf (.qsc 4) = false ∧
    Instr.wf (.cps 1 14) = false ∧ Instr.wf (.vqry 1 1) = false ∧ Instr.wf (.vqry 0 1) = false ∧
    Instr.wf (.syr 1 17) = false ∧ Instr.wf (.syw 1 17) = false := by
  decide

/-- An empty block, a register count beyond k15, FIFOs beyond six, transfers of nothing, reserved forms and formats
(14 R428 to R466; 11 R325). -/
theorem test_wf_refuses_stream :
    Instr.wf (.blk 0 1 1) = false ∧ Instr.wf (.blk 1 0 0) = false ∧ Instr.wf (.blk 1 1 16) = false ∧
    Instr.wf (.tkp 6 1) = false ∧ Instr.wf (.tkw 6 1) = false ∧ Instr.wf (.hld 1 1 0) = false ∧
    Instr.wf (.hst 1 1 0) = false ∧ Instr.wf (.scp 1 1 0) = false ∧ Instr.wf (.fmt 1 1 0) = false ∧
    Instr.wf (.hac 1 1 0 0) = false ∧ Instr.wf (.tld 1 1 1 0) = false ∧ Instr.wf (.lks 1 3 0 0) = false ∧
    Instr.wf (.lks 1 1 1 0) = false ∧ Instr.wf (.lka 1 0 1 0 3 0) = false ∧ Instr.wf (.lka 1 0 0 0 0 1) = false ∧
    Instr.wf (.prd 1 1 3) = false ∧ Instr.wf (.qnt 1 1 0 0 0 0 1) = false ∧ Instr.wf (.qnt 1 1 5 5 0 0 1) = false ∧
    Instr.wf (.dqn 1 1 13 0 0 0 1) = false ∧ Instr.wf (.cvt 1 1 3 3 0 0 1) = false ∧
    Instr.wf (.cvt 1 1 16 3 0 0 1) = false ∧ Instr.wf (.srs 1 1 9 0 0 1) = false ∧ Instr.wf (.srs 1 1 14 0 0 1) = false ∧
    Instr.wf (.pak 1 1 0 0 1) = true ∧ Instr.wf (.pak 1 1 0 1 1) = false ∧ Instr.wf (.wld 1 1 0) = false ∧
    Instr.wf (.wld 1 1 13) = false ∧ Instr.wf (.mma 1 1 3 5 0 0) = false ∧ Instr.wf (.acr 1 1 0 3 3 0 0) = false ∧
    Instr.wf (.acz 0 1 63) = false ∧ Instr.wf (.var 1 1 1 1 0 0) = false ∧ Instr.wf (.var 1 1 1 0 0 6) = false ∧
    Instr.wf (.var 1 1 1 0 2 7) = false ∧ Instr.wf (.var 1 1 1 0 2 13) = false ∧ Instr.wf (.var 1 1 0 0 0 15) = false ∧
    Instr.wf (.vrd 1 1 5 0) = false ∧ Instr.wf (.vrd 1 1 3 2) = false ∧ Instr.wf (.vcm 1 1 1 10 0) = false ∧
    Instr.wf (.vcm 1 1 1 6 2) = false ∧ Instr.wf (.vcm 1 1 1 8 0) = false ∧ Instr.wf (.vsl 1 1 1 0 0 3) = false ∧
    Instr.wf (.vsl 0 0 0 2 0 4) = false ∧ Instr.wf (.vsl 0 0 0 0 0 5) = false := by
  decide

/-! ## Words written out from the encodings -/

/-- Words of the family, their fields laid out by hand from the bit positions of the entries (12 to 14). -/
theorem test_words_three_register :
    decodeNewt 0x0148C400#32 = .ok (.add 9 3 2) ∧
    decodeNewt 0x02E88400#32 = .ok (.sub 29 2 2) ∧
    decodeNewt 0x04D80600#32 = .ok (.mul 27 0 3) ∧
    decodeNewt 0x05099000#32 = .ok (.mulh 1 6 8) ∧
    decodeNewt 0x060A5E00#32 = .ok (.mulhu 1 9 15) ∧
    decodeNewt 0x07001A00#32 = .ok (.div 0 0 13) ∧
    decodeNewt 0x08134400#32 = .ok (.divu 2 13 2) ∧
    decodeNewt 0x09199400#32 = .ok (.rem 3 6 10) ∧
    decodeNewt 0x0AE00200#32 = .ok (.remu 28 0 1) ∧
    decodeNewt 0x0BC57C00#32 = .ok (.andR 24 21 30) ∧
    decodeNewt 0x0C000600#32 = .ok (.orR 0 0 3) ∧
    decodeNewt 0x0D20C400#32 = .ok (.xorR 4 3 2) ∧
    decodeNewt 0x0E388A00#32 = .ok (.andn 7 2 5) ∧
    decodeNewt 0x13280E00#32 = .ok (.shl 5 0 7) ∧
    decodeNewt 0x141D0A00#32 = .ok (.shr 3 20 5) ∧
    decodeNewt 0x15187800#32 = .ok (.sar 3 1 28) ∧
    decodeNewt 0x16DFC200#32 = .ok (.rot 27 31 1) ∧
    decodeNewt 0x220E4C00#32 = .ok (.min 1 25 6) ∧
    decodeNewt 0x239F4600#32 = .ok (.max 19 29 3) ∧
    decodeNewt 0x240F6600#32 = .ok (.minu 1 29 19) ∧
    decodeNewt 0x250E3400#32 = .ok (.maxu 1 24 26) := by
  decide

/-- Words of the family, their fields laid out by hand from the bit positions of the entries (12 to 14). -/
theorem test_words_immediate_and_bit :
    decodeNewt 0x03EB5CF5#32 = .ok (.addi 29 13 7413) ∧
    decodeNewt 0x101BB12E#32 = .ok (.andi 3 14 12590) ∧
    decodeNewt 0x117D1DF0#32 = .ok (.ori 15 20 7664) ∧
    decodeNewt 0x12152375#32 = .ok (.xori 2 20 9077) ∧
    decodeNewt 0x1729402E#32 = .ok (.shli 5 5 46) ∧
    decodeNewt 0x18F04008#32 = .ok (.shri 30 1 8) ∧
    decodeNewt 0x19E9803F#32 = .ok (.sari 29 6 63) ∧
    decodeNewt 0x1A1F8029#32 = .ok (.roti 3 30 41) ∧
    decodeNewt 0x26F3BB99#32 = .ok (.lih 30 14 15257) ∧
    decodeNewt 0x1B404000#32 = .ok (.clz 8 1) ∧
    decodeNewt 0x1C18C000#32 = .ok (.ctz 3 3) ∧
    decodeNewt 0x1DA80000#32 = .ok (.popc 21 0) ∧
    decodeNewt 0x1EEEC000#32 = .ok (.brev 29 27) ∧
    decodeNewt 0x1F05C000#32 = .ok (.bswp 0 23) ∧
    decodeNewt 0x20199C28#32 = .ok (.bext 3 6 28 10) ∧
    decodeNewt 0x21634798#32 = .ok (.bins 12 13 7 38) ∧
    decodeNewt 0x0FF0D401#32 = .ok (.lea 30 3 10 1) := by
  decide

/-- Words of the family, their fields laid out by hand from the bit positions of the entries (12 to 14). -/
theorem test_words_skip_and_branch :
    decodeNewt 0x270C4000#32 = .ok (.sk 0 3 2 0) ∧
    decodeNewt 0x28843BDD#32 = .ok (.ski 8 1 1 7133) ∧
    decodeNewt 0x29C9CA00#32 = .ok (.fsk 1 4 2 14 10) ∧
    decodeNewt 0x2A4D5754#32 = .ok (.br 5068628) ∧
    decodeNewt 0x2B004000#32 = .ok (.jr 1) ∧
    decodeNewt 0x2C9B0419#32 = .ok (.call 10159129) ∧
    decodeNewt 0x2D004000#32 = .ok (.callr 1) ∧
    decodeNewt 0x2E000000#32 = .ok .ret ∧
    decodeNewt 0x2FA82EBA#32 = .ok (.dbnz 21 11962) := by
  decide

/-- Words of the family, their fields laid out by hand from the bit positions of the entries (12 to 14). -/
theorem test_words_load_and_store :
    decodeNewt 0x308C6D38#32 = .ok (.ld 17 17 2 423 0) ∧
    decodeNewt 0x315B18F0#32 = .ok (.st 11 12 1 286 0) ∧
    decodeNewt 0x321B2C08#32 = .ok (.ldx 3 12 22 0 2 0) ∧
    decodeNewt 0x331A4603#32 = .ok (.stx 3 9 3 0 0 3) ∧
    decodeNewt 0x34004B68#32 = .ok (.ldc 0 1 0 365 0) ∧
    decodeNewt 0x3505871B#32 = .ok (.prf 22 227) ∧
    decodeNewt 0x369C4D43#32 = .ok (.ldf 19 17 424) ∧
    decodeNewt 0x37454523#32 = .ok (.ste 8 21 164) ∧
    decodeNewt 0x38254EE3#32 = .ok (.ldp 4 21 476) ∧
    decodeNewt 0x39E90903#32 = .ok (.stf 29 4 288) ∧
    decodeNewt 0x3A004B3B#32 = .ok (.fec 1 359) := by
  decide

/-- Words of the family, their fields laid out by hand from the bit positions of the entries (12 to 14). -/
theorem test_words_atomic_and_fence :
    decodeNewt 0x3BE00442#32 = .ok (.amo 28 0 2 0 1 2) ∧
    decodeNewt 0x3C083E2A#32 = .ok (.cas 1 0 31 2 1 1) ∧
    decodeNewt 0x3D01C000#32 = .ok (.arb 7) ∧
    decodeNewt 0x3E454123#32 = .ok (.arl 8 21 36 3) ∧
    decodeNewt 0x3F1E0C5B#32 = .ok (.ars 3 24 395 3) ∧
    decodeNewt 0x40E54000#32 = .ok (.arc 28 21) ∧
    decodeNewt 0x41000001#32 = .ok (.fence 1) ∧
    decodeNewt 0x42000005#32 = .ok (.bfence 0 5) := by
  decide

/-- Words of the family, their fields laid out by hand from the bit positions of the entries (12 to 14). -/
theorem test_words_scalar_fp :
    decodeNewt 0x4399C200#32 = .ok (.fadd 19 7 1 0 0) ∧
    decodeNewt 0x44DFA600#32 = .ok (.fsub 27 30 19 0 0) ∧
    decodeNewt 0x454C5200#32 = .ok (.fmul 9 17 9 0 0) ∧
    decodeNewt 0x46004000#32 = .ok (.fdiv 0 1 0 0 0) ∧
    decodeNewt 0x47C88001#32 = .ok (.fsqrt 25 2 0 1) ∧
    decodeNewt 0x4810E225#32 = .ok (.fma 2 3 17 2 2 1) ∧
    decodeNewt 0x49191365#32 = .ok (.fms 3 4 9 22 2 1) ∧
    decodeNewt 0x4A2DE624#32 = .ok (.fnma 5 23 19 2 2 0) ∧
    decodeNewt 0x4B157401#32 = .ok (.fmin 2 21 26 1) ∧
    decodeNewt 0x4CD34401#32 = .ok (.fmax 26 13 2 1) ∧
    decodeNewt 0x4D498130#32 = .ok (.fcvt 9 6 0 19 0) ∧
    decodeNewt 0x4EC80001#32 = .ok (.fcls 25 0 1) ∧
    decodeNewt 0x4F123200#32 = .ok (.fsgn 2 8 25 0 0) ∧
    decodeNewt 0x50B8C007#32 = .ok (.frnd 23 3 3 1) := by
  decide

/-- Words of the family, their fields laid out by hand from the bit positions of the entries (12 to 14). -/
theorem test_words_vector :
    decodeNewt 0x51678B00#32 = .ok (.vadd 3 1 7 1 3 0 0 0) ∧
    decodeNewt 0x52888073#32 = .ok (.vsub 4 2 1 0 0 0 7 3) ∧
    decodeNewt 0x534E8B73#32 = .ok (.vmul 2 3 5 1 3 0 7 3) ∧
    decodeNewt 0x547BA000#32 = .ok (.vfma 3 6 7 2 0 0 0 0 0) ∧
    decodeNewt 0x55A20853#32 = .ok (.vdiv 5 0 4 1 0 0 5 3) ∧
    decodeNewt 0x56CD8030#32 = .ok (.vmin 6 3 3 0 0 0 3 0) ∧
    decodeNewt 0x57740000#32 = .ok (.vmax 3 5 0 0 0 0 0 0) ∧
    decodeNewt 0x58ED8031#32 = .ok (.vlog 7 3 3 0 0 0 1) ∧
    decodeNewt 0x598A8831#32 = .ok (.vshf 4 2 5 1 0 0 3 1) ∧
    decodeNewt 0x5A920874#32 = .ok (.vcmp 4 4 4 1 0 0 7 4) ∧
    decodeNewt 0x5BCDD030#32 = .ok (.vsel 6 3 3 5 0 0 0) ∧
    decodeNewt 0x5C500A71#32 = .ok (.vred 2 4 1 2 7 1) ∧
    decodeNewt 0x5D570030#32 = .ok (.vld 2 23 0 0 0 0) ∧
    decodeNewt 0x5E5E0CB1#32 = .ok (.vst 2 30 1 4 1 1) ∧
    decodeNewt 0x5F7129B3#32 = .ok (.vgth 3 17 2 1 1 1 3) ∧
    decodeNewt 0x600B7D33#32 = .ok (.vsct 0 11 7 1 5 0 3) ∧
    decodeNewt 0x61430000#32 = .ok (.vbrd 2 3 0 0 0 0) ∧
    decodeNewt 0x62A07043#32 = .ok (.vext 5 0 7 4 3) ∧
    decodeNewt 0x63E77031#32 = .ok (.vprm 7 1 6 7 0 0 0 1) ∧
    decodeNewt 0x648C5E41#32 = .ok (.vcvt 4 3 0 5 1 6 0 4 0 1) := by
  decide

/-- Words of the family, their fields laid out by hand from the bit positions of the entries (12 to 14). -/
theorem test_words_message_and_thread :
    decodeNewt 0x6505C000#32 = .ok (.send 23) ∧
    decodeNewt 0x6608C000#32 = .ok (.recv 1 3) ∧
    decodeNewt 0x6707C000#32 = .ok (.rpc 31) ∧
    decodeNewt 0x68030000#32 = .ok (.rply 12) ∧
    decodeNewt 0x6904F310#32 = .ok (.htw 19 25 17) ∧
    decodeNewt 0x6A600C10#32 = .ok (.spwn 12 0 6 1) ∧
    decodeNewt 0x6B000000#32 = .ok .quit ∧
    decodeNewt 0x6C058034#32 = .ok (.bar 22 6 4) ∧
    decodeNewt 0x6D000003#32 = .ok (.qsc 3) ∧
    decodeNewt 0x6E034000#32 = .ok (.wft 13) := by
  decide

/-- Words of the family, their fields laid out by hand from the bit positions of the entries (12 to 14). -/
theorem test_words_engine_and_remote :
    decodeNewt 0x6F05400D#32 = .ok (.cps 21 13) ∧
    decodeNewt 0x70C80000#32 = .ok (.cpl 25) ∧
    decodeNewt 0x71580000#32 = .ok (.cpq 11 0) ∧
    decodeNewt 0x7200001F#32 = .ok (.hwt 0 31) ∧
    decodeNewt 0x73000000#32 = .ok (.hrl 0) ∧
    decodeNewt 0x743D4200#32 = .ok (.uls 7 21 1) ∧
    decodeNewt 0x751B0000#32 = .ok (.ulr 3 12) ∧
    decodeNewt 0x7607C601#32 = .ok (.rst 31 3 0 1) ∧
    decodeNewt 0x7707C362#32 = .ok (.rinc 31 1 22 1 0) := by
  decide

/-- Words of the family, their fields laid out by hand from the bit positions of the entries (12 to 14). -/
theorem test_words_plane_and_bank :
    decodeNewt 0x78054200#32 = .ok (.post 21 1) ∧
    decodeNewt 0x79828000#32 = .ok (.wwt 16 10) ∧
    decodeNewt 0x7A513600#32 = .ok (.vpub 10 4 27) ∧
    decodeNewt 0x7BD04000#32 = .ok (.vqry 26 1) ∧
    decodeNewt 0x7C050000#32 = .ok (.bcmd 20) ∧
    decodeNewt 0x7D024070#32 = .ok (.rng 0 0 4 4 0 0 0 7) ∧
    decodeNewt 0x7EAD0D71#32 = .ok (.gmb 5 3 2 0 1 5 0 1) ∧
    decodeNewt 0x7F424000#32 = .ok (.alc 8 9) ∧
    decodeNewt 0x80004000#32 = .ok (.fre 1) := by
  decide

/-- Words of the family, their fields laid out by hand from the bit positions of the entries (12 to 14). -/
theorem test_words_system :
    decodeNewt 0x81000809#32 = .ok (.trap 2057) ∧
    decodeNewt 0x82000000#32 = .ok .eret ∧
    decodeNewt 0x83B00010#32 = .ok (.syr 22 16) ∧
    decodeNewt 0x84024003#32 = .ok (.syw 9 3) ∧
    decodeNewt 0x85008000#32 = .ok (.tlbi 2) ∧
    decodeNewt 0x85000001#32 = .ok .tlbiAll ∧
    decodeNewt 0x86124400#32 = .ok (.migr 2 9 2) ∧
    decodeNewt 0x87400000#32 = .ok (.time 8) ∧
    decodeNewt 0x87100001#32 = .ok (.timeRot 2) ∧
    decodeNewt 0x88002C4E#32 = .ok (.brk 11342) := by
  decide

/-- Words of the family, their fields laid out by hand from the bit positions of the entries (12 to 14). -/
theorem test_words_stream_control :
    decodeTrellis 0x04FA#16 0xC9C4#16 = .ok (.blk 1003 0 2500, 2) ∧
    decodeTrellis 0x0800#16 0xFFFF#16 = .ok (.nop, 1) ∧
    decodeTrellis 0x0CDA#16 0xFFFF#16 = .ok (.dly 218, 1) ∧
    decodeTrellis 0x11AC#16 0x0000#16 = .ok (.wut 6 11, 2) ∧
    decodeTrellis 0x1580#16 0xFFFF#16 = .ok (.tkp 3 0, 1) ∧
    decodeTrellis 0x1840#16 0xFFFF#16 = .ok (.tkw 0 8, 1) ∧
    decodeTrellis 0x1D18#16 0x8000#16 = .ok (.brc 4 24 1, 2) ∧
    decodeTrellis 0x2304#16 0xC50C#16 = .ok (.kli 12 312588, 2) ∧
    decodeTrellis 0x2150#16 0xB3B5#16 = .ok (.kliHi 5 46005, 2) ∧
    decodeTrellis 0x232F#16 0x11B6#16 = .ok (.kliAdd 12 15 4534, 2) ∧
    decodeTrellis 0x2079#16 0x4E77#16 = .ok (.kliMul 1 9 20087, 2) ∧
    decodeTrellis 0x263F#16 0xFFFF#16 = .ok (.kop 2 3 15, 1) ∧
    decodeTrellis 0x2800#16 0xFFFF#16 = .ok (.endT, 1) := by
  decide

/-- Words of the family, their fields laid out by hand from the bit positions of the entries (12 to 14). -/
theorem test_words_exchange_stream :
    decodeTrellis 0x2CCA#16 0x3810#16 = .ok (.hld 3 2 9089, 2) ∧
    decodeTrellis 0x30CB#16 0xF590#16 = .ok (.hst 3 2 16217, 2) ∧
    decodeTrellis 0x34C4#16 0x3280#16 = .ok (.hac 3 1 808 0, 2) ∧
    decodeTrellis 0x3B8C#16 0xBF00#16 = .ok (.lks 14 0 3 191, 2) ∧
    decodeTrellis 0x3CF1#16 0xCE00#16 = .ok (.lkr 3 3 462, 2) ∧
    decodeTrellis 0x423A#16 0x3908#16 = .ok (.lka 8 3 1 569 0 2, 2) ∧
    decodeTrellis 0x4528#16 0xA69C#16 = .ok (.win 4 2664092, 2) ∧
    decodeTrellis 0x4800#16 0x0000#16 = .ok (.wcl 0, 2) ∧
    decodeTrellis 0x4EB1#16 0x0000#16 = .ok (.prd 10 12 1, 2) ∧
    decodeTrellis 0x5300#16 0x0000#16 = .ok (.vlt 3, 2) ∧
    decodeTrellis 0x571C#16 0x97B8#16 = .ok (.tld 12 7 2427 1, 2) ∧
    decodeTrellis 0x5A57#16 0xBE80#16 = .ok (.scp 9 5 15336, 2) := by
  decide

/-- Words of the family, their fields laid out by hand from the bit positions of the entries (12 to 14). -/
theorem test_words_format_stream :
    decodeTrellis 0x5F1A#16 0xE380#16 = .ok (.qnt 12 6 23 0 1 3 0, 2) ∧
    decodeTrellis 0x6304#16 0x678B#16 = .ok (.dqn 12 1 3 1 1 3 11, 2) ∧
    decodeTrellis 0x6548#16 0x624E#16 = .ok (.cvt 5 2 3 2 2 0 14, 2) ∧
    decodeTrellis 0x6836#16 0x0000#16 = .ok (.trn 0 13 2, 2) ∧
    decodeTrellis 0x6D43#16 0x8001#16 = .ok (.pak 5 0 3 1 1, 2) ∧
    decodeTrellis 0x7185#16 0x811A#16 = .ok (.srs 6 1 12 0 17 10, 2) ∧
    decodeTrellis 0x74C8#16 0xE010#16 = .ok (.fmt 3 2 3585, 2) := by
  decide

/-- Words of the family, their fields laid out by hand from the bit positions of the entries (12 to 14). -/
theorem test_words_math_stream :
    decodeTrellis 0x7AA1#16 0x8000#16 = .ok (.wld 10 8 12, 2) ∧
    decodeTrellis 0x7D66#16 0x3728#16 = .ok (.mma 5 9 17 23 0 20, 2) ∧
    decodeTrellis 0x8006#16 0x1480#16 = .ok (.acr 0 1 1 0 5 1 0, 2) ∧
    decodeTrellis 0x8648#16 0x6000#16 = .ok (.acz 1 9 3, 2) ∧
    decodeTrellis 0x8B4D#16 0x5B23#16 = .ok (.var 26 13 11 12 2 3, 2) ∧
    decodeTrellis 0x8C01#16 0xECA0#16 = .ok (.vly 0 0 63056, 2) ∧
    decodeTrellis 0x91FC#16 0x16C2#16 = .ok (.vsy 7 30 2913, 2) ∧
    decodeTrellis 0x977D#16 0x2010#16 = .ok (.vrd 27 29 1 1, 2) ∧
    decodeTrellis 0x9BE4#16 0xA000#16 = .ok (.vtr 1 1 57 5, 2) ∧
    decodeTrellis 0x9C16#16 0x9810#16 = .ok (.vcm 0 22 19 0 1, 2) ∧
    decodeTrellis 0xA2F4#16 0x1834#16 = .ok (.vsl 23 20 3 0 3 2, 2) := by
  decide

/-! ## A small state -/

/-- A leaf that maps the first 2^40 bytes of ASID 1 one to one with every permission. -/
def leaf : Leaf :=
  { asid := 1, va := 0, size := 2 ^ 40, page := 2 ^ 21, pa := 0, rd := true, wr := true, x := true, user := true,
    rox := false }

/-- A thread of job 1 whose instructions lie at the start of core 0's local store; g5 holds 0x1000, an HBM address near
core 0's die, g6 a word of the local store, g7 three. -/
def thr : Thread :=
  { Thread.init with live := true, job := 1, kid := 1, tid := 5, pc := 0x8100000000#64, tvec := 0x8100000100#64,
                     wsp := 0x8100010000#64,
                     g := [(5, 0x1000#64), (6, 0x8100001000#64), (7, 3#64)] }

/-- Core 0 with that leaf in its TLB and owned by job 1. -/
def core0 : Core := { Core.init with tlb := [leaf], ringJob := some 1 }

/-- The kernel that the thread belongs to. -/
def kern : Kernel :=
  { Kernel.init with st := .running, slots := 4, rings := 64, handles := 8, tids := 8, lsoff := 0, lslen := 0x20000, lsview := 0x8100000000,
                     cores := [0], masks := [(0, 0x000F#16)], ids := [5] }

/-- A package in which that thread alone lives, in slot 0 of core 0. -/
def base : State :=
  { State.reset with threads := [(0, thr)], cores := [(0, core0)], jobs := [(1, { Job.init with st := .opened, asid := 1 })],
                     kernels := [(2 ^ 32 + 1, kern)] }

/-- That package with another thread in the slot. -/
def withThr (x : Thread) : State := { base with threads := [(0, x)] }

/-- The state that a step answers, or the one before it. -/
def after (s : State) (o : Host.Outcome State Fault Refusal) : State :=
  match o with
  | .next t => t
  | _ => s


/-- The page tables of a job whose virtual address 0x8100000000 names core 0's local store by one 2 MiB leaf. -/
def leafTables : Store Byte :=
  putBytes (putBytes (putBytes [] 0x100000008 (wordBytes 0x100001001#64)) 0x100001020 (wordBytes 0x100002001#64))
    0x100002000 (wordBytes 0x810000007F#64)

/-- That package with those tables for job 1 and another thread in the slot. -/
def mapped (x : Thread) : State := { withThr x with mem := leafTables, ptroot := [(1, 0x100000000)] }
/-! ## Witnesses: steps, decoding, integers, control, traps -/

/-- StepRunsDecodedInstruction: ADD g5, g5, g7 at the pc, written by its bytes. -/
theorem test_witness_step_thread :
    let s : State := { base with agenda := [.issue 0 0], mem := putBytes [] 0x8100000000 [0x00#8, 0x4E#8, 0x29#8, 0x01#8] }
    let r : State := { s with agenda := [], cur := 0 }
    r.th.pc.toNat % 4 = 0 ∧ r.xlate r.cur r.th.pc.toNat needX = .pa 0x8100000000 leaf ∧
    spaceOf 0x8100000000 = .loc (coreOf r.cur) 0 ∧ r.hasUe 0x8100000000 4 = false ∧
    decodeNewt (newtWordOfBytes (r.byte 0x8100000000) (r.byte 0x8100000001) (r.byte 0x8100000002) (r.byte 0x8100000003)) =
      .ok (.add 5 5 7) := by
  decide +kernel

/-- StepRunsDecodedInstruction: a spare cycle with a spill to do, one with none, and a store's error of a live thread. -/
theorem test_witness_step_spare :
    (let s := mapped { thr with older := [List.replicate 8 1#64, [], []] };
      (s.thread (0 * 16 + s.rotation % 16)).park.waits = false ∧ (s.thread 0).older.length = 3 ∧
        ((0 * 16 + s.rotation % 16) :: (List.range 16).map (0 * 16 + ·)).filter s.windowWork = [0, 0]) ∧
    (mapped { thr with park := .retry 0x2C }).th.park.waits = true ∧
    (0 :: (List.range 16).map (0 * 16 + ·)).filter base.windowWork = [] ∧ (base.thread 0).live = true := by
  decide +kernel

/-- CausesOfFetchControlAndAccess: bytes of zeros are no instruction, and a pc of 2 more is misaligned. -/
theorem test_witness_bad_fetch :
    let s : State := { base with agenda := [.issue 0 0] }
    let r : State := { s with agenda := [], cur := 0 }
    r.th.pc.toNat % 4 = 0 ∧ r.xlate r.cur r.th.pc.toNat needX = .pa 0x8100000000 leaf ∧
    spaceOf 0x8100000000 = .loc (coreOf r.cur) 0 ∧ r.hasUe 0x8100000000 4 = false ∧
    decodeNewt (newtWordOfBytes (r.byte 0x8100000000) (r.byte 0x8100000001) (r.byte 0x8100000002) (r.byte 0x8100000003)) =
      .error .reserved ∧
    (withThr { thr with pc := 0x8100000002#64 }).th.pc.toNat % 4 ≠ 0 := by
  decide +kernel

/-- DecodeOfEncodeNewt and DecodeOfEncodeTrellis: a well-formed instruction of each kind of word. -/
theorem test_witness_codes :
    (Instr.wf (.vcvt 1 2 3 6 1 2 1 4 0 4) = true ∧ Instr.isNewt (.vcvt 1 2 3 6 1 2 1 4 0 4) = true ∧
      encode (.vcvt 1 2 3 6 1 2 1 4 0 4) = .w32 0x6429EAC4#32) ∧
    (Instr.wf (.mma 1 2 5 6 1 63) = true ∧ Instr.isStream (.mma 1 2 5 6 1 63) = true ∧
      encode (.mma 1 2 5 6 1 63) = .w32 0x7C48A6FE#32) ∧
    (Instr.wf (.kop 2 3 15) = true ∧ encode (.kop 2 3 15) = .w16 0x263F#16) := by
  decide

/-- EncodeOfDecodeNewt: a word that decodes. -/
theorem test_witness_decodes : decodeNewt 0x01A56C00#32 = .ok (.add 20 21 22) := by decide

/-- The register forms and RegisterFormsTouchRegisters: a thread that records no region. -/
theorem test_witness_performs : base.performs ∧ base.th.live = true := by decide +kernel

/-- ThreeRegisterOperations: a word of DIV, and one with a bit in its zero field. -/
theorem test_witness_three_register_words :
    (0x07294E00#32).extractLsb' 24 8 = 0x07#8 ∧ (0x07294E00#32).extractLsb' 0 9 = 0#9 ∧
    (0x07294F00#32).extractLsb' 0 9 ≠ 0#9 := by
  decide

/-- ImmediateFieldAndAddressOperations: the largest shift, and a field that ends at bit 63. -/
theorem test_witness_immediates :
    (63#14).toNat < 64 ∧ (60#6).toNat + ((3#6).toNat + 1) ≤ 64 ∧ (0x1AF7803F#32).extractLsb' 24 8 = 0x1A#8 := by
  decide

/-- SkipsAndBranches: a true and a false condition of SK, and of SKI at the greatest bit number; an FSK whose flags no
enable takes; an aligned target of JR. -/
theorem test_witness_skips :
    (base.g 7).toInt < (base.g 5).toInt ∧ ¬ (base.g 5).toInt < (base.g 7).toInt ∧ (2#2) ≠ 0 ∧ (11#4).toNat ≤ 11 ∧
    base.th.fpTraps (fpCond (precFmt 1) base.th.ftz 2 (fpCode 1 (base.g 5)) (fpCode 1 (base.g 7))).2 = false ∧
    (base.g 6).toNat % 4 = 0 := by
  decide +kernel

/-- CallsSpillsAndFills: no older frame, so that RET finds none anywhere, and one of eight words. -/
theorem test_witness_calls :
    base.th.older.length ≠ 3 ∧ (base.g 6).toNat % 4 = 0 ∧ (base.th.gr 23).toNat % 4 = 0 ∧ base.th.older = [] ∧
    base.th.nspill = 0 ∧ (withThr { thr with older := [List.replicate 8 1#64] }).th.older = [List.replicate 8 1#64] := by
  decide +kernel

/-- CausesOfFetchControlAndAccess: a misaligned target, a due spill whose 64 bytes hold and one whose address is misaligned, a due
fill. -/
theorem test_witness_control_traps :
    (base.g 7).toNat % 4 ≠ 0 ∧
    (let s := mapped { thr with older := [[], [], []] };
      s.th.older.length = 3 ∧ s.frameCause s.cur (s.th.wsp - 64).toNat = none) ∧
    (let s := mapped { thr with older := [[], [], []], wsp := 0x8100010004#64 };
      s.frameCause s.cur (s.th.wsp - 64).toNat = some cMisalign) ∧
    (let s := mapped { thr with nspill := 1 };
      s.th.older = [] ∧ s.th.nspill ≠ 0 ∧ (s.th.gr 23).toNat % 4 = 0 ∧ s.frameCause s.cur s.th.wsp.toNat = none ∧
        s.hasUe (s.regionPa s.cur s.th.wsp.toNat) 64 = false ∧
        ({ s with ue := [(0x8100010000, true)] }).hasUe (s.regionPa s.cur s.th.wsp.toNat) 64 = true) := by
  decide +kernel

/-- CallsSpillsAndFills: three resident frames, and none with a spilled one. -/
theorem test_witness_windows :
    (let s := mapped { thr with older := [List.replicate 8 1#64, List.replicate 8 2#64, List.replicate 8 3#64] };
      (s.thread s.arg.n).live = true ∧ (s.thread s.arg.n).older.length = 3 ∧
        s.frameCause s.arg.n ((s.thread s.arg.n).wsp - 64).toNat = none) ∧
    (let s := mapped { thr with nspill := 1, wsp := 0x810000FFC0#64 };
      (s.thread s.arg.n).older = [] ∧ (s.thread s.arg.n).nspill ≠ 0 ∧
        s.frameCause s.arg.n (s.thread s.arg.n).wsp.toNat = none ∧
        s.hasUe (s.regionPa s.arg.n (s.thread s.arg.n).wsp.toNat) 64 = false) := by
  decide +kernel

/-- TrapsAreTaken: a vector and no trap under way; a trap under way; no vector. -/
theorem test_witness_traps :
    base.th.tvec ≠ 0 ∧ base.th.intrap = false ∧ (withThr { thr with intrap := true }).th.intrap = true ∧
    (withThr { thr with tvec := 0 }).th.tvec = 0 := by
  decide +kernel

/-- FpResultsAreExactThenRounded: 1.0 / 0 with DZ enabled and not enabled. -/
theorem test_witness_fp :
    let q := fpDiv fp64 .rne false 0x3FF0000000000000 0
    Nat.land q.flags (bits base.th.fctl.toNat 12 8) = 0 ∧
    Nat.land q.flags (bits (withThr { thr with fctl := 0x1F00#64 }).th.fctl.toNat 12 8) ≠ 0 := by
  decide +kernel

/-- FpResultsAreExactThenRounded and FpClassAndSign: three numbers, and a signalling NaN. -/
theorem test_witness_fp_exact :
    fp32.isNan 0x3F800000 = false ∧ fp32.isNan 0x00000001 = false ∧ fp32.isNan 0xFF800000 = false ∧
    fp32.isNan 0x7F800001 = true ∧ (2#3).toNat ≤ 2 := by
  decide +kernel

/-! ## Witnesses: vectors and memory -/

/-- The parts of an access that do not cross anything. -/
def okParts (r : Except State (List Part)) : List Part :=
  match r with
  | .ok ps => ps
  | .error _ => []

/-- Whether a result is no wait and no cause. -/
def isOk {α : Type} (r : Except State α) : Bool :=
  match r with
  | .ok _ => true
  | .error _ => false

/-- VectorIntegerElements: an element code of an integer, an active lane and, with a mask, an inactive one. -/
theorem test_witness_vector_integer :
    (3#3).toNat < 4 ∧ base.th.active 0 0 7 = true ∧ base.th.active 1 0 7 = false := by
  decide +kernel

/-- VectorLanesAndReductions: each guard of the table, flags that no enable takes and that one takes, an element number at
its limit, a position that is the last and one that is not. -/
theorem test_witness_vector_lanes :
    (7#3).toNat ≥ 4 ∧ (4#4).toNat ≤ 4 ∧ (7#3).toNat < 64 / ewBits 0 ∧
    (let x := { thr with v := [(0, 0x3FF0000000000000#64)], fctl := 0x1F00#64 };
      (let q := (withThr x).elemwise 64 (fun x y _ => fpDiv fp64 .rne false x y) 0 1 0;
        Nat.land (orAll (((withThr x).th.activeLanes 0 0).map (fun i => (nth (0, 0) q i).2)))
          (bits x.fctl.toNat 12 8) ≠ 0) ∧
      (let q := base.elemwise 64 (fun x y _ => fpAdd fp64 .rne false x y) 0 1 0;
        Nat.land (orAll ((base.th.activeLanes 0 0).map (fun i => (nth (0, 0) q i).2)))
          (bits base.th.fctl.toNat 12 8) = 0)) ∧
    (let last := fun (s : State) (i : Nat) => (s.th.lane 2 i).toNat % 2 ^ 40 = 2 ^ 40 - 1;
      (∀ i ∈ base.th.activeLanes 0 0, ¬ last base i) ∧
      last (withThr { thr with v := [(16, 0xFFFFFFFFFF#64)] }) 0 ∧ 0 ∈ base.th.activeLanes 0 0) := by
  decide +kernel

/-- VectorLanesAndReductions: a sum in VRED that raises nothing enabled, and one that does. -/
theorem test_witness_vector_reduction :
    (let t := treeReduce (redJoin base.th 7 0) { code := 0, lanes := 0, flags := 0, bad := 0 } (Nat.log2 (512 / ewBits 7))
        (base.th.redLeaves 1 0 0 7 0);
      base.th.fpTraps t.flags = false) ∧
    (let x := { thr with v := [(8, 0x7FF0000000000000#64), (9, 0xFFF0000000000000#64)], fctl := 0x1F00#64 };
      let t := treeReduce (redJoin x 7 0) { code := 0, lanes := 0, flags := 0, bad := 0 } (Nat.log2 (512 / ewBits 7))
        (x.redLeaves 1 0 0 7 0);
      x.fpTraps t.flags = true) := by
  decide +kernel

/-- LoadsReadMemory: a near doubleword of HBM that is storage; a readable register. -/
theorem test_witness_loads :
    (let ps := okParts (base.xparts 0x30 0x1000 8 needRd);
      isOk (base.xparts 0x30 0x1000 8 needRd) = true ∧ isOk (base.storageCheck 0x1000#64 8 ps) = true ∧
      ps.length = 1 ∧ isOk (base.loadAll 0x30 0x1000#64 ps false) = true) ∧
    (let s := withThr { thr with level := .firmware };
      let ps := okParts (s.xparts 0x30 0xFEE0000000 8 needRd);
      s.storageCheck 0xFEE0000000#64 8 ps = .ok true ∧ (s.mmioRead s.who 0xFEE0000000).isSome = true ∧ s.th.sb = [] ∧
      ps.length = 1) := by
  decide +kernel

/-- LoadsReadMemory: a plain load of eight bytes that end a 256-byte block of a near home. -/
theorem test_witness_near_load :
    base.xlate base.cur 0x10F8 needRd = .pa 0x10F8 leaf ∧ 0x10F8 % 256 + 8 ≤ 256 ∧
    (∀ k, k < 8 → spaceOf (0x10F8 + k) ≠ .mmio ∧ spaceOf (0x10F8 + k) ≠ .hole) ∧ isView 0x10F8 = false ∧
    coverOf base.th.sb [{ va := 0x10F8, pa := 0x10F8, len := 8, leaf := leaf }] = .none ∧
    base.isFar (coreOf base.cur) 0x10F8 = false ∧ (base.core (coreOf base.cur)).line (0x10F8 / 128) = none ∧
    base.readAns 0x10F8 8 base.th.job = .ok := by
  decide +kernel

/-- StoresEnterTheBuffer: a store of eight bytes, and one with `.rel`. -/
theorem test_witness_stores :
    let ps := okParts (base.xparts 0x31 0x1000 8 needWr)
    isOk (base.xparts 0x31 0x1000 8 needWr) = true ∧ base.storageCheck 0x1000#64 8 ps = .ok false ∧
    base.storeLatched ps = false ∧ base.th.sb.length < 16 ∧
    isOk (base.beforeRelease 0x31 (base.th.effRelease (base.partsScope ps))) = true := by
  decide +kernel

/-- MemoryPathEvents: a buffered store of eight bytes to a near home; a walk that waits. -/
theorem test_witness_drain :
    let s : State := { withThr { thr with sb := [{ parts := [{ va := 0x1000#64, pa := 0x1000, data := wordBytes 7#64 }],
                                                   tag := .core, rel := false }] } with
      walks := [(0, [{ thr := 0, core := 0, job := 1, va := 0x5000#64 }])] }
    (s.thread s.arg.n).sb.length = 1 ∧ (∀ q ∈ s.parts, q.2.heldStores.contains 0 = false) ∧
    s.writeAns 0x1000 8 1 = .ok ∧ isView 0x1000 = false ∧ s.isFar 0 0x1000 = false ∧
    (s.walkQueue s.arg.n).find? s.walkReady = some { thr := 0, core := 0, job := 1, va := 0x5000#64 } := by
  decide +kernel

/-- MemoryPathEvents: a line with a dirty word that its home takes; a cache with room. -/
theorem test_witness_eviction :
    let l : Line := { Line.empty 0x20 false with valid := 3, dirty := 1, data := putBytes [] 0 (wordBytes 7#64),
                                                 who := [(0, some (0, 0x1000#64, WTag.init))] }
    let s : State := { base with cores := [(0, { core0 with rlc := [l] })], arg := Arg.ofNM 0 0x20 }
    (s.core s.arg.n).line s.arg.m = some l ∧ l.dirty.getLsbD 0 = true ∧ (∀ i, i < 16 → i ≠ 0 → l.dirty.getLsbD i = false) ∧
    s.writeAns (s.arg.m * 128 + 0 * 8) 8 (s.thread ((Store.get none 0 l.who).getD (0, 0, WTag.init)).1).job = .ok ∧
    l.word 0 = wordBytes 7#64 ∧ (base.core 0).line 0x20 = none ∧ (s.core (coreOf s.cur)).rlc.length < 256 := by
  decide +kernel

/-- CausesOfFetchControlAndAccess: an access of 4 bytes of a register. -/
theorem test_witness_register_access :
    let ps := okParts (base.xparts 0x30 0xFEE0000004 4 needRd)
    ps.length = 1 ∧ (∀ p ∈ ps, isHole p.pa = false ∧ isHole (p.pa + p.len - 1) = false) ∧ (∃ p ∈ ps, isMmio p.pa = true) := by
  decide +kernel

/-- CausesOfFetchControlAndAccess: an address of 2^48, a leaf without write permission, no leaf, a hole, a latched copy. -/
theorem test_witness_load_causes :
    (2 ^ 48 ≤ (0x1000000000000#64).toNat) ∧ (3#3).toNat ≤ 3 ∧
    Leaf.permits { leaf with wr := false } .user needWr = false ∧
    ({ base with cores := [] }).tlbFind 0 1 0x1000 = none ∧
    (okParts (base.xparts 0x30 0x9000000000 8 needRd)).any (fun p => isHole p.pa) = true ∧
    (let s : State := { base with pageTags := [(0, { member := some (0, 1), tag := 0 })],
                                  vsets := [(0, { VSet.init with used := true, latch := [0, 1, 0, 0] })] };
      let ps := okParts (s.xparts 0x31 0x1000 8 needWr);
      s.storageCheck 0x1000#64 8 ps = .ok false ∧ s.storeLatched ps = true) := by
  decide +kernel

/-- VectorMemoryAccesses: eight lanes from g5, read and stored; no lane at all. -/
theorem test_witness_vector_memory :
    let row := fun (i : Nat) => base.g 5 + BitVec.ofNat 64 (8 * i)
    (match base.allLanes 0x5D needRd true row (base.th.activeLanes 0 0) with
      | .ok ls => !base.halfCovered (ls.flatMap (·.2)) && isOk (base.readLanes 0x5D row false ls)
      | .error _ => false) = true ∧
    (match base.allLanes 0x5E needWr true row (base.th.activeLanes 0 0) with
      | .ok ls => !ls.isEmpty && isOk (base.enterStore 0x5E (mergeParts (base.th.laneStores 1 ls)) false true)
      | .error _ => false) = true ∧
    (match base.allLanes 0x60 needWr false row (base.th.activeLanes 1 7) with
      | .ok ls => ls.isEmpty
      | .error _ => false) = true ∧
    (let s := withThr { thr with level := .firmware };
      let regs := fun (i : Nat) => 0xFEE0000000#64 + BitVec.ofNat 64 (8 * i);
      (match s.allLanes 0x5F needRd false regs [0, 1] with
        | .ok ls => ls.all mmioLane && isOk (s.readLanes 0x5F regs false ls)
        | .error _ => false) = true ∧
      (match s.allLanes 0x60 needWr false (fun i => if i = 0 then 0xFEF0000000#64 else 0x1000#64) [0, 1] with
        | .ok ls => ls.any mmioLane && isOk (s.enterStore 0x60 (s.th.laneStores 1 (ls.filter (fun q => !mmioLane q))) false)
        | .error _ => false) = true ∧ s.th.sb = []) := by
  decide +kernel

/-- GatedRequestsAtTheirHome: an AMO of an HBM word, a full/empty word that is full, one that is empty, and a request that
waits at a gate. -/
theorem test_witness_gated :
    (base.job base.th.job).gmode = 0 ∧
    isOk (base.atomicStart 0x3B (base.g 5) 8 true) = true ∧
    isOk (base.feCheck 0x36 (base.g 6) needRw) = true ∧ isOk (base.feCheck 0x37 (base.g 6) needWr) = true ∧
    isOk (base.readyRelease 0x37 (base.th.effRelease (base.naturalScope 0x8100001000))) = true ∧ isOk (base.sbClear 0x36 0x8100001000 8) = true ∧
    base.wordFull 0x8100001000 = false ∧
    ({ base with fulls := [(0x200, true)] }).wordFull 0x8100001000 = true ∧
    (({ base with fulls := [(0x200, true)] }).serveTake 0x8100001000 1 true).isSome = true ∧
    (base.servePut 0x8100001000 0x8100001000#64 1 true).isSome = true ∧
    ({ base with fulls := [(0x200, true)] }).servePut 0x8100001000 0x8100001000#64 1 true = none ∧
    (let r : GateReq := { gate := 0, thr := 0, op := .stf 0x8100001000 0x8100001000#64 5#64, job := 1, tid := 5,
                          quantum := 0, seq := 0, held := false };
      let s : State := { base with gateQueue := [r] };
      s.gateQueue.filter (fun r => r.gate == s.arg.n) = [r] ∧ (s.serveReq r).isSome = true) := by
  decide +kernel

/-- GatedRequestsAtTheirHome: a home that accepts the read and the write; both states of the bit; near scopes. -/
theorem test_witness_atomics :
    base.readAns 0x1000 8 base.th.job = .ok ∧ base.writeAns 0x1000 8 base.th.job = .ok ∧
    isView 0x1000 = false ∧ isView 0x8108001000 = true ∧ 0x8108001000 % 8 = 0 ∧
    base.readAns 0x8108001000 8 base.th.job = .ok ∧ base.writeAns 0x8108001000 8 base.th.job = .ok ∧
    base.wordFull 0x8108001000 = false ∧ ({ base with fulls := [(0x200, true)] }).wordFull 0x8108001000 = true ∧
    base.hasUe 0x8100001000 8 = false ∧
    base.acqScope (base.naturalScope 0x8100001000) 0x8100001000 8 = .core ∧
    base.th.effRelease (base.naturalScope 0x8100001000) = .core := by
  decide +kernel

/-- AtomicRegions: a region with room, one that is full, aligned and misaligned offsets, and one that is shipped. -/
theorem test_witness_regions :
    let r : Region := { pc := 0x8100000000#64, base := 5, addr := 0x1000#64, body := [.add 1 2 3], accesses := 7 }
    let s := withThr { thr with region := some r }
    r.body.length < 24 ∧ 24 ≤ ({ r with body := List.replicate 24 (Instr.add 1 1 1) }).body.length ∧
    (0x1078#64).toNat / 128 = r.addr.toNat / 128 ∧ (0x1078#64).toNat % 8 = 0 ∧ (0x1084#64).toNat % 8 ≠ 0 ∧
    r.skipsOut = false ∧ ({ r with body := [Instr.sk 0 3 1 1] }).skipsOut = true ∧
    isOk (s.xpart 0x40 0x1000 128 needRd) = true ∧ noStorage 0x1000 = false ∧
    isOk (s.readyRelease 0x40 (s.th.effRelease (s.naturalScope 0x1000))) = true ∧ s.hasUe 0x1000 128 = false ∧
    s.regionAns 0x1000 (r.run s.th (s.homeBytes 0x1000 128)) true = .ok ∧
    (r.run s.th (s.homeBytes 0x1000 128)).x.gr 7 ≠ 0 ∧
    (let w := { r with body := [.arl 9 5 0 7, .ars 7 5 1 3, .ski 0 1 9 0, .add 1 2 3] };
      let q := w.run s.th (s.homeBytes 0x1000 128);
      q.x.gr 9 = 0 ∧ q.writes 8 = true ∧ nth 0 q.line 8 = 3 ∧ s.regionAns 0x1000 q false = .ok ∧
        s.regionAns 0x8108001000 (w.run s.th (s.homeBytes 0x8108001000 128)) false = .ok) ∧
    (∀ x ∈ (s.core (coreOf s.cur)).rlc, x.dirty = 0) := by
  decide +kernel

/-- AtomicRegions: SK and SKI are recorded, by the opcodes of their words; LD is not. -/
theorem test_witness_region_words :
    (let w : BitVec 32 := match encode (.sk 3 1 4 5) with | .w32 w => w | _ => 0;
      encode (.sk 3 1 4 5) = .w32 w ∧ (w.extractLsb' 24 8).toNat ≤ 0x28 ∧ Instr.isNewt (.sk 3 1 4 5) = true) ∧
    (let w : BitVec 32 := match encode (.ski 3 1 4 5) with | .w32 w => w | _ => 0;
      encode (.ski 3 1 4 5) = .w32 w ∧ (w.extractLsb' 24 8).toNat ≤ 0x28) ∧
    (let w : BitVec 32 := match encode (.ld 1 2 0 3 3) with | .w32 w => w | _ => 0;
      encode (.ld 1 2 0 3 3) = .w32 w ∧ 0x28 < (w.extractLsb' 24 8).toNat ∧ (w.extractLsb' 24 8).toNat < 0x3E) := by
  decide +kernel

/-- FencesComplete: an empty buffer with no cause due at pkg and nothing outstanding; a buffered store; idle banks. -/
theorem test_witness_fences :
    base.th.sb = [] ∧ base.outstanding = 0 ∧ (base.writeThrough .pkg).takeDeferred true = none ∧
    (withThr { thr with sb := [{ parts := [], tag := .core, rel := false }] }).th.sb ≠ [] ∧
    base.fencePa 0 3 = .ok 0 ∧ base.fencePa 5 5 = .ok 0x1000 ∧ base.fenceHas 5 0x1000 (bankOf base.iltab 0x1000) = true ∧
    (withThr { thr with park := .bank 0x1000 [(0, 0)] }).fencePa 5 5 = .ok 0x1000 ∧
    (∀ q ∈ base.banks, q.2.fifo = []) ∧ base.th.park = .running := by
  decide +kernel

/-! ## Witnesses: system registers, messages, threads, barriers, waits -/

/-- Page tables of job 1 that map the first 2 MiB to the 2 MiB at 0x40000000 with every permission. -/
def tables : State :=
  { base with ptroot := [(1, 0x10000)],
              mem := putBytes (putBytes (putBytes [] 0x10000 (wordBytes 0x11001#64)) 0x11000 (wordBytes 0x12001#64)) 0x12000
                (wordBytes 0x4000007F#64) }

/-- SystemRegisters: a user thread and a supervisor thread. -/
theorem test_witness_system_registers :
    base.performs ∧ base.th.level = .user ∧ (withThr { thr with level := .supervisor }).th.level = .supervisor := by
  decide +kernel

/-- TranslationAndRegisterWrites: a page that maps, one that does not, one that migrates; a frame that may be taken and one
that is misaligned; a migration that no bank holds. -/
theorem test_witness_translation :
    (match tables.walk 1 0x1000 with
      | .leaf l pte _ _ =>
        tables.migrStatus l (bit pte 11) (l.at_ 0x1000 - 0x1000 % l.page) 0x80000000#64 == 0 &&
          tables.migrStatus l (bit pte 11) (l.at_ 0x1000 - 0x1000 % l.page) 0x80001000#64 != 0
      | _ => false) = true ∧
    tables.walk 1 0x200000 = .fail ∧
    ({ tables with mem := putBytes tables.mem 0x12000 (wordBytes 0x4000027F#64) }).walk 1 0x1000 = .migrating ∧
    isOk (tables.beforeRelease 0x86 (tables.th.effRelease .pkg)) = true ∧
    (let m : Migration := { job := 1, va := 0, size := 2 ^ 21, old := 0x40000000, new := 0x80000000, thr := 0, d := 1,
                            held := [] };
      ({ tables with migrations := [m] }).migrations.find? (fun k => !tables.bauBusy k.old k.size) = some m) := by
  decide +kernel

/-- TranslationAndRegisterWrites: firmware may write the cap, a user may not; a proper arena and a job without user
kernels. -/
theorem test_witness_registers :
    (match regAt 0xFEF0000000 with
      | some r => base.mayWrite { level := .firmware, job := 0 } r && !base.mayWrite { level := .user, job := 1 } r
      | none => false) = true ∧
    ({ base with kernels := [] }).userKernelRuns 1 = false ∧
    (let v := 0x40000024; v % 64 = 36 ∧ v / 2 ^ 12 % 2 ^ 36 * 4096 % 2 ^ 12 = 0) ∧
    (let v := 0x1000000014; (16 ≤ v % 64 ∧ v % 64 ≤ 36) ∧ v / 2 ^ 12 % 2 ^ 36 * 4096 % 2 ^ (v % 64) = 0) := by
  decide +kernel

/-- Core 0 with ring 2 of eight entries at 0x1040, enabled, and handler 9 set to it. -/
def ringed : State :=
  { base with cores := [(0, { core0 with rings := [(2, { base := 0x1040, log2n := 3, en := true, kid := 1 })],
                                         handlers := [(9, { HEntry.init with kind := 1, ring := 2 })] })] }

/-- MessagesCallsAndRings: an operand that names core 0, handler 9 and 56 bytes; one of 64 bytes; one beyond; handler 63;
bits above 22; a ring that holds an entry, an empty one, one not enabled, one beyond 15, an entry beyond 79. -/
theorem test_witness_messages :
    ringed.th.sb = [] ∧ ringed.th.level = .user ∧
    (ringed.release (ringed.th.effRelease (ringed.towards 0))).sendQueue 0 < 16 ∧
    (let w := 9 * 2 ^ 10 + 56 * 2 ^ 16; w < 2 ^ 23 ∧ w / 2 ^ 16 % 2 ^ 7 ≤ 56 ∧ w / 2 ^ 10 % 64 ≠ 63) ∧
    (let w := 9 * 2 ^ 10 + 64 * 2 ^ 16; w < 2 ^ 23 ∧ w / 2 ^ 16 % 2 ^ 7 ≤ 64) ∧
    (let w := 9 * 2 ^ 10 + 65 * 2 ^ 16; 64 < w / 2 ^ 16 % 2 ^ 7) ∧ (let w := 63 * 2 ^ 10; w / 2 ^ 10 % 64 = 63) ∧
    (ringed.ring 0 2).en = true ∧ (ringed.core 0).ringJob = some ringed.th.job ∧
    ringed.ringCount 0 (ringed.ring 0 2) = 0 ∧
    ({ ringed with mem := [(0x8100001038, 1#8)] }).ringCount 0 (ringed.ring 0 2) ≠ 0 ∧ (ringed.ring 0 15).en = false := by
  decide +kernel

/-- MessagesCallsAndRings: a proper handler entry; a proper ring of eight entries that is enabled; a message to it; a
reply that a caller waits for, and one that none does. -/
theorem test_witness_handlers :
    (let lo := 1 + 2 * 4 + 15 * 64; lo < 2 ^ 22 ∧ lo % 4 ≠ 3) ∧
    (let lo := 0x2040 + 3 * 2 ^ 17 + 2 ^ 21;
      let u := ringed.kernel 1 1;
      lo < 2 ^ 22 ∧ lo % 2 ^ 17 % 64 = 0 ∧ lo / 2 ^ 17 % 2 ^ 4 ≤ 10 ∧ (ringed.ring 0 15).en = false ∧ lo % 2 ^ 17 ≠ 0 ∧
      u.lsoff + 16 ≤ lo % 2 ^ 17 ∧ lo % 2 ^ 17 + 72 * 2 ^ (lo / 2 ^ 17 % 2 ^ 4) ≤ u.lsoff + u.lslen ∧
      ringed.ringEntries 0 1 15 + 2 ^ (lo / 2 ^ 17 % 2 ^ 4) ≤ u.rings) ∧
    (let m : Msg := { src := 0, slot := 0, dst := 0, hidx := 9, len := 8, payload := List.replicate 64 1#8, call := false,
                      engine := false, sys := false, token := 0, tid := 5, job := 1, tag := .core, num := 0, quantum := 0,
                      seq := 0, held := false };
      let s : State := { ringed with msgs := [m] };
      s.msgs[s.arg.n]? = some m ∧ s.behind m.src m.dst m.num m.job m.tid = false ∧ (s.job m.job).gmode = 0 ∧
        (s.core m.dst).ringJob ≠ none ∧ (Store.get HEntry.init m.hidx (s.core m.dst).handlers).kind = 1 ∧
        (s.ring m.dst 2).en = true ∧ s.ringCount m.dst (s.ring m.dst 2) < 2 ^ (s.ring m.dst 2).log2n) ∧
    (let p : Reply := { token := 0, src := 0, payload := List.replicate 64 1#8, job := 1, tid := 5, tag := .core, num := 0,
                        quantum := 0, seq := 0, held := false };
      let s : State := { withThr { thr with park := .rpc 0 } with replies := [p] };
      s.replies[s.arg.n]? = some p ∧ s.behind p.src (p.token.toNat % 1024) p.num p.job p.tid = false ∧
        (s.threads.find? (fun y => y.2.live && y.2.park == .rpc p.token)).isSome = true ∧
        base.threads.find? (fun y => y.2.live && y.2.park == .rpc p.token) = none ∧
        base.kernels.find? (fun k => k.2.savedThreads.any (fun y => y.park == .rpc p.token)) = none) := by
  decide +kernel

/-- ThreadsAreSpawnedAndQuit: a core number in range and one beyond; a request for a reserved slot that is free; a last
thread that may quit, and a buffered store. -/
theorem test_witness_threads :
    (base.g 7).toNat ≤ 1023 ∧ 1023 < (base.g 5).toNat ∧ (28#5).toNat ≤ 28 ∧
    (let r : SpawnReq := { core := 0, waiter := some (0, 3), counter := none, job := 1, kid := 1, level := .user, slots := 0xFFFF#16,
                           pc := 0x8100000200#64, regs := [1#64, 2#64, 3#64, 4#64], fctl := 0, tvec := 0, seed := 0, tid := 5,
                           src := 0, num := 0, tag := .core, quantum := 0, seq := 0, held := false };
      let s : State := { base with spawns := [r] };
      s.spawns[s.arg.n]? = some r ∧ s.freeSlots 1 1 0 r.slots = [1, 2, 3] ∧ s.freeId 1 = some 0 ∧
        s.behind r.src r.core r.num r.job r.tid = false ∧ r.waiter = some (0, 3) ∧ r.held = false ∧
        (∀ l ∈ (s.core r.core).rlc, l.dirty = 0) ∧ 0 ≠ r.core * 16 + 1 ∧ (s.job 1).gmode = 0) ∧
    (let w := base.writeThrough .pkg;
      w.outstanding = 0 ∧ w.ueDue w.cur = false ∧ w.takeDeferred true = none ∧ w.lastOfKernel = true ∧ w.copying 1 1 = false) ∧
    base.th.sb = [] ∧ (base.job 1).gmode = 0 := by
  decide +kernel

/-- BarriersQuietWaitsAndQuanta: the smallest and the largest count; a fresh episode, one of another count, a complete one
and one that is not. -/
theorem test_witness_barriers :
    1 ≤ (base.g 7).toNat ∧ (base.g 7).toNat ≤ 16384 ∧ 16384 < (16385#64).toNat ∧ base.th.sb = [] ∧ base.outstanding = 0 ∧
    base.takeDeferred true = none ∧
    (let e := Episode.fresh (barKey .core 0 1) 1; e.job = some 1 ∧ e.complete = false ∧ e.count = none) ∧
    (let e : Episode := { key := barKey .core 0 1, job := some 1, count := some 2, arrivals := 1, parked := [0], tag := .core, ports := [] };
      let s : State := { base with episodes := [e], arg := Arg.ofN e.key };
      s.episode s.arg.n = some e ∧ e.complete = false ∧ ({ e with arrivals := 2 }).complete = true) ∧
    (let e : Episode := { key := barKey .pod 0 1, job := some 1, count := none, arrivals := 0, parked := [], tag := .pkg, ports := [] };
      let s : State := { base with episodes := [e], arg := Arg.ofN 1 };
      s.episode (barKey .pod 0 (s.arg.n % 8)) = some e) := by
  decide +kernel

/-- BarriersQuietWaitsAndQuanta: a time that has come and one that has not; an idle scope and a busy one; a quantum that is over
and one that is not. -/
theorem test_witness_waits :
    (base.g 0).toNat ≤ base.pkg.clock.ptime.toNat ∧ base.pkg.clock.ptime.toNat < (base.g 7).toNat ∧
    (let s : State := { withThr { thr with park := .qsc .core (some 0) false } with cyc := 2048 };
      s.quiet .core 0 1 = true ∧ 0 + 2048 ≤ s.cyc ∧ (s.job 1).gmode ≠ 2 ∧ (s.thread s.arg.n).park = .qsc .core (some 0) false) ∧
    (withThr { thr with park := .qsc .core none false }).quiet .core 0 1 = true ∧ base.quiet .core 0 1 = false ∧
    (let s : State := { withThr { thr with qcount := 16 } with
        jobs := [(1, { Job.init with st := .opened, gmode := 2, qlog2 := 4 })], arg := Arg.ofN 1 };
      s.quantumOver 1 = true ∧ Store.rising 0 ((((s.offerAll []).renumber 1).heldSent 1).foldl State.offerSent ((s.offerAll []).renumber 1) |>.offerTasks 1).threads = true ∧
        ({ s with threads := [(0, { thr with qcount := 15 })] }).quantumOver 1 = false) := by
  decide +kernel

/-! ## Witnesses: remote operations, packets, banks, engines, counters -/

/-- An operation of the thread to peer 3 that is outstanding. -/
def op3 : RemoteOp :=
  { id := 0, job := 1, peer := 3, thr := some 0, tid := 5, engine := none, cmd := none, pkt := { kind := 0, op := 0, job := 1, peer := 3, va := 0#64, data := [], rel := false, ports := 2#8 },
    waiting := false }

/-- Job 1 with association 5 and a valid entry for peer 3 by port 1; an operation to it is outstanding, and its context is
open. -/
def linked : State :=
  { tables with
    jobs := [(1, { Job.init with st := .opened, asid := 1, associations := [5] })],
    peers := [(0xFEE0020074, 2#8), (0xFEE0020075, 1#8), (0xFEE0020076, 5#8)],
    remotes := [op3],
    pdcs := [{ id := 0, job := 1, peer := 3, idleSince := 0 }, { id := 1, job := 1, peer := 4, idleSince := 0 }] }

/-- RemoteOperationsAndPackets: a usable entry with a context, an entry that is not valid, 64 operations outstanding, an
addend at an aligned and at a misaligned address; an operation that is outstanding, a context that is idle. -/
theorem test_witness_remote :
    linked.outstanding < 64 ∧ linked.entryUsable 1 3 = true ∧ linked.pdcFull 1 3 = false ∧
    linked.entryUsable 1 4 = false ∧ (linked.g 5).toNat % 8 = 0 ∧ (linked.g 7).toNat % 8 ≠ 0 ∧
    isOk (linked.beforeRelease 0x77 (linked.th.effRelease .pod)) = true ∧
    (let o := op3;
      64 ≤ ({ linked with remotes := List.replicate 64 o }).outstanding ∧ linked.sentRemote linked.arg.n = some o ∧
        (linked.thread 0).rpe = false ∧ (linked.thread 0).live = true) ∧
    (let s : State := { linked with arg := Arg.ofN 1, cyc := 19000000 };
      (s.pdcs.find? (fun p => p.id == s.arg.n)).isSome = true ∧
        s.remotes.any (fun r => !r.waiting && r.job == 1 && r.peer == 4) = false ∧
        s.remotes.find? (·.waiting) = none) := by
  decide +kernel

/-- RemoteOperationsAndPackets: every context taken, none of them the peer's. -/
theorem test_witness_no_context :
    ({ linked with pdcs := List.replicate 8192 { id := 1, job := 1, peer := 4, idleSince := 0 } }).pdcFull 1 3 = true := by
  decide +kernel

/-- RemoteOperationsAndPackets: a packet of an open job whose range is written, read and added to; one whose range nothing maps;
a misaligned add; one that fails authentication; one of a job that is not open; counters of this and of another job. -/
theorem test_witness_packets :
    (let s := linked;
      packetQueue 0x1001 = none ∧ s.packetJob 0x1001 = some 1 ∧ s.packetJob 0x1002 = none ∧
      s.rangeWait 1 .user needWr 0x1000 4 = none ∧ s.mmioAt 1 0x1000 needWr = none ∧
      (match s.writeVa 1 .user 0x1000 [1#8, 2#8, 3#8, 4#8] tagPkg false with | .ok _ => true | .error _ => false) = true ∧
      (match s.writeVa 1 .user 0x200000 [1#8] tagPkg false with | .ok _ => false | .error c => c == cXlate) = true ∧
      s.rangeWait 1 .user needRd 0x1000 4 = none ∧ s.mmioAt 1 0x1000 needRd = none ∧
      (match s.readVa 1 .user 0x1000 4 with | .ok b => b.length == 4 | .error _ => false) = true ∧
      s.rangeWait 1 .user needRw 0x1000 8 = none ∧
      (match s.xlateWalk 1 .user 0x1000 needRw with | .pa a _ => a == 0x40001000 | _ => false) = true ∧
      noStorage 0x40001000 = false ∧ isView 0x40001000 = false ∧ s.readAns 0x40001000 8 1 = .ok ∧
      s.writeAns 0x40001000 8 1 = .ok) ∧
    (let s : State := { linked with counters := [(7, { Counter.init with owner := some 1 }), (8, { Counter.init with owner := some 2 })] };
      (s.counter 7).owner = some 1 ∧ (s.counter 8).owner ≠ some 1) := by
  decide +kernel

/-- The six words of a descriptor at 0x1000 that joins 32 bytes of A at 0x2000 and of B at 0x4000 into D at 0x6000. -/
def bcmd (head d a b : Word) : State :=
  { base with mem := putBytes [] 0x1000 ([head, d, a, b, 7#64, 8#64].flatMap wordBytes) }

/-- The words that BCMD reads, or none. -/
def bcmdWords (s : State) : List Word :=
  match s.loadWords 0x7C (s.g 5) 6 with
  | .ok (ws, _) => ws
  | .error _ => []

/-- The descriptor's ranges translated, or none. -/
def bcmdRanges (s : State) : List (Nat × Nat) :=
  match s.bauXlate (bauDesc (bcmdWords s)).ranges with
  | .ok ps => ps
  | .error _ => []

/-- BankCommands: a proper ADD whose ranges lie in one bank; lengths 0 and 9; operation 12; a destination outside HBM; a
range across a line; two banks; no store buffered there; a bank that is full. -/
theorem test_witness_bcmd :
    (base.g 5).toNat % 8 = 0 ∧ (base.g 7).toNat % 8 ≠ 0 ∧
    (let s := bcmd 0x10002#64 0x100000#64 0x100020#64 0x100040#64;
      (bcmdWords s).length = 6 ∧ (bauDesc (bcmdWords s)).bad = false ∧ (bcmdRanges s).length = 3 ∧
      (bauDesc (bcmdWords s)).ranges.any (fun q => q.1 % q.2.2.2 != 0) = false ∧
      (bcmdRanges s).any (fun p => decide (tileBase ≤ p.1)) = false ∧
      (bcmdRanges s).any (fun p => decide (256 < p.1 % 256 + p.2)) = false ∧
      (bcmdRanges s).any (fun p => bankOf s.iltab p.1 != bankOf s.iltab 0x100000) = false ∧
      s.storesPending (bcmdRanges s) = false ∧ (s.bank (bankOf s.iltab 0x100000)).fifo.length < 16) ∧
    (bauDesc (bcmdWords (bcmd 0x00002#64 0 0 0))).bad = true ∧ (bauDesc (bcmdWords (bcmd 0x90002#64 0 0 0))).bad = true ∧
    (bauDesc (bcmdWords (bcmd 0x1000C#64 0 0 0))).bad = false ∧
    (bcmdRanges (bcmd 0x10002#64 0x8100000000#64 0 0)).any (fun p => decide (tileBase ≤ p.1)) = true ∧
    (bcmdRanges (bcmd 0x20002#64 0x1000E0#64 0x100000#64 0x100000#64)).any (fun p => decide (256 < p.1 % 256 + p.2)) = true ∧
    (let s := bcmd 0x10002#64 0x100000#64 0x100800#64 0x200000#64;
      (bcmdRanges s).any (fun p => bankOf s.iltab p.1 != bankOf s.iltab 0x100000) = true) := by
  decide +kernel

/-- A command of one sector in bank 0. -/
def cmd (op : Nat) : BauCmd :=
  { op := op, bf16 := false, nsec := 1, d := 0x100000, a := 0x100020, b := 0x100040, s1 := 7, s2 := 8, thr := 0, tid := 5, job := 1 }

/-- BankCommands: an oldest command of each kind whose sectors are in order, one whose source is not, an empty bank and a
full one. -/
theorem test_witness_bau :
    (let s : State := { base with banks := [(0, { Bank.init with fifo := [cmd 2] })] };
      (s.bank s.arg.n).fifo = [cmd 2] ∧ (cmd 2).op ∉ [6, 8, 9] ∧ s.latchedAt (cmd 2).d = false ∧
      s.hasUe (cmd 2).a 32 = false ∧ s.hasUe (cmd 2).b 32 = false ∧ s.hasUe (cmd 2).d 32 = false) ∧
    (cmd 10).op ∉ [6, 8, 9] ∧ (cmd 11).op ∉ [6, 8, 9] ∧ (cmd 4).op < 5 ∧
    (let s : State := { base with banks := [(0, { Bank.init with fifo := [cmd 2] })], ue := [(0x100020, true)] };
      (bauUsesA (cmd 2).op && s.hasUe (cmd 2).a 32) = true ∧ (s.bank 0).errs ≠ BitVec.allOnes 16) ∧
    (base.bank base.arg.n).fifo = [] ∧
    (let s : State := { base with banks := [(0, { Bank.init with fifo := List.replicate 16 (cmd 2) })] };
      16 ≤ (s.bank 0).fifo.length) := by
  decide +kernel

/-- A dense copy of eight bytes from 0x1000 to 0x2000 that is queued first at engine 0. -/
def copy : Transfer :=
  { job := 1, kid := 1, core := 0, slot := 0, thr := 0, tidNum := 1, shadows := [(0, 0x1000#64), (1, 0x2000#64)], tid := 5,
    level := .user, num := 0, after := none, started := false, err := 0, oor := 0, clipped := false, remote := 0 }

/-- CopiesHandlesAndCounters: a TID of the kernel that is done, one that is not the kernel's; a handle that is free, full,
filling and another kernel's. -/
theorem test_witness_handles :
    let rec1 : TidRec := { job := 1, kid := 1, nth := 0, status := 1 }
    let s : State := { base with cores := [(0, { core0 with
      tids := [(3, some rec1)],
      handles := [(1, { st := .full, owner := some (1, 1) }), (2, { st := .filling, owner := some (1, 1) }),
                  (4, { st := .full, owner := some (2, 1) })] })] }
    Store.get none ((s.g 7).toNat % 65536) (s.core 0).tids = some rec1 ∧ rec1.status.toNat % 4 = 1 ∧
    Store.get none ((s.g 5).toNat % 65536) (s.core 0).tids = none ∧
    (Store.get Handle.init 0 (s.core 0).handles).st = .free ∧ (Store.get Handle.init 1 (s.core 0).handles).st = .full ∧
    (Store.get Handle.init 2 (s.core 0).handles).st = .filling ∧ s.th.job = 1 ∧ s.th.kid = 1 ∧
    (Store.get Handle.init 4 (s.core 0).handles).owner = some (2, 1) := by
  decide +kernel

/-- CopiesHandlesAndCounters: a CPL that may queue, one whose handle is another kernel's; a transfer that may start, one
that has started and ended. -/
theorem test_witness_copies :
    base.cplCheck [] = none ∧ base.th.sb = [] ∧
    ((base.release (base.th.effRelease .die)).core 0).handlesReady none none = true ∧
    ((base.release (base.th.effRelease .die)).pickEngine 0).isSome = true ∧
    (let s : State := { base with cores := [(0, { core0 with handles := [(4, { st := .full, owner := some (2, 1) })] })] };
      s.cplCheck [4] = some cProt) ∧
    (base.engine base.arg.n).queue = [] ∧
    (let s : State := { tables with engines := [(0, { Engine.init with queue := [copy] })] };
      (s.engine s.arg.n).queue = [copy] ∧ s.ordReady copy = true ∧ s.engineHeld s.arg.n copy.num = false ∧
      (s.runTransfer 0 copy).waits = none) ∧
    ({ copy with started := true }).remote = 0 := by
  decide +kernel

/-- CopiesHandlesAndCounters: counter 3 free; the largest number and one beyond; one of another job; a proper descriptor with a range
within the limits; one with TOTAL 0; one with a misaligned base. -/
theorem test_witness_uls :
    (base.g 7).toNat ≤ 16383 ∧ 16383 < (16384#64).toNat ∧ (base.counter 3).fw = false ∧ (base.counter 3).owner = none ∧
    (base.g 5).toNat % 8 = 0 ∧
    (let desc := fun (l : List Word) (s : State) => putBytes s.mem 0x1000 (l.flatMap wordBytes);
      let s : State := { tables with mem := desc [0x8000#64, 64#64, 64#64, 0#64, 0#64, 0#64, 0#64, 0#64] tables };
      match s.loadWords 0x74 (s.g 5) 8 with
      | .ok (ws, r) => !badUls ws && nth 0 ws 2 != 0 && r.th.sb.isEmpty && r.th.job == 1 &&
          (match r.bindRange 1 (nth 0 ws 0).toNat (nth 0 ws 1).toNat with
            | .ok rs => ((r.flushRlc 0).ulsStatus 3 rs) == 0
            | .error _ => false)
      | .error _ => false) = true ∧
    badUls [0x8001#64, 64#64, 64#64, 0#64, 0#64, 0#64, 0#64, 0#64] = true := by
  decide +kernel

/-- CopiesHandlesAndCounters: an armed counter that a feed brings below, to and beyond TOTAL; one not armed; one that has fired and
overrun; a launch that waits for its slot. -/
theorem test_witness_counters :
    (let c : Counter := { Counter.init with total := 16, count := 8, armed := true, owner := some 1 };
      let s : State := { base with counters := [(0, c)], arg := Arg.ofNV 0 8#64 };
      s.counter s.arg.n = c ∧ c.armed = true ∧ c.fired = false ∧ (c.count + s.arg.v.setWidth 48).toNat = c.total.toNat ∧
      (c.count + (7#64).setWidth 48).toNat < c.total.toNat ∧ c.count.toNat < ((9#64).setWidth 48).toNat ∧
      c.count = (8#64).setWidth 48 ∧ (base.counter 0).armed = false ∧
      ({ c with fired := true, overran := true }).overran = true) ∧
    (let r : SpawnReq := { core := 0, waiter := none, counter := some 0, job := 1, kid := 1, level := .user, slots := 0xFFFF#16,
                           pc := 0x8100000200#64, regs := [], fctl := 0, tvec := 0, seed := 0, tid := 0, src := 0, num := 0, tag := .core,
                           quantum := 0, seq := 0, held := false };
      let s : State := { base with spawns := [r] };
      (indexed s.spawns).find? (fun p => p.2.counter == some s.arg.n) = some (0, r) ∧ (s.job 1).gmode = 0 ∧
      s.freeSlots 1 1 0 r.slots = [1, 2, 3] ∧ s.freeId 1 = some 0) := by
  decide +kernel

/-! ## Witnesses: streams and partitions -/

/-- Tile 0, whose X stream issues at schedule cycle 10, with window 3 open and tokens in its first FIFO. -/
def tile0 : Tile :=
  { Tile.init with part := some 0, sx := { Stream.init with ended := false, next := 10, k := [(1, 0x800#32)] },
                   sf := { Stream.init with ended := false, next := 10 }, sm := { Stream.init with ended := false, next := 10 },
                   fifos := [(0, [{ v := 5, vis := 0 }])] }

/-- A window of 64 bytes at 0x100 of its tile. -/
def win3 : WinDef := { wid := 3, off := 0x100, len := 64, rd := true, wr := true, mask := 0x3#16, stall := true, timeout := 100 }

/-- Partition 0 of one block for job 1, running at schedule cycle 10. -/
def part0 : Partition :=
  { Partition.init with st := .running, job := 1, num := some 0, w := 1, h := 1, tiles := [0], flen := 0x1000, storeLen := 0x400,
                        scyc := 10, started := true, winDefs := [win3] }

/-- Job 1 with that partition on tile 0. -/
def plane : State := { base with tiles := [(0, tile0)], parts := [(0, part0)] }

/-- That package with another tile 0. -/
def withTile (t : Tile) : State := { plane with tiles := [(0, t)] }

/-- That package with another partition 0. -/
def withPart (p : Partition) : State := { plane with parts := [(0, p)] }

/-- StepRunsDecodedInstruction: KLI k1, 4096 at the X stream's counter, its first halfword at the lower address. -/
theorem test_witness_step_stream :
    let s : State := { plane with agenda := [.stream 0 .x], mem := putBytes [] 0x8000000000 [0x40#8, 0x20#8, 0x00#8, 0x10#8] }
    let r : State := { s with agenda := [] }
    let v := (r.tile 0).stream .x
    decodeTrellis (r.fetchHalf 0 .x v.spc v.next) (r.fetchHalf 0 .x (v.spc + 1) v.next) = .ok (.kli 1 4096, 2) := by
  decide +kernel

/-- StreamControl: a stream that issues now and one that does not; FIFOs with and without a token; a block in no block and
in another, its count zero and not; a decided BRC, and the BLK and the END that may follow it. -/
theorem test_witness_stream_control :
    plane.mayIssue = true ∧ plane.fetchUe 1 = false ∧ plane.fetchUe 2 = false ∧
    ({ plane with ue := [(0x8000000000, true)] }).fetchUe 1 = true ∧ (withPart { part0 with scyc := 9 }).mayIssue = false ∧
    plane.ct.fifo 0 ≠ [] ∧ plane.ct.fifo 1 = [] ∧ ((plane.loaded 2).cs.kr 1).toNat ≠ 0 ∧ ((plane.loaded 2).cs.kr 2).toNat = 0 ∧
    (plane.loaded 2).cs.outer = none ∧
    (withTile { tile0 with sx := { tile0.sx with outer := some { start := 0, len := 9, left := 2, held := true } } }).cs.outer =
      some { start := 0, len := 9, left := 2, held := true } ∧
    (withPart { part0 with decided := [{ cyc := 10, tile := 0, st := .x, spc := 0, dec := .brc false }] }).decision =
      some (.brc false) ∧
    plane.decision = none ∧
    (let s : State := { plane with mem := putBytes [] 0x8000000000 [0#8, 0x1C#8, 0#8, 0#8, 0x00#8, 0x28#8] };
      s.instrAt 0 .x 2 11 = some (.endT, 1)) ∧
    (let s : State := { plane with mem := putBytes [] 0x8000000000 [0#8, 0x1C#8, 0#8, 0#8, 0x00#8, 0x04#8, 0x01#8, 0x40#8] };
      s.instrAt 0 .x 2 11 = some (.blk 1 0 1, 2)) := by
  decide +kernel

/-- StreamTransfersAndExchange: a transfer whose place the check point found, one that finds none; a source in order and
one in error; a window that the schedule declares and one that it does not; a decided latch. -/
theorem test_witness_stream_transfers :
    ((withPart { part0 with decided := [{ cyc := 10, tile := 0, st := .x, spc := 0, dec := .hbm 0x800 [(0x1000, 64, [])] Latch.init }] }).hbmChoice
      1 2 4 |>.isSome) = true ∧
    plane.hbmChoice 1 2 4 = none ∧ plane.fetchUe 2 = false ∧
    ({ plane with ue := [(0x8000000000, true)] }).fetchUe 2 = true ∧ plane.sramUe 0 0x800 64 = false ∧
    ({ plane with ue := [(0x8000000800, true)] }).sramUe 0 0x800 64 = true ∧
    (plane.loaded 2).cp.winDefs.find? (fun d => d.wid == (3#4).toNat) = some win3 ∧
    (plane.loaded 2).cp.winDefs.find? (fun d => d.wid == (4#4).toNat) = none ∧ (4194303#22) ≠ 0 ∧
    (withPart { part0 with decided := [{ cyc := 10, tile := 0, st := .x, spc := 0, dec := .vlt 1 Latch.init }] }).decision =
      some (.vlt 1 Latch.init) := by
  decide +kernel

/-- StreamFormatsAndMath: F and M streams that issue now, with sources in order and in error; a position of a transpose at
its limits. -/
theorem test_witness_stream_formats :
    ({ plane with curSt := .f }).fetchUe 2 = false ∧ ({ plane with curSt := .m }).fetchUe 2 = false ∧
    ({ plane with curSt := .f }).mayIssue = true ∧ ({ plane with curSt := .m }).mayIssue = true ∧
    ({ plane with curSt := .f }).sramUe 0 0 4096 = false ∧ ({ plane with curSt := .m }).sramUe 0 0 256 = false ∧
    ({ plane with ue := [(0x8000000000, true)], curSt := .m }).sramUe 0 0 256 = true ∧
    ({ plane with ue := [(0x8000000000, true)], curSt := .m }).fetchUe 2 = true ∧ 63 < 64 ∧ 7 < 2 ^ (3#2).toNat ∧
    (4#3) ≠ 3 ∧ (14#4) ≠ 15 := by
  decide +kernel

/-- PlaneEvents: a running partition, a frozen one, a loading one whose time has come and one whose has not, a freeze that
is over, a stall past its time-out. -/
theorem test_witness_plane :
    part0.st = .running ∧ part0.started = true ∧ part0.frozen = false ∧
    (let p := { part0 with st := .loading, started := false };
      p.st = .loading ∧ p.started = false ∧ p.startPtime.toNat ≤ plane.pkg.clock.ptime.toNat + p.lead ∧ (withPart p).isPart p = false) ∧
    (let p := { part0 with startPtime := 17#64 }; plane.pkg.clock.ptime.toNat + p.lead < p.startPtime.toNat) ∧
    (let q := (plane.resolve 0).part 0; q.st = .running ∧ q.frozen = false ∧ q.freezes = [] ∧ q.faults = []) ∧
    (let s := withPart { part0 with frozen := true, st := .frozen, freezes := [{ cyc := 10, cause := .throttle 4, ends := some 0 }] };
      let q := (s.resolve 0).part 0;
      q.frozen = true ∧ q.st ≠ .preempted ∧ q.freezes.filter (fun f => decide (f.cyc = q.scyc) && !f.isOver s.cyc) = []) ∧
    (let p := { part0 with frozen := true, freezes := [{ cyc := 10, cause := .stall 0 3, ends := none }] };
      let s : State := { withPart p with cyc := 100 };
      p.stallFrom + p.timeoutOf 3 = 100 ∧ p.stallFrom + p.timeoutOf 3 ≤ s.cyc ∧ p.frozen = true ∧ p.st = .running) := by
  decide +kernel

/-- PlaneEvents: a window that opens now and one that opens later, a held POST, a granule that is due, a flit that arrives,
a schedule that is over. -/
theorem test_witness_plane_work :
    (let w : Win := { defn := win3, opens := 10, isOpen := false, close := some 20, passed := true, missing := false, byWcl := false };
      let s : State := { withTile { tile0 with wins := [w] } with arg := Arg.ofNM 0 3 };
      (s.tile 0).wins.find? (fun w => w.defn.wid == s.arg.m) = some w ∧ (s.partOf 0).goes = true ∧ (s.tile 0).part ≠ none ∧
      w.opens = (s.partOf 0).scyc ∧ ({ w with opens := 11 }).opens ≠ (s.partOf 0).scyc) ∧
    (let q : Post := { thr := 0, part := 0, tiles := [0], form := 0, sel := 1, idx := 0, value := 7 };
      ({ plane with posts := [q] }).posts[0]? = some q) ∧
    (let g : Granule := { cyc := 10, seq := 0, load := true, acum := none, off := 0x800, pas := [(0x1000, 64, [])],
                          data := List.replicate 64 0#8, trailer := none, passed := some true };
      let s := withTile { tile0 with gran := [g] };
      g.dueNow (s.part 0) s.cyc = true ∧ g.passed ≠ none ∧ (s.part 0).st ≠ .preempted) ∧
    (let f : Flit := { tile := 0, dir := 2, cyc := 10, data := List.replicate 64 0#8, away := none };
      let s := withPart { part0 with flits := [f] };
      (s.part s.arg.m).flits[s.arg.n]? = some f ∧ s.arg.bytes = [] ∧ (s.part s.arg.m).goes = true ∧ f.cyc = (s.part s.arg.m).scyc) ∧
    (let s := withTile { tile0 with sx := Stream.init, sf := Stream.init, sm := Stream.init };
      s.scheduleOver 0 = true ∧ part0.span = false ∧ part0.tiles.all (fun t => (s.tile t).pend.isEmpty) = true) := by
  decide +kernel

/-- PostsWaitsAndVintages: POST operands at the limits of each field, a tile of the job, one with nothing and one of
another job; a window that is open. -/
theorem test_witness_posts :
    postBad (15 * 2 ^ 13) = false ∧ postBad (511 * 2 ^ 17 + 2 * 2 ^ 11) = false ∧ postBad (2 ^ 26) = true ∧
    postBad (3 * 2 ^ 11) = true ∧ postBad (2 ^ 17) = true ∧ postBad (2 ^ 11 + 2 * 2 ^ 13) = true ∧
    postBad (2 * 2 ^ 11 + 2 ^ 13) = true ∧
    plane.addressed 1 0 = some 0 ∧ plane.addressed 1 1 = none ∧ plane.anyPartition 1 = false ∧
    plane.addressed 2 0 = none ∧ plane.anyPartition 0 = true ∧ isOk (plane.beforeRelease 0x78 .pkg) = true ∧
    plane.beforeStart 0 = false ∧ (withPart { part0 with scyc := -1 }).beforeStart 0 = true ∧ plane.th.wwtFor = none ∧
    (let w : Win := { defn := win3, opens := 5, isOpen := true, close := some 20, passed := true, missing := false, byWcl := false };
      ((withTile { tile0 with wins := [w] }).tileOf 0 0).wins.find? (fun y => y.defn.wid == 3 && y.isOpen) = some w) ∧
    (plane.tileOf 0 0).wins.find? (fun y => y.defn.wid == 3 && y.isOpen) = none := by
  decide +kernel

/-- PostsWaitsAndVintages: a set of the job with a copy that may be published, one latched, one number too many, one at its
largest number, another job's. -/
theorem test_witness_vintages :
    let x : VSet := { VSet.init with used := true, ncopy := 2, owner := 1, latch := [0, 1, 0, 0] }
    let s : State := { base with vsets := [(3, x), (4, { x with pub := 0xFFFFFFFF#32 })] }
    (3 < 1024 ∧ (s.vset 3).used = true ∧ (s.vset 3).owner = s.th.job) ∧ 0 < x.ncopy ∧ nth 0 x.latch 0 = 0 ∧
    nth 0 x.latch 1 ≠ 0 ∧ x.ncopy ≤ 2 ∧ (s.vset 4).pub = 0xFFFFFFFF#32 ∧ x.pub ≠ 0xFFFFFFFF#32 ∧ (s.vset 5).used = false ∧
    s.takeDeferred true = none ∧ s.th.sb = [] := by
  decide +kernel


/-! ## Witnesses: host commands, launches and pre-emption -/

/-- The secure package with job 1 whose command of queue 0 has an operation, names a job and has operands from byte 16. -/
def sent (op job : Nat) (args : List (BitVec 8)) : State :=
  { base with arg := { Arg.init with bytes := bytesOf 4 0 ++ bytesOf 2 op ++ [0, 1] ++ bytesOf 2 job ++ List.replicate 6 0 ++ args },
              pkg := { base.pkg with starts := { base.pkg.starts with asked := none } } }

/-- The record of that state's command. -/
def its (s : State) : Cmd := cmdOf s.arg.n s.arg.bytes

/-- A vintage set of job 1, its number 3. -/
def withSet (s : State) : State :=
  { s with vsets := [(3, { VSet.init with used := true, ncopy := 2, owner := 1, latch := [0, 1, 0, 0] })] }

/-- A launch of job 1 that waits with nothing before it. -/
def launch1 : Launch :=
  { num := 0, job := 1, cls := 0, sched := false, image := [], n := 1, cores := [], origin := 0, width := 0, height := 0,
    startAt := 0, args := [], dep0 := 0, dep1 := 0, nowait := false, res := none, cmd := none, resumes := none, claims := [] }

/-- CommandsAreTakenOrRefused: a slot of queue 0, of a queue that is not enabled, in retention; sixteen threads at work; a
completion that may be sent, with and without a write under way, and none. -/
theorem test_witness_commands :
    let pend : PendCmd := { q := 0, seq := 0, op := 9, ord := false, early := false, job := 1, ready := true, status := 0,
                            result := noResult, sum := 0, waits := false }
    let s : State := sent 9 1 []
    let w : State := s.setPkg { s.pkg with pendCmds := [pend] }
    s.arg.n < 4 ∧ s.arg.m < 64 ∧ (s.queue 0).enable = true ∧ (s.queue 3).enable = false ∧ s.arg.b = false ∧
    s.holdsCmd s.arg.bytes = false ∧ s.cmdThreads < 16 ∧
    (s.setPower { s.pkg.power with st := .retention }).holdsCmd s.arg.bytes = true ∧
    16 ≤ (s.setQueue 1 { s.queue 1 with waiting := List.replicate 16 (0, 0, []) }).cmdThreads ∧
    w.pkg.pendCmds.find? (fun c => c.isCmd 0 w.arg.m && c.ready) = some pend ∧ w.hostBusy 0 0 = false ∧
    s.pkg.pendCmds.find? (fun c => c.isCmd 0 s.arg.m && c.ready) = none ∧
    s.pkg.starts.safe = false ∧ s.logRefused (its s) = false ∧ s.cmdRefused (its s) = none ∧
    (sent 9 256 []).cmdRefused (its (sent 9 256 [])) = some 4 ∧ ((sent 9 2 []).job 2).st = .closed := by
  decide +kernel

/-- JobCommands: a JOB.OPEN with and without right operands, a PEER at the last entry and past it, a QUERY of the job's
state, a MAP that is bad and one of a page, a VINTAGE of the job's set. -/
theorem test_witness_job_commands :
    (let s := sent 1 0 [3, 3, 8, 0]
     s.cmdRefused (its s) = none ∧ ¬ (3 < (its s).arg 16 1 ∨ 3 < (its s).arg 17 1 ∨ (its s).arg 18 1 < 8 ∨ 16 < (its s).arg 18 1) ∧
     lowestFree 256 (fun j => (s.job j).st == .closed) = some 0 ∧ s.freeAsid = some 0 ∧ (s.takeTable 0).isSome = true ∧
     s.debugKey (its s).q ((its s).arg 44 8) = some none ∧ (its (sent 1 0 [4, 0, 8])).arg 16 1 = 4 ∧
     (its (sent 1 0 [0, 0, 17])).arg 18 1 = 17) ∧
    (let s := sent 4 1 [0xFF, 0x0F]; s.cmdRefused (its s) = none ∧ (its s).arg 16 2 = 4095) ∧
    (its (sent 4 1 [0x00, 0x10])).arg 16 2 = 4096 ∧ ((sent 0xB 1 [1]).queryResult 1 1).isSome = true ∧
    ((sent 0xB 1 [255]).queryResult 255 1).isNone = true ∧
    (let s := sent 3 1 (bytesOf 8 0x200000 ++ bytesOf 8 0x2F ++ bytesOf 4 1)
     s.cmdRefused (its s) = none ∧ (its s).arg 16 8 = 0x200000 ∧ (its s).arg 32 4 = 1) ∧
    (let s := sent 3 1 []; s.badMap ((its s).arg 16 8) ((its s).arg 24 8) ((its s).arg 32 4) = true) ∧
    (let s := withSet (sent 0xA 1 [3, 0, 0, 0, 1, 0])
     s.cmdRefused (its s) = none ∧ s.ownsSet 1 3 = true ∧ (its s).arg 20 1 = 1 ∧ (its s).arg 21 1 ≤ 3 ∧ (s.vset 3).bar 0 = none ∧
     (s.vset 3).bar 1 ≠ none ∧ s.ownsSet 1 4 = false) := by
  decide +kernel

/-- PackageCommands: each command with operands at the limits of each clause; the queue's host entry is not usable. -/
theorem test_witness_package_commands :
    (let s := sent 0xC 0 []; s.cmdRefused (its s) = none ∧ (its s).arg 56 1 = 0 ∧ s.entryUsable hostJob (its s).q = false ∧
     s.hostRead (its s).q ((its s).arg 16 8) 128 = none ∧ s.hostRead (its s).q ((its s).arg 16 8) ((its s).arg 24 4) = none) ∧
    (its (sent 0xC 0 (List.replicate 40 0 ++ [2]))).arg 56 1 = 2 ∧
    (let s := sent 0xD 0 (List.replicate 8 0 ++ [1])
     s.cmdRefused (its s) = none ∧ (its s).arg 24 1 = 1 ∧ s.pkg.sec.access = .locked ∧ s.pkg.sec.access ≠ .full) ∧
    (its (sent 0xD 0 (List.replicate 8 0 ++ [2]))).arg 24 1 = 2 ∧
    (let s := sent 0x10 0 [1]; s.cmdRefused (its s) = none ∧ (its s).arg 16 1 = 1) ∧ (its (sent 0x10 0 [2])).arg 16 1 = 2 ∧
    (let s := sent 0x11 0 ([0, 0] ++ bytesOf 2 1200); s.cmdRefused (its s) = none ∧ (its s).arg 16 1 = 0 ∧ (its s).arg 18 2 = 1200) ∧
    (its (sent 0x11 0 ([0, 0] ++ bytesOf 2 1199))).arg 18 2 = 1199 ∧ (its (sent 0x11 0 ([0, 0] ++ bytesOf 2 3001))).arg 18 2 = 3001 ∧
    (its (sent 0x11 0 [3])).arg 16 1 = 3 ∧ (sent 0x11 0 [2]).pkg.power.st ≠ .retention ∧
    (let s := (sent 0x11 0 [2]).setPower { (sent 0x11 0 [2]).pkg.power with st := .retention }
     s.cmdRefused (its s) = none ∧ (its s).arg 16 1 = 2 ∧ s.pkg.power.st = .retention) ∧
    (let s := sent 0xE 0 [5]; s.cmdRefused (its s) = none ∧ 4 < (its s).arg 16 1) := by
  decide +kernel

/-- LaunchesAreServed: the two commands; a job that is open and one that is not; a descriptor that is right; a launch that
waits and may be considered; a kernel that lives and one that is over; a job with no supervisor. -/
theorem test_witness_launches :
    (let s := sent 5 1 []; s.cmdRefused (its s) = none) ∧ (let s := sent 6 1 []; s.cmdRefused (its s) = none) ∧
    (base.job 2).st ≠ .opened ∧ (base.job 1).st = .opened ∧ badDescriptor ([1] ++ List.replicate 63 0) = false ∧
    (let s : State := { base with launches := [launch1] }
     s.launches.find? (fun l => l.num == 0 && l.resumes.isNone) = some launch1 ∧
     s.launches.find? (fun l => l.num == 1 && l.resumes.isNone) = none ∧ s.considered launch1 = true ∧
     s.resWaits launch1.job launch1.res = false) ∧
    (let s : State := { base with pkg := { base.pkg with power := { base.pkg.power with toRetention := true } } }
     s.considered launch1 = false) ∧
    base.kernelLives 1 1 = true ∧ (let s : State := { base with threads := [] };
      (s.kernel 1 1).st = .running ∧ s.kernelLives 1 1 = false ∧ s.counterHolds 1 1 = false) ∧
    base.supervisor 1 = none := by
  decide +kernel

/-- UnitsArePreemptedAndRestored: commands of each kind; a partition held while it runs, while it is frozen, while it
loads; a kernel held, one being saved that has drained; units that may go on. -/
theorem test_witness_preemption :
    (∀ k : Fin 4, let s := sent 7 1 [BitVec.ofNat 8 k.val]; s.cmdRefused (its s) = none ∧ (its s).arg 16 1 = k.val) ∧
    part0.hostHold = false ∧ part0.deadlineHold = false ∧ kern.hostHold = false ∧ kern.deadlineHold = false ∧
    (let p := { part0 with hostHold := true }
     p.hostHold = true ∧ p.stopping = false ∧ p.isPreempted = false ∧ p.st = .running ∧
     ((withPart p).partRecord 0 0).part 0 = p ∧ p.span = false ∧ p.frozen = false) ∧
    (let p := { part0 with hostHold := true, st := .loading }; p.stopping = false ∧ p.isPreempted = false ∧ p.st = .loading) ∧
    (let s : State := { base with kernels := [(2 ^ 32 + 1, { kern with st := .saving })], threads := [] }
     (s.kernel 1 1).st = .saving ∧ s.kernelDrained 1 1 = true ∧ s.retrains (unitKey 1 1) = false) ∧
    (let p := { part0 with st := .preempted }; let s := withPart p
     p.isPreempted = true ∧ p.tiles.any (fun t => (s.tile t).part == some 0) = true ∧ s.drained 0 = true) ∧
    (let p := { part0 with st := .preempted }
     let l := { launch1 with resumes := some (false, 0) }
     let s : State := { withPart p with launches := [l] }
     s.launches.find? (fun l => l.resumes == some (false, 0)) = some l ∧ s.resumeNum 0 = some 0) ∧
    (let l := { launch1 with resumes := some (true, 1) }
     let s : State := { base with launches := [l], kernels := [(2 ^ 32 + 1, { kern with st := .preempted })] }
     s.launches.find? (fun l => l.job == 1 && l.resumes == some (true, 1)) = some l ∧ (s.restoreCores 1 1).isSome = true) ∧
    base.launches = [] := by
  decide +kernel

/-- DeadlinesHangsAndGating: a deadline that has passed, one that has not; a faulted partition; a partition frozen for the
hang time; a core that is blocked for long enough and one that is not. -/
theorem test_witness_deadlines :
    (let x := { (base.job 1) with cls := 0, started := true }
     let s := base.setJob 1 x
     (s.job 1).st ≠ .closed ∧ x.missed = false ∧ x.deadline.toNat ≤ s.pkg.clock.ptime.toNat ∧
     ¬ (s.partsOf 1 = [] ∧ s.kernelsOf 1 = [])) ∧
    ({ (base.job 1) with deadline := 1#64 }).deadline.toNat > base.pkg.clock.ptime.toNat ∧ base.headOf 0 = none ∧
    plane.partNo 1 = none ∧ plane.partNo 0 = some 0 ∧
    (let p := { part0 with st := .faulted, frozen := true }
     let r := (withPart p).checkAgain 0
     p.stuck = false ∧ (r.part 0).faults.filter (fun f => decide (f.cyc = (r.part 0).scyc)) = []) ∧
    (let p := { part0 with frozen := true }; let s : State := { withPart p with cyc := 19000000000 }
     p.st ≠ .preempted ∧ s.hangDue p.frozenAt = true) ∧
    (let k := { core0 with blockedSince := some 0 }
     k.gating = .running ∧ core0.blockedSince = none ∧ 0 + gateAfter ≤ gateAfter ∧ 0 < 0 + gateAfter ∧
     ({ k with gating := .clockGated 5 }).gating = .clockGated 5) := by
  decide +kernel

/-! ## Witnesses: fabric, power, upkeep and invariants -/

/-- A package whose pod of two packages in X is formed, its port 0 up and trained. -/
def podded : State :=
  { base with pkg := { base.pkg with eth := [(2, { EthPort.init with up := true })],
                                     pod := { base.pkg.pod with dxm := 2, form := true, ports := [(0, { Tendril.init with up := true, latency := 50, matched := true })] } } }

/-- A member of that pod at X = 1, whose upstream port is 1. -/
def member : State :=
  podded.setPod { podded.pkg.pod with px := 1, ports := [(1, { Tendril.init with up := true, latency := 50, matched := true })] }

/-- Job 1's partition 0 as a spanning one that has started, in that pod. -/
def spanning : State := { podded with tiles := [(0, tile0)], parts := [(0, { part0 with span := true })] }

/-- PodsAndPorts: a queue that is not usable; a pod formed and not, with and without a spanning partition; a used port; a
port that is up with no user and with one; an Ethernet port up and one down. -/
theorem test_witness_ports :
    (4 ≤ 4 ∨ base.queueUsable 3 = false) ∧ base.queueUsable 3 = false ∧ podded.pkg.pod.form = true ∧ base.pkg.pod.form = false ∧
    podded.placedParts.any (fun p => p.2.span) = false ∧ spanning.placedParts.any (fun p => p.2.span) = true ∧
    podded.pkg.pod.portUsed 0 = true ∧ (podded.pkg.pod.port 0).lockLost = false ∧ (podded.pkg.pod.port 0).up = true ∧
    podded.portParts 0 = [] ∧
    (let s : State := { spanning with parts := [(0, { part0 with span := true, w := 17 })] }; s.portParts 0 = [0]) ∧
    (podded.pkg.pod.port 5).up = false ∧ (podded.eth 2).up = true ∧ (podded.eth 7).up = false ∧
    ({ podded with pkg := { podded.pkg with starts := { podded.pkg.starts with asked := none } } }).pkg.starts.safe = false := by
  decide +kernel

/-- TimeAndSideband: no correction, a small one that is due and one that is not, a large one; a clock phase; the member's exchange
that is due, the root's reply; a PTP event; a spanning partition's number and one of none; a reserved type. -/
theorem test_witness_time :
    (let c := base.pkg.clock; c.corrAt = [] ∧ c.corr = 0 ∧ c.phase = 0 ∧ base.cyc < c.lastPhase + 1024) ∧
    (let s : State := { base with cyc := 1024 }
     let c := { s.pkg.clock with corr := -1023, phase := 5 }
     c.corr ≠ 0 ∧ c.corr.natAbs < 1024 ∧ c.lastCorr + 1024 ≤ s.cyc ∧ base.cyc < c.lastCorr + 1024 ∧ c.phase ≠ 0 ∧
     c.lastPhase + 1024 ≤ s.cyc ∧ 1024 ≤ ({ c with corr := -1024 }).corr.natAbs) ∧
    member.pkg.pod.upstream = some 1 ∧ member.exchangeDue = true ∧ podded.exchangeDue = false ∧
    podded.pkg.pod.upstream = none ∧ base.pkg.pod.form = false ∧ member.pkg.pod.isMember = true ∧
    (member.pkg.pod.port 1).up = true ∧ podded.pkg.pod.isMember = false ∧ base.pkg.ptp.enable = false ∧
    (let p := { base.pkg.ptp with enable := true, port := 2#3, domain := 7#7 }
     p.enable = true ∧ p.port.toNat = 2 ∧ p.domain.toNat = 7) ∧
    podded.spanNo 0 = none ∧ spanning.spanNo 0 = some 0 ∧ spanning.isAnchor (spanning.part 0) = true ∧
    (member.isAnchor part0 = false) ∧ ((podded.pkg.pod.port 0).up = true ∧ podded.pkg.pod.form = true) := by
  decide +kernel

/-- PowerStartsAndRetention: samples above the cap, at 95 % of it and between; a duty of 0 and another; a package that is off;
rails enabled in order; what a start and retention ask; bands at their limits; access that ends. -/
theorem test_witness_power :
    (let p := base.pkg.power
     p.st ≠ .off ∧ p.duty = 0 ∧ (List.range 12).all (fun i => Store.get false i p.rails) = true ∧ p.hot = [] ∧ p.cap = 3000 ∧
     3000 * 1 < 3001 ∧ 100 * 2850 ≤ 95 * 3000 * 1 ∧ (2851 ≤ 3000 * 1 ∧ 95 * 3000 * 1 < 100 * 2851)) ∧
    base.parts = [] ∧ (List.range 12).all (fun i => Store.get false i (Store.put false 3 false base.pkg.power.rails)) = false ∧
    (∀ i, i < 11 → Store.get false i base.pkg.power.rails = true) ∧ base.pkg.starts.asked = some false ∧
    base.isIdle = false ∧
    (let s : State := { State.reset with pkg := { State.reset.pkg with
        starts := { State.reset.pkg.starts with asked := none }, power := { State.reset.pkg.power with st := .idle } } }
     s.isIdle = true ∧ s.pkg.starts.asked = none ∧ s.pkg.power.st = .idle) ∧
    State.reset.failedStep false false 2 ≠ 0 ∧
    Store.get 0 0 base.pkg.bands < 12 ∧ 12 ≤ Store.get 0 0 ([(0, 12)] : Store Nat) ∧ base.pkg.sec.st = .secure ∧
    (let x := { base.pkg.sec with access := .jobDebug 1 }
     x.access = .jobDebug 1 ∧ x.notAfter.toNat ≤ base.pkg.clock.ptime.toNat ∧
     base.pkg.clock.ptime.toNat < ({ x with notAfter := 1#64 }).notAfter.toNat) ∧
    base.pkg.sec.access = .locked := by
  decide +kernel

/-- MemoriesAreMaintained: granules in order, in error, and past the last of the HBM; stacks that retrain, that wait, and neither; a
save under way. -/
theorem test_witness_upkeep :
    32 * 0 < tileBase ∧ 32 * (tileBase / 32 - 1) < tileBase ∧ tileBase ≤ 32 * (tileBase / 32) ∧
    base.hasUe (32 * 3) 32 = false ∧ ({ base with ue := [(96, true)] }).hasUe (32 * 3) 32 = true ∧
    (base.stack 7).retraining = false ∧ base.saving 7 = false ∧
    (base.stack 0).deferred = none ∧
    (let x := { Stack.init with deferred := some 5 }; x.deferred = some 5 ∧ 5 + 38000000 ≤ 38000005 ∧ 38000004 < 5 + 38000000) ∧
    (let s := base.setStack 0 { Stack.init with retraining := true }; (s.stack 0).retraining = true) := by
  decide +kernel

/-- MemoriesAreMaintained: a save to a stack is under way, whichever stack holds the context. -/
theorem test_witness_saving :
    let s : State := { base with kernels := [(2 ^ 32 + 1, { kern with st := .saving })] }
    (Config.contextFirst (2 ^ 32 + 1)).toNat < 8 ∧ s.saving (Config.contextFirst (2 ^ 32 + 1)).toNat = true := by
  refine ⟨BitVec.isLt _, ?_⟩
  simp [State.saving, contextOn]

/-- MemoryStaysCanonical: a state whose memory is in canonical form, and a step from it that answers a next state. -/
theorem test_witness_memory_step :
    base.memWf ∧ (match step base with | .next _ => true | _ => false) = true := by
  decide +kernel

/-- FramesOfRegistersAndStreams: ADD g1, g5, g7 is such a form and answers a next state. -/
theorem test_witness_register_form :
    (Instr.add 1 5 7).registersOnly = true ∧ (match exec (.add 1 5 7) base with | .next _ => true | _ => false) = true := by
  decide +kernel

/-- FramesOfRegistersAndStreams: KLI k1, 4096 is an instruction of a stream and answers a next state. -/
theorem test_witness_stream_form :
    (Instr.kli 1 4096).isStream = true ∧ (match exec (.kli 1 4096) plane with | .next _ => true | _ => false) = true := by
  decide +kernel

/-- ResetState and ResetMemoryWellFormed have no hypotheses; the cap after a reset is 3,000. -/
theorem test_reset_cap : State.reset.pkg.power.cap = 3000 := by decide

/-! ## Witnesses: completion -/

/-- FullEmptyAccessesComplete: a word of core 0's local store, full and empty; a far address whose line may be filled. -/
theorem test_witness_full_empty_complete :
    base.clear ∧ (base.job base.th.job).gmode = 0 ∧ (base.g 6).toNat % 8 = 0 ∧ spaceOf 0x8100001000 = .loc 0 0x1000 ∧
    (∀ n ∈ [needRd, needWr, needRw], base.xlate base.cur (base.g 6).toNat n = .pa 0x8100001000 leaf) ∧
    ({ base with fulls := [(0x200, true)] }).wordFull 0x8100001000 = true ∧ base.hasUe 0x8100001000 8 = false ∧
    base.wordFull 0x8100001000 = false ∧
    (let s := base
     let pa := 0x200
     s.xlate s.cur pa needRd = .pa pa leaf ∧ s.isFar 0 pa = true ∧ s.migratingAt pa = false ∧
      s.fillUe 0 (pa / 128 * 128) 128 = false) := by
  decide +kernel

/-- AtomicsAndRegionsComplete: an aligned doubleword and word of HBM whose home accepts both accesses; a region with room,
whose line does. -/
theorem test_witness_atomics_complete :
    base.clear ∧ (base.g 5).toNat % 8 = 0 ∧ base.xlate base.cur (base.g 5).toNat needRw = .pa 0x1000 leaf ∧
    noStorage 0x1000 = false ∧ base.readAns 0x1000 8 1 = .ok ∧ base.writeAns 0x1000 8 1 = .ok ∧
    base.readAns 0x1000 4 1 = .ok ∧ base.writeAns 0x1000 4 1 = .ok ∧
    (let r : Region := { pc := 0x8100000000#64, base := 5, addr := 0x1000#64, body := [.add 1 2 3], accesses := 7 }
     let s := withThr { thr with region := some r }
     s.th.region = some r ∧ r.body.length < 24 ∧ r.accesses < 8 ∧
      (r.addr + (255#9).signExtend 64 * 1#64).toNat / 128 ≠ r.addr.toNat / 128 ∧
      (r.addr + (15#9).signExtend 64 * 8#64).toNat / 128 = r.addr.toNat / 128 ∧
      s.atRest ∧ (s.job s.th.job).gmode = 0 ∧ r.skipsOut = false ∧ s.xlate s.cur 0x1000 needRd = .pa 0x1000 leaf ∧
      s.hasUe 0x1000 128 = false ∧ (∀ o, o < 128 → ∀ n, n ≤ 8 → s.readAns (0x1000 + o) n s.th.job = .ok) ∧
      (∀ o, o < 128 → s.writeAns (0x1000 + o) 1 s.th.job = .ok)) := by
  decide +kernel

/-- MessagesAndCallsComplete: room in the send queue, operands at their limits, handler 9 of core 0 with a place in its ring
(the other clauses' cases are those of `test_witness_messages` and `test_witness_handlers`). -/
theorem test_witness_messages_complete :
    ringed.performs ∧ ringed.th.sb = [] ∧ ringed.sendQueue 0 < 16 ∧
    (let w := 62 * 2 ^ 10 + 64 * 2 ^ 16; w < 2 ^ 23 ∧ w / 2 ^ 10 % 64 ≠ 63 ∧ w / 2 ^ 16 % 2 ^ 7 ≤ 64) ∧
    (let w := 62 * 2 ^ 10 + 56 * 2 ^ 16; w < 2 ^ 23 ∧ w / 2 ^ 10 % 64 ≠ 63 ∧ w / 2 ^ 16 % 2 ^ 7 ≤ 56) ∧
    (let s := { ringed with mem := [(0x8100001038, 1#8)] };
      s.performs ∧ (s.ring 0 2).en = true ∧ (s.core 0).ringJob = some s.th.job ∧ s.ringCount 0 (s.ring 0 2) ≠ 0) ∧
    (let lo := 2 + 2 * 4 + 15 * 64; lo < 2 ^ 22 ∧ lo % 4 ≠ 3 ∧ (0xFFFFFFFFFFFF#64).toNat < 2 ^ 48) := by
  decide +kernel

/-- ThreadsAndBarriersComplete: a thread with nothing left to order that may spawn, quit, join a barrier and wait; an
episode that is complete; a pod barrier's arrival; waits that are over; a quantum that is over. -/
theorem test_witness_threads_complete :
    base.clear ∧ (base.g 7).toNat ≤ 1023 ∧ base.outstanding = 0 ∧ base.ueDue base.cur = false ∧
    (base.job base.th.job).gmode = 0 ∧ (base.lastOfKernel && base.copying base.th.job base.th.kid) = false ∧
    (let scope := if (4#3) = 4 ∧ base.pkg.pod.form = false then Scope.pkg else scopeOfCode (4#3).toNat
     base.episode (barKey scope (scopeInst scope 0) 7) = none) ∧
    (let e : Episode := { key := barKey .core 0 1, job := some 1, count := some 1, arrivals := 1, parked := [0], tag := .core,
                          ports := [] };
      let s : State := { base with episodes := [e], arg := Arg.ofN e.key };
      s.episode s.arg.n = some e ∧ e.complete = true ∧ (∀ p ∈ e.ports, (s.pkg.pod.port p).up = true) ∧ e.parked.Nodup ∧
        (∀ u ∈ e.parked, (s.thread u).live = true ∧ (s.job (s.thread u).job).gmode = 0)) ∧
    (let s : State := { withThr { thr with park := .qsc .core (some 0) false } with cyc := 2048 };
      s.quiet .core 0 1 = true ∧ 0 + 2048 ≤ s.cyc ∧ (s.thread 0).live = true ∧ (s.job 1).gmode = 0) ∧
    (let s := withThr { thr with park := .wft 0 }; (s.thread 0).park = .wft 0 ∧ (0#64).toNat ≤ s.pkg.clock.ptime.toNat) ∧
    (base.g 0).toNat ≤ base.pkg.clock.ptime.toNat ∧
    (let s : State := { withThr { thr with qcount := 16 } with
        jobs := [(1, { Job.init with st := .opened, gmode := 2, qlog2 := 4 })], arg := Arg.ofN 1 };
      s.quantumOver s.arg.n = true ∧ s.gateQueue = [] ∧ s.msgs = [] ∧ s.replies = [] ∧ s.spawns = []) := by
  decide +kernel

/-- ThreadsAndBarriersComplete: a request at the spawn unit that no message precedes and whose mask has a free slot. -/
theorem test_witness_spawn_complete :
    let r : SpawnReq := { core := 0, waiter := some (0, 3), counter := none, job := 1, kid := 1, level := .user,
                          slots := 0xFFFF#16, pc := 0x8100000200#64, regs := [1#64, 2#64, 3#64, 4#64], fctl := 0, tvec := 0,
                          seed := 0, tid := 5, src := 0, num := 0, tag := .core, quantum := 0, seq := 0, held := false }
    let s : State := { base with spawns := [r] }
    s.spawns[s.arg.n]? = some r ∧ (s.job r.job).gmode = 0 ∧ s.behind r.src r.core r.num r.job r.tid = false ∧
      s.freeSlots r.job r.kid r.core r.slots = [1, 2, 3] ∧ s.freeId r.job = some 0 ∧ 0 ≠ r.core * 16 + 1 := by
  decide +kernel

/-- CopiesAndCountersComplete: a handle that no kernel holds, ready for a copy without handles; an engine of die 0; counter 3
free; a descriptor of a counter at 0x1000 whose range job 1's tables map, read from near storage. -/
theorem test_witness_copies_complete :
    let s : State := { tables with
      mem := putBytes tables.mem 0x1000 ([0x8000#64, 64#64, 64#64, 0#64, 0#64, 0#64, 0#64, 0#64].flatMap wordBytes) }
    s.performs ∧ s.atRest ∧ ((s.core 0).handle 0).owner = none ∧ ((s.core 0).handle 0).st = .free ∧
      s.cplCheck ((dstHandle (shadow s.th.shadows 11).toNat).toList ++ (srcHandle (shadow s.th.shadows 11).toNat).toList) = none ∧
      (s.core 0).handlesReady none none = true ∧ (s.pickEngine 0).isSome = true ∧ (s.g 7).toNat ≤ 16383 ∧
      s.notMine 3 = false ∧ nth 0 (s.words 0x1000 8) 2 ≠ 0 ∧ badUls (s.words 0x1000 8) = false ∧
      (match s.bindRange 1 (nth 0 (s.words 0x1000 8) 0).toNat (nth 0 (s.words 0x1000 8) 1).toNat with
        | .ok rs => s.ulsStatus 3 rs == 0
        | .error _ => false) = true ∧
      nth 0 (base.words 0x1000 8) 2 = 0 := by
  decide +kernel

/-- CopiesAndCountersComplete and RemoteAndBankCommandsComplete: eight doublewords at 0x1000, near storage of core 0. -/
theorem test_witness_near_words : base.nearWords 0x1000 0x1000 8 := by
  refine ⟨by decide, by decide, fun i hi => ?_⟩
  refine ⟨⟨leaf, ?_⟩, ?_⟩
  · interval_cases i <;> decide +kernel
  · interval_cases i <;> decide +kernel

/-- RemoteAndBankCommandsComplete: a usable entry with a context; an aligned and a misaligned address; a command whose ranges
lie in a bank that has room; the oldest command of a bank. -/
theorem test_witness_remote_complete :
    linked.clear ∧ linked.outstanding < 64 ∧ linked.entryUsable linked.th.job 3 = true ∧ linked.pdcFull 1 3 = false ∧
    (linked.g 5).toNat % 8 = 0 ∧
    (let s := bcmd 0x10002#64 0x100000#64 0x100020#64 0x100040#64
     let y := bauDesc (s.words 0x1000 6)
     s.clear ∧ y.bad = false ∧ y.op < 12 ∧
      (match s.bauXlate y.ranges with
        | .ok ps => s.bauCheck y.ranges ps == none &&
            decide ((s.bank (bankOf s.iltab ((ps.map (·.1)).headD 0))).fifo.length < 16)
        | .error _ => false) = true) ∧
    (let s : State := { base with banks := [(0, { Bank.init with fifo := [cmd 2] })] }; (s.bank s.arg.n).fifo = [cmd 2]) ∧
    linked.sentRemote linked.arg.n = some op3 ∧ op3.engine = none ∧ op3.cmd = none ∧ op3.thr = some 0 ∧
    (linked.thread 0).live = true ∧ (linked.thread 0).job = op3.job ∧ (linked.thread 0).tid = op3.tid ∧
    (linked.thread 0).rpe = false ∧
    (let s : State := { linked with remotes := [], arg := Arg.ofN 1, cyc := 19000000 };
      (s.pdcs.find? (fun q => q.id == s.arg.n)).isSome = true ∧ s.remotes = []) := by
  decide +kernel

/-- A packet of job 1 for eight bytes at 0x1000 of its space, that stands in a state's argument. -/
def arriving : State :=
  { linked with arg := { Arg.init with pkt := { Packet.init with
      jobid := 0x1001, va := 0x1000#64, len := 8, data := List.replicate 8 7#8, auth := true } } }

/-- RemoteOperationsAndPackets and RemoteAndBankCommandsComplete: that packet is accepted, and its bytes lie in one piece of
storage whose home accepts each access. -/
theorem test_witness_packet_complete :
    arriving.accepts arriving.arg.pkt 1 ∧ arriving.onePiece 1 0x1000 8 needRw 0x40001000 ∧
    arriving.readAns 0x40001000 8 1 = .ok ∧ arriving.writeAns 0x40001000 8 1 = .ok ∧
    arriving.arg.pkt.accum = none ∧ arriving.arg.pkt.counter = none := by
  refine ⟨?_, ⟨by decide, by decide, ⟨{ leaf with size := 2 ^ 21, pa := 0x40000000 }, ?_⟩, by decide +kernel⟩, by decide +kernel⟩
  · unfold State.accepts; decide +kernel
  · decide +kernel

/-- PartitionAccessesComplete: a POST of a register of the partition's tile; a window that is open; a set with a copy that may be
published. -/
theorem test_witness_partition_complete :
    plane.clear ∧ postBad (0 + 2 ^ 13 * 3) = false ∧ plane.addressed plane.th.job 0 = some 0 ∧
    (plane.part 0).st ≠ .preempted ∧ (plane.part 0).st ≠ .free ∧
    (let q : Post := { thr := plane.cur, part := 0, tiles := [0], form := 0, sel := 3, idx := 0, value := 7 }
     plane.postRoom q = true ∧ plane.postBehind q = false) ∧
    plane.th.wwtFor = none ∧ (withThr { thr with park := .wwt 0 }).th.wwtFor = some 0 ∧ (30#5).toNat ≤ 30 ∧
    (let x : VSet := { VSet.init with used := true, ncopy := 2, owner := 1, latch := [0, 1, 0, 0] }
     let s : State := { base with vsets := [(3, x)] }
     (s.g 7).toNat = 3 ∧ s.clear ∧ (s.vset 3).used = true ∧ (s.vset 3).owner = s.th.job ∧ 0 < x.ncopy ∧ nth 0 x.latch 0 = 0 ∧
      x.pub ≠ 0xFFFFFFFF#32) := by
  decide +kernel

/-- AllocatorAndMemoryPathComplete: a job with an arena from which a block may be taken and given back; pages that may and may
not move; a migration of a thread that waits for it; a walk; a drain; a request at a gate; ALLOCCFG's values. -/
theorem test_witness_allocator_complete :
    (let j : Job := { Job.init with st := .opened, asid := 1, sizelog2 := 20, base := 0x40000000#64, freeBlocks := [(0, 20)] }
     let s : State := { base with jobs := [(1, j)] }
     s.performs ∧ (s.job s.th.job).gmode = 0 ∧
      (match (s.job s.th.job).allocate 100 with
        | some (off, k) => (k.release off).isSome
        | none => false) = true ∧ (0#64) = 0 ∧ j.base.toNat ≤ (0x40000000#64).toNat) ∧
    (let s := { tables with threads := [(0, { thr with level := .supervisor })] }
     s.clear ∧ s.th.level ≠ .user ∧
      (match s.walk s.th.job (s.g 5).toNat with
        | .leaf l pte _ _ =>
          s.migrStatus l (bit pte 11) (l.at_ 0x1000 - 0x1000 % l.page) 0x80000000#64 == 0 &&
            s.migrStatus l (bit pte 11) (l.at_ 0x1000 - 0x1000 % l.page) 0x80001000#64 != 0
        | _ => false) = true) ∧
    (let m : Migration := { job := 1, va := 0, size := 2 ^ 21, old := 0x40000000, new := 0x80000000, thr := 0, d := 1, held := [] };
      let s := { tables with migrations := [m], threads := [(0, { thr with park := .migr })] };
      s.migrations.find? (fun k => !s.bauBusy k.old k.size) = some m ∧ (s.thread m.thr).live = true ∧
        (s.thread m.thr).park = .migr) ∧
    (let q : WalkReq := { thr := 0, core := 0, job := 1, va := 0x1000#64 }
     let s := { tables with walks := [(0, [q])], threads := [(0, { thr with park := .walk 0x1000#64 })] }
     (s.walkQueue s.arg.n).find? s.walkReady = some q ∧ (s.thread 0).live = true ∧ (s.thread 0).park = .walk q.va ∧
      (match s.walk q.job q.va.toNat with
        | .leaf _ _ _ _ => true
        | _ => false) = true) ∧
    (let r : GateReq := { gate := 0, thr := 0, op := .fec 0x8100001000, job := 1, tid := 5, quantum := 0, seq := 0, held := false };
      let s : State := { base with gateQueue := [r] };
      s.gateQueue.filter (fun r => r.gate == s.arg.n) = [r] ∧ (s.job r.job).gmode = 0 ∧ r.op = .fec 0x8100001000) := by
  decide +kernel

/-- Two bytes of a word give it back. -/
theorem natOf_two_bytes (x : BitVec 16) : natOf [x.extractLsb' 0 8, x.extractLsb' 8 8] = x.toNat := by
  simp [natOf, BitVec.extractLsb'_toNat, Nat.shiftRight_eq_div_pow]
  omega

/-- CommandsAreTakenOrRefused and PackageCommands: whatever association provisioning gives the queues, a host entry that
names it and port 0 is usable. -/
theorem test_witness_host_entry :
    let sa := Config.hostAssociation
    let s : State := { base with peers :=
      [(0xFEE2000014, 1#8), (0xFEE2000015, 1#8), (0xFEE2000016, sa.extractLsb' 0 8), (0xFEE2000017, sa.extractLsb' 8 8)] }
    s.entryUsable hostJob 0 = true := by
  intro sa s
  have h : field (s.peerEntry hostJob 0) 22 2 = sa.toNat :=
    (by rfl : _ = natOf [sa.extractLsb' 0 8, sa.extractLsb' 8 8]).trans (natOf_two_bytes sa)
  have h1 : field (s.peerEntry hostJob 0) 21 1 = 1 := rfl
  have h2 : entryPorts (s.peerEntry hostJob 0) = 1 := rfl
  simp only [State.entryUsable, h, h1, h2, Config.hostAssociations]
  simp [sa, bit]

/-- PlaneEvents: a flit of another package for a tile of a spanning partition that has started, in time; TimeAndSideband: a
port that is up of a pod that is formed; a claim's partition that has not started, of a number that no partition has. -/
theorem test_witness_crossing :
    (let s : State := { spanning with arg := { Arg.init with bytes := [1#8], i := 10 } }
     s.arg.bytes ≠ [] ∧ (s.tile s.arg.n).part = some 0 ∧ (s.part 0).started = true ∧ (s.part 0).span = true ∧
      (s.part 0).scyc ≤ s.arg.i + s.pkg.pod.tlat.toNat) ∧
    (0 < 6 ∧ (podded.pkg.pod.port 0).up = true ∧ podded.pkg.pod.form = true) ∧ podded.spanNo 5 = none ∧
    podded.partOfClaim 1 9 = none ∧
    (let p := { part0 with span := true, claimNo := 9, started := false, st := .loading, ox := 4 }
     let s : State := { podded with parts := [(7, p)] }
     s.spanNo 5 = none ∧ s.partOfClaim 1 9 = some 7 ∧ (s.part 7).started = false ∧ s.isAnchor (s.part 7) = false) := by
  decide +kernel

/-! ## One step on a small state: values from the tables of 12 R339, R341, R342 -/

/-- The result that an instruction leaves in g1 of a thread whose g5 and g6 hold two words. -/
def result (i : Instr) (a b : Word) : Word :=
  let s := withThr { thr with g := [(5, a), (6, b)] }
  (after s (exec i s)).g 1

/-- Sums wrap at 64 bits; MULH is the high half of the signed product, MULHU of the unsigned one (12 R339). -/
theorem test_add_sub_mulh :
    result (.add 1 5 6) 0xFFFFFFFFFFFFFFFF#64 2#64 = 1 ∧ result (.sub 1 5 6) 0#64 1#64 = 0xFFFFFFFFFFFFFFFF#64 ∧
    result (.mulh 1 5 6) 0xFFFFFFFFFFFFFFFF#64 2#64 = 0xFFFFFFFFFFFFFFFF#64 ∧
    result (.mulhu 1 5 6) 0xFFFFFFFFFFFFFFFF#64 2#64 = 1 := by
  decide +kernel

/-- The corners of division (08 R238). -/
theorem test_division_corners :
    result (.div 1 5 6) 7#64 0#64 = 0xFFFFFFFFFFFFFFFF#64 ∧
    result (.div 1 5 6) 0x8000000000000000#64 0xFFFFFFFFFFFFFFFF#64 = 0x8000000000000000#64 ∧
    result (.div 1 5 6) 0xFFFFFFFFFFFFFFF9#64 2#64 = 0xFFFFFFFFFFFFFFFD#64 ∧
    result (.divu 1 5 6) 7#64 0#64 = 0xFFFFFFFFFFFFFFFF#64 ∧ result (.rem 1 5 6) 7#64 0#64 = 7 ∧
    result (.rem 1 5 6) 0x8000000000000000#64 0xFFFFFFFFFFFFFFFF#64 = 0 ∧
    result (.rem 1 5 6) 0xFFFFFFFFFFFFFFF9#64 2#64 = 0xFFFFFFFFFFFFFFFF#64 := by
  decide +kernel

/-- MIN is signed; CLZ of 0 is 64, and POPC counts ones (12 R339, R342). -/
theorem test_min_clz_popc :
    result (.min 1 5 6) 0xFFFFFFFFFFFFFFFF#64 1#64 = 0xFFFFFFFFFFFFFFFF#64 ∧ result (.clz 1 5) 0#64 0#64 = 64 ∧
    result (.clz 1 5) 1#64 0#64 = 63 ∧ result (.popc 1 5) 0xF0F#64 0#64 = 8 := by
  decide +kernel

/-- g0 reads 0 and takes no write (11 R314). -/
theorem test_g0_discards :
    let s := withThr { thr with g := [(5, 9#64)] }
    (after s (exec (.add 0 5 5) s)).g 0 = 0 := by
  decide +kernel

/-! ## Witnesses of single clauses -/

/-- TranslationAndRegisterWrites: tables of job 1 in the pool, no dirty line, a page that migrates away from them; a leaf in error;
an arena that a user kernel keeps, and sizes that are none. -/
theorem test_witness_migration_marks :
    (let s : State := { tables with pool := [(0x12000, some 1)], threads := [(0, { thr with level := .supervisor })] }
     (∀ p ∈ s.pool, p.1 % 8 = 0) ∧ (∀ x ∈ (s.core 0).rlc, x.dirty = 0) ∧ 0x12000 ∈ s.pteAddrs ∧
      (s.release (s.th.effRelease .pkg)).th.job = 1 ∧
      ({ s with ue := [(0x12000, true)] }).walk 1 0x1000 = .bad) ∧
    base.userKernelRuns 1 = true ∧ ((15 % 64 ≠ 0) ∧ 15 % 64 < 16) ∧ 36 < 37 % 64 ∧
    0x1000000014 / 2 ^ 12 % 2 ^ 36 * 4096 % 2 ^ (0x1000000014 % 64) = 0 ∧ 0x1014 / 2 ^ 12 % 2 ^ 36 * 4096 % 2 ^ (0x1014 % 64) ≠ 0 := by
  decide +kernel

/-- MessagesCallsAndRings and MessagesAndCallsComplete: the ring's place; ThreadsAreSpawnedAndQuit: a mask with no free slot;
BarriersQuietWaitsAndQuanta: a port that is up. -/
theorem test_witness_places :
    (ringed.ring 0 2).base % 64 = 0 ∧ 16 ≤ (ringed.ring 0 2).base ∧ base.freeSlots 1 1 0 1#16 = [] ∧
    (podded.pkg.pod.port 0).up = true ∧ (podded.pkg.pod.port 3).up = false := by
  decide +kernel

/-- CopiesHandlesAndCounters: a KIND 3 counter at a word that its home lets it add to, at a latched copy and at a suspended window; a
CPL that a buffered store makes wait. -/
theorem test_witness_increments :
    (let c : Counter := { Counter.init with total := 16, count := 8, armed := true, owner := some 1, kind := 3, arg := 0x1000#56 }
     let s : State := { base with counters := [(0, c)], arg := Arg.ofNV 0 8#64 }
     c.incPa = 0x1000 ∧ c.fw = false ∧ c.kind.toNat = 3 ∧ (c.count + s.arg.v.setWidth 48).toNat = c.total.toNat ∧ c.fired = false) ∧
    noStorage 0x1000 = false ∧ base.foreign 1 0x1000 8 = false ∧ isView 0x1000 = false ∧ base.writeAns 0x1000 8 1 = .ok ∧
    base.hasUe 0x1000 8 = false ∧
    (let s : State := { base with pageTags := [(0, { member := some (0, 1), tag := 0 })],
                                  vsets := [(0, { VSet.init with used := true, latch := [0, 1, 0, 0] })] }
     s.writeAns 0x1000 8 1 = .cause cVintage) ∧
    (let w : Win := { defn := win3, opens := 5, isOpen := true, close := some 20, passed := false, missing := false, byWcl := false }
     let p := { part0 with st := .preempted, heldBytes := [(0, 0, 0x1000)], saved := [(0, { Tile.init with wins := [w] })] }
     let s : State := { base with parts := [(0, p)] }
     s.writeAns 0x8000000100 8 1 = .held 0 ∧ noStorage 0x8000000100 = false) ∧
    (withThr { thr with sb := [{ parts := [], tag := .core, rel := false }] }).th.sb ≠ [] := by
  decide +kernel

/-- BankCommands: a command of two sectors in order, MOM and SSQ with their operands apart from what they write. -/
theorem test_witness_bank_results :
    (let c := { cmd 2 with nsec := 2, a := 0x100040, b := 0x100040 }
     c.op < 12 ∧ base.hasUe c.d 64 = false ∧ (∀ i, i < c.nsec → base.latchedAt (c.d + 32 * i) = false) ∧ overlap c.d 64 c.a 64 = 0) ∧
    (let c := cmd 6
     overlap c.d 32 c.a 32 = 0 ∧ overlap c.d 32 c.b 32 = 0 ∧ overlap c.a 32 c.b 32 = 0 ∧ base.hasUe c.a 32 = false) ∧
    ((cmd 8).op = 8 ∨ (cmd 8).op = 9) ∧ base.hasUe (cmd 8).d 4 = false := by
  decide +kernel

/-- StreamTransfersAndExchange and StreamFormatsAndMath: a count of 0, so that the stream issues again in the cycle; the ends of a
result of 4 bytes, one of them in a granule in error. -/
theorem test_witness_stream_ends :
    ceilDiv (16 * (0#14).toNat) 64 = 0 ∧ Nat.min (plane.kr 2).toNat 65536 = 0 ∧ brokenEnds 0x800 4 = [(0x803, 1)] ∧
    plane.sramUe 0 0x803 1 = false ∧ ({ plane with ue := [(0x8000000800, true)] }).sramUe 0 0x803 1 = true := by
  decide +kernel

/-- JobCommands: a query of copy 1; DeadlinesHangsAndGating: a job that has not started at its deadline; TimeAndSideband: the root
of a formed pod, a claim on an exhausted package; MemoriesAreMaintained: the end of a pass. -/
theorem test_witness_package_points :
    (let s := withSet (sent 0xA 1 [3, 0, 0, 0, 0, 1]); (its s).arg 20 1 = 0 ∧ (its s).arg 21 1 = 1 ∧ s.cmdRefused (its s) = none) ∧
    (let x := { base.job 1 with cls := 0 }; x.started = false ∧ x.missed = false ∧ x.deadline.toNat ≤ base.pkg.clock.ptime.toNat) ∧
    (podded.pkg.pod.form = true ∧ podded.pkg.pod.isRoot = true ∧ (podded.eth 2).up = true ∧ ptpForm [0#8, 1#8, 1#8, 1#8] = true) ∧
    (podded.setPower { podded.pkg.power with exhausted := true }).pkg.power.exhausted = true ∧ (podded.job 1).st ≠ .closed ∧
    (let p := { base.pkg with scrubNext := 2 ^ 34 - 1 }
     p.scrubNext + 1 = 2 ^ 34 ∧ 1 ≤ (168#64).toNat ∧ (168#64).toNat ≤ 168 ∧ 32 * p.scrubNext < tileBase) := by
  decide +kernel

/-- AtomicsAndRegionsComplete: a doubleword of the full/empty view. -/
theorem test_witness_view_atomics :
    let s := withThr { thr with g := [(5, 0x8108001000#64)] }
    (s.g 5).toNat % 8 = 0 ∧ s.xlate s.cur (s.g 5).toNat needRw = .pa 0x8108001000 leaf ∧ noStorage 0x8108001000 = false ∧
    isView 0x8108001000 = true ∧ s.readAns 0x8108001000 8 1 = .ok ∧ s.writeAns 0x8108001000 8 1 = .ok := by
  decide +kernel

end Sys2Proof.Tests
end

section
/-! PROOF. Encode of decode for Jalgal-N words (00 R8, R9; 12 R335). A format's fields and fixed bits tile the word from the
opcode down to bit 0, so a word whose fixed bits hold their values is rebuilt by the encoder from its fields: each format is
one chain of `Upto` steps that names its bits from the top down. -/

namespace Sys2Proof.EncodeOfDecode

open Sys2Proof

/-! ## A word rebuilt from the top down -/

/-- `x` holds the bits of `w` from bit `s` up, and zeros below. -/
def Upto (w : BitVec 32) (s : Nat) (x : BitVec 32) : Prop :=
  ∀ j, x.getLsbD j = (decide (s ≤ j) && w.getLsbD j)

section
variable {w x : BitVec 32}

theorem Upto.eq (hx : Upto w 0 x) : x = w :=
  BitVec.eq_of_getLsbD_eq fun j _ => by simpa using hx j

/-- The next lower bits of `w`, put in their place. -/
theorem Upto.field (s n : Nat) (hx : Upto w (s + n) x) :
    Upto w s (x ||| (w.extractLsb' s n).setWidth 32 <<< s) := by
  intro j
  simp only [BitVec.getLsbD_or, hx j, BitVec.getLsbD_shiftLeft, BitVec.getLsbD_setWidth, BitVec.getLsbD_extractLsb']
  by_cases hj : s ≤ j
  · have htop : 32 ≤ j → w.getLsbD j = false := BitVec.getLsbD_of_ge w j
    rw [Nat.add_sub_cancel' hj]
    grind
  · have hlow : ¬ s + n ≤ j := by omega
    simp [hj, hlow, Nat.not_le.mp hj]

theorem Upto.opcode {opc : Nat} (hop : (w.extractLsb' 24 8).toNat = opc) :
    Upto w 24 ((BitVec.ofNat 8 opc).setWidth 32 <<< 24) := by
  have hnone : Upto w 32 0#32 := fun j => by
    by_cases hj : 32 ≤ j
    · simp [BitVec.getLsbD_of_ge w j hj]
    · simp [hj]
  rw [← hop, BitVec.ofNat_toNat, BitVec.setWidth_eq]
  simpa only [BitVec.zero_or] using hnone.field 24 8

/-- The lowest field of a format is written without a shift. -/
theorem Upto.last (n : Nat) (hx : Upto w n x) : Upto w 0 (x ||| (w.extractLsb' 0 n).setWidth 32) := by
  simpa using Upto.field 0 n (by simpa using hx)

/-- Fixed bits stand in the encoder's word as the constant `c`. -/
theorem Upto.fixed (s n : Nat) (c : BitVec 32) {v : BitVec n} (hv : w.extractLsb' s n = v) (hx : Upto w (s + n) x)
    (hc : v.setWidth 32 <<< s = c := by decide) : Upto w s (x ||| c) := by
  subst hc hv
  exact hx.field s n

/-- Fixed bits of value zero do not stand in the encoder's word at all. -/
theorem Upto.zero (s n : Nat) (hz : w.extractLsb' s n = 0#n) (hx : Upto w (s + n) x) : Upto w s x := by
  simpa [hz] using hx.field s n

end

/-! ## Decoders that the encoder undoes -/

/-- What `dec` reads from a word of opcode `opc` has that word. -/
def ReadsBack (opc : Nat) (dec : BitVec 32 → Option Instr) : Prop :=
  ∀ w i, (w.extractLsb' 24 8).toNat = opc → dec w = some i → encode i = .w32 w

section
variable {opc : Nat} {x : BitVec 32 → Instr} {y : BitVec 32 → BitVec 32}

/-- A format without fixed bits. -/
theorem readsBack_some (hk : ∀ w, encode (x w) = .w32 (y w))
    (hy : ∀ w, (w.extractLsb' 24 8).toNat = opc → Upto w 0 (y w)) : ReadsBack opc fun w => some (x w) := by
  rintro w i hop h
  obtain rfl := Option.some.inj h
  rw [hk, (hy w hop).eq]

/-- A format whose fixed bits hold their values where `P` holds. -/
theorem readsBack_ite {P : BitVec 32 → Prop} [DecidablePred P] (hk : ∀ w, encode (x w) = .w32 (y w))
    (hy : ∀ w, (w.extractLsb' 24 8).toNat = opc → P w → Upto w 0 (y w)) :
    ReadsBack opc fun w => if P w then some (x w) else none := by
  intro w i hop h
  obtain ⟨hP, hi⟩ := Option.ite_none_right_eq_some.mp h
  obtain rfl := Option.some.inj hi
  rw [hk, (hy w hop hP).eq]

/-- Two formats under one opcode. -/
theorem ReadsBack.orElse {f g : BitVec 32 → Option Instr} (hf : ReadsBack opc f) (hg : ReadsBack opc g) :
    ReadsBack opc fun w => f w <|> g w := by
  intro w i hop h
  cases hfw : f w with
  | some j => exact hf w i hop (by simpa [hfw] using h)
  | none => exact hg w i hop (by simpa [hfw] using h)

end

/-! ## The formats

One lemma for each format of 11 R312 to R323: where the encoder gives what `k` makes the format's word under opcode `opc`,
the format's decoder for `k` reads back. The chain lists the format's fields and fixed bits by position and width. -/

section
variable {opc : Nat}

theorem readsBack_decNDAB {k : BitVec 5 → BitVec 5 → BitVec 5 → Instr}
    (hk : ∀ d a b, encode (k d a b) = .w32 (encNDAB (.ofNat 8 opc) d a b)) :
    ReadsBack opc (decNDAB k) :=
  readsBack_ite (fun _ => hk _ _ _) fun _ hop h0 =>
    Upto.opcode hop |>.field 19 5 |>.field 14 5 |>.field 9 5 |>.zero 0 9 h0

theorem readsBack_decNDAImm {k : BitVec 5 → BitVec 5 → BitVec 14 → Instr}
    (hk : ∀ d a imm, encode (k d a imm) = .w32 (encNDAImm (.ofNat 8 opc) d a imm)) :
    ReadsBack opc (decNDAImm k) :=
  readsBack_some (fun _ => hk _ _ _) fun _ hop =>
    Upto.opcode hop |>.field 19 5 |>.field 14 5 |>.last 14

theorem readsBack_decNDBaseIdxSc {k : BitVec 5 → BitVec 5 → BitVec 5 → BitVec 2 → Instr}
    (hk : ∀ d base idx sc, encode (k d base idx sc) = .w32 (encNDBaseIdxSc (.ofNat 8 opc) d base idx sc)) :
    ReadsBack opc (decNDBaseIdxSc k) :=
  readsBack_ite (fun _ => hk _ _ _ _) fun _ hop h0 =>
    Upto.opcode hop |>.field 19 5 |>.field 14 5 |>.field 9 5 |>.zero 2 7 h0 |>.last 2

theorem readsBack_decNDA {k : BitVec 5 → BitVec 5 → Instr}
    (hk : ∀ d a, encode (k d a) = .w32 (encNDA (.ofNat 8 opc) d a)) :
    ReadsBack opc (decNDA k) :=
  readsBack_ite (fun _ => hk _ _) fun _ hop h0 =>
    Upto.opcode hop |>.field 19 5 |>.field 14 5 |>.zero 0 14 h0

theorem readsBack_decNDAPosLen1 {k : BitVec 5 → BitVec 5 → BitVec 6 → BitVec 6 → Instr}
    (hk : ∀ d a pos len1, encode (k d a pos len1) = .w32 (encNDAPosLen1 (.ofNat 8 opc) d a pos len1)) :
    ReadsBack opc (decNDAPosLen1 k) :=
  readsBack_ite (fun _ => hk _ _ _ _) fun _ hop h0 =>
    Upto.opcode hop |>.field 19 5 |>.field 14 5 |>.field 8 6 |>.field 2 6 |>.zero 0 2 h0

theorem readsBack_decNCondNAB {k : BitVec 4 → BitVec 2 → BitVec 5 → BitVec 5 → Instr}
    (hk : ∀ cond n a b, encode (k cond n a b) = .w32 (encNCondNAB (.ofNat 8 opc) cond n a b)) :
    ReadsBack opc (decNCondNAB k) :=
  readsBack_ite (fun _ => hk _ _ _ _) fun _ hop h0 =>
    Upto.opcode hop |>.field 20 4 |>.field 18 2 |>.field 13 5 |>.field 8 5 |>.zero 0 8 h0

theorem readsBack_decNCondNAImm {k : BitVec 4 → BitVec 2 → BitVec 5 → BitVec 13 → Instr}
    (hk : ∀ cond n a imm, encode (k cond n a imm) = .w32 (encNCondNAImm (.ofNat 8 opc) cond n a imm)) :
    ReadsBack opc (decNCondNAImm k) :=
  readsBack_some (fun _ => hk _ _ _ _) fun _ hop =>
    Upto.opcode hop |>.field 20 4 |>.field 18 2 |>.field 13 5 |>.last 13

theorem readsBack_decNPCondNAB {k : BitVec 1 → BitVec 3 → BitVec 2 → BitVec 5 → BitVec 5 → Instr}
    (hk : ∀ p cond n a b, encode (k p cond n a b) = .w32 (encNPCondNAB (.ofNat 8 opc) p cond n a b)) :
    ReadsBack opc (decNPCondNAB k) :=
  readsBack_ite (fun _ => hk _ _ _ _ _) fun _ hop h0 =>
    Upto.opcode hop |>.field 23 1 |>.field 20 3 |>.field 18 2 |>.field 13 5 |>.field 8 5 |>.zero 0 8 h0

theorem readsBack_decNImm {k : BitVec 24 → Instr}
    (hk : ∀ imm, encode (k imm) = .w32 (encNImm (.ofNat 8 opc) imm)) :
    ReadsBack opc (decNImm k) :=
  readsBack_some (fun _ => hk _) fun _ hop =>
    Upto.opcode hop |>.last 24

theorem readsBack_decNA {k : BitVec 5 → Instr}
    (hk : ∀ a, encode (k a) = .w32 (encNA (.ofNat 8 opc) a)) :
    ReadsBack opc (decNA k) :=
  readsBack_ite (fun _ => hk _) fun _ hop ⟨h0, h1⟩ =>
    Upto.opcode hop |>.zero 19 5 h0 |>.field 14 5 |>.zero 0 14 h1

theorem readsBack_decNNone {k : Instr}
    (hk : encode k = .w32 (encNNone (.ofNat 8 opc))) :
    ReadsBack opc (decNNone k) :=
  readsBack_ite (fun _ => hk) fun _ hop h0 =>
    Upto.opcode hop |>.zero 0 24 h0

theorem readsBack_decNDImm {k : BitVec 5 → BitVec 14 → Instr}
    (hk : ∀ d imm, encode (k d imm) = .w32 (encNDImm (.ofNat 8 opc) d imm)) :
    ReadsBack opc (decNDImm k) :=
  readsBack_ite (fun _ => hk _ _) fun _ hop h0 =>
    Upto.opcode hop |>.field 19 5 |>.zero 14 5 h0 |>.last 14

theorem readsBack_decNDBaseOrdOffWc {k : BitVec 5 → BitVec 5 → BitVec 2 → BitVec 9 → BitVec 3 → Instr}
    (hk : ∀ d base ord off wc, encode (k d base ord off wc) =
      .w32 (encNDBaseOrdOffWc (.ofNat 8 opc) d base ord off wc)) :
    ReadsBack opc (decNDBaseOrdOffWc k) :=
  readsBack_some (fun _ => hk _ _ _ _ _) fun _ hop =>
    Upto.opcode hop |>.field 19 5 |>.field 14 5 |>.field 12 2 |>.field 3 9 |>.last 3

theorem readsBack_decNDBaseIdxWcOrdSc {k : BitVec 5 → BitVec 5 → BitVec 5 → BitVec 3 → BitVec 2 → BitVec 2 → Instr}
    (hk : ∀ d base idx wc ord sc, encode (k d base idx wc ord sc) =
      .w32 (encNDBaseIdxWcOrdSc (.ofNat 8 opc) d base idx wc ord sc)) :
    ReadsBack opc (decNDBaseIdxWcOrdSc k) :=
  readsBack_ite (fun _ => hk _ _ _ _ _ _) fun _ hop ⟨h0, h1⟩ =>
    Upto.opcode hop |>.field 19 5 |>.field 14 5 |>.field 9 5 |>.zero 8 1 h0 |>.field 5 3 |>.zero 4 1 h1 |>.field 2 2
      |>.last 2

theorem readsBack_decNBaseOff {k : BitVec 5 → BitVec 9 → Instr}
    (hk : ∀ base off, encode (k base off) = .w32 (encNBaseOff (.ofNat 8 opc) base off)) :
    ReadsBack opc (decNBaseOff k) :=
  readsBack_ite (fun _ => hk _ _) fun _ hop ⟨h0, h1, h2⟩ =>
    Upto.opcode hop |>.zero 19 5 h0 |>.field 14 5 |>.zero 12 2 h1 |>.field 3 9 |>.fixed 0 3 3 h2

theorem readsBack_decNDBaseOff {k : BitVec 5 → BitVec 5 → BitVec 9 → Instr}
    (hk : ∀ d base off, encode (k d base off) = .w32 (encNDBaseOff (.ofNat 8 opc) d base off)) :
    ReadsBack opc (decNDBaseOff k) :=
  readsBack_ite (fun _ => hk _ _ _) fun _ hop ⟨h0, h1⟩ =>
    Upto.opcode hop |>.field 19 5 |>.field 14 5 |>.zero 12 2 h0 |>.field 3 9 |>.fixed 0 3 3 h1

theorem readsBack_decNDABWOrdFn {k : BitVec 5 → BitVec 5 → BitVec 5 → BitVec 1 → BitVec 2 → BitVec 4 → Instr}
    (hk : ∀ d a b w ord fn, encode (k d a b w ord fn) = .w32 (encNDABWOrdFn (.ofNat 8 opc) d a b w ord fn)) :
    ReadsBack opc (decNDABWOrdFn k) :=
  readsBack_ite (fun _ => hk _ _ _ _ _ _) fun _ hop h0 =>
    Upto.opcode hop |>.field 19 5 |>.field 14 5 |>.field 9 5 |>.field 8 1 |>.field 6 2 |>.zero 4 2 h0 |>.last 4

theorem readsBack_decNDABCWOrd {k : BitVec 5 → BitVec 5 → BitVec 5 → BitVec 5 → BitVec 1 → BitVec 2 → Instr}
    (hk : ∀ d a b c w ord, encode (k d a b c w ord) = .w32 (encNDABCWOrd (.ofNat 8 opc) d a b c w ord)) :
    ReadsBack opc (decNDABCWOrd k) :=
  readsBack_ite (fun _ => hk _ _ _ _ _ _) fun _ hop h0 =>
    Upto.opcode hop |>.field 19 5 |>.field 14 5 |>.field 9 5 |>.field 4 5 |>.field 3 1 |>.field 1 2 |>.zero 0 1 h0

theorem readsBack_decNDBaseOffWc {k : BitVec 5 → BitVec 5 → BitVec 9 → BitVec 3 → Instr}
    (hk : ∀ d base off wc, encode (k d base off wc) = .w32 (encNDBaseOffWc (.ofNat 8 opc) d base off wc)) :
    ReadsBack opc (decNDBaseOffWc k) :=
  readsBack_ite (fun _ => hk _ _ _ _) fun _ hop h0 =>
    Upto.opcode hop |>.field 19 5 |>.field 14 5 |>.zero 12 2 h0 |>.field 3 9 |>.last 3

theorem readsBack_decNSc {k : BitVec 3 → Instr}
    (hk : ∀ sc, encode (k sc) = .w32 (encNSc (.ofNat 8 opc) sc)) :
    ReadsBack opc (decNSc k) :=
  readsBack_ite (fun _ => hk _) fun _ hop h0 =>
    Upto.opcode hop |>.zero 3 21 h0 |>.last 3

theorem readsBack_decNASc {k : BitVec 5 → BitVec 3 → Instr}
    (hk : ∀ a sc, encode (k a sc) = .w32 (encNASc (.ofNat 8 opc) a sc)) :
    ReadsBack opc (decNASc k) :=
  readsBack_ite (fun _ => hk _ _) fun _ hop ⟨h0, h1⟩ =>
    Upto.opcode hop |>.zero 19 5 h0 |>.field 14 5 |>.zero 3 11 h1 |>.last 3

theorem readsBack_decNDABRmP {k : BitVec 5 → BitVec 5 → BitVec 5 → BitVec 3 → BitVec 1 → Instr}
    (hk : ∀ d a b rm p, encode (k d a b rm p) = .w32 (encNDABRmP (.ofNat 8 opc) d a b rm p)) :
    ReadsBack opc (decNDABRmP k) :=
  readsBack_ite (fun _ => hk _ _ _ _ _) fun _ hop h0 =>
    Upto.opcode hop |>.field 19 5 |>.field 14 5 |>.field 9 5 |>.zero 4 5 h0 |>.field 1 3 |>.last 1

theorem readsBack_decNDARmP {k : BitVec 5 → BitVec 5 → BitVec 3 → BitVec 1 → Instr}
    (hk : ∀ d a rm p, encode (k d a rm p) = .w32 (encNDARmP (.ofNat 8 opc) d a rm p)) :
    ReadsBack opc (decNDARmP k) :=
  readsBack_ite (fun _ => hk _ _ _ _) fun _ hop h0 =>
    Upto.opcode hop |>.field 19 5 |>.field 14 5 |>.zero 4 10 h0 |>.field 1 3 |>.last 1

theorem readsBack_decNDABCRmP {k : BitVec 5 → BitVec 5 → BitVec 5 → BitVec 5 → BitVec 3 → BitVec 1 → Instr}
    (hk : ∀ d a b c rm p, encode (k d a b c rm p) = .w32 (encNDABCRmP (.ofNat 8 opc) d a b c rm p)) :
    ReadsBack opc (decNDABCRmP k) :=
  readsBack_some (fun _ => hk _ _ _ _ _ _) fun _ hop =>
    Upto.opcode hop |>.field 19 5 |>.field 14 5 |>.field 9 5 |>.field 4 5 |>.field 1 3 |>.last 1

theorem readsBack_decNDABP {k : BitVec 5 → BitVec 5 → BitVec 5 → BitVec 1 → Instr}
    (hk : ∀ d a b p, encode (k d a b p) = .w32 (encNDABP (.ofNat 8 opc) d a b p)) :
    ReadsBack opc (decNDABP k) :=
  readsBack_ite (fun _ => hk _ _ _ _) fun _ hop h0 =>
    Upto.opcode hop |>.field 19 5 |>.field 14 5 |>.field 9 5 |>.zero 1 8 h0 |>.last 1

theorem readsBack_decNDABKindRm {k : BitVec 5 → BitVec 5 → BitVec 5 → BitVec 5 → BitVec 3 → Instr}
    (hk : ∀ d a b kind rm, encode (k d a b kind rm) = .w32 (encNDABKindRm (.ofNat 8 opc) d a b kind rm)) :
    ReadsBack opc (decNDABKindRm k) :=
  readsBack_ite (fun _ => hk _ _ _ _ _) fun _ hop h0 =>
    Upto.opcode hop |>.field 19 5 |>.field 14 5 |>.field 9 5 |>.field 4 5 |>.field 1 3 |>.zero 0 1 h0

theorem readsBack_decNDAP {k : BitVec 5 → BitVec 5 → BitVec 1 → Instr}
    (hk : ∀ d a p, encode (k d a p) = .w32 (encNDAP (.ofNat 8 opc) d a p)) :
    ReadsBack opc (decNDAP k) :=
  readsBack_ite (fun _ => hk _ _ _) fun _ hop h0 =>
    Upto.opcode hop |>.field 19 5 |>.field 14 5 |>.zero 1 13 h0 |>.last 1

theorem readsBack_decNVdVaVbMeVmPolEwFn
    {k : BitVec 3 → BitVec 3 → BitVec 3 → BitVec 1 → BitVec 3 → BitVec 1 → BitVec 3 → BitVec 4 → Instr}
    (hk : ∀ vd va vb me vm pol ew fn, encode (k vd va vb me vm pol ew fn) =
      .w32 (encNVdVaVbMeVmPolEwFn (.ofNat 8 opc) vd va vb me vm pol ew fn)) :
    ReadsBack opc (decNVdVaVbMeVmPolEwFn k) :=
  readsBack_ite (fun _ => hk _ _ _ _ _ _ _ _) fun _ hop h0 =>
    Upto.opcode hop |>.field 21 3 |>.field 18 3 |>.field 15 3 |>.zero 12 3 h0 |>.field 11 1 |>.field 8 3 |>.field 7 1
      |>.field 4 3 |>.last 4

theorem readsBack_decNVdVaVbVcMeVmPolEwFn
    {k : BitVec 3 → BitVec 3 → BitVec 3 → BitVec 3 → BitVec 1 → BitVec 3 → BitVec 1 → BitVec 3 → BitVec 4 → Instr}
    (hk : ∀ vd va vb vc me vm pol ew fn, encode (k vd va vb vc me vm pol ew fn) =
      .w32 (encNVdVaVbVcMeVmPolEwFn (.ofNat 8 opc) vd va vb vc me vm pol ew fn)) :
    ReadsBack opc (decNVdVaVbVcMeVmPolEwFn k) :=
  readsBack_some (fun _ => hk _ _ _ _ _ _ _ _ _) fun _ hop =>
    Upto.opcode hop |>.field 21 3 |>.field 18 3 |>.field 15 3 |>.field 12 3 |>.field 11 1 |>.field 8 3 |>.field 7 1
      |>.field 4 3 |>.last 4

theorem readsBack_decNVdVaVbMeVmPolFn
    {k : BitVec 3 → BitVec 3 → BitVec 3 → BitVec 1 → BitVec 3 → BitVec 1 → BitVec 4 → Instr}
    (hk : ∀ vd va vb me vm pol fn, encode (k vd va vb me vm pol fn) =
      .w32 (encNVdVaVbMeVmPolFn (.ofNat 8 opc) vd va vb me vm pol fn)) :
    ReadsBack opc (decNVdVaVbMeVmPolFn k) :=
  readsBack_ite (fun _ => hk _ _ _ _ _ _ _) fun _ hop ⟨h0, h1⟩ =>
    Upto.opcode hop |>.field 21 3 |>.field 18 3 |>.field 15 3 |>.zero 12 3 h0 |>.field 11 1 |>.field 8 3 |>.field 7 1
      |>.fixed 4 3 48 h1 |>.last 4

theorem readsBack_decNVdVaVbVcMeVmPol
    {k : BitVec 3 → BitVec 3 → BitVec 3 → BitVec 3 → BitVec 1 → BitVec 3 → BitVec 1 → Instr}
    (hk : ∀ vd va vb vc me vm pol, encode (k vd va vb vc me vm pol) =
      .w32 (encNVdVaVbVcMeVmPol (.ofNat 8 opc) vd va vb vc me vm pol)) :
    ReadsBack opc (decNVdVaVbVcMeVmPol k) :=
  readsBack_ite (fun _ => hk _ _ _ _ _ _ _) fun _ hop h0 =>
    Upto.opcode hop |>.field 21 3 |>.field 18 3 |>.field 15 3 |>.field 12 3 |>.field 11 1 |>.field 8 3 |>.field 7 1
      |>.fixed 0 7 48 h0

theorem readsBack_decNVdVaMeVmEwFn {k : BitVec 3 → BitVec 3 → BitVec 1 → BitVec 3 → BitVec 3 → BitVec 4 → Instr}
    (hk : ∀ vd va me vm ew fn, encode (k vd va me vm ew fn) = .w32 (encNVdVaMeVmEwFn (.ofNat 8 opc) vd va me vm ew fn)) :
    ReadsBack opc (decNVdVaMeVmEwFn k) :=
  readsBack_ite (fun _ => hk _ _ _ _ _ _) fun _ hop ⟨h0, h1⟩ =>
    Upto.opcode hop |>.field 21 3 |>.field 18 3 |>.zero 12 6 h0 |>.field 11 1 |>.field 8 3 |>.zero 7 1 h1 |>.field 4 3
      |>.last 4

theorem readsBack_decNVdGaMeVmPolOrd {k : BitVec 3 → BitVec 5 → BitVec 1 → BitVec 3 → BitVec 1 → BitVec 2 → Instr}
    (hk : ∀ vd ga me vm pol ord, encode (k vd ga me vm pol ord) =
      .w32 (encNVdGaMeVmPolOrd (.ofNat 8 opc) vd ga me vm pol ord)) :
    ReadsBack opc (decNVdGaMeVmPolOrd k) :=
  readsBack_ite (fun _ => hk _ _ _ _ _ _) fun _ hop ⟨h0, h1⟩ =>
    Upto.opcode hop |>.field 21 3 |>.field 16 5 |>.zero 12 4 h0 |>.field 11 1 |>.field 8 3 |>.field 7 1
      |>.fixed 2 5 48 h1 |>.last 2

theorem readsBack_decNVdGaVcMeVmPolSc
    {k : BitVec 3 → BitVec 5 → BitVec 3 → BitVec 1 → BitVec 3 → BitVec 1 → BitVec 2 → Instr}
    (hk : ∀ vd ga vc me vm pol sc, encode (k vd ga vc me vm pol sc) =
      .w32 (encNVdGaVcMeVmPolSc (.ofNat 8 opc) vd ga vc me vm pol sc)) :
    ReadsBack opc (decNVdGaVcMeVmPolSc k) :=
  readsBack_ite (fun _ => hk _ _ _ _ _ _ _) fun _ hop ⟨h0, h1⟩ =>
    Upto.opcode hop |>.field 21 3 |>.field 16 5 |>.zero 15 1 h0 |>.field 12 3 |>.field 11 1 |>.field 8 3 |>.field 7 1
      |>.fixed 2 5 48 h1 |>.last 2

theorem readsBack_decNVdGaMeVmPolEw {k : BitVec 3 → BitVec 5 → BitVec 1 → BitVec 3 → BitVec 1 → BitVec 3 → Instr}
    (hk : ∀ vd ga me vm pol ew, encode (k vd ga me vm pol ew) =
      .w32 (encNVdGaMeVmPolEw (.ofNat 8 opc) vd ga me vm pol ew)) :
    ReadsBack opc (decNVdGaMeVmPolEw k) :=
  readsBack_ite (fun _ => hk _ _ _ _ _ _) fun _ hop ⟨h0, h1⟩ =>
    Upto.opcode hop |>.field 21 3 |>.field 16 5 |>.zero 12 4 h0 |>.field 11 1 |>.field 8 3 |>.field 7 1 |>.field 4 3
      |>.zero 0 4 h1

theorem readsBack_decNVdGaLaneEwJ {k : BitVec 3 → BitVec 5 → BitVec 3 → BitVec 3 → BitVec 3 → Instr}
    (hk : ∀ vd ga lane ew j, encode (k vd ga lane ew j) = .w32 (encNVdGaLaneEwJ (.ofNat 8 opc) vd ga lane ew j)) :
    ReadsBack opc (decNVdGaLaneEwJ k) :=
  readsBack_ite (fun _ => hk _ _ _ _ _) fun _ hop ⟨h0, h1, h2⟩ =>
    Upto.opcode hop |>.field 21 3 |>.field 16 5 |>.zero 15 1 h0 |>.field 12 3 |>.zero 7 5 h1 |>.field 4 3 |>.zero 3 1 h2
      |>.last 3

theorem readsBack_decNVdVaVbVcMeVmPolFn
    {k : BitVec 3 → BitVec 3 → BitVec 3 → BitVec 3 → BitVec 1 → BitVec 3 → BitVec 1 → BitVec 1 → Instr}
    (hk : ∀ vd va vb vc me vm pol fn, encode (k vd va vb vc me vm pol fn) =
      .w32 (encNVdVaVbVcMeVmPolFn (.ofNat 8 opc) vd va vb vc me vm pol fn)) :
    ReadsBack opc (decNVdVaVbVcMeVmPolFn k) :=
  readsBack_ite (fun _ => hk _ _ _ _ _ _ _ _) fun _ hop h0 =>
    Upto.opcode hop |>.field 21 3 |>.field 18 3 |>.field 15 3 |>.field 12 3 |>.field 11 1 |>.field 8 3 |>.field 7 1
      |>.fixed 1 6 48 h0 |>.last 1

theorem readsBack_decNVdVaVbSewMeVmPolEwHiRm
    {k : BitVec 3 → BitVec 3 → BitVec 3 → BitVec 3 → BitVec 1 →
      BitVec 3 → BitVec 1 → BitVec 3 → BitVec 1 → BitVec 3 → Instr}
    (hk : ∀ vd va vb sew me vm pol ew hi rm, encode (k vd va vb sew me vm pol ew hi rm) =
      .w32 (encNVdVaVbSewMeVmPolEwHiRm (.ofNat 8 opc) vd va vb sew me vm pol ew hi rm)) :
    ReadsBack opc (decNVdVaVbSewMeVmPolEwHiRm k) :=
  readsBack_some (fun _ => hk _ _ _ _ _ _ _ _ _ _) fun _ hop =>
    Upto.opcode hop |>.field 21 3 |>.field 18 3 |>.field 15 3 |>.field 12 3 |>.field 11 1 |>.field 8 3 |>.field 7 1
      |>.field 4 3 |>.field 3 1 |>.last 3

theorem readsBack_decNABC {k : BitVec 5 → BitVec 5 → BitVec 5 → Instr}
    (hk : ∀ a b c, encode (k a b c) = .w32 (encNABC (.ofNat 8 opc) a b c)) :
    ReadsBack opc (decNABC k) :=
  readsBack_ite (fun _ => hk _ _ _) fun _ hop ⟨h0, h1⟩ =>
    Upto.opcode hop |>.zero 19 5 h0 |>.field 14 5 |>.field 9 5 |>.field 4 5 |>.zero 0 4 h1

theorem readsBack_decNDABC {k : BitVec 5 → BitVec 5 → BitVec 5 → BitVec 5 → Instr}
    (hk : ∀ d a b c, encode (k d a b c) = .w32 (encNDABC (.ofNat 8 opc) d a b c)) :
    ReadsBack opc (decNDABC k) :=
  readsBack_ite (fun _ => hk _ _ _ _) fun _ hop h0 =>
    Upto.opcode hop |>.field 19 5 |>.field 14 5 |>.field 9 5 |>.field 4 5 |>.zero 0 4 h0

theorem readsBack_decNAIdSc {k : BitVec 5 → BitVec 3 → BitVec 3 → Instr}
    (hk : ∀ a id sc, encode (k a id sc) = .w32 (encNAIdSc (.ofNat 8 opc) a id sc)) :
    ReadsBack opc (decNAIdSc k) :=
  readsBack_ite (fun _ => hk _ _ _) fun _ hop ⟨h0, h1⟩ =>
    Upto.opcode hop |>.zero 19 5 h0 |>.field 14 5 |>.zero 6 8 h1 |>.field 3 3 |>.last 3

theorem readsBack_decNASel {k : BitVec 5 → BitVec 14 → Instr}
    (hk : ∀ a sel, encode (k a sel) = .w32 (encNASel (.ofNat 8 opc) a sel)) :
    ReadsBack opc (decNASel k) :=
  readsBack_ite (fun _ => hk _ _) fun _ hop h0 =>
    Upto.opcode hop |>.zero 19 5 h0 |>.field 14 5 |>.last 14

theorem readsBack_decND {k : BitVec 5 → Instr}
    (hk : ∀ d, encode (k d) = .w32 (encND (.ofNat 8 opc) d)) :
    ReadsBack opc (decND k) :=
  readsBack_ite (fun _ => hk _) fun _ hop h0 =>
    Upto.opcode hop |>.field 19 5 |>.zero 0 19 h0

theorem readsBack_decNStH {k : BitVec 2 → BitVec 5 → Instr}
    (hk : ∀ st h, encode (k st h) = .w32 (encNStH (.ofNat 8 opc) st h)) :
    ReadsBack opc (decNStH k) :=
  readsBack_ite (fun _ => hk _ _) fun _ hop h0 =>
    Upto.opcode hop |>.zero 7 17 h0 |>.field 5 2 |>.last 5

theorem readsBack_decNH {k : BitVec 5 → Instr}
    (hk : ∀ h, encode (k h) = .w32 (encNH (.ofNat 8 opc) h)) :
    ReadsBack opc (decNH k) :=
  readsBack_ite (fun _ => hk _) fun _ hop h0 =>
    Upto.opcode hop |>.zero 5 19 h0 |>.last 5

theorem readsBack_decNABCW {k : BitVec 5 → BitVec 5 → BitVec 5 → BitVec 2 → Instr}
    (hk : ∀ a b c w, encode (k a b c w) = .w32 (encNABCW (.ofNat 8 opc) a b c w)) :
    ReadsBack opc (decNABCW k) :=
  readsBack_ite (fun _ => hk _ _ _ _) fun _ hop ⟨h0, h1⟩ =>
    Upto.opcode hop |>.zero 19 5 h0 |>.field 14 5 |>.field 9 5 |>.field 4 5 |>.zero 2 2 h1 |>.last 2

theorem readsBack_decNABCRelKind {k : BitVec 5 → BitVec 5 → BitVec 5 → BitVec 1 → BitVec 1 → Instr}
    (hk : ∀ a b c rel kind, encode (k a b c rel kind) = .w32 (encNABCRelKind (.ofNat 8 opc) a b c rel kind)) :
    ReadsBack opc (decNABCRelKind k) :=
  readsBack_ite (fun _ => hk _ _ _ _ _) fun _ hop ⟨h0, h1⟩ =>
    Upto.opcode hop |>.zero 19 5 h0 |>.field 14 5 |>.field 9 5 |>.field 4 5 |>.zero 2 2 h1 |>.field 1 1 |>.last 1

theorem readsBack_decNAB {k : BitVec 5 → BitVec 5 → Instr}
    (hk : ∀ a b, encode (k a b) = .w32 (encNAB (.ofNat 8 opc) a b)) :
    ReadsBack opc (decNAB k) :=
  readsBack_ite (fun _ => hk _ _) fun _ hop ⟨h0, h1⟩ =>
    Upto.opcode hop |>.zero 19 5 h0 |>.field 14 5 |>.field 9 5 |>.zero 0 9 h1

theorem readsBack_decNVdVaVbVcMeVmPolEw
    {k : BitVec 3 → BitVec 3 → BitVec 3 → BitVec 3 → BitVec 1 → BitVec 3 → BitVec 1 → BitVec 3 → Instr}
    (hk : ∀ vd va vb vc me vm pol ew, encode (k vd va vb vc me vm pol ew) =
      .w32 (encNVdVaVbVcMeVmPolEw (.ofNat 8 opc) vd va vb vc me vm pol ew)) :
    ReadsBack opc (decNVdVaVbVcMeVmPolEw k) :=
  readsBack_ite (fun _ => hk _ _ _ _ _ _ _ _) fun _ hop h0 =>
    Upto.opcode hop |>.field 21 3 |>.field 18 3 |>.field 15 3 |>.field 12 3 |>.field 11 1 |>.field 8 3 |>.field 7 1
      |>.field 4 3 |>.zero 0 4 h0

theorem readsBack_decNVdVaVbVcMeVmPolFn2
    {k : BitVec 3 → BitVec 3 → BitVec 3 → BitVec 3 → BitVec 1 → BitVec 3 → BitVec 1 → BitVec 4 → Instr}
    (hk : ∀ vd va vb vc me vm pol fn, encode (k vd va vb vc me vm pol fn) =
      .w32 (encNVdVaVbVcMeVmPolFn2 (.ofNat 8 opc) vd va vb vc me vm pol fn)) :
    ReadsBack opc (decNVdVaVbVcMeVmPolFn2 k) :=
  readsBack_ite (fun _ => hk _ _ _ _ _ _ _ _) fun _ hop h0 =>
    Upto.opcode hop |>.field 21 3 |>.field 18 3 |>.field 15 3 |>.field 12 3 |>.field 11 1 |>.field 8 3 |>.field 7 1
      |>.fixed 4 3 112 h0 |>.last 4

theorem readsBack_decNE {k : BitVec 14 → Instr}
    (hk : ∀ e, encode (k e) = .w32 (encNE (.ofNat 8 opc) e)) :
    ReadsBack opc (decNE k) :=
  readsBack_ite (fun _ => hk _) fun _ hop h0 =>
    Upto.opcode hop |>.zero 14 10 h0 |>.last 14

theorem readsBack_decNNone2 {k : Instr}
    (hk : encode k = .w32 (encNNone2 (.ofNat 8 opc))) :
    ReadsBack opc (decNNone2 k) :=
  readsBack_ite (fun _ => hk) fun _ hop h0 =>
    Upto.opcode hop |>.fixed 0 24 1 h0

theorem readsBack_decND2 {k : BitVec 5 → Instr}
    (hk : ∀ d, encode (k d) = .w32 (encND2 (.ofNat 8 opc) d)) :
    ReadsBack opc (decND2 k) :=
  readsBack_ite (fun _ => hk _) fun _ hop h0 =>
    Upto.opcode hop |>.field 19 5 |>.fixed 0 19 1 h0

end

/-! ## Every opcode -/

/-- The cases are the arms of `rawNewt`, numbered as their opcodes and grouped by format; the last is a reserved opcode. -/
theorem encode_of_rawNewt (w : BitVec 32) (i : Instr) : rawNewt w = some i → encode i = .w32 w := by
  fun_cases rawNewt w with
  | case1 | case2 | case4 | case5 | case6 | case7 | case8 | case9 | case10 | case11 | case12 | case13 | case14
  | case19 | case20 | case21 | case22 | case34 | case35 | case36 | case37 | case116 | case122 | case134 =>
    exact readsBack_decNDAB (fun _ _ _ => rfl) w i ‹_›
  | case3 | case16 | case17 | case18 | case23 | case24 | case25 | case26 | case38 =>
    exact readsBack_decNDAImm (fun _ _ _ => rfl) w i ‹_›
  | case15 =>
    exact readsBack_decNDBaseIdxSc (fun _ _ _ _ => rfl) w i ‹_›
  | case27 | case28 | case29 | case30 | case31 | case64 | case102 | case113 | case117 | case121 | case123 | case127 =>
    exact readsBack_decNDA (fun _ _ => rfl) w i ‹_›
  | case32 | case33 =>
    exact readsBack_decNDAPosLen1 (fun _ _ _ _ => rfl) w i ‹_›
  | case39 =>
    exact readsBack_decNCondNAB (fun _ _ _ _ => rfl) w i ‹_›
  | case40 =>
    exact readsBack_decNCondNAImm (fun _ _ _ _ => rfl) w i ‹_›
  | case41 =>
    exact readsBack_decNPCondNAB (fun _ _ _ _ _ => rfl) w i ‹_›
  | case42 | case44 =>
    exact readsBack_decNImm (fun _ => rfl) w i ‹_›
  | case43 | case45 | case61 | case101 | case103 | case104 | case110 | case124 | case128 =>
    exact readsBack_decNA (fun _ => rfl) w i ‹_›
  | case46 | case107 | case130 =>
    exact readsBack_decNNone rfl w i ‹_›
  | case47 | case131 =>
    exact readsBack_decNDImm (fun _ _ => rfl) w i ‹_›
  | case48 | case49 | case52 =>
    exact readsBack_decNDBaseOrdOffWc (fun _ _ _ _ _ => rfl) w i ‹_›
  | case50 | case51 =>
    exact readsBack_decNDBaseIdxWcOrdSc (fun _ _ _ _ _ _ => rfl) w i ‹_›
  | case53 | case58 =>
    exact readsBack_decNBaseOff (fun _ _ => rfl) w i ‹_›
  | case54 | case55 | case56 | case57 =>
    exact readsBack_decNDBaseOff (fun _ _ _ => rfl) w i ‹_›
  | case59 =>
    exact readsBack_decNDABWOrdFn (fun _ _ _ _ _ _ => rfl) w i ‹_›
  | case60 =>
    exact readsBack_decNDABCWOrd (fun _ _ _ _ _ _ => rfl) w i ‹_›
  | case62 | case63 =>
    exact readsBack_decNDBaseOffWc (fun _ _ _ _ => rfl) w i ‹_›
  | case65 | case109 =>
    exact readsBack_decNSc (fun _ => rfl) w i ‹_›
  | case66 =>
    exact readsBack_decNASc (fun _ _ => rfl) w i ‹_›
  | case67 | case68 | case69 | case70 | case79 =>
    exact readsBack_decNDABRmP (fun _ _ _ _ _ => rfl) w i ‹_›
  | case71 | case80 =>
    exact readsBack_decNDARmP (fun _ _ _ _ => rfl) w i ‹_›
  | case72 | case73 | case74 =>
    exact readsBack_decNDABCRmP (fun _ _ _ _ _ _ => rfl) w i ‹_›
  | case75 | case76 =>
    exact readsBack_decNDABP (fun _ _ _ _ => rfl) w i ‹_›
  | case77 =>
    exact readsBack_decNDABKindRm (fun _ _ _ _ _ => rfl) w i ‹_›
  | case78 =>
    exact readsBack_decNDAP (fun _ _ _ => rfl) w i ‹_›
  | case81 | case82 | case83 | case85 | case86 | case87 | case89 | case90 =>
    exact readsBack_decNVdVaVbMeVmPolEwFn (fun _ _ _ _ _ _ _ _ => rfl) w i ‹_›
  | case84 =>
    exact readsBack_decNVdVaVbVcMeVmPolEwFn (fun _ _ _ _ _ _ _ _ _ => rfl) w i ‹_›
  | case88 =>
    exact readsBack_decNVdVaVbMeVmPolFn (fun _ _ _ _ _ _ _ => rfl) w i ‹_›
  | case91 =>
    exact readsBack_decNVdVaVbVcMeVmPol (fun _ _ _ _ _ _ _ => rfl) w i ‹_›
  | case92 =>
    exact readsBack_decNVdVaMeVmEwFn (fun _ _ _ _ _ _ => rfl) w i ‹_›
  | case93 | case94 =>
    exact readsBack_decNVdGaMeVmPolOrd (fun _ _ _ _ _ _ => rfl) w i ‹_›
  | case95 | case96 =>
    exact readsBack_decNVdGaVcMeVmPolSc (fun _ _ _ _ _ _ _ => rfl) w i ‹_›
  | case97 =>
    exact readsBack_decNVdGaMeVmPolEw (fun _ _ _ _ _ _ => rfl) w i ‹_›
  | case98 =>
    exact readsBack_decNVdGaLaneEwJ (fun _ _ _ _ _ => rfl) w i ‹_›
  | case99 =>
    exact readsBack_decNVdVaVbVcMeVmPolFn (fun _ _ _ _ _ _ _ _ => rfl) w i ‹_›
  | case100 =>
    exact readsBack_decNVdVaVbSewMeVmPolEwHiRm (fun _ _ _ _ _ _ _ _ _ _ => rfl) w i ‹_›
  | case105 =>
    exact readsBack_decNABC (fun _ _ _ => rfl) w i ‹_›
  | case106 =>
    exact readsBack_decNDABC (fun _ _ _ _ => rfl) w i ‹_›
  | case108 =>
    exact readsBack_decNAIdSc (fun _ _ _ => rfl) w i ‹_›
  | case111 | case132 =>
    exact readsBack_decNASel (fun _ _ => rfl) w i ‹_›
  | case112 =>
    exact readsBack_decND (fun _ => rfl) w i ‹_›
  | case114 =>
    exact readsBack_decNStH (fun _ _ => rfl) w i ‹_›
  | case115 =>
    exact readsBack_decNH (fun _ => rfl) w i ‹_›
  | case118 =>
    exact readsBack_decNABCW (fun _ _ _ _ => rfl) w i ‹_›
  | case119 =>
    exact readsBack_decNABCRelKind (fun _ _ _ _ _ => rfl) w i ‹_›
  | case120 =>
    exact readsBack_decNAB (fun _ _ => rfl) w i ‹_›
  | case125 =>
    exact readsBack_decNVdVaVbVcMeVmPolEw (fun _ _ _ _ _ _ _ _ => rfl) w i ‹_›
  | case126 =>
    exact readsBack_decNVdVaVbVcMeVmPolFn2 (fun _ _ _ _ _ _ _ _ => rfl) w i ‹_›
  | case129 | case136 =>
    exact readsBack_decNE (fun _ => rfl) w i ‹_›
  | case133 =>
    exact (readsBack_decNA (fun _ => rfl)).orElse (readsBack_decNNone2 rfl) w i ‹_›
  | case135 =>
    exact (readsBack_decND (fun _ => rfl)).orElse (readsBack_decND2 (fun _ => rfl)) w i ‹_›
  | case137 => simp

theorem limited_eq_ok {o : Option Instr} {i : Instr} : limited o = .ok i ↔ o = some i ∧ i.wf = true := by
  cases o with
  | none => simp [limited]
  | some j =>
    cases hj : j.wf with
    | true => simpa [limited, hj] using fun h : j = i => h ▸ hj
    | false => simpa [limited, hj] using fun h : j = i => h ▸ hj

/-- Settles O6: every opcode's decoder is undone by the encoder, and the limits are checked on what it read. -/
theorem encodeOfDecodeNewt : Obligations.EncodeOfDecodeNewt := by
  intro w i h
  obtain ⟨hraw, hwf⟩ := limited_eq_ok.mp h
  exact ⟨encode_of_rawNewt w i hraw, hwf⟩

end Sys2Proof.EncodeOfDecode
end

section
/-! PROOF. Power, thermal limits, starts, retention, margins and access (02 R32 to R41, R47 to R49; 04 R99, R100), the upkeep of
the memories (02 R42 to R46; 05 R130) and the registers after a reset. Each event has one lemma for each case that an
obligation names, stated of `exec`; the obligations are assembled from them. -/

namespace Sys2Proof.PackagePower

open Sys2Proof
open Sys2Proof.Machine

section
variable {s : State}

/-! ## Samples and the duty (02 R36) -/

theorem powerSample_on (hon : s.pkg.power.st ≠ .off) :
    exec .powerSample s =
      .next (s.setPower { s.pkg.power with samples := (s.arg.n :: s.pkg.power.samples).take 100 }) :=
  if_neg hon

theorem powerSample_off (hoff : s.pkg.power.st = .off) : exec .powerSample s = .next s := if_pos hoff

/-- While the package is on and has a sample, the sum of the samples is compared with the cap and with 95 % of it. -/
theorem throttleStep_on (hon : s.pkg.power.st ≠ .off) (hlen : 0 < s.pkg.power.samples.length) :
    exec .throttleStep s =
      let p := s.pkg.power
      let n := p.samples.length
      let sum := p.samples.foldl (· + ·) 0
      if p.cap * n < sum then .next (s.setPower (p.withDuty (p.duty + 1)))
      else if 100 * sum ≤ 95 * p.cap * n then .next (s.setPower (p.withDuty (p.duty - 1)))
      else .next s :=
  if_neg (not_or.mpr ⟨hlen.ne', hon⟩)

theorem throttleStep_off (hoff : s.pkg.power.st = .off) : exec .throttleStep s = .next s := if_pos (.inr hoff)

/-- A sum at or below 95 % of the cap is not above the cap. -/
theorem not_above_of_below {cap n sum : Nat} (h : 100 * sum ≤ 95 * cap * n) : ¬ cap * n < sum := by
  rw [Nat.mul_assoc] at h
  omega

theorem throttleInterval_dutyZero (h : s.pkg.power.duty = 0) :
    exec .throttleInterval s = .next (s.setPower { s.pkg.power with interval := s.cyc, intervalDuty := 0 }) := by
  simp [exec, execThrottleInterval, h]

theorem throttleInterval_noParts (h : s.pkg.power.duty ≠ 0) (hparts : s.parts = []) :
    exec .throttleInterval s =
      .next (s.setPower { s.pkg.power with interval := s.cyc, intervalDuty := s.pkg.power.duty }) := by
  simp [exec, execThrottleInterval, State.placedParts, h, hparts]

/-! ## Hot dies and the thermal trip (02 R38) -/

theorem withDuty_of_hot {p : Power} (h : p.hot ≠ []) (d : Nat) :
    (p.withDuty d).duty = 12 ∧ (p.withDuty d).therm = true := by
  simp [Power.withDuty, h]

theorem withDuty_of_cool {p : Power} (h : p.hot = []) (d : Nat) :
    (p.withDuty d).duty = Nat.min d 12 ∧ (p.withDuty d).therm = false := by
  simp [Power.withDuty, h]

theorem thermalFloor_on (hn : s.arg.n < 5) (hon : s.pkg.power.st ≠ .off) :
    exec .thermalFloor s = .next (s.setPower
      (Power.withDuty { s.pkg.power with hot := (s.arg.n :: s.pkg.power.hot).eraseDups } 12)) :=
  if_neg (not_or.mpr ⟨Nat.not_le.mpr hn, hon⟩)

theorem thermalFloor_off (hoff : s.pkg.power.st = .off) : exec .thermalFloor s = .next s := if_pos (.inr hoff)

theorem thermalTrip_on (hon : s.pkg.power.st ≠ .off) : exec .thermalTrip s = .next (s.turnOff true) := if_neg hon

theorem thermalTrip_off (hoff : s.pkg.power.st = .off) : exec .thermalTrip s = .next s := if_pos hoff

/-! ## Rails and starts (02 R32, R47 to R49) -/

/-- A rail whose predecessors in the order are up is enabled, or turns the package off (02 R32). -/
theorem railEnable_inOrder (hn : s.arg.n < 12)
    (hbefore : ∀ i, i < 12 → railOrder i < railOrder s.arg.n → Store.get false i s.pkg.power.rails = true) :
    exec .railEnable s =
      if s.arg.b then .next (s.setPower { s.pkg.power with rails := Store.put false s.arg.n true s.pkg.power.rails })
      else .next (s.turnOff (s.pkg.power.st != .off)) := by
  have hup : (List.range railCount).all
      (fun i => decide (railOrder s.arg.n ≤ railOrder i) || Store.get false i s.pkg.power.rails) = true := by
    simp only [List.all_eq_true, List.mem_range, Bool.or_eq_true, decide_eq_true_eq]
    intro i hi
    exact (Nat.lt_or_ge (railOrder i) (railOrder s.arg.n)).symm.imp_right (hbefore i hi)
  exact if_neg (not_or.mpr ⟨Nat.not_le.mpr hn, by simp [hup]⟩)

/-- The rails that a reset waits for are all up. -/
def railsUp (s : State) : Bool := (List.range 12).all (fun i => Store.get false i s.pkg.power.rails)

theorem reset_railsDown (h : railsUp s = false) : exec .reset s = .next s :=
  if_pos ((Bool.not_eq_true' _).mpr h)

theorem reset_railsUp (h : railsUp s = true) :
    exec .reset s =
      if s.pkg.power.st = .retention then .next (s.askStart (some true)) else .next (s.coldState.askStart (some false)) :=
  if_neg (by rw [Bool.not_eq_true', Bool.not_eq_false]; exact h)

theorem startSequence_notAsked (h : s.pkg.starts.asked = none) : exec .startSequence s = .next s := by
  simp [exec, execStartSequence, h]

theorem startSequence_asked {warm : Bool} (h : s.pkg.starts.asked = some warm) :
    exec .startSequence s =
      let s0 := if warm then s else s.coldState
      if s0.failedStep warm s.arg.b s.arg.n = 0 then .next (s0.startOk warm s.arg.b s.arg.bytes)
      else .next (s0.startFails warm s.arg.b (s0.failedStep warm s.arg.b s.arg.n) s.arg.bytes) := by
  simp only [exec, execStartSequence, h]

/-! ## Retention (02 R35, R39) -/

/-- A table of which the keys that satisfy `f` are kept. -/
theorem get_filter_key {α : Type} (d : α) (f : Nat → Bool) (k : Nat) (t : Store α) :
    Store.get d k (t.filter fun p => f p.1) = if f k = true then Store.get d k t else d := by
  induction t with
  | nil => simp
  | cons p t ih =>
    obtain ⟨j, v⟩ := p
    by_cases hj : j = k
    · subst hj
      cases hf : f j <;> simp_all [Store.get]
    · cases hf : f j <;> simp [Store.get, hf, hj, ih]

/-- The state that an idle package enters retention with. -/
def retained (s : State) : State :=
  State.setPower
    { s with
      mem := s.mem.filter (fun p => s.heldByte p.1), ue := s.ue.filter (fun p => s.heldByte p.1)
      cores := s.cores.map (fun p => (p.1, { p.2 with rlc := [], tlb := [] })), quadTlb := [] }
    { s.pkg.power with st := .retention }

theorem retained_byte (a : Nat) : (retained s).byte a = if s.heldByte a = true then s.byte a else 0 :=
  get_filter_key 0 s.heldByte a s.mem

theorem retentionEntry_idle (hidle : s.isIdle = true) (hsaved : s.allSaved = true)
    (hasked : s.pkg.starts.asked = none) (hst : s.pkg.power.st = .idle) :
    exec .retentionEntry s = .next (retained s) :=
  if_pos ⟨hidle, hsaved, by simp [hasked], hst⟩

theorem retentionEntry_busy (h : s.isIdle = false ∨ s.allSaved = false) : exec .retentionEntry s = .next s :=
  if_neg fun ⟨hidle, hsaved, _⟩ => by simp [hidle, hsaved] at h

/-! ## Margins (02 R40, R41) -/

theorem marginPlan_on (hon : s.pkg.power.st ≠ .off) :
    exec .marginPlan s = .next ((s.makePlan true s.arg.bytes).logEvent .marginPlan 0 0) :=
  if_neg hon

theorem marginPlan_off (hoff : s.pkg.power.st = .off) : exec .marginPlan s = .next s := if_pos hoff

theorem marginMonitorLow_on (hn : s.arg.n < 4) (hm : s.arg.m < 2) (hon : s.pkg.power.st ≠ .off) :
    exec .marginMonitorLow s =
      let i := s.arg.n * 2 + s.arg.m
      let b := Store.get 0 i s.pkg.bands
      if b < 12 then .next (s.setPkg { s.pkg with bands := Store.put 0 i (b + 1) s.pkg.bands })
      else
        .next ((s.setPower { s.pkg.power with exhausted := true }).holdAll.logEvent .marginExhausted s.arg.n s.arg.m) :=
  if_neg (by simp [hon]; omega)

/-! ## Security and debug (04 R99, R100) -/

theorem securityFault_secure (h : s.pkg.sec.st = .secure) :
    exec .securityFault s = .next (s.setPkg { s.pkg with sec := { s.pkg.sec with st := .degraded } }) :=
  if_pos h

theorem securityFault_notSecure (h : s.pkg.sec.st ≠ .secure) : exec .securityFault s = .next s := if_neg h

theorem debugExpiry_jobDebug {j : Nat} (h : s.pkg.sec.access = .jobDebug j) :
    exec .debugExpiry s = .next (if s.pkg.sec.notAfter.toNat ≤ s.ptime.toNat then
      s.setPkg { s.pkg with sec := { s.pkg.sec with access := .locked } } else s) := by
  simp only [exec, execDebugExpiry, h]

theorem debugExpiry_locked (h : s.pkg.sec.access = .locked) : exec .debugExpiry s = .next s := by
  simp only [exec, execDebugExpiry, h]

/-! ## Scrubbing (02 R42 to R45) -/

/-- The scrubber moves on from the sector that is its next, and takes a period at the end of a pass. -/
theorem scrubOn_eq (s : State) :
    s.scrubOn =
      if s.arg.n = s.pkg.scrubNext then s.setPkg { s.pkg with
        scrubNext := (s.arg.n + 1) % 2 ^ 34
        scrubHours := if s.arg.n + 1 = 2 ^ 34 ∧ 1 ≤ s.arg.v.toNat ∧ s.arg.v.toNat ≤ 168 then s.arg.v.toNat
          else s.pkg.scrubHours }
      else s := by
  by_cases h : s.arg.n = s.pkg.scrubNext
  · simp only [State.scrubOn, h, ne_eq, not_true_eq_false, if_false, if_true]
  · simp only [State.scrubOn, h, ne_eq, not_false_eq_true, if_true, if_false]

@[simp] theorem scrubOn_arg : s.scrubOn.arg = s.arg := by rw [scrubOn_eq]; split <;> rfl
@[simp] theorem scrubOn_ue : s.scrubOn.ue = s.ue := by rw [scrubOn_eq]; split <;> rfl
@[simp] theorem scrubOn_iltab : s.scrubOn.iltab = s.iltab := by rw [scrubOn_eq]; split <;> rfl

@[simp] theorem scrubOn_stack (k : Nat) : s.scrubOn.stack k = s.stack k := by rw [scrubOn_eq]; split <;> rfl

@[simp] theorem scrubOn_hasUe (pa n : Nat) : s.scrubOn.hasUe pa n = s.hasUe pa n := by simp [State.hasUe]

/-- What the scrubber does with a sector of HBM, once it has moved on. -/
theorem patrolScrub_hbm (hpa : 32 * s.arg.n < tileBase) :
    exec .patrolScrub s =
      let pa := 32 * s.arg.n
      let k := stackOf s.iltab pa
      if s.arg.m = 2 ∨ s.hasUe pa 32 = true then
        .next (State.logEvent { s.scrubOn with ue := Store.put false pa true s.ue } .scrubUncorrectable s.arg.n 0)
      else if s.arg.m = 1 then
        .next (s.scrubOn.setStack k { s.stack k with corrected := (s.stack k).corrected + 1 })
      else .next s.scrubOn := by
  simp [exec, execPatrolScrub, Nat.not_le.mpr hpa]

theorem patrolScrub_beyond (hpa : tileBase ≤ 32 * s.arg.n) : exec .patrolScrub s = .next s.scrubOn := by
  simp [exec, execPatrolScrub, hpa]

/-! ## Row activation (02 R46) -/

@[simp] theorem setStack_stack_same (n : Nat) (x : Stack) : (s.setStack n x).stack n = x := Store.get_put_same _ _ _ _

/-- The state after an alert's back-off of a stack. -/
def backedOff (s : State) (n : Nat) : State :=
  let x := s.stack n
  let s1 := s.drawn.setStack n { x with disturbed := Nat.max x.disturbed (s.cyc + Config.freeChoice s.free) }
  s1.setPkg { s1.pkg with rowActs := s1.pkg.rowActs.filter (fun p =>
    !(decide (p.1 / stackRows = n) && decide (Config.rowThreshold ≤ p.2))) }

theorem alertBackOff_stack (hn : s.arg.n < 8) : exec .alertBackOff s = .next (backedOff s s.arg.n) :=
  if_neg (Nat.not_le.mpr hn)

theorem backedOff_disturbed (n : Nat) :
    ((backedOff s n).stack n).disturbed = Nat.max (s.stack n).disturbed (s.cyc + Config.freeChoice s.free) :=
  congrArg Stack.disturbed (setStack_stack_same n _)

/-- No row of the stack is at its threshold after its back-off. -/
theorem backedOff_rowAlert (n : Nat) : (backedOff s n).rowAlert n = false := by
  simp only [State.rowAlert, backedOff, State.setPkg, List.any_filter, List.any_eq_false]
  intro p _
  simp only [Bool.not_and_self, Bool.false_eq_true, not_false_eq_true]

/-! ## HBM rates (05 R130) -/

theorem no_ninth_stack (hn : 8 ≤ s.arg.n) :
    ∀ i ∈ ([.alertBackOff, .hbmRetrainRequest, .hbmFallbackRate] : List Instr), exec i s = .next s := by
  simp only [List.forall_mem_cons]
  exact ⟨if_pos hn, if_pos (.inl hn), if_pos (.inl hn), by simp⟩

theorem hbmRetrainRequest_retraining (h : (s.stack s.arg.n).retraining = true) :
    exec .hbmRetrainRequest s = .next s :=
  if_pos (.inr h)

theorem hbmRetrainRequest_stack (hn : s.arg.n < 8) (h : (s.stack s.arg.n).retraining = false) :
    exec .hbmRetrainRequest s =
      let x := s.stack s.arg.n
      if s.saving s.arg.n then
        .next (s.setStack s.arg.n { x with asked := some s.arg.m, deferred := some (x.deferred.getD s.cyc) })
      else .next (s.setStack s.arg.n { x with asked := some s.arg.m, deferred := none, retraining := true }) :=
  if_neg (by simp [h, hn])

theorem hbmFallbackRate_saving (hn : s.arg.n < 8) (h : s.saving s.arg.n = true) :
    exec .hbmFallbackRate s = .next (s.setStack s.arg.n { s.stack s.arg.n with rate := 96 }) :=
  if_neg (by simp [h, hn])

theorem hbmFallbackRate_notSaving (h : s.saving s.arg.n = false) : exec .hbmFallbackRate s = .next s :=
  if_pos (.inr (by simp [h]))

theorem retrainDeferExpiry_notDeferred (h : (s.stack s.arg.n).deferred = none) :
    exec .retrainDeferExpiry s = .next s := by
  simp only [exec, execRetrainDeferExpiry, h]

theorem retrainDeferExpiry_deferred {t : Nat} (h : (s.stack s.arg.n).deferred = some t) :
    exec .retrainDeferExpiry s =
      if t + deferMax ≤ s.cyc ∨ (!s.saving s.arg.n) = true then
        .next (s.setStack s.arg.n { s.stack s.arg.n with deferred := none, retraining := true })
      else .next s := by
  simp only [exec, execRetrainDeferExpiry, h]

theorem hbmRetrainingEnd_retraining (h : (s.stack s.arg.n).retraining = true) :
    exec .hbmRetrainingEnd s =
      let x := s.stack s.arg.n
      .next (s.setStack s.arg.n
        { x with retraining := false, rate := x.asked.getD 128, asked := none, disturbed := s.cyc }) :=
  if_pos h

theorem hbmRetrainingEnd_notRetraining (h : (s.stack s.arg.n).retraining = false) :
    exec .hbmRetrainingEnd s = .next s :=
  if_neg (by simp [h])

end

/-! ## The obligations -/

/-- Settles O46: each event's case by its own lemma; 95 % of the cap and the cap exclude each other, and retention filters
memory by address. -/
theorem powerStartsAndRetention : Obligations.PowerStartsAndRetention := by
  unfold Obligations.PowerStartsAndRetention
  refine ⟨fun s => ⟨powerSample_on, fun hon hlen => ⟨?above, ?below, ?between⟩, throttleInterval_dutyZero,
      throttleInterval_noParts, fun hn hon => ⟨_, thermalFloor_on hn hon, ?floor⟩, ⟨_, rfl, ?release⟩,
      fun hon => ⟨_, thermalTrip_on hon, rfl, rfl, rfl⟩, fun hn hbefore => ⟨?up, ?failed⟩, ?off⟩,
    fun s => ⟨fun hup hret => (reset_railsUp hup).trans (if_pos hret),
      fun hup hret => ⟨_, (reset_railsUp hup).trans (if_neg hret), rfl, rfl, rfl, rfl, rfl⟩, reset_railsDown,
      startSequence_notAsked,
      fun warm hasked => ⟨fun h0 => (startSequence_asked hasked).trans (if_pos h0),
        fun h0 => (startSequence_asked hasked).trans (if_neg h0)⟩,
      fun hidle hsaved hasked hst =>
        ⟨_, retentionEntry_idle hidle hsaved hasked hst, rfl, rfl, retained_byte, rfl, rfl⟩,
      retentionEntry_busy, marginPlan_on,
      fun hn hm hon => ⟨fun hb => (marginMonitorLow_on hn hm hon).trans (if_pos hb),
        fun hb => (marginMonitorLow_on hn hm hon).trans (if_neg (Nat.not_lt.mpr hb))⟩,
      securityFault_secure, securityFault_notSecure,
      fun j hj => ⟨fun ht => (debugExpiry_jobDebug hj).trans (congrArg _ (if_pos ht)),
        fun ht => (debugExpiry_jobDebug hj).trans (congrArg _ (if_neg (Nat.not_le.mpr ht)))⟩,
      debugExpiry_locked⟩⟩
  case above => exact fun h => (throttleStep_on hon hlen).trans (if_pos h)
  case below => exact fun h => (throttleStep_on hon hlen).trans ((if_neg (not_above_of_below h)).trans (if_pos h))
  case between =>
    exact fun hcap h95 =>
      (throttleStep_on hon hlen).trans ((if_neg (Nat.not_lt.mpr hcap)).trans (if_neg (Nat.not_le.mpr h95)))
  case floor =>
    have hmem : s.arg.n ∈ (s.arg.n :: s.pkg.power.hot).eraseDups := List.mem_eraseDups.mpr List.mem_cons_self
    obtain ⟨hduty, htherm⟩ := withDuty_of_hot
      (p := { s.pkg.power with hot := (s.arg.n :: s.pkg.power.hot).eraseDups }) (List.ne_nil_of_mem hmem) 12
    exact ⟨hduty, htherm, hmem⟩
  case release =>
    refine ⟨fun hmem => by simpa using (List.mem_filter.mp hmem).2, fun hhot => ?_⟩
    obtain ⟨hduty, htherm⟩ := withDuty_of_cool
      (p := { s.pkg.power with hot := s.pkg.power.hot.filter (· != s.arg.n) }) (by simp [hhot]) s.pkg.power.duty
    exact ⟨htherm, hduty⟩
  case up => exact fun hb => (railEnable_inOrder hn hbefore).trans (if_pos hb)
  case failed => exact fun hb => (railEnable_inOrder hn hbefore).trans (if_neg (by simp [hb]))
  case off =>
    intro hoff
    simp only [List.forall_mem_cons]
    exact ⟨powerSample_off hoff, throttleStep_off hoff, thermalFloor_off hoff, thermalTrip_off hoff, marginPlan_off hoff,
      by simp⟩

/-- Settles O47: the scrubber moves on first, so each scrub is a case of what it does then; the rest are the cases of each
event. -/
theorem memoriesAreMaintained : Obligations.MemoriesAreMaintained := by
  unfold Obligations.MemoriesAreMaintained
  intro s
  simp only [← scrubOn_eq]
  refine ⟨fun hpa hue => (patrolScrub_hbm hpa).trans (if_pos hue), fun hpa hm hue => ?corrected,
    fun hpa hm hue => ?clean, patrolScrub_beyond, rfl, no_ninth_stack,
    fun hn => ⟨⟨_, alertBackOff_stack hn, ?late, ?later, backedOff_rowAlert _⟩, hbmRetrainRequest_retraining,
      fun hx hsv => (hbmRetrainRequest_stack hn hx).trans (if_pos hsv),
      fun hx hsv => (hbmRetrainRequest_stack hn hx).trans (if_neg (by simp [hsv])),
      hbmFallbackRate_saving hn, hbmFallbackRate_notSaving⟩,
    retrainDeferExpiry_notDeferred, fun t ht => ⟨fun h => ?proceeds, fun hcyc hsv => ?waits⟩,
    hbmRetrainingEnd_retraining, hbmRetrainingEnd_notRetraining⟩
  case corrected => rw [patrolScrub_hbm hpa]; simp [hm, hue]
  case clean => rw [patrolScrub_hbm hpa]; simp [hm, hue]
  case late => exact (Nat.le_add_right _ _).trans ((Nat.le_max_right _ _).trans (backedOff_disturbed _).ge)
  case later => exact (Nat.le_max_left _ _).trans (backedOff_disturbed _).ge
  case proceeds => exact (retrainDeferExpiry_deferred ht).trans (if_pos (h.imp_right (by simp [·])))
  case waits => exact (retrainDeferExpiry_deferred ht).trans (if_neg (by simp [deferMax, hsv, hcyc]))

/-- Settles O48: the listed registers are read of the one state after reset, and a slot that it does not list holds the initial
thread. -/
theorem resetState : Obligations.ResetState := by
  unfold Obligations.ResetState
  refine ⟨by decide, fun t => ?_, rfl⟩
  have hinit : State.reset.thread t = Thread.init := rfl
  rw [hinit]
  decide

end Sys2Proof.PackagePower
end

section
/-! PROOF. Plane time (03 R72 to R76) and the side-band flits that arrive (03 R67, R68; 09 R270, R271). Each event has one lemma
for each case that the obligation names, stated of `exec`; the obligation is assembled from them. -/

namespace Sys2Proof.PlaneTime

open Sys2Proof
open Sys2Proof.Machine

section
variable {s : State}

/-! ## What a flit that is sent leaves alone -/

@[simp] theorem sideband_clock (ports : List Nat) (type id : Nat) (at_ : Word) (body : List Byte) :
    (s.sideband ports type id at_ body).pkg.clock = s.pkg.clock :=
  foldl_same (·.pkg.clock) (fun w n => w.sidebandOn type id at_ body n) (fun _ _ => rfl) _ _

@[simp] theorem sideband_ptp (ports : List Nat) (type id : Nat) (at_ : Word) (body : List Byte) :
    (s.sideband ports type id at_ body).pkg.ptp = s.pkg.ptp :=
  foldl_same (·.pkg.ptp) (fun w n => w.sidebandOn type id at_ body n) (fun _ _ => rfl) _ _

theorem spread_clock (p : Partition) (kind : Nat) (at_ : Word) (value : List Byte) :
    (s.spread p kind at_ value).pkg.clock = s.pkg.clock := by
  unfold State.spread
  split
  · exact sideband_clock ..
  · rfl

theorem spread_ptp (p : Partition) (kind : Nat) (at_ : Word) (value : List Byte) :
    (s.spread p kind at_ value).pkg.ptp = s.pkg.ptp := by
  unfold State.spread
  split
  · exact sideband_ptp ..
  · rfl

@[simp] theorem anchorTimes_clock : s.anchorTimes.pkg.clock = s.pkg.clock :=
  foldl_same (·.pkg.clock) _ (fun _ _ => spread_clock ..) _ _

@[simp] theorem anchorTimes_ptp : s.anchorTimes.pkg.ptp = s.pkg.ptp :=
  foldl_same (·.pkg.ptp) _ (fun _ _ => spread_ptp ..) _ _

/-! ## Steps of PTIME and of the phase (03 R72, R73) -/

/-- A step by one towards 0. -/
theorem natAbs_sub_sign {c : Int} (h : c ≠ 0) : (c - if 0 < c then 1 else -1).natAbs + 1 = c.natAbs := by
  split <;> omega

theorem add_ofInt_sign (w : Word) (c : Int) :
    w + BitVec.ofInt 64 (if 0 < c then 1 else -1) = if 0 < c then w + 1 else w - 1 := by
  split
  · rfl
  · rw [BitVec.sub_eq_add_neg]
    rfl

/-- With no correction that waits for its WHEN, what is left of the present one decides. -/
theorem ptimeCorrectionStep_noneWaiting (h : s.pkg.clock.corrAt = []) :
    exec .ptimeCorrectionStep s =
      let c := s.pkg.clock
      if c.corr = 0 then .next s
      else if 1024 ≤ c.corr.natAbs then .next (s.stepTime c.corr).relock.anchorTimes
      else if s.cyc < c.lastCorr + 1024 then .next s
      else
        let d : Int := if 0 < c.corr then 1 else -1
        .next (s.setClock { c with
          ptime := c.ptime + BitVec.ofInt 64 d, corr := c.corr - d, lastCorr := s.cyc }).relock.anchorTimes := by
  have htake : s.takeCorr = s := by simp [State.takeCorr, h]
  show execPtimeCorrectionStep s = _
  simp only [execPtimeCorrectionStep, htake, stepGap]

theorem clockPhaseStep_due (hphase : s.pkg.clock.phase ≠ 0) (hcyc : s.pkg.clock.lastPhase + 1024 ≤ s.cyc) :
    exec .clockPhaseStep s =
      let c := s.pkg.clock
      .next (s.setClock { c with
        phase := c.phase - (if 0 < c.phase then 1 else -1), lastPhase := s.cyc }).relock :=
  if_neg (not_or.mpr ⟨hphase, Nat.not_lt.mpr hcyc⟩)

theorem clockPhaseStep_notDue (h : s.pkg.clock.phase = 0 ∨ s.cyc < s.pkg.clock.lastPhase + 1024) :
    exec .clockPhaseStep s = .next s :=
  if_pos h

/-! ## The exchange of time stamps (03 R67, R72) -/

theorem timestampExchange_child {k : Nat} (h : s.pkg.pod.upstream = some k) :
    exec .timestampExchange s =
      if s.exchangeDue then
        .next ((s.setClock { s.pkg.clock with lastExchange := Nat.max 1 s.cyc }).sideband [k] 1 k (s.slotTime k) [])
      else .next s := by
  show execTimestampExchange s = _
  simp only [execTimestampExchange, h]
  rfl

theorem timestampExchange_root (h : s.pkg.pod.upstream = none) : exec .timestampExchange s = .next s := by
  show execTimestampExchange s = _
  simp only [execTimestampExchange, h]

theorem timestamp_noPod (h : s.pkg.pod.form = false) : exec .timestamp s = .next s :=
  if_pos (.inr (.inl (by simp [h])))

/-- A time stamp at a port of the formed pod that is up. -/
theorem timestamp_port (hn : s.arg.n < 6) (hform : s.pkg.pod.form = true)
    (hup : (s.pkg.pod.port s.arg.n).up = true) :
    exec .timestamp s =
      if s.pkg.pod.isMember ∧ s.pkg.pod.upstream = some s.arg.n then
        match s.arg.ints with
        | [t1, t2, t3, t4] =>
          let off := (exchange t1 t2 t3 t4).2
          let c := s.pkg.clock
          .next (s.setClock { c with corr := (-off).tdiv 16, phase := (-off).tmod 16, exchanged := true }).relock
        | _ => .next s
      else .next (s.timestampOn s.arg.n) :=
  if_neg (by simp [hform, hup, hn])

theorem timestamp_upstream {t1 t2 t3 t4 : Int} (hn : s.arg.n < 6) (hmember : s.pkg.pod.isMember = true)
    (hup : (s.pkg.pod.port s.arg.n).up = true) (hupstream : s.pkg.pod.upstream = some s.arg.n)
    (hints : s.arg.ints = [t1, t2, t3, t4]) :
    exec .timestamp s =
      let off := t2 - (t1 + ((t4 - t1) - (t3 - t2)) / 2)
      .next (s.setClock { s.pkg.clock with
        corr := (-off).tdiv 16, phase := (-off).tmod 16, exchanged := true }).relock := by
  have hform : s.pkg.pod.form = true := (Bool.and_eq_true_iff.mp hmember).1
  simp only [timestamp_port hn hform hup, hmember, hupstream, hints, and_self, if_true, exchange]

theorem timestamp_answered (hn : s.arg.n < 6) (hform : s.pkg.pod.form = true) (hmember : s.pkg.pod.isMember = false)
    (hup : (s.pkg.pod.port s.arg.n).up = true) :
    exec .timestamp s = .next (s.sideband [s.arg.n] 1 s.arg.n (s.slotTime s.arg.n) []) :=
  (timestamp_port hn hform hup).trans (if_neg (by simp [hmember]))

/-! ## PTP and CORR (03 R55, R73, R75, R76) -/

@[simp] theorem setEth_eth_same (n : Nat) (x : EthPort) : (s.setEth n x).eth n = x := Store.get_put_same _ _ _ _

/-- A message at a port that is up, once the port has stamped it. -/
def stamped (s : State) : State :=
  s.setEth s.arg.n { s.eth s.arg.n with stamp := s.pkg.clock.ptime.toNat * 16 + s.arg.v.toNat % 16 }

theorem stamped_eth :
    (stamped s).eth s.arg.n = { s.eth s.arg.n with stamp := s.pkg.clock.ptime.toNat * 16 + s.arg.v.toNat % 16 } :=
  setEth_eth_same _ _

/-- The correction, in 1/16 cycle, that a PTP message asks for with its sign turned. -/
def ptpOffset (s : State) : Int :=
  ((s.pkg.clock.ptime.toNat * 16 + s.arg.v.toNat % 16 : Nat) : Int) - 16 * s.pkg.ptp.target s.arg.i

/-- PTPSTAT replaced. -/
def withPtp (s : State) (p : Ptp) : State := s.setPkg { s.pkg with ptp := p }

@[simp] theorem withPtp_eth (p : Ptp) (n : Nat) : (withPtp s p).eth n = s.eth n := rfl

@[simp] theorem correct_eth (c : Int) (n : Nat) : (s.correct c).eth n = s.eth n := rfl

/-- The state whose PTPSTAT has taken the estimate of the message. -/
def estimated (s : State) : State :=
  withPtp (stamped s) (s.pkg.ptp.estimate ((ptpOffset s * 10).tdiv (16 * 19)))

/-- The port keeps its stamp when a correction is taken. -/
theorem estimated_stamp (c : Int) :
    (((estimated s).correct c).eth s.arg.n).stamp = s.pkg.clock.ptime.toNat * 16 + s.arg.v.toNat % 16 := by
  rw [correct_eth, estimated, withPtp_eth, stamped_eth]

theorem ptpEventMessage_down (h : (s.eth s.arg.n).up = false) : exec .ptpEventMessage s = .next s := by
  show execPtpEventMessage s = _
  simp [execPtpEventMessage, h]

theorem ptpEventMessage_up (hn : s.arg.n < 8) (hup : (s.eth s.arg.n).up = true) :
    exec .ptpEventMessage s =
      let p := s.pkg.ptp
      let pod := s.pkg.pod
      let c := (-ptpOffset s).tdiv 16
      if !p.enable ∨ p.port.toNat ≠ s.arg.n ∨ p.domain.toNat ≠ s.arg.m ∨ !ptpForm s.arg.bytes ∨ pod.isMember then
        .next (stamped s)
      else if pod.form then
        .next (((estimated s).setClock { s.pkg.clock with
          corrAt := s.pkg.clock.corrAt ++ [(s.corrTime, c)] }).sideband pod.livePorts 6 0 s.corrTime
            (wordBytes (BitVec.ofInt 64 c)))
      else .next ((estimated s).correct c) := by
  have hstamped : (if 8 ≤ s.arg.n ∨ !(s.eth s.arg.n).up then s
      else s.setEth s.arg.n { s.eth s.arg.n with stamp := s.ptime.toNat * 16 + s.arg.v.toNat % 16 }) = stamped s :=
    if_neg (by simp [hup, hn])
  have hup' : ((stamped s).eth s.arg.n).up = true := by rw [stamped_eth]; exact hup
  show execPtpEventMessage s = _
  simp only [execPtpEventMessage, hstamped, hup', Bool.not_true, Bool.false_eq_true, or_false]
  rfl

theorem ptpEventMessage_disabled (hn : s.arg.n < 8) (hup : (s.eth s.arg.n).up = true) (h : s.pkg.ptp.enable = false) :
    exec .ptpEventMessage s = .next (stamped s) :=
  (ptpEventMessage_up hn hup).trans (if_pos (.inl (by simp [h])))

/-- A message that PTPCTL names, of a form that the device takes time from. -/
structure TimeSource (s : State) : Prop where
  enabled : s.pkg.ptp.enable = true
  port : s.pkg.ptp.port.toNat = s.arg.n
  domain : s.pkg.ptp.domain.toNat = s.arg.m
  form : ptpForm s.arg.bytes = true
  isPort : s.arg.n < 8
  up : (s.eth s.arg.n).up = true

/-- A package that is no member of a pod takes time from such a message. -/
theorem ptpEventMessage_taken (h : TimeSource s) (hmember : s.pkg.pod.isMember = false) :
    exec .ptpEventMessage s =
      let c := (-ptpOffset s).tdiv 16
      if s.pkg.pod.form then
        .next (((estimated s).setClock { s.pkg.clock with
          corrAt := s.pkg.clock.corrAt ++ [(s.corrTime, c)] }).sideband s.pkg.pod.livePorts 6 0 s.corrTime
            (wordBytes (BitVec.ofInt 64 c)))
      else .next ((estimated s).correct c) :=
  (ptpEventMessage_up h.isPort h.up).trans (if_neg (by simp [h.enabled, h.port, h.domain, h.form, hmember]))

theorem ptpEventMessage_alone (h : TimeSource s) (hform : s.pkg.pod.form = false) :
    exec .ptpEventMessage s = .next ((estimated s).correct ((-ptpOffset s).tdiv 16)) :=
  (ptpEventMessage_taken h (by simp [Pod.isMember, hform])).trans (if_neg (by simp [hform]))

theorem ptpEventMessage_root (h : TimeSource s) (hform : s.pkg.pod.form = true) (hroot : s.pkg.pod.isRoot = true) :
    exec .ptpEventMessage s =
      let c := (-ptpOffset s).tdiv 16
      .next (((estimated s).setClock { s.pkg.clock with
        corrAt := s.pkg.clock.corrAt ++ [(s.corrTime, c)] }).sideband s.pkg.pod.livePorts 6 0 s.corrTime
          (wordBytes (BitVec.ofInt 64 c))) :=
  (ptpEventMessage_taken h (by simp [Pod.isMember, hroot])).trans (if_pos hform)

theorem corr_member (h : s.pkg.pod.isMember = true) :
    exec .corr s =
      .next (s.setClock { s.pkg.clock with corrAt := s.pkg.clock.corrAt ++ [(s.arg.v, s.arg.i)] }) :=
  if_pos h

theorem corr_notMember (h : s.pkg.pod.isMember = false) : exec .corr s = .next s := if_neg (by simp [h])

/-! ## Flits about a spanning partition (03 R68; 09 R271) -/

theorem spanFlit_unknown (h : s.spanNo s.arg.n = none) :
    ∀ i ∈ ([.sidebandFreeze, .bcast, .sidebandFault] : List Instr), exec i s = .next s := by
  simp only [List.forall_mem_cons]
  refine ⟨?freeze, ?cast, ?fault, by simp⟩
  case freeze =>
    show execSidebandFreeze s = _
    simp only [execSidebandFreeze, h]
  case cast =>
    show execBcast s = _
    simp only [execBcast, h]
  case fault =>
    show execSidebandFault s = _
    simp only [execSidebandFault, h]

theorem sidebandResume_unknown (hspan : s.spanNo s.arg.n = none)
    (hclaim : s.partOfClaim (field s.arg.bytes 2 2) (field s.arg.bytes 4 4) = none) :
    exec .sidebandResume s = .next s := by
  show execSidebandResume s = _
  simp only [execSidebandResume, hspan, hclaim]

theorem sidebandResume_starts {pk : Nat} (hspan : s.spanNo s.arg.n = none)
    (hclaim : s.partOfClaim (field s.arg.bytes 2 2) (field s.arg.bytes 4 4) = some pk)
    (hstarted : (s.part pk).started = false) (hanchor : s.isAnchor (s.part pk) = false) :
    exec .sidebandResume s = .next (s.startPart pk s.arg.n s.arg.v) := by
  show execSidebandResume s = _
  simp [execSidebandResume, hspan, hclaim, hstarted, hanchor]

section
variable {pk : Nat} (h : s.spanNo s.arg.n = some pk)
include h

theorem sidebandFreeze_span :
    exec .sidebandFreeze s = .next (s.addFreeze pk
      (if (s.part pk).frozen then (s.part pk).scyc else (s.part pk).scyc + (s.until_ s.arg.v : Int)) .sideband none) := by
  show execSidebandFreeze s = _
  simp only [execSidebandFreeze, h]

theorem sidebandResume_span :
    exec .sidebandResume s = .next (s.setPart pk { s.part pk with
      freezes := (s.part pk).freezes.map (fun (f : Freeze) =>
        if f.cause = .sideband ∧ f.ends = none then { f with ends := some (s.cyc + s.until_ s.arg.v) } else f) }) := by
  show execSidebandResume s = _
  simp only [execSidebandResume, h, Option.isNone_iff_eq_none]

theorem bcast_freeze (hm : s.arg.m = 0) :
    exec .bcast s = .next (s.castFreeze pk (toSigned 64 (field s.arg.bytes 0 8)) s.arg.v) := by
  show execBcast s = _
  simp only [execBcast, h, hm]

theorem bcast_sample (hm : s.arg.m = 1) :
    exec .bcast s = .next (s.setPart pk { s.part pk with
      sample := some (s.sampleNow (wordOf (s.arg.bytes.take 8)) s.arg.v, s.cyc) }) := by
  show execBcast s = _
  simp only [execBcast, h, hm]

theorem bcast_latch (hm : s.arg.m = 2) :
    exec .bcast s = .next (s.castLatch pk (field s.arg.bytes 0 1) (field s.arg.bytes 1 4)
      (toSigned 64 (field s.arg.bytes 5 8))) := by
  show execBcast s = _
  simp only [execBcast, h, hm]

theorem bcast_choice (hm : s.arg.m = 3) :
    exec .bcast s = .next (s.castChoice pk (toSigned 64 (field s.arg.bytes 0 8)) (field s.arg.bytes 8 4)
      (field s.arg.bytes 12 4)) := by
  show execBcast s = _
  simp only [execBcast, h, hm]

theorem sidebandFault_span :
    exec .sidebandFault s =
      let cyc := toSigned 64 s.arg.v.toNat
      if s.isAnchor (s.part pk) then .next (s.noteHere pk cyc s.arg.m none none [])
      else .next (s.addFreeze pk cyc .fault none) := by
  show execSidebandFault s = _
  simp only [execSidebandFault, h]

end

/-! ## Link management and reserved flits (03 R68; 09 R270; 16 R476) -/

theorem linkmgt_port (hn : s.arg.n < 6) (hup : (s.pkg.pod.port s.arg.n).up = true) (hform : s.pkg.pod.form = true) :
    exec .linkmgt s =
      let b := s.arg.bytes
      let j := field b 2 2
      let no := field b 4 4
      let from_ := (field b 16 1, field b 17 1)
      .next (match field b 0 1 with
        | 1 => s.answerClaim s.arg.m b
        | 2 => s.takeAnswer j no (field b 1 1) from_
        | 3 => s.endPart j no
        | 4 => s.partOver j no from_
        | 5 => s.endPart j no
        | _ => s) :=
  if_neg (by simp [hup, hform, hn])

theorem linkmgt_down (h : (s.pkg.pod.port s.arg.n).up = false) : exec .linkmgt s = .next s :=
  if_pos (.inr (.inl (by simp [h])))

theorem sidebandReserved_port (hn : s.arg.n < 6) (hup : (s.pkg.pod.port s.arg.n).up = true)
    (hm : s.arg.m = 0 ∨ 8 < s.arg.m) :
    exec .sidebandReserved s = .next (s.setPort s.arg.n
      { s.pkg.pod.port s.arg.n with discarded := (s.pkg.pod.port s.arg.n).discarded + 1 }) :=
  if_neg (by simp [hup, hn]; omega)

theorem sidebandReserved_down (h : (s.pkg.pod.port s.arg.n).up = false) : exec .sidebandReserved s = .next s :=
  if_pos (.inr (.inl (by simp [h])))

section
variable {j no id : Nat} {d : Sched} {o : Nat × Nat} {image : List Byte} (hparse : parseSched image = .ok d)
include hparse

theorem takeClaim_parsed :
    s.takeClaim j no id o image =
      let p := { s.wantedAt d j o with claimNo := no }
      let pk := unitKey j (claimId no)
      if (s.job j).st = .closed then (2, s)
      else if s.pkg.power.exhausted ∨ s.pkg.power.toRetention then (3, s)
      else if (s.part pk).st ≠ .free then (1, s)
      else if !s.canPlace pk p then (3, s)
      else
        let r := s.acceptSched d p (claimId no) 1 (BitVec.allOnes 64) none
        (1, r.setPart pk { r.part pk with flitId := id }) := by
  unfold State.takeClaim
  rw [hparse]

theorem takeClaim_closed (hclosed : (s.job j).st = .closed) : s.takeClaim j no id o image = (2, s) :=
  (takeClaim_parsed hparse).trans (if_pos hclosed)

theorem takeClaim_unready (hopen : (s.job j).st ≠ .closed)
    (h : s.pkg.power.exhausted = true ∨ s.pkg.power.toRetention = true) : s.takeClaim j no id o image = (3, s) :=
  (takeClaim_parsed hparse).trans ((if_neg hopen).trans (if_pos h))

/-- A part that does not fit is answered as one of a package that is not ready is. -/
theorem takeClaim_noRoom (hopen : (s.job j).st ≠ .closed) (hfree : (s.part (unitKey j (claimId no))).st = .free)
    (hroom : s.canPlace (unitKey j (claimId no)) { s.wantedAt d j o with claimNo := no } = false) :
    s.takeClaim j no id o image = (3, s) := by
  by_cases hready : s.pkg.power.exhausted = true ∨ s.pkg.power.toRetention = true
  · exact takeClaim_unready hparse hopen hready
  · exact (takeClaim_parsed hparse).trans ((if_neg hopen).trans ((if_neg hready).trans
      ((if_neg (not_not.mpr hfree)).trans (if_pos (by rw [hroom]; rfl)))))

end
end

/-! ## The obligation -/

/-- Settles O45: each event's case by its own lemma; a step moves what is left of a correction by one towards 0. -/
theorem timeAndSideband : Obligations.TimeAndSideband := by
  unfold Obligations.TimeAndSideband
  refine ⟨fun s => ⟨fun hat => ?steps, clockPhaseStep_notDue, fun hphase hcyc => ⟨_, clockPhaseStep_due hphase hcyc, ?phase⟩,
      fun k hk => ⟨fun hdue => (timestampExchange_child hk).trans (if_pos hdue),
        fun hdue => (timestampExchange_child hk).trans (if_neg (by simp [hdue]))⟩,
      timestampExchange_root, timestamp_noPod,
      fun t1 t2 t3 t4 => timestamp_upstream, timestamp_answered,
      ⟨fun hen hn hup => ptpEventMessage_disabled hn hup hen, fun _ => ptpEventMessage_down, ?alone, ?root⟩,
      corr_member, corr_notMember⟩,
    fun s => ⟨spanFlit_unknown, sidebandResume_unknown, fun pk => sidebandResume_starts,
      fun pk h => ⟨sidebandFreeze_span h, sidebandResume_span h,
        bcast_freeze h, bcast_sample h, bcast_latch h, bcast_choice h,
        fun ha => (sidebandFault_span h).trans (if_pos ha), fun ha => (sidebandFault_span h).trans (if_neg (by simp [ha]))⟩,
      fun hn hup hform => ?link, fun d o image => takeClaim_closed, fun d o image => takeClaim_unready,
      fun d o image => takeClaim_noRoom, sidebandReserved_port,
      fun h => ⟨linkmgt_down h, sidebandReserved_down h⟩⟩⟩
  case steps =>
    have hstep := ptimeCorrectionStep_noneWaiting hat
    refine ⟨fun h0 => hstep.trans (if_pos h0),
      fun hbig => ⟨_, hstep.trans ((if_neg (by omega)).trans (if_pos hbig)), ?_, ?_, ?_⟩,
      fun h0 hsmall hcyc => hstep.trans ((if_neg h0).trans ((if_neg (Nat.not_le.mpr hsmall)).trans (if_pos hcyc))),
      fun h0 hsmall hcyc => ⟨_, hstep.trans ((if_neg h0).trans ((if_neg (Nat.not_le.mpr hsmall)).trans
        (if_neg (Nat.not_lt.mpr hcyc)))), ?_, ?_, ?_⟩⟩
    · rw [anchorTimes_clock]; rfl
    · rw [anchorTimes_clock]; rfl
    · rw [anchorTimes_ptp]; rfl
    · rw [anchorTimes_clock]; rfl
    · rw [anchorTimes_clock]; exact add_ofInt_sign _ _
    · rw [anchorTimes_clock]; exact natAbs_sub_sign h0
  case phase => exact ⟨natAbs_sub_sign hphase, rfl, rfl⟩
  case alone =>
    exact fun hen hport hdom hptp hform hn hup =>
      ⟨_, ptpEventMessage_alone ⟨hen, hport, hdom, hptp, hn, hup⟩ hform, estimated_stamp _, rfl, rfl⟩
  case root =>
    exact fun hen hport hdom hptp hform hroot hn hup =>
      ⟨_, _, ptpEventMessage_root ⟨hen, hport, hdom, hptp, hn, hup⟩ hform hroot, rfl, sideband_clock ..⟩
  case link =>
    have hport := linkmgt_port hn hup hform
    refine ⟨fun h => hport.trans (by simp only [h]), fun h => hport.trans (by simp only [h]),
      fun h => hport.trans (by rcases h with h | h <;> simp only [h]), fun h => hport.trans (by simp only [h]),
      fun h => hport.trans ?_⟩
    dsimp only
    split
    case h_6 => rfl
    all_goals omega

end Sys2Proof.PlaneTime
end

section
/-! PROOF. What writing the remote line cache through, a release and a retirement leave alone (06 R149; 07 R186; 12 R338): all of
the state but memory and its bookkeeping, the cores, and of the threads only the faults deferred to them and the scopes noted of
their accesses. -/

namespace Sys2Proof.Kept

open Sys2Proof
open Sys2Proof.Machine

/-- A thread but for the faults deferred to it and the scopes noted of its accesses. -/
def bare (x : Thread) : Thread :=
  { x with
    rpe := false, rpeDetail := 0, wpe := false, wkind := 0, wpeDetail := 0, vpe := false, vpeDetail := 0, far := false,
    relScope := .core, readScope := .core }

/-- A state but for its threads, memory with its bookkeeping, the cores and the agenda. -/
def outside (s : State) : State :=
  { s with mem := [], ue := [], wtags := [], counters := [], tiles := [], cores := [], agenda := [], threads := [] }

/-- What writing the remote line cache through leaves alone. -/
def kept (s : State) : State × (Nat → Thread) := (outside s, fun u => bare (s.thread u))

section
variable {s t : State}

/-! ## What the operations keep -/

/-- A thread replaced by one that differs in what is not kept. -/
theorem kept_setThread {u : Nat} {x : Thread} (h : bare x = bare (s.thread u)) : kept (s.setThread u x) = kept s := by
  refine Prod.ext rfl (funext fun v => ?_)
  by_cases hv : v = u
  · subst hv
    exact (congrArg bare (State.thread_setThread_same s v x)).trans h
  · exact congrArg bare (State.thread_setThread_other s hv x)

theorem bare_putDeferred (x : Thread) (kind : Nat) (wkind : BitVec 2) (detail : Word) :
    bare (x.putDeferred kind wkind detail) = bare x := by
  unfold Thread.putDeferred
  split <;> rfl

theorem kept_deferFault (u kind : Nat) (wkind : BitVec 2) (detail : Word) :
    kept (s.deferFault u kind wkind detail) = kept s := by
  unfold State.deferFault
  split
  · rfl
  · exact kept_setThread (bare_putDeferred _ _ _ _)

theorem kept_refuseStore (u c : Nat) (va : Word) : kept (s.refuseStore u c va) = kept s := by
  unfold State.refuseStore
  split_ifs
  · exact kept_deferFault ..
  · exact kept_deferFault ..
  · exact kept_deferFault ..
  · rfl
  · rfl

theorem kept_noteWritten (pa n : Nat) : kept (s.noteWritten pa n) = kept s := by
  unfold State.noteWritten
  split
  · dsimp only
    split <;> rfl
  · rfl

theorem kept_perform (pa : Nat) (b : List Byte) (w : WTag) : kept (s.perform pa b w) = kept s := by
  have hnote := kept_noteWritten (s := (s.putMem pa b).clearUe pa b.length) pa b.length
  refine Eq.trans ?_ (hnote.trans rfl)
  unfold State.perform
  generalize ((s.putMem pa b).clearUe pa b.length).noteWritten pa b.length = s1
  rfl

theorem kept_flushWord (l : Line) (i : Nat) : kept (s.flushWord l i) = kept s := by
  unfold State.flushWord
  split
  · rfl
  · dsimp only
    split
    · exact kept_perform ..
    · exact kept_refuseStore ..
    · rfl

theorem kept_flushGranule (l : Line) (g : Nat) : kept (s.flushGranule l g) = kept s := by
  unfold State.flushGranule
  refine (foldl_same kept _ (fun _ i => kept_flushWord l i) _ _).trans ?_
  split <;> rfl

theorem kept_flushWords (c num : Nat) (mask : BitVec 16) : kept (s.flushWords c num mask) = kept s := by
  unfold State.flushWords
  split
  · rfl
  · exact foldl_same kept _ (fun _ g => kept_flushGranule _ g) (List.range 4) s

theorem kept_flushRanges (ps : List (Nat × Nat)) : kept (s.flushRanges ps) = kept s :=
  foldl_same kept _ (fun _ _ => kept_flushWords ..) _ _

theorem kept_writeThrough (sc : Scope) : kept (s.writeThrough sc) = kept s := by
  unfold State.writeThrough
  split
  · exact foldl_same kept (fun r (l : Line) => r.flushLine (coreOf s.cur) l.num) (fun _ _ => kept_flushWords ..) _ _
  · rfl

theorem kept_release (sc : Scope) : kept (s.release sc) = kept s := by
  refine Eq.trans ?_ (kept_writeThrough (s := s) sc)
  refine kept_setThread ?_
  rfl

theorem kept_of_beforeRelease {opc : Nat} {sc : Scope} (h : s.beforeRelease opc sc = .ok t) : kept t = kept s := by
  unfold State.beforeRelease State.readyRelease at h
  split at h
  · cases h
  · next hready =>
    cases h
    split at hready
    · cases hready
    · split at hready
      · cases hready
      · cases hready
        exact (kept_release sc).trans (kept_writeThrough sc)

/-! ## What is read of a state that is kept -/

section
variable (h : kept t = kept s)
include h

theorem outside_of_kept : outside t = outside s := congrArg Prod.fst h

theorem cur_of_kept : t.cur = s.cur := (congrArg State.cur (outside_of_kept h) :)
theorem outbox_of_kept : t.outbox = s.outbox := (congrArg State.outbox (outside_of_kept h) :)
theorem remotes_of_kept : t.remotes = s.remotes := (congrArg State.remotes (outside_of_kept h) :)
theorem pdcs_of_kept : t.pdcs = s.pdcs := (congrArg State.pdcs (outside_of_kept h) :)
theorem peers_of_kept : t.peers = s.peers := (congrArg State.peers (outside_of_kept h) :)
theorem jobs_of_kept : t.jobs = s.jobs := (congrArg State.jobs (outside_of_kept h) :)
theorem banks_of_kept : t.banks = s.banks := (congrArg State.banks (outside_of_kept h) :)

theorem th_of_kept : bare t.th = bare s.th :=
  (congrArg (fun u => bare (t.thread u)) (cur_of_kept h)).trans (congrFun (congrArg Prod.snd h) s.cur)

theorem job_of_kept : t.th.job = s.th.job := (congrArg Thread.job (th_of_kept h) :)
theorem tid_of_kept : t.th.tid = s.th.tid := (congrArg Thread.tid (th_of_kept h) :)
theorem pc_of_kept : t.th.pc = s.th.pc := (congrArg Thread.pc (th_of_kept h) :)
theorem qcount_of_kept : t.th.qcount = s.th.qcount := (congrArg Thread.qcount (th_of_kept h) :)

end

/-! ## Retirement (12 R338) -/

@[simp] theorem retire_th : s.retire.th = s.th.go (s.th.pc + 4) 1 := State.th_setTh ..

@[simp] theorem digest_th (va : Word) (data : List Byte) :
    (s.digest va data).th = { s.th with digest := digestStore s.th.digest va data } := State.th_setTh ..

/-- What retires after only what is not kept of the executing thread has changed has retired the instruction. -/
theorem retired_retire (hcur : t.cur = s.cur) (hth : bare t.th = bare s.th) : s.retired t.retire := by
  have hpc : t.th.pc = s.th.pc := (congrArg Thread.pc hth :)
  have hcount : t.th.qcount = s.th.qcount := (congrArg Thread.qcount hth :)
  rw [State.retired, retire_th]
  exact ⟨hcur, congrArg (· + 4) hpc, rfl, congrArg (· + 1) hcount⟩

/-! ## A release with nothing left to order (12 R337) -/

theorem beforeRelease_atRest (h : s.atRest) (opc : Nat) (sc : Scope) :
    s.beforeRelease opc sc = .ok ((s.writeThrough sc).release sc) := by
  obtain ⟨hsb, hrpe, hwpe, hvpe, -⟩ := h
  simp [State.beforeRelease, State.readyRelease, State.takeDeferred, State.sbEmpty, hsb, hrpe, hwpe, hvpe]

end

end Sys2Proof.Kept
end

section
/-! PROOF. Remote operations (03 R52 to R63; 13 R371, R405, R406): what RST and RINC send, how an operation ends, and what a packet
does at this target. A packet of any kind goes through `State.receive`, whose cases are stated once; the four instructions then
differ in what they do with a packet that is performed. -/

namespace Sys2Proof.RemoteOps

open Sys2Proof
open Sys2Proof.Machine
open Sys2Proof.Kept

section
variable {s r : State}

/-! ## The low bytes of a register -/

@[simp] theorem bytesOf_length (n v : Nat) : (bytesOf n v).length = n := by
  induction n generalizing v with
  | zero => rfl
  | succ n ih => simp [bytesOf, ih]

theorem take_bytesOf {n m : Nat} (h : n ≤ m) (v : Nat) : (bytesOf m v).take n = bytesOf n v := by
  induction n generalizing m v with
  | zero => rfl
  | succ n ih =>
    obtain ⟨m, rfl⟩ : ∃ k, m = k + 1 := ⟨m - 1, by omega⟩
    simp [bytesOf, ih (Nat.le_of_succ_le_succ h)]

theorem storeBytes_eq_take (v : Word) (w : BitVec 2) : storeBytes v (2 ^ w.toNat) = (wordBytes v).take (2 ^ w.toNat) :=
  (take_bytesOf (Nat.pow_le_pow_right (by decide) (Nat.le_of_lt_succ w.isLt) : 2 ^ w.toNat ≤ 2 ^ 3) _).symm

/-! ## A packet sent (03 R54, R57, R58) -/

/-- `t` is `s` once the executing thread has sent packet `q`. -/
structure Sent (s t : State) (q : OutPkt) : Prop where
  cur : t.cur = s.cur
  threads : t.threads = s.threads
  mem : t.mem = s.mem
  outbox : t.outbox = s.outbox ++ [q]
  remotes : ∃ o, t.remotes = s.remotes ++ [o] ∧ o.thr = some s.cur ∧ o.peer = q.peer ∧ o.waiting = false

/-- Opening a context touches the contexts alone. -/
theorem openPdc_eq (s : State) (j i : Nat) : ∃ l n, s.openPdc j i = { s with pdcs := l, pdcSeq := n } := by
  unfold State.openPdc
  split
  · exact ⟨s.pdcs, s.pdcSeq, rfl⟩
  · exact ⟨_, _, rfl⟩

/-- The operation that a packet of the executing thread begins. -/
def begun (s : State) (tid : BitVec 14) (engine cmd : Option (Nat × Nat)) (p : OutPkt) : RemoteOp :=
  { id := s.remoteSeq, job := p.job, peer := p.peer, thr := some s.cur, tid := tid, engine := engine, cmd := cmd,
    pkt := s.atEgress p, waiting := false }

theorem sendRemote_sent {tid : BitVec 14} {engine cmd : Option (Nat × Nat)} {p : OutPkt}
    (h : s.pdcFull p.job p.peer = false) :
    Sent s (s.sendRemote (some s.cur) tid engine cmd p) (s.atEgress p) := by
  obtain ⟨l, n, hopen⟩ := openPdc_eq
    { s with remotes := s.remotes ++ [begun s tid engine cmd p], remoteSeq := s.remoteSeq + 1 } p.job p.peer
  have hsend : s.sendRemote (some s.cur) tid engine cmd p =
      (State.openPdc { s with remotes := s.remotes ++ [begun s tid engine cmd p], remoteSeq := s.remoteSeq + 1 }
        p.job p.peer).emit (s.atEgress p) := by
    simp only [State.sendRemote, h, Bool.false_eq_true, if_false, begun]
  rw [hsend, hopen]
  exact ⟨rfl, rfl, rfl, rfl, _, rfl, rfl, rfl, rfl⟩

/-- A packet of a job's thread as it leaves egress. -/
def threadPkt (s : State) (j kind peer : Nat) (va : Word) (data : List Byte) (rel : Bool) : OutPkt :=
  { kind := kind, op := 0, job := j, peer := peer, va := va, data := data, rel := rel,
    entry := s.peerEntry j peer, ports := s.routeOf (s.peerEntry j peer) }

theorem threadRemote_sent {peer : Nat} (kind : Nat) (va : Word) (data : List Byte) (rel : Bool)
    (husable : s.entryUsable s.th.job peer = true) (hctx : s.pdcFull s.th.job peer = false) :
    Sent s (s.threadRemote kind peer va data rel) (threadPkt s s.th.job kind peer va data rel) := by
  rw [State.threadRemote, if_pos husable]
  exact sendRemote_sent hctx

theorem Sent.th {q : OutPkt} (h : Sent s r q) : r.th = s.th := by
  simp only [State.th, State.thread, h.cur, h.threads]

theorem Sent.sameBytes {q : OutPkt} (h : Sent s r q) : s.sameBytes r := fun _ => by
  simp only [State.byte, h.mem]

/-! ## RST and RINC (13 R371, R405, R406) -/

theorem remoteParks_eq_false {peer : Nat} (hmax : s.outstanding < 64)
    (hctx : s.entryUsable s.th.job peer = true → s.pdcFull s.th.job peer = false) : s.remoteParks peer = false := by
  have hroom : ¬ remoteMax ≤ s.outstanding := Nat.not_le.mpr hmax
  cases husable : s.entryUsable s.th.job peer
  · simp [State.remoteParks, hroom, husable]
  · simp [State.remoteParks, hroom, husable, hctx husable]

theorem remoteParks_of_full {peer : Nat} (h : 64 ≤ s.outstanding) : s.remoteParks peer = true := by
  simp [State.remoteParks, remoteMax, h]

theorem remoteParks_of_noContext {peer : Nat} (husable : s.entryUsable s.th.job peer = true)
    (hctx : s.pdcFull s.th.job peer = true) : s.remoteParks peer = true := by
  simp [State.remoteParks, husable, hctx]

section
variable (hp : s.performs)
include hp

theorem rst_goes {a b c : BitVec 5} {w : BitVec 2} (hpark : s.remoteParks ((s.g a).toNat % 4096) = false) :
    exec (.rst a b c w) s =
      let peer := (s.g a).toNat % 4096
      let data := (wordBytes (s.g c)).take (2 ^ w.toNat)
      .next (((s.threadRemote 0 peer (s.g b) data false).digest (s.g b) data).retire) := by
  show execRst a b c w s = _
  simp only [execRst, unrecorded, hp, hpark, storeBytes_eq_take, Bool.false_eq_true, if_false, ended]

theorem rst_parks {a b c : BitVec 5} {w : BitVec 2} (hpark : s.remoteParks ((s.g a).toNat % 4096) = true) :
    exec (.rst a b c w) s = .next (s.parkRemote ((s.g a).toNat % 4096) 0x76) := by
  show execRst a b c w s = _
  simp only [execRst, unrecorded, hp, hpark, if_true, ended]

theorem rinc_misaligned {a b c : BitVec 5} {rel kind : BitVec 1} (hkind : kind = 0) (hb : (s.g b).toNat % 8 ≠ 0) :
    exec (.rinc a b c rel kind) s = .next (s.trap 0x03 (s.g b)) := by
  show execRinc a b c rel kind s = _
  simp only [execRinc, unrecorded, hp, hkind, hb, ne_eq, not_false_eq_true, and_self, if_true, ended]
  rfl

theorem rinc_goes {a b c : BitVec 5} {rel kind : BitVec 1}
    (hrel : (if rel = 1 then s.beforeRelease 0x77 (s.th.effRelease .pod) else .ok s) = .ok r)
    (hb : kind = 0 → (s.g b).toNat % 8 = 0) (hpark : r.remoteParks ((s.g a).toNat % 4096) = false) :
    exec (.rinc a b c rel kind) s =
      .next (r.rincSend ((s.g a).toNat % 4096) (s.g b) (s.g c) rel kind).retire := by
  have halign : ¬ (kind = 0 ∧ (s.g b).toNat % 8 ≠ 0) := fun ⟨hk, hne⟩ => hne (hb hk)
  show execRinc a b c rel kind s = _
  simp only [execRinc, unrecorded, hp, halign, hrel, hpark, Bool.false_eq_true, if_false, ended]

end

/-- The state in which RST or RINC goes on is that of the thread that runs, but for what a release writes through. -/
theorem kept_of_rincRelease {rel : BitVec 1}
    (hrel : (if rel = 1 then s.beforeRelease 0x77 (s.th.effRelease .pod) else .ok s) = .ok r) : kept r = kept s := by
  split at hrel
  · exact kept_of_beforeRelease hrel
  · cases hrel
    rfl

/-- The packet that RINC sends. -/
def rincPkt (s : State) (j peer : Nat) (va addend : Word) (rel kind : BitVec 1) : OutPkt :=
  threadPkt s j (if kind = 1 then 2 else 1) peer (if kind = 1 then va &&& 0x3FFF else va) (wordBytes addend) (rel == 1)

theorem rincSend_sent {peer : Nat} (va addend : Word) (rel kind : BitVec 1)
    (husable : s.entryUsable s.th.job peer = true) (hctx : s.pdcFull s.th.job peer = false) :
    Sent s (s.rincSend peer va addend rel kind) (rincPkt s s.th.job peer va addend rel kind) := by
  unfold State.rincSend rincPkt
  split_ifs
  · exact threadRemote_sent _ _ _ _ husable hctx
  · exact threadRemote_sent _ _ _ _ husable hctx

/-- The state in which RST ends once its packet has been sent. -/
theorem Sent.digest_retire {q : OutPkt} (h : Sent s r q) (va : Word) (data : List Byte) :
    let t := (r.digest va data).retire
    t.cur = s.cur ∧ t.th = { s.th with
        pc := s.th.pc + 4, park := .running, qcount := s.th.qcount + 1, digest := digestStore s.th.digest va data } ∧
      t.outbox = s.outbox ++ [q] ∧ s.sameBytes t ∧ t.remotes = r.remotes := by
  refine ⟨h.cur, ?_, h.outbox, h.sameBytes, rfl⟩
  rw [retire_th, digest_th, h.th, Thread.go]

/-- RST with a usable entry and a context sends its packet and retires. -/
theorem rst_sends (hp : s.performs) (a b c : BitVec 5) (w : BitVec 2) (hmax : s.outstanding < 64)
    (husable : s.entryUsable s.th.job ((s.g a).toNat % 4096) = true)
    (hctx : s.pdcFull s.th.job ((s.g a).toNat % 4096) = false) :
    let peer := (s.g a).toNat % 4096
    let data := (wordBytes (s.g c)).take (2 ^ w.toNat)
    ∃ t, exec (.rst a b c w) s = .next t ∧ t.cur = s.cur ∧ t.th = { s.th with
        pc := s.th.pc + 4, park := .running, qcount := s.th.qcount + 1, digest := digestStore s.th.digest (s.g b) data } ∧
      t.outbox = s.outbox ++ [threadPkt s s.th.job 0 peer (s.g b) data false] ∧ s.sameBytes t ∧
      ∃ o, t.remotes = s.remotes ++ [o] ∧ o.thr = some s.cur ∧ o.peer = peer ∧ o.waiting = false := by
  intro peer data
  have hsent := threadRemote_sent 0 (s.g b) data false husable hctx
  obtain ⟨hcur, hth, hout, hbytes, hremotes⟩ := hsent.digest_retire (s.g b) data
  have hop := hsent.remotes
  rw [← hremotes] at hop
  exact ⟨_, rst_goes hp (remoteParks_eq_false hmax fun _ => hctx), hcur, hth, hout, hbytes, hop⟩

/-- RINC with a usable entry and a context, once what its release orders is done, sends its packet and retires. -/
theorem rinc_sends (hp : s.performs) (a b c : BitVec 5) (rel kind : BitVec 1)
    (hrel : (if rel = 1 then s.beforeRelease 0x77 (s.th.effRelease .pod) else .ok s) = .ok r)
    (hb : kind = 0 → (s.g b).toNat % 8 = 0) (hmax : r.outstanding < 64)
    (husable : r.entryUsable s.th.job ((s.g a).toNat % 4096) = true)
    (hctx : r.pdcFull s.th.job ((s.g a).toNat % 4096) = false) :
    let peer := (s.g a).toNat % 4096
    ∃ t, exec (.rinc a b c rel kind) s = .next t ∧ t.cur = s.cur ∧ t.th = r.th.go (s.th.pc + 4) 1 ∧
      t.outbox = r.outbox ++ [rincPkt r s.th.job peer (s.g b) (s.g c) rel kind] ∧
      ∃ o, t.remotes = r.remotes ++ [o] ∧ o.thr = some s.cur ∧ o.peer = peer ∧ o.waiting = false := by
  intro peer
  have hkept := kept_of_rincRelease hrel
  rw [← job_of_kept hkept] at husable hctx
  have hsent := rincSend_sent (s.g b) (s.g c) rel kind husable hctx
  rw [← cur_of_kept hkept, ← pc_of_kept hkept, ← job_of_kept hkept]
  refine ⟨_, rinc_goes hp hrel hb (remoteParks_eq_false hmax fun _ => hctx), hsent.cur, ?_, hsent.outbox,
    hsent.remotes⟩
  rw [retire_th, hsent.th]

/-- After a remote failure of the executing thread RPE is set, with the failure where none was pending. -/
theorem deferFault_rpe (v : Word) :
    (s.deferFault s.cur 0 0 v).th.rpe = true ∧
      (s.th.rpe = false → (s.deferFault s.cur 0 0 v).th.rpeDetail = v) := by
  unfold State.deferFault
  split
  next hpending => exact ⟨hpending, fun hnone => absurd hpending (Bool.eq_false_iff.mp hnone)⟩
  next =>
    exact ⟨congrArg Thread.rpe (State.th_setTh s _), fun _ => congrArg Thread.rpeDetail (State.th_setTh s _)⟩

/-- RST with an entry that cannot be used sends nothing, sets RPE and goes on. -/
theorem rst_unusable (hp : s.performs) (a b c : BitVec 5) (w : BitVec 2) (hmax : s.outstanding < 64)
    (husable : s.entryUsable s.th.job ((s.g a).toNat % 4096) = false) :
    ∃ t, exec (.rst a b c w) s = .next t ∧ t.th.pc = s.th.pc + 4 ∧ t.outbox = s.outbox ∧ t.th.rpe = true ∧
      (s.th.rpe = false → t.th.rpeDetail = BitVec.ofNat 64 ((s.g a).toNat % 4096)) := by
  have hremote (va : Word) (data : List Byte) : s.threadRemote 0 ((s.g a).toNat % 4096) va data false =
      s.deferFault s.cur 0 0 (remoteEval ((s.g a).toNat % 4096) 0) := if_neg (by simp [husable])
  have heval : remoteEval ((s.g a).toNat % 4096) 0 = BitVec.ofNat 64 ((s.g a).toNat % 4096) := by
    simp [remoteEval]
  have hkept := kept_deferFault (s := s) s.cur 0 0 (remoteEval ((s.g a).toNat % 4096) 0)
  obtain ⟨hrpe, hdetail⟩ := deferFault_rpe (s := s) (remoteEval ((s.g a).toNat % 4096) 0)
  refine ⟨_, rst_goes hp (remoteParks_eq_false hmax (by simp [husable])), ?_⟩
  simp only [hremote, retire_th, digest_th]
  have hpc := congrArg (· + 4) (pc_of_kept hkept)
  have hout := outbox_of_kept hkept
  exact ⟨hpc, hout, hrpe, fun h => (hdetail h).trans heval⟩

theorem parkRemote_full {peer opc : Nat} (h : 64 ≤ s.outstanding) :
    s.parkRemote peer opc = s.setTh { s.th with park := .retry opc } := by
  simp only [State.parkRemote, remoteMax, Nat.not_lt.mpr h, false_and, if_false]
  rfl

/-- A thread that waits for egress has changed in nothing but its wait. -/
theorem parkRemote_th (peer opc : Nat) :
    (s.parkRemote peer opc).th = { s.th with park := .retry opc } ∧ (s.parkRemote peer opc).outbox = s.outbox := by
  unfold State.parkRemote
  refine ⟨(State.th_setTh ..).trans ?_, ?_⟩ <;> split <;> rfl

/-! ## How an operation ends (03 R52, R54, R63) -/

section
variable {o : RemoteOp} (hsent : s.sentRemote s.arg.n = some o)
include hsent

theorem remoteAck_thread (h : o.engine = none) : exec .remoteAck s = .next (s.dropRemote o) := by
  show execRemoteAck s = _
  simp only [execRemoteAck, hsent, h]

theorem remoteAck_engine {e num : Nat} (h : o.engine = some (e, num)) :
    exec .remoteAck s =
      .next ((s.dropRemote o).mapTransfer e num (fun t => { t with remote := t.remote - 1 })) := by
  show execRemoteAck s = _
  simp only [execRemoteAck, hsent, h]

theorem retransmissionLimit_sent : exec .retransmissionLimit s = .next ((s.dropRemote o).failRemote o 1) := by
  show execRetransmissionLimit s = _
  simp only [execRetransmissionLimit, hsent]

theorem negativeAcknowledgement_sent :
    exec .negativeAcknowledgement s = .next ((s.dropRemote o).failRemote o (if s.arg.b then 3 else 2)) := by
  show execNegativeAcknowledgement s = _
  simp only [execNegativeAcknowledgement, hsent]

end

/-- An operation of a live thread that fails sets its RPE with the peer and the cause. -/
theorem failRemote_thread {o : RemoteOp} {t : Nat} (cause : Nat) (hengine : o.engine = none) (hcmd : o.cmd = none)
    (hthr : o.thr = some t) (hlive : (s.thread t).live = true) (hjob : (s.thread t).job = o.job)
    (htid : (s.thread t).tid = o.tid) (hrpe : (s.thread t).rpe = false) :
    s.failRemote o cause = s.setThread t { s.thread t with
      rpe := true, rpeDetail := BitVec.ofNat 64 (o.peer % 4096 + cause * 4096) } := by
  simp only [State.failRemote, hengine, hcmd, hthr]
  exact (if_pos ⟨hlive, hjob, htid⟩).trans (if_neg (Bool.eq_false_iff.mp hrpe))

/-- Both ways in which an operation fails after it has been sent (03 R63). -/
theorem remote_fails {o : RemoteOp} {t : Nat} (hsent : s.sentRemote s.arg.n = some o) (hengine : o.engine = none)
    (hcmd : o.cmd = none) (hthr : o.thr = some t) (hlive : (s.thread t).live = true) (hjob : (s.thread t).job = o.job)
    (htid : (s.thread t).tid = o.tid) (hrpe : (s.thread t).rpe = false) :
    ∀ q ∈ ([(.retransmissionLimit, 1), (.negativeAcknowledgement, if s.arg.b = true then 3 else 2)] : List (Instr × Nat)),
      exec q.1 s = .next ((s.dropRemote o).setThread t { s.thread t with
        rpe := true, rpeDetail := BitVec.ofNat 64 (o.peer % 4096 + q.2 * 4096) }) := by
  have hfail (cause : Nat) := failRemote_thread (s := s.dropRemote o) cause hengine hcmd hthr hlive hjob htid hrpe
  simp only [List.forall_mem_cons]
  exact ⟨(retransmissionLimit_sent hsent).trans (congrArg _ (hfail _)),
    (negativeAcknowledgement_sent hsent).trans (congrArg _ (hfail _)), by simp⟩

section
variable {p : Pdc} (hpdc : s.pdcs.find? (fun p => p.id == s.arg.n) = some p)
include hpdc

theorem pdcIdleClose_found :
    exec .pdcIdleClose s =
      if s.remotes.any (fun r => !r.waiting && r.job == p.job && r.peer == p.peer) ∨ s.cyc < p.idleSince + 19000000 then
        .next s
      else .next (State.sendWaiting { s with pdcs := s.pdcs.filter (fun q => q.id != p.id) }) := by
  show execPdcIdleClose s = _
  simp only [execPdcIdleClose, hpdc]
  rfl

theorem pdcIdleClose_early (hcyc : s.cyc < p.idleSince + 19000000) : exec .pdcIdleClose s = .next s :=
  (pdcIdleClose_found hpdc).trans (if_pos (.inr hcyc))

theorem pdcIdleClose_idle (hused : s.remotes.any (fun r => !r.waiting && r.job == p.job && r.peer == p.peer) = false)
    (hcyc : p.idleSince + 19000000 ≤ s.cyc) (hwait : s.remotes.find? (·.waiting) = none) :
    exec .pdcIdleClose s = .next { s with pdcs := s.pdcs.filter (fun q => q.id != p.id) } := by
  refine (pdcIdleClose_found hpdc).trans ((if_neg (by simp only [hused]; simp; omega)).trans (congrArg _ ?_))
  simp only [State.sendWaiting, hwait]

end

/-! ## A packet that arrives (03 R51, R53, R61, R63) -/

/-- A packet that the receiver does not discard, nor keep for its turn. -/
structure InTurn (s : State) (p : Packet) : Prop where
  on : s.pkg.power.st ≠ .off
  short : p.data.length ≤ 9216
  auth : p.auth = true
  fresh : s.dupPkt p = false
  next : p.ordered = true → p.psn = (s.conn p.conn).next

/-- What follows a packet's effect: its number is taken, unless it waits. -/
def taken (p : Packet) (w : State) : State := if w.pktHeld p = true then w else w.donePkt p

section
variable {k : Nat} {p : Packet} {f : State → State}

theorem receive_off (hoff : s.pkg.power.st = .off) : s.receive k p f = s := if_pos (.inl hoff)

theorem receive_on (hon : s.pkg.power.st ≠ .off) (hlen : p.data.length ≤ 9216) :
    s.receive k p f =
      if !p.auth then s.setPkg { s.pkg with tssDiscards := s.pkg.tssDiscards + 1 }
      else if s.dupPkt p then s
      else if p.ordered ∧ p.psn ≠ (s.conn p.conn).next then
        s.setConn p.conn { s.conn p.conn with early := (s.conn p.conn).early ++ [(k, p)] }
      else taken p (f s) :=
  if_neg (not_or.mpr ⟨hon, Nat.not_lt.mpr hlen⟩)

theorem receive_unauthentic (hon : s.pkg.power.st ≠ .off) (hlen : p.data.length ≤ 9216) (hauth : p.auth = false) :
    s.receive k p f = s.setPkg { s.pkg with tssDiscards := s.pkg.tssDiscards + 1 } :=
  (receive_on hon hlen).trans (if_pos (by simp [hauth]))

theorem receive_duplicate (hauth : p.auth = true) (hdup : s.dupPkt p = true) : s.receive k p f = s := by
  simp only [State.receive, hauth, hdup, Bool.not_true, Bool.false_eq_true, if_true, if_false, ite_self]

theorem receive_early (hon : s.pkg.power.st ≠ .off) (hlen : p.data.length ≤ 9216) (hauth : p.auth = true)
    (hdup : s.dupPkt p = false) (hord : p.ordered = true) (hpsn : p.psn ≠ (s.conn p.conn).next) :
    s.receive k p f = s.setConn p.conn { s.conn p.conn with early := (s.conn p.conn).early ++ [(k, p)] } :=
  (receive_on hon hlen).trans ((if_neg (by simp [hauth])).trans ((if_neg (by simp [hdup])).trans (if_pos ⟨hord, hpsn⟩)))

theorem receive_inTurn (h : InTurn s p) : s.receive k p f = taken p (f s) :=
  (receive_on h.on h.short).trans ((if_neg (by simp [h.auth])).trans ((if_neg (by simp [h.fresh])).trans
    (if_neg fun ⟨hord, hpsn⟩ => hpsn (h.next hord))))

end

/-- The instruction of each kind of packet, and what it does with one that is performed. -/
def packetKinds : List (Instr × Nat × (State → Packet → State)) :=
  [(.rmaWrite, 0, State.rmaWrite), (.rmaRead, 1, State.rmaRead), (.fetchAdd, 2, State.fetchAddPkt),
   (.nonFetchingAtomicAdd, 3, State.addPkt)]

theorem exec_packet (s : State) : ∀ q ∈ packetKinds,
    exec q.1 s = .next (s.receive q.2.1 s.arg.pkt (fun w => q.2.2 w s.arg.pkt)) := by
  simp only [packetKinds, List.forall_mem_cons]
  exact ⟨rfl, rfl, rfl, rfl, by simp⟩

/-- What holds of every kind of packet holds of its instruction and number. -/
theorem forall_packet {P : Instr → Nat → Prop} (h : ∀ q ∈ packetKinds, P q.1 q.2.1) :
    ∀ q ∈ ([(.rmaWrite, 0), (.rmaRead, 1), (.fetchAdd, 2), (.nonFetchingAtomicAdd, 3)] : List (Instr × Nat)), P q.1 q.2 := by
  simpa [packetKinds] using h

theorem forall_packetInstr {P : Instr → Prop} (h : ∀ q ∈ packetKinds, P q.1) :
    ∀ i ∈ ([.rmaWrite, .rmaRead, .fetchAdd, .nonFetchingAtomicAdd] : List Instr), P i := by
  simpa [packetKinds] using h

section
variable {w : State} (h : InTurn s s.arg.pkt)
include h

theorem exec_packet_inTurn {q : Instr × Nat × (State → Packet → State)} (hq : q ∈ packetKinds)
    (hw : q.2.2 s s.arg.pkt = w) : exec q.1 s = .next (taken s.arg.pkt w) :=
  hw ▸ (exec_packet s q hq).trans (congrArg _ (receive_inTurn h))

theorem exec_rmaWrite_inTurn (hw : s.rmaWrite s.arg.pkt = w) : exec .rmaWrite s = .next (taken s.arg.pkt w) :=
  exec_packet_inTurn h (q := (.rmaWrite, 0, State.rmaWrite)) (by simp [packetKinds]) hw

theorem exec_rmaRead_inTurn (hw : s.rmaRead s.arg.pkt = w) : exec .rmaRead s = .next (taken s.arg.pkt w) :=
  exec_packet_inTurn h (q := (.rmaRead, 1, State.rmaRead)) (by simp [packetKinds]) hw

theorem exec_fetchAdd_inTurn (hw : s.fetchAddPkt s.arg.pkt = w) : exec .fetchAdd s = .next (taken s.arg.pkt w) :=
  exec_packet_inTurn h (q := (.fetchAdd, 2, State.fetchAddPkt)) (by simp [packetKinds]) hw

theorem exec_add_inTurn (hw : s.addPkt s.arg.pkt = w) : exec .nonFetchingAtomicAdd s = .next (taken s.arg.pkt w) :=
  exec_packet_inTurn h (q := (.nonFetchingAtomicAdd, 3, State.addPkt)) (by simp [packetKinds]) hw

end

/-! ## The effect of a packet (03 R58, R59) -/

section
variable {p : Packet} {j : Nat}

theorem forJob_open (f : Nat → State) (hjob : s.packetJob p.jobid = some j) : s.forJob p f = f j := by
  simp only [State.forJob, hjob]

theorem forJob_closed (f : Nat → State) (hjob : s.packetJob p.jobid = none) : s.forJob p f = s.refusePkt p 0x05 := by
  simp only [State.forJob, hjob]
  rfl

theorem rmaWrite_forJob (hq : packetQueue p.jobid = none) :
    s.rmaWrite p =
      s.forJob p (fun j => s.endPkt 0 p j needWr p.data.length ((s.writePkt p j).map (fun s1 => (s1, 0, [])))) := by
  simp only [State.rmaWrite, hq]

theorem packet_closed (hq : packetQueue p.jobid = none) (hjob : s.packetJob p.jobid = none) :
    ∀ q ∈ packetKinds, q.2.2 s p = s.refusePkt p 0x05 := by
  simp only [packetKinds, List.forall_mem_cons]
  exact ⟨(rmaWrite_forJob hq).trans (forJob_closed _ hjob), forJob_closed _ hjob, forJob_closed _ hjob,
    forJob_closed _ hjob, by simp⟩

theorem endPkt_done {kind n : Nat} {need : Need} {w : State} {op : Nat} {data : List Byte}
    (hwait : s.rangeWait j .user need p.va.toNat n = none) :
    s.endPkt kind p j need n (.ok (w, op, data)) = w.answer p op data := by
  simp only [State.endPkt, hwait]

theorem endPkt_refused {kind n : Nat} {need : Need} {c : Nat}
    (hwait : s.rangeWait j .user need p.va.toNat n = none) :
    s.endPkt kind p j need n (.error c) = s.refusePkt p c := by
  simp only [State.endPkt, hwait]

section
variable (hjob : s.packetJob p.jobid = some j)
include hjob

theorem rmaWrite_open (hq : packetQueue p.jobid = none) :
    s.rmaWrite p = s.endPkt 0 p j needWr p.data.length ((s.writePkt p j).map (fun s1 => (s1, 0, []))) :=
  (rmaWrite_forJob hq).trans (forJob_open _ hjob)

theorem fetchAddPkt_open :
    s.fetchAddPkt p =
      s.endPkt 2 p j needRw 8 ((s.addWord j p.va.toNat p.addend).map (fun r => (r.1, 2, wordBytes r.2))) :=
  forJob_open _ hjob

theorem addPkt_word (hc : p.counter = none) :
    s.addPkt p = s.endPkt 3 p j needRw 8 ((s.addWord j p.va.toNat p.addend).map (fun r => (r.1, 0, []))) :=
  (forJob_open _ hjob).trans (by simp only [hc])

theorem addPkt_counter {n : Nat} (hc : p.counter = some n) :
    s.addPkt p =
      if (s.counter n).owner = some j then (s.answer p 0 []).push .counterFeedWrite (Arg.ofNV n p.addend)
      else s.refusePkt p 0x05 := by
  refine (forJob_open _ hjob).trans ?_
  simp only [hc]
  rfl

/-! ### Writes -/

section
variable (hq : packetQueue p.jobid = none)
include hq

section
variable (hwait : s.rangeWait j .user needWr p.va.toNat p.data.length = none)
  (hmmio : s.mmioAt j p.va.toNat needWr = none) (haccum : p.accum = none)
include hwait hmmio haccum

theorem rmaWrite_done {s1 : State} (hw : s.writeVa j .user p.va.toNat p.data tagPkg false = .ok s1) :
    s.rmaWrite p = s1.answer p 0 [] := by
  rw [rmaWrite_open hjob hq, State.writePkt, hmmio, haccum, hw]
  exact endPkt_done hwait

theorem rmaWrite_refused {c : Nat} (hw : s.writeVa j .user p.va.toNat p.data tagPkg false = .error c) :
    s.rmaWrite p = s.refusePkt p c := by
  rw [rmaWrite_open hjob hq, State.writePkt, hmmio, haccum, hw]
  exact endPkt_refused hwait

end

theorem rmaWrite_held {k : Nat} (hwait : s.rangeWait j .user needWr p.va.toNat p.data.length = some (.part k)) :
    s.rmaWrite p = s.setPart k { s.part k with heldPackets := (s.part k).heldPackets ++ [(0, p)] } := by
  simp only [rmaWrite_open hjob hq, State.endPkt, hwait, State.holdPkt]

end

/-! ### Reads -/

section
variable (hwait : s.rangeWait j .user needRd p.va.toNat p.len = none) (hmmio : s.mmioAt j p.va.toNat needRd = none)
include hwait hmmio

theorem rmaRead_done {bs : List Byte} (hr : s.readVa j .user p.va.toNat p.len = .ok bs) :
    s.rmaRead p = s.answer p 2 bs := by
  rw [State.rmaRead, forJob_open _ hjob, hmmio, hr]
  exact endPkt_done hwait

theorem rmaRead_refused {c : Nat} (hr : s.readVa j .user p.va.toNat p.len = .error c) : s.rmaRead p = s.refusePkt p c := by
  rw [State.rmaRead, forJob_open _ hjob, hmmio, hr]
  exact endPkt_refused hwait

end

/-! ### Adds -/

section
variable (hwait : s.rangeWait j .user needRw p.va.toNat 8 = none)
include hwait

/-- The two adds refuse a misaligned address, unless a counter is named in its place. -/
theorem add_misaligned (hc : p.counter = none) (hva : p.va.toNat % 8 ≠ 0) :
    s.fetchAddPkt p = s.refusePkt p 0x03 ∧ s.addPkt p = s.refusePkt p 0x03 := by
  have hadd : s.addWord j p.va.toNat p.addend = .error 0x03 := if_pos hva
  rw [fetchAddPkt_open hjob, addPkt_word hjob hc, hadd]
  exact ⟨endPkt_refused hwait, endPkt_refused hwait⟩

section
variable {a : Nat} {l : Leaf} (hva : p.va.toNat % 8 = 0) (hx : s.xlateWalk j .user p.va.toNat needRw = .pa a l)
  (hst : noStorage a = false) (hview : isView a = false) (hr : s.readAns a 8 j = .ok) (hw : s.writeAns a 8 j = .ok)
include hva hx hst hview hr hw

omit hjob hwait in
/-- An add to a word that its home reads and writes gives the state after it and the old value. -/
theorem addWord_done :
    s.addWord j p.va.toNat p.addend =
      let old := BitVec.ofNat 64 (s.value a 8)
      .ok (s.perform a (wordBytes (old + p.addend)) tagPkg, old) := by
  simp [State.addWord, hva, hx, hst, hview, hr, hw, bothOk]

theorem fetchAdd_done :
    s.fetchAddPkt p =
      let old := BitVec.ofNat 64 (s.value a 8)
      (s.perform a (wordBytes (old + p.addend)) tagPkg).answer p 2 (wordBytes old) := by
  rw [fetchAddPkt_open hjob, addWord_done hva hx hst hview hr hw]
  exact endPkt_done hwait

theorem add_done (hc : p.counter = none) :
    s.addPkt p = (s.perform a (wordBytes (BitVec.ofNat 64 (s.value a 8) + p.addend)) tagPkg).answer p 0 [] := by
  rw [addPkt_word hjob hc, addWord_done hva hx hst hview hr hw]
  exact endPkt_done hwait

end

end

end

end

/-! ### A packet that waits -/

theorem mem_insert_self {α : Type} (k : Nat) (v : α) (t : Store α) : (k, v) ∈ Store.insert k v t := by
  induction t with
  | nil => simp [Store.insert]
  | cons q t ih =>
    obtain ⟨i, w⟩ := q
    simp only [Store.insert]
    split_ifs <;> simp [ih]

/-- A packet kept at a partition is held. -/
theorem pktHeld_keptAtPart {x : Partition} {q : Nat × Packet} (k : Nat) (h : q ∈ x.heldPackets) :
    (s.setPart k x).pktHeld q.2 = true := by
  have hx : x ≠ Partition.init := fun he => by rw [he] at h; cases h
  have hmem : (k, x) ∈ (s.setPart k x).parts := by
    rw [State.setPart, Store.put, if_neg hx]
    exact mem_insert_self k x _
  have hheld : (s.setPart k x).parts.any (fun y => y.2.heldPackets.any (fun z => samePkt z.2 q.2)) = true :=
    List.any_eq_true.mpr ⟨_, hmem, List.any_eq_true.mpr ⟨q, h, by simp [samePkt]⟩⟩
  rw [State.pktHeld, hheld, Bool.or_true]

end

/-! ## The obligation -/

/-- Settles O30: RST, RINC, the endings and the packets, each case by its own lemma; a packet that waits is held, so its number is
not taken. -/
theorem remoteOperationsAndPackets : Obligations.RemoteOperationsAndPackets := by
  unfold Obligations.RemoteOperationsAndPackets
  refine ⟨fun s r a b c w rel kind hp => ⟨fun hmax husable hctx => ?rst, fun hrel hb hmax husable hctx => ?rinc,
      rinc_misaligned hp, rst_unusable hp a b c w, fun hfull => ?full, fun husable hctx => ?noContext⟩,
    fun s o t => ⟨fun hsent => ⟨remoteAck_thread hsent, fun e num he => ⟨_, remoteAck_engine hsent he, rfl, ?transfer⟩,
        remote_fails hsent⟩,
      fun p hpdc hused => ⟨pdcIdleClose_idle hpdc hused, pdcIdleClose_early hpdc⟩⟩,
    fun s s1 j c a bs => ⟨fun hoff => forall_packetInstr ?off, fun hon hlen hauth => forall_packetInstr ?discarded,
      fun hauth hdup => forall_packetInstr ?duplicate, fun hon hlen hauth hdup hord hpsn => ?early,
      fun hon hlen hauth hdup hnext hq => ?inTurn⟩⟩
  case rst =>
    obtain ⟨t, ht, -, hrest⟩ := rst_sends hp a b c w hmax husable hctx
    exact ⟨t, ht, hrest⟩
  case rinc =>
    obtain ⟨t, ht, -, hrest⟩ := rinc_sends hp a b c rel kind hrel hb hmax husable hctx
    exact ⟨t, ht, hrest⟩
  case full => exact (rst_parks hp (remoteParks_of_full hfull)).trans (congrArg _ (parkRemote_full hfull))
  case noContext => exact ⟨_, rst_parks hp (remoteParks_of_noContext husable hctx), parkRemote_th _ _⟩
  case transfer => exact congrArg Engine.queue (State.engine_setEngine_same ..)
  case off => exact fun q hq => (exec_packet s q hq).trans (congrArg _ (receive_off hoff))
  case discarded => exact fun q hq => (exec_packet s q hq).trans (congrArg _ (receive_unauthentic hon hlen hauth))
  case duplicate => exact fun q hq => (exec_packet s q hq).trans (congrArg _ (receive_duplicate hauth hdup))
  case early =>
    exact forall_packet (P := fun i k => exec i s = .next (s.setConn s.arg.pkt.conn { s.conn s.arg.pkt.conn with
        early := (s.conn s.arg.pkt.conn).early ++ [(k, s.arg.pkt)] }))
      fun q hq => (exec_packet s q hq).trans (congrArg _ (receive_early hon hlen hauth hdup hord hpsn))
  case inTurn =>
    have h : InTurn s s.arg.pkt := ⟨hon, hlen, hauth, hdup, hnext⟩
    refine ⟨fun hjob => forall_packetInstr fun q hk => exec_packet_inTurn h hk (packet_closed hq hjob q hk),
      fun hjob => ⟨fun hwait hmmio haccum =>
          ⟨fun hw => exec_rmaWrite_inTurn h (rmaWrite_done hjob hq hwait hmmio haccum hw),
            fun hw => exec_rmaWrite_inTurn h (rmaWrite_refused hjob hq hwait hmmio haccum hw)⟩,
        fun hwait hmmio => ⟨fun hr => exec_rmaRead_inTurn h (rmaRead_done hjob hwait hmmio hr),
          fun hr => exec_rmaRead_inTurn h (rmaRead_refused hjob hwait hmmio hr)⟩,
        fun hwait => ⟨fun hc hva => ?misaligned, fun l hva hx hst hview hr hw =>
          ⟨exec_fetchAdd_inTurn h (fetchAdd_done hjob hwait hva hx hst hview hr hw),
            fun hc => exec_add_inTurn h (add_done hjob hwait hva hx hst hview hr hw hc)⟩⟩,
        fun n hc => ⟨fun hown => exec_add_inTurn h ((addPkt_counter hjob hc).trans (if_pos hown)),
          fun hown => exec_add_inTurn h ((addPkt_counter hjob hc).trans (if_neg hown))⟩,
        fun k hwait => ?held⟩⟩
    case misaligned =>
      obtain ⟨hfetch, hadd⟩ := add_misaligned hjob hwait hc hva
      simp only [List.forall_mem_cons]
      exact ⟨exec_fetchAdd_inTurn h hfetch, exec_add_inTurn h hadd, by simp⟩
    case held =>
      refine (exec_rmaWrite_inTurn h (rmaWrite_held hjob hq hwait)).trans (congrArg _ (if_pos ?_))
      exact pktHeld_keptAtPart (q := (0, s.arg.pkt)) k (by simp)

end Sys2Proof.RemoteOps
end

section
/-! PROOF. Packets of one piece of storage, bank commands, and that remote and bank commands complete (03 R52 to R59; 06 R170, R173;
13 R405, R406, R411). A walk keeps an address's place in its block of 256 bytes, so a packet's bytes that lie in one block are read
and written as one piece; the loads of a descriptor from near storage change nothing but the scopes noted of them. -/

namespace Sys2Proof.RemoteCompletion

open Sys2Proof
open Sys2Proof.Machine
open Sys2Proof.Kept
open Sys2Proof.RemoteOps

section
variable {s r : State}

/-! ## A range in one piece (06 R141 to R144, R151) -/

/-- A leaf that a walk finds is the one of an entry at some level. -/
theorem walkFrom_leaf {asid va n table : Nat} {l : Leaf} {pte at_ lv : Nat}
    (h : walkFrom s asid va n table = .leaf l pte at_ lv) : ∃ e k, l = leafOf asid e va k := by
  induction n generalizing table with
  | zero => cases h
  | succ n ih =>
    simp only [walkFrom] at h
    split_ifs at h
    · exact ih h
    · cases h
      exact ⟨_, _, rfl⟩

/-- A leaf keeps an address's place in its block of 256 bytes. -/
theorem leafOf_at_mod (asid pte va level : Nat) : (leafOf asid pte va level).at_ va % 256 = va % 256 := by
  have hdvd : 256 ∣ granuleAt level := Dvd.dvd.mul_right (by decide) _
  have hsub : va - (va - va % granuleAt level) = va % granuleAt level := Nat.sub_sub_self (Nat.mod_le _ _)
  have hmod : va % granuleAt level % 256 = va % 256 := Nat.mod_mod_of_dvd va hdvd
  simp only [Leaf.at_, leafOf, hsub]
  omega

theorem xlateWalk_mod {j va a : Nat} {lvl : Level} {need : Need} {l : Leaf}
    (h : s.xlateWalk j lvl va need = .pa a l) : a % 256 = va % 256 := by
  simp only [State.xlateWalk, List.find?_nil] at h
  split at h
  case h_1 hwalk =>
    split_ifs at h
    cases h
    unfold State.walk at hwalk
    split_ifs at hwalk
    obtain ⟨e, k, rfl⟩ := walkFrom_leaf hwalk
    exact leafOf_at_mod _ _ _ _
  all_goals cases h

theorem pieces_oneBlock {va n : Nat} (hn : 0 < n) (h : va % 256 + n ≤ 256) : pieces va n = [(va, n)] := by
  have hmin : Nat.min n (256 - va % 256) = n := Nat.min_eq_left (by omega)
  simp [pieces, cut256, hn.ne', hmin]

/-- Addresses of one block of 256 bytes lie in the full/empty view together. -/
theorem isView_add {pa i : Nat} (h : pa % 256 + i < 256) : isView (pa + i) = isView pa := by
  have hle (k : Nat) : 256 * k ≤ pa + i ↔ 256 * k ≤ pa := by omega
  have hbase : feBase ≤ pa + i ↔ feBase ≤ pa := hle 0x81_0800_00
  have hend : pa + i < 0x81_1000_0000 ↔ pa < 0x81_1000_0000 := by
    simpa only [Nat.not_le] using not_congr (hle 0x81_1000_00)
  simp only [isView, hbase, hend]

theorem homeByte_storage {pa : Nat} (h : isView pa = false) : s.homeByte pa = s.byte pa := by
  unfold State.homeByte
  split
  case h_1 c o hspace =>
    simp only [isView, Bool.and_eq_false_iff, decide_eq_false_iff_not] at h
    unfold spaceOf at hspace
    split_ifs at hspace
    omega
  · rfl

section
variable {j va n pa : Nat} {need : Need} (h : s.onePiece j va n need pa)
include h

theorem vaRange_onePiece : s.vaRange j .user need va n = .ok [(pa, n)] := by
  obtain ⟨hn, hblock, ⟨l, hx⟩, -, -⟩ := h
  simp only [State.vaRange, pieces_oneBlock hn hblock, State.vaPieces, hx]

theorem rangeWait_onePiece :
    s.rangeWait j .user need va n = (if need.wr then s.writeAns pa n j else s.readAns pa n j).wait := by
  obtain ⟨hn, hblock, ⟨l, hx⟩, -, -⟩ := h
  have hone (w : Option Wait) : [w].findSome? id = w := by cases w <;> rfl
  rw [State.rangeWait, pieces_oneBlock hn hblock]
  simp only [List.map_cons, List.map_nil, hx, hone]

theorem rangeWait_write (hneed : need.wr = true) (hw : s.writeAns pa n j = .ok) :
    s.rangeWait j .user need va n = none := by
  rw [rangeWait_onePiece h, if_pos hneed, hw]
  rfl

theorem rangeWait_read (hneed : need.wr = false) (hr : s.readAns pa n j = .ok) :
    s.rangeWait j .user need va n = none := by
  rw [rangeWait_onePiece h, if_neg (by simp [hneed]), hr]
  rfl

theorem mmioAt_onePiece : s.mmioAt j va need = none := by
  obtain ⟨-, -, ⟨l, hx⟩, hst, -⟩ := h
  have hmmio : isMmio pa = false := (Bool.or_eq_false_iff.mp hst).1
  simp [State.mmioAt, hx, hmmio]

end

theorem writeVa_onePiece {j va pa : Nat} {b : List Byte} (h : s.onePiece j va b.length needWr pa)
    (hw : s.writeAns pa b.length j = .ok) (w : WTag) : s.writeVa j .user va b w false = .ok (s.perform pa b w) := by
  have hrange := vaRange_onePiece h
  obtain ⟨-, -, -, hst, hview⟩ := h
  simp [State.writeVa, hrange, State.writeErr, hst, hw, State.writePieces, hview]

theorem readVa_onePiece {j va n pa : Nat} (h : s.onePiece j va n needRd pa) (hr : s.readAns pa n j = .ok) :
    s.readVa j .user va n = .ok (s.bytes pa n) := by
  have hrange := vaRange_onePiece h
  obtain ⟨-, hblock, ⟨l, hx⟩, hst, hview⟩ := h
  have hmod := xlateWalk_mod hx
  have hbyte : ∀ i < n, s.homeByte (pa + i) = s.byte (pa + i) := fun i hi =>
    homeByte_storage ((isView_add (by omega)).trans hview)
  simpa [State.readVa, hrange, State.readPieces, hst, hr, State.bytes] using hbyte

/-! ## Writes and answers of a packet -/

theorem noteWritten_mem (pa n : Nat) : (s.noteWritten pa n).mem = s.mem := by
  unfold State.noteWritten
  split
  · dsimp only
    split <;> rfl
  · rfl

theorem perform_mem (pa : Nat) (b : List Byte) (w : WTag) : (s.perform pa b w).mem = (s.putMem pa b).mem :=
  noteWritten_mem (s := (s.putMem pa b).clearUe pa b.length) pa b.length

theorem perform_bytes (pa : Nat) (b : List Byte) (w : WTag) : (s.perform pa b w).bytes pa b.length = b := by
  have hbyte (a : Nat) : (s.perform pa b w).byte a = (s.putMem pa b).byte a := by
    rw [State.byte, perform_mem]
    rfl
  simpa only [State.bytes, hbyte] using putMem_bytes s pa b

theorem perform_outbox (pa : Nat) (b : List Byte) (w : WTag) : (s.perform pa b w).outbox = s.outbox :=
  outbox_of_kept (kept_perform pa b w)

theorem chunks_short {α : Type} {n : Nat} {l : List α} (hl : l ≠ []) (h : l.length ≤ n) : chunks n l = [l] := by
  obtain ⟨x, t, rfl⟩ := List.exists_cons_of_ne_nil hl
  have hnil : ∀ k, chunksN n k ([] : List α) = [] := fun k => by cases k <;> simp [chunksN]
  simp [chunks, chunksN, List.take_of_length_le h, List.drop_eq_nil_of_le h, hnil]

/-- The one packet that answers. -/
def answerPkt (p : Packet) (op : Nat) (data : List Byte) : OutPkt :=
  { kind := 4, op := op, job := p.jobid, peer := 0, va := BitVec.ofNat 64 p.id, data := data, rel := false, ports := 0 }

theorem answer_outbox {p : Packet} {op : Nat} {data : List Byte} (h : data.length ≤ 4096) :
    (s.answer p op data).outbox = s.outbox ++ [answerPkt p op data] := by
  by_cases hd : data = []
  · subst hd
    rfl
  · simp [State.answer, payloadMax, hd, chunks_short hd h, answerPkt]

/-- Taking a packet's number leaves memory and what has been sent. -/
theorem taken_mem_outbox (p : Packet) : (taken p s).mem = s.mem ∧ (taken p s).outbox = s.outbox := by
  unfold taken State.donePkt
  split
  · exact ⟨rfl, rfl⟩
  · dsimp only
    split <;> exact ⟨rfl, rfl⟩

theorem taken_outbox (p : Packet) : (taken p s).outbox = s.outbox := (taken_mem_outbox p).2

theorem taken_bytes (p : Packet) (pa n : Nat) : (taken p s).bytes pa n = s.bytes pa n := by
  simp only [State.bytes, State.byte, (taken_mem_outbox p).1]

/-- What a packet that is performed leaves, where it writes the bytes at its address and answers in one packet. -/
theorem taken_performed {p : Packet} {pa op : Nat} {b data : List Byte} {w : WTag} (h : data.length ≤ 4096) :
    (taken p ((s.perform pa b w).answer p op data)).bytes pa b.length = b ∧
      (taken p ((s.perform pa b w).answer p op data)).outbox = s.outbox ++ [answerPkt p op data] := by
  rw [taken_bytes, taken_outbox, answer_outbox h, perform_outbox]
  exact ⟨perform_bytes pa b w, rfl⟩

section
variable {j pa : Nat} (h : s.accepts s.arg.pkt j)
include h

theorem inTurn_of_accepts : InTurn s s.arg.pkt := by
  obtain ⟨hon, hlen, hauth, hdup, hnext, -, -⟩ := h
  exact ⟨hon, hlen, hauth, hdup, hnext⟩

theorem rmaWrite_completes (hone : s.onePiece j s.arg.pkt.va.toNat s.arg.pkt.data.length needWr pa)
    (hw : s.writeAns pa s.arg.pkt.data.length j = .ok) (haccum : s.arg.pkt.accum = none) :
    ∃ t, exec .rmaWrite s = .next t ∧ t.bytes pa s.arg.pkt.data.length = s.arg.pkt.data ∧
      t.outbox = s.outbox ++ [answerPkt s.arg.pkt 0 []] := by
  have hturn := inTurn_of_accepts h
  obtain ⟨-, -, -, -, -, hq, hjob⟩ := h
  have hwait := rangeWait_write hone rfl hw
  exact ⟨_, exec_rmaWrite_inTurn hturn (rmaWrite_done hjob hq hwait (mmioAt_onePiece hone) haccum
    (writeVa_onePiece hone hw tagPkg)), taken_performed (Nat.zero_le _)⟩

theorem rmaRead_completes (hone : s.onePiece j s.arg.pkt.va.toNat s.arg.pkt.len needRd pa)
    (hr : s.readAns pa s.arg.pkt.len j = .ok) :
    ∃ t, exec .rmaRead s = .next t ∧
      t.outbox = s.outbox ++ [answerPkt s.arg.pkt 2 (s.bytes pa s.arg.pkt.len)] := by
  have hturn := inTurn_of_accepts h
  obtain ⟨-, -, -, -, -, -, hjob⟩ := h
  have hwait := rangeWait_read hone rfl hr
  have hlen : s.arg.pkt.len ≤ 4096 := by
    obtain ⟨-, hblock, -⟩ := hone
    omega
  refine ⟨_, exec_rmaRead_inTurn hturn (rmaRead_done hjob hwait (mmioAt_onePiece hone) (readVa_onePiece hone hr)), ?_⟩
  rw [taken_outbox, answer_outbox ((bytes_length ..).trans_le hlen)]

section
variable (hone : s.onePiece j s.arg.pkt.va.toNat 8 needRw pa) (hva : s.arg.pkt.va.toNat % 8 = 0)
  (hr : s.readAns pa 8 j = .ok) (hw : s.writeAns pa 8 j = .ok)
include hone hva hr hw

theorem fetchAdd_completes :
    let old := BitVec.ofNat 64 (s.value pa 8)
    ∃ t, exec .fetchAdd s = .next t ∧ t.bytes pa 8 = wordBytes (old + s.arg.pkt.addend) ∧
      t.outbox = s.outbox ++ [answerPkt s.arg.pkt 2 (wordBytes old)] := by
  have hturn := inTurn_of_accepts h
  obtain ⟨-, -, -, -, -, -, hjob⟩ := h
  have hwait := rangeWait_write hone rfl hw
  obtain ⟨-, -, ⟨l, hx⟩, hst, hview⟩ := hone
  exact ⟨_, exec_fetchAdd_inTurn hturn (fetchAdd_done hjob hwait hva hx hst hview hr hw),
    taken_performed (by simp [wordBytes])⟩

theorem add_completes (hc : s.arg.pkt.counter = none) :
    let old := BitVec.ofNat 64 (s.value pa 8)
    ∃ t, exec .nonFetchingAtomicAdd s = .next t ∧ t.bytes pa 8 = wordBytes (old + s.arg.pkt.addend) ∧
      t.outbox = s.outbox ++ [answerPkt s.arg.pkt 0 []] := by
  have hturn := inTurn_of_accepts h
  obtain ⟨-, -, -, -, -, -, hjob⟩ := h
  have hwait := rangeWait_write hone rfl hw
  obtain ⟨-, -, ⟨l, hx⟩, hst, hview⟩ := hone
  exact ⟨_, exec_add_inTurn hturn (add_done hjob hwait hva hx hst hview hr hw hc), taken_performed (by decide)⟩

end
end

end

end Sys2Proof.RemoteCompletion
end

section
/-! PROOF. BCMD of a descriptor in near storage, and the bank's commands (06 R170, R173; 13 R411). The loads of the six words change
nothing of the state but the scopes noted of them, so the ranges translate and are checked as in the state before. -/

namespace Sys2Proof.BankCompletion

open Sys2Proof
open Sys2Proof.Machine
open Sys2Proof.Kept
open Sys2Proof.RemoteOps
open Sys2Proof.RemoteCompletion

/-- `r` is `s` but for what is noted of the executing thread's accesses. -/
def Noted (s r : State) : Prop := ∃ ts, r = { s with threads := ts } ∧ bare r.th = bare s.th

section
variable {s r t : State}

theorem Noted.refl (s : State) : Noted s s := ⟨s.threads, rfl, rfl⟩

theorem Noted.trans (h : Noted s r) (h' : Noted r t) : Noted s t := by
  obtain ⟨ts, rfl, hth⟩ := h
  obtain ⟨us, rfl, hth'⟩ := h'
  exact ⟨us, rfl, hth'.trans hth⟩

theorem noted_setTh {x : Thread} (h : bare x = bare s.th) : Noted s (s.setTh x) :=
  ⟨_, rfl, (congrArg bare (State.th_setTh s x)).trans h⟩

theorem noted_noteAccess (pa : Nat) : Noted s (s.noteAccess pa) := noted_setTh rfl

theorem noted_noteLoad (p : Part) (fresh : Bool) : Noted s (s.noteLoad p fresh) := by
  unfold State.noteLoad
  split
  · exact noted_setTh rfl
  · exact noted_setTh rfl

/-! ## What is the same in a state in which accesses have been noted -/

section
variable (h : Noted s r)
include h

theorem Noted.cur : r.cur = s.cur := by obtain ⟨ts, rfl, -⟩ := h; rfl
theorem Noted.bank (b : Nat) : r.bank b = s.bank b := by obtain ⟨ts, rfl, -⟩ := h; rfl
theorem Noted.iltab : r.iltab = s.iltab := by obtain ⟨ts, rfl, -⟩ := h; rfl
theorem Noted.core (c : Nat) : r.core c = s.core c := by obtain ⟨ts, rfl, -⟩ := h; rfl
theorem Noted.words (pa n : Nat) : r.words pa n = s.words pa n := by obtain ⟨ts, rfl, -⟩ := h; rfl
theorem Noted.readAns (pa n j : Nat) : r.readAns pa n j = s.readAns pa n j := by obtain ⟨ts, rfl, -⟩ := h; rfl
theorem Noted.isFar (c pa : Nat) : r.isFar c pa = s.isFar c pa := by obtain ⟨ts, rfl, -⟩ := h; rfl

theorem Noted.th : bare r.th = bare s.th := by
  obtain ⟨_, -, hth⟩ := h
  exact hth

theorem Noted.sb : r.th.sb = s.th.sb := (congrArg Thread.sb h.th :)
theorem Noted.job : r.th.job = s.th.job := (congrArg Thread.job h.th :)
theorem Noted.level : r.th.level = s.th.level := (congrArg Thread.level h.th :)

theorem Noted.xlate (va : Nat) (need : Need) : r.xlate s.cur va need = s.xlate s.cur va need := by
  have hjob : (r.thread s.cur).job = (s.thread s.cur).job := by
    simpa only [State.th, h.cur] using h.job
  have hlevel : (r.thread s.cur).level = (s.thread s.cur).level := by
    simpa only [State.th, h.cur] using h.level
  simp only [State.xlate, hjob, hlevel]
  obtain ⟨ts, rfl, -⟩ := h
  rfl

theorem Noted.nearWords {va pa n : Nat} (hnear : s.nearWords va pa n) : r.nearWords va pa n := by
  simpa only [State.nearWords, h.xlate, h.isFar, h.core, h.readAns, h.cur, h.job] using hnear

theorem Noted.xpart {opc va n : Nat} {need : Need} {p : Part} (hp : s.xpart opc va n need = .ok p) :
    r.xpart opc va n need = .ok p := by
  unfold State.xpart at hp ⊢
  rw [h.cur, h.xlate]
  split at hp
  · exact hp
  all_goals cases hp

theorem Noted.xparts {opc va n : Nat} {need : Need} {ps : List Part} (hp : s.xparts opc va n need = .ok ps) :
    r.xparts opc va n need = .ok ps := by
  unfold State.xparts at hp ⊢
  dsimp only at hp ⊢
  split at hp
  · cases hp
  next p hfirst =>
    rw [h.xpart hfirst]
    dsimp only
    split_ifs at hp ⊢
    · exact hp
    · split at hp
      · cases hp
      next q hsecond =>
        rw [h.xpart hsecond, h.iltab]
        exact hp

theorem Noted.bauXlate {rs : List (Nat × Nat × Need × Nat)} {ps : List (Nat × Nat)} (hx : s.bauXlate rs = .ok ps) :
    r.bauXlate rs = .ok ps := by
  induction rs generalizing ps with
  | nil => exact hx
  | cons q rest ih =>
    obtain ⟨va, n, need, align⟩ := q
    unfold State.bauXlate at hx ⊢
    split at hx
    · cases hx
    next l hparts =>
      rw [h.xparts hparts]
      dsimp only
      split at hx
      · cases hx
      next m hrest =>
        rw [ih hrest]
        exact hx

theorem Noted.bauCheck (rs : List (Nat × Nat × Need × Nat)) (ps : List (Nat × Nat)) :
    r.bauCheck rs ps = s.bauCheck rs ps := by
  simp only [State.bauCheck, h.iltab]

end

/-! ## Loads of near storage (12 R353, R355) -/

/-- The first of some near words, and the words after it. -/
theorem nearWords_succ {va pa n : Nat} (h : s.nearWords va pa (n + 1)) :
    s.nearWords va pa 1 ∧ s.nearWords (va + 8) (pa + 8) n := by
  obtain ⟨hva, hpa, hword⟩ := h
  refine ⟨⟨hva, hpa, fun i hi => hword i (by omega)⟩, by omega, by omega, fun i hi => ?_⟩
  have hnext := hword (i + 1) (by omega)
  simpa only [Nat.mul_add, Nat.mul_one, Nat.add_assoc, Nat.add_comm (8 * i) 8] using hnext

theorem words_succ (pa n : Nat) : s.words pa (n + 1) = wordOf (s.bytes pa 8) :: s.words (pa + 8) n := by
  simp only [State.words, List.range_succ_eq_map, List.map_cons, List.map_map]
  refine congrArg (wordOf (s.bytes pa 8) :: ·) (List.map_congr_left fun i _ => ?_)
  rw [Function.comp, show pa + 8 * i.succ = pa + 8 + 8 * i by omega]

theorem lt_of_xlate_pa {t va a : Nat} {need : Need} {l : Leaf} (h : s.xlate t va need = .pa a l) : va < 2 ^ 48 := by
  unfold State.xlate at h
  dsimp only at h
  split_ifs at h with hva
  omega

/-- The part that a near word's load is. -/
theorem xparts_aligned {opc va a : Nat} {l : Leaf} (hva : va % 8 = 0) (hx : s.xlate s.cur va needRd = .pa a l) :
    s.xparts opc va 8 needRd = .ok [{ va := va, pa := a, len := 8, leaf := l }] := by
  have hmin : Nat.min 8 (256 - va % 256) = 8 := Nat.min_eq_left (by omega)
  simp [State.xparts, State.xpart, hmin, hx]

theorem loadPart_near {p : Part} (hfar : s.isFar (coreOf s.cur) p.pa = false)
    (hline : (s.core (coreOf s.cur)).line (p.pa / 128) = none) (hr : s.readAns p.pa p.len s.th.job = .ok) :
    s.loadPart p false = (.ok, s.bytes p.pa p.len, s) := by
  simp [State.loadPart, hfar, hr, State.updateCopy, hline]

theorem coverOf_nil (ps : List Part) : coverOf [] ps = .none := by
  have hnone : sbByte [] = fun _ => none := rfl
  cases hb : partBytes ps <;> simp [coverOf, hnone, hb]

theorem scalarLoad_near {opc pa : Nat} {va : Word} (hsb : s.th.sb = []) (h : s.nearWords va.toNat pa 1) :
    ∃ r, s.scalarLoad opc va 8 false false = .ok (s.bytes pa 8, r) ∧ Noted s r := by
  obtain ⟨hva, -, hword⟩ := h
  obtain ⟨⟨l, hx⟩, hst, hst7, hview, hfar, hline, hr⟩ := hword 0 (by decide)
  simp only [Nat.mul_zero, Nat.add_zero] at hx hst hst7 hview hfar hline hr
  obtain ⟨hmmio, hhole⟩ := Bool.or_eq_false_iff.mp hst
  obtain ⟨hmmio7, hhole7⟩ := Bool.or_eq_false_iff.mp hst7
  have hparts := xparts_aligned (opc := opc) hva hx
  have hload := loadPart_near (p := { va := va.toNat, pa := pa, len := 8, leaf := l }) hfar hline hr
  refine ⟨_, ?_, (noted_noteLoad { va := va.toNat, pa := pa, len := 8, leaf := l } false).trans (noted_noteAccess pa)⟩
  simp [State.scalarLoad, hparts, State.storageCheck, hhole, hmmio, hhole7, hmmio7, State.loadAll, hsb, coverOf_nil,
    State.loadParts, hview, hload]

theorem loadWords_near {opc pa n : Nat} {va : Word} (hsb : s.th.sb = []) (h : s.nearWords va.toNat pa n) :
    ∃ r, s.loadWords opc va n = .ok (s.words pa n, r) ∧ Noted s r := by
  induction n generalizing s va pa with
  | zero => exact ⟨s, rfl, Noted.refl s⟩
  | succ n ih =>
    obtain ⟨hfirst, hrest⟩ := nearWords_succ h
    have hva : (va + 8).toNat = va.toNat + 8 := by
      obtain ⟨-, -, hword⟩ := hfirst
      obtain ⟨⟨l, hx⟩, -⟩ := hword 0 (by decide)
      have hlt := lt_of_xlate_pa hx
      have h8 : (8 : Word).toNat = 8 := rfl
      rw [BitVec.toNat_add, h8]
      omega
    obtain ⟨s1, hload, hs1⟩ := scalarLoad_near (opc := opc) hsb hfirst
    rw [← hva] at hrest
    obtain ⟨s2, hloads, hs2⟩ := ih (hs1.sb.trans hsb) (hs1.nearWords hrest)
    refine ⟨s2, ?_, hs1.trans hs2⟩
    simp only [State.loadWords, hload, hloads, words_succ, hs1.words]

/-! ## BCMD (13 R411) -/

/-- A command entered in a bank once the lines over its ranges have been written through. -/
def queued (r : State) (ps : List (Nat × Nat)) (k : Nat) (q : BauCmd) : State :=
  (r.flushRanges ps).setBank k { (r.flushRanges ps).bank k with fifo := ((r.flushRanges ps).bank k).fifo ++ [q] }

theorem queued_fifo (ps : List (Nat × Nat)) (k : Nat) (q : BauCmd) :
    ((queued r ps k q).bank k).fifo = (r.bank k).fifo ++ [q] := by
  have hbank : (r.flushRanges ps).bank k = r.bank k :=
    congrArg (Store.get Bank.init k) (banks_of_kept (kept_flushRanges ps))
  rw [queued, State.bank_setBank_same, hbank]

theorem queued_th (ps : List (Nat × Nat)) (k : Nat) (q : BauCmd) :
    (queued r ps k q).cur = r.cur ∧ bare (queued r ps k q).th = bare r.th := by
  have h := kept_flushRanges (s := r) ps
  exact ⟨(cur_of_kept h :), (th_of_kept h :)⟩

/-- A command that has passed its checks, as its bank takes it. -/
theorem queueBau_room {d : BauDesc} {ps : List (Nat × Nat)} (hsb : r.th.sb = [])
    (hroom : (r.bank (bankOf r.iltab ((ps.map (·.1)).headD 0))).fifo.length < 16) :
    let k := bankOf r.iltab ((ps.map (·.1)).headD 0)
    ∃ (q : BauCmd), r.queueBau d ps = .ok (queued r ps k q).retire ∧ q.op = d.op ∧ q.nsec = d.nsec ∧
      q.d = (ps.map (·.1)).headD 0 ∧ q.s1 = d.s1 ∧ q.s2 = d.s2 := by
  have hhead : ((ps.map (·.1))[0]?).getD ((ps.map (·.1)).headD 0) = (ps.map (·.1)).headD 0 := by
    cases ps <;> rfl
  have hpend : r.storesPending ps = false := by simp [State.storesPending, hsb]
  intro k
  simp only [State.queueBau, hpend, Bool.false_eq_true, if_false, hhead, Nat.not_le.mpr hroom]
  exact ⟨_, rfl, rfl, rfl, rfl, rfl, rfl⟩

theorem bcmd_completes {a : BitVec 5} {pa : Nat} {ps : List (Nat × Nat)} (hclear : s.clear)
    (hnear : s.nearWords (s.g a).toNat pa 6) (hbad : (bauDesc (s.words pa 6)).bad = false)
    (hop : (bauDesc (s.words pa 6)).op < 12) (hx : s.bauXlate (bauDesc (s.words pa 6)).ranges = .ok ps)
    (hcheck : s.bauCheck (bauDesc (s.words pa 6)).ranges ps = none)
    (hroom : (s.bank (bankOf s.iltab ((ps.map (·.1)).headD 0))).fifo.length < 16) :
    let k := bankOf s.iltab ((ps.map (·.1)).headD 0)
    let d := bauDesc (s.words pa 6)
    ∃ t q, exec (.bcmd a) s = .next t ∧ s.retired t ∧ (t.bank k).fifo = (s.bank k).fifo ++ [q] ∧ q.op = d.op ∧
      q.nsec = d.nsec ∧ q.d = (ps.map (·.1)).headD 0 ∧ q.s1 = d.s1 ∧ q.s2 = d.s2 := by
  intro k d
  obtain ⟨hp, hsb, -⟩ := hclear
  obtain ⟨r, hload, hr⟩ := loadWords_near (opc := 0x7C) hsb hnear
  have halign : ¬ (s.g a).toNat % 8 ≠ 0 := not_not.mpr hnear.1
  obtain ⟨q, hqueue, hq⟩ := queueBau_room (d := d) (ps := ps) (hr.sb.trans hsb) (by rw [hr.bank, hr.iltab]; exact hroom)
  rw [hr.iltab] at hqueue
  obtain ⟨hcur, hth⟩ := queued_th (r := r) ps k q
  refine ⟨(queued r ps k q).retire, q, ?_, retired_retire (hcur.trans hr.cur) (hth.trans hr.th), ?_, hq⟩
  · show execBcmd a s = _
    simp only [execBcmd, unrecorded, hp, halign, hload, hbad, Nat.not_le.mpr hop, hr.bauXlate hx, hr.bauCheck, hcheck,
      if_false, Bool.false_eq_true]
    exact congrArg (fun e => Host.Outcome.next (ended e)) hqueue
  · exact (queued_fifo ps k q).trans (by rw [hr.bank])

/-! ## The bank's oldest command (06 R173) -/

theorem bauCommand_takes {q : BauCmd} {rest : List BauCmd} (h : (s.bank s.arg.n).fifo = q :: rest) :
    ∃ t, exec .bauCommand s = .next t ∧ (t.bank s.arg.n).fifo = rest := by
  have hexec : exec .bauCommand s = execBauCommand s := rfl
  simp only [execBauCommand, h] at hexec
  exact ⟨_, hexec, congrArg Bank.fifo (State.bank_setBank_same (s.bauPerform s.arg.n q) _ _)⟩

end

end Sys2Proof.BankCompletion
end

section
/-! PROOF. Remote and bank commands complete (03 R52 to R59, R63; 06 R170, R173; 13 R405, R406, R411): with nothing left to order a
release only writes the remote line cache through, which leaves the peer table, the contexts and the operations as they are. -/

namespace Sys2Proof.CommandsComplete

open Sys2Proof
open Sys2Proof.Machine
open Sys2Proof.Kept
open Sys2Proof.RemoteOps
open Sys2Proof.RemoteCompletion
open Sys2Proof.BankCompletion

section
variable {s r : State}

/-! ## RST and RINC (13 R405, R406) -/

section
variable (h : kept r = kept s)
include h

theorem outstanding_of_kept : r.outstanding = s.outstanding := by
  simp only [State.outstanding, remotes_of_kept h, cur_of_kept h, tid_of_kept h]

theorem entryUsable_of_kept (j i : Nat) : r.entryUsable j i = s.entryUsable j i := by
  simp only [State.entryUsable, State.peerEntry, State.job, peers_of_kept h, jobs_of_kept h]

theorem pdcFull_of_kept (j i : Nat) : r.pdcFull j i = s.pdcFull j i := by
  simp only [State.pdcFull, State.pdcOf, pdcs_of_kept h]

end

theorem rincRelease_atRest (h : s.atRest) (rel : BitVec 1) :
    ∃ r, (if rel = 1 then s.beforeRelease 0x77 (s.th.effRelease .pod) else .ok s) = .ok r := by
  split
  · exact ⟨_, beforeRelease_atRest h _ _⟩
  · exact ⟨s, rfl⟩

section
variable {a : BitVec 5} (hclear : s.clear) (hmax : s.outstanding < 64)
  (husable : s.entryUsable s.th.job ((s.g a).toNat % 4096) = true)
  (hctx : s.pdcFull s.th.job ((s.g a).toNat % 4096) = false)
include hclear hmax husable hctx

theorem rst_completes (b c : BitVec 5) (w : BitVec 2) :
    ∃ t q, exec (.rst a b c w) s = .next t ∧ s.retired t ∧ t.outbox = s.outbox ++ [q] ∧ q.kind = 0 ∧ q.va = s.g b ∧
      q.data = (wordBytes (s.g c)).take (2 ^ w.toNat) := by
  obtain ⟨t, ht, hcur, hth, hout, -⟩ := rst_sends hclear.1 a b c w hmax husable hctx
  refine ⟨t, _, ht, ?_, hout, rfl, rfl, rfl⟩
  rw [State.retired, hth]
  exact ⟨hcur, rfl, rfl, rfl⟩

theorem rinc_completes (b c : BitVec 5) (rel kind : BitVec 1) (hb : kind = 0 → (s.g b).toNat % 8 = 0) :
    ∃ t q, exec (.rinc a b c rel kind) s = .next t ∧ s.retired t ∧ t.outbox = s.outbox ++ [q] ∧
      q.kind = (if kind = 1 then 2 else 1) ∧ q.data = wordBytes (s.g c) ∧ q.rel = (rel == 1) := by
  obtain ⟨r, hrel⟩ := rincRelease_atRest hclear.2 rel
  have hkept := kept_of_rincRelease hrel
  rw [← outstanding_of_kept hkept] at hmax
  rw [← entryUsable_of_kept hkept] at husable
  rw [← pdcFull_of_kept hkept] at hctx
  obtain ⟨t, ht, hcur, hth, hout, -⟩ := rinc_sends hclear.1 a b c rel kind hrel hb hmax husable hctx
  rw [outbox_of_kept hkept] at hout
  refine ⟨t, _, ht, ?_, hout, rfl, rfl, rfl⟩
  rw [State.retired, hth]
  exact ⟨hcur, rfl, rfl, congrArg (· + 1) (qcount_of_kept hkept)⟩

end

end

/-! ## The obligation -/

/-- Settles O57: RST, RINC and BCMD retire, a packet in one piece of storage is performed and answered, and the endings and the
oldest command of a bank are taken. -/
theorem remoteAndBankCommandsComplete : Obligations.RemoteAndBankCommandsComplete := by
  unfold Obligations.RemoteAndBankCommandsComplete
  intro s a b c w rel kind j pa
  refine ⟨fun hclear hmax husable hctx => ⟨rst_completes hclear hmax husable hctx b c w,
      rinc_completes hclear hmax husable hctx b c rel kind⟩,
    fun ps => bcmd_completes, fun q rest => bauCommand_takes,
    fun hacc => ⟨rmaWrite_completes hacc, rmaRead_completes hacc, fun hone hva hr hw =>
      ⟨fetchAdd_completes hacc hone hva hr hw, add_completes hacc hone hva hr hw⟩⟩,
    fun o hsent hengine hcmd => ⟨⟨_, remoteAck_thread hsent hengine, rfl⟩, ?fails⟩, fun p hpdc hnone hcyc => ?closes⟩
  case fails =>
    intro u hthr hlive hjob htid hrpe q hq
    refine ⟨_, remote_fails hsent hengine hcmd hthr hlive hjob htid hrpe q hq, rfl, ?_, ?_⟩
    · exact congrArg Thread.rpe (State.thread_setThread_same ..)
    · exact congrArg Thread.rpeDetail (State.thread_setThread_same ..)
  case closes => exact pdcIdleClose_idle hpdc (by simp [hnone]) hcyc (by simp [hnone])

end Sys2Proof.CommandsComplete
end

section
/-! PROOF. The Ahnaux queues (03 R54; 04 R79 to R86, R101): a record is taken, kept or takes its turn, a completion is sent or
waits, and a command that the package's state refuses ends with the status alone. Every command of a record is `hostCmd` of
its effect, so its two outcomes are stated once, of `hostCmd`. -/

namespace Sys2Proof.HostQueues

open Sys2Proof
open Sys2Proof.Machine

section
variable {s : State}

/-! ## Commands at their effect point (04 R86, R101) -/

/-- The command whose record an event carries. -/
abbrev command (s : State) : Cmd := cmdOf s.arg.n s.arg.bytes

theorem hostCmd_refused {f : State → Cmd → State} {st : Nat} (h : s.cmdRefused (command s) = some st) :
    hostCmd f s = .next (s.doneCmd (command s) st noResult) := by
  simp only [hostCmd, h]

/-- A command that is not refused has its effect. -/
theorem hostCmd_taken {f : State → Cmd → State} {t : State} (h : s.cmdRefused (command s) = none)
    (ht : f s (command s) = t) : hostCmd f s = .next t := by
  simp only [hostCmd, h, ht]

theorem exec_command (s : State) :
    ∀ i ∈ ([.jobOpen, .jobClose, .map, .peer, .seed, .vintage, .query, .attest, .debug, .fwload, .start, .schedLoad,
        .klaunch, .preempt, .resume, .log, .power] : List Instr), ∃ f, exec i s = hostCmd f s := by
  simp only [List.forall_mem_cons]
  exact ⟨⟨_, Eq.refl (execJobOpen s)⟩, ⟨_, Eq.refl (execJobClose s)⟩, ⟨_, Eq.refl (execMap s)⟩, ⟨_, Eq.refl (execPeer s)⟩,
    ⟨_, Eq.refl (execSeed s)⟩, ⟨_, Eq.refl (execVintage s)⟩, ⟨_, Eq.refl (execQuery s)⟩, ⟨_, Eq.refl (execAttest s)⟩,
    ⟨_, Eq.refl (execDebug s)⟩, ⟨_, Eq.refl (execFwload s)⟩, ⟨_, Eq.refl (execStart s)⟩, ⟨_, Eq.refl (execSchedLoad s)⟩,
    ⟨_, Eq.refl (execKlaunch s)⟩, ⟨_, Eq.refl (execPreempt s)⟩, ⟨_, Eq.refl (execResume s)⟩, ⟨_, Eq.refl (execLog s)⟩,
    ⟨_, Eq.refl (execPower s)⟩, by simp⟩

section
variable {c : Cmd} (hsafe : s.pkg.starts.safe = false) (hlog : s.logRefused c = false)
include hsafe hlog

theorem cmdRefused_degraded (hsec : s.pkg.sec.st = .degraded) (hop : c.op = 1) : s.cmdRefused c = some stDegraded := by
  simp [State.cmdRefused, hsafe, hlog, hsec, hop]

theorem cmdRefused_notOpen (hsec : s.pkg.sec.st = .secure) (hnames : namesJob c.op = true)
    (hjob : 256 ≤ c.job ∨ (s.job c.job).st = .closed) : s.cmdRefused c = some stBadJob := by
  simp [State.cmdRefused, hsafe, hlog, hsec, hnames, hjob]

end

/-! ## Records (04 R79 to R83) -/

/-- The state in which the record of a slot is looked at: it is no longer among those kept. -/
def unkept (s : State) : State := s.setPkg { s.pkg with heldCmds := s.pkg.heldCmds.erase (s.arg.n, s.arg.m) }

/-- The bytes of the slot whose doorbell has rung. -/
def slotBytes (s : State) : List Byte := (unkept s).bytes (((unkept s).queue s.arg.n).base + 64 * s.arg.m) 64

theorem commandThread_disabled (h : 4 ≤ s.arg.n ∨ 64 ≤ s.arg.m ∨ ((unkept s).queue s.arg.n).enable = false) :
    exec .commandThread s = .next s :=
  if_pos (h.imp_right (Or.imp_right (by simp [unkept])))

section
variable (hq : s.arg.n < 4) (hslot : s.arg.m < 64) (hon : ((unkept s).queue s.arg.n).enable = true)
include hq hslot hon

/-- What the doorbell of an enabled queue's slot comes to. -/
theorem commandThread_enabled :
    exec .commandThread s =
      let q := s.arg.n
      let sl := s.arg.m
      let s0 := unkept s
      let x := s0.queue q
      let b := slotBytes s
      let num := expectedSeq x.nextseq sl
      let st := if recordOk b = false then 1 else if natOf (b.take 4) ≠ num then 2 else 0
      if s.arg.b = true then .next (s.takeTurn q)
      else if s0.holdsCmd b = true then .next (s0.keepCmd q sl (s0.pkg.power.st == .retention))
      else if 16 ≤ s0.cmdThreads then .next (s0.keepCmd q sl false)
      else .next (((s0.armSlot q sl).setQueue q { x with waiting := x.waiting ++ [(num, st, b)] }).takeTurn q) := by
  have hstands : ¬ (4 ≤ s.arg.n ∨ 64 ≤ s.arg.m ∨ (!((unkept s).queue s.arg.n).enable) = true) := by
    simp [hq, hslot, hon]
  refine (if_neg hstands).trans ?_
  simp only [Bool.not_eq_true']
  rfl

theorem commandThread_turn (hb : s.arg.b = true) : exec .commandThread s = .next (s.takeTurn s.arg.n) :=
  (commandThread_enabled hq hslot hon).trans (if_pos hb)

end

/-! ## Completions (03 R54; 04 R85) -/

theorem commandCompletion_none (h : s.pkg.pendCmds.find? (fun c => c.isCmd s.arg.n s.arg.m && c.ready) = none) :
    exec .commandCompletion s = .next s := by
  simp only [exec, execCommandCompletion, h]

section
variable {c : PendCmd} (h : s.pkg.pendCmds.find? (fun c => c.isCmd s.arg.n s.arg.m && c.ready) = some c)
include h

/-- What a completion that is owed comes to. -/
theorem commandCompletion_owed :
    exec .commandCompletion s =
      let q := s.arg.n
      let r := s.notePdcWait hostJob q
      let place := (s.queue q).ring.toNat / 32 * 32 + c.seq % 64 * 32
      let s1 := s.setPkg { s.pkg with pendCmds := s.pkg.pendCmds.filter (fun p => !p.isCmd q c.seq) }
      if s.hostBusy q c.seq = true then .next s
      else if s.entryUsable hostJob q = true ∧ s.pdcFull hostJob q = true then
        .next (if c.waits = true then s
          else r.setPkg { r.pkg with pendCmds := s.pkg.pendCmds.map (fun p =>
            if p.isCmd q c.seq then { p with waits := true } else p) })
      else
        .next ((s1.hostWrite q c.seq (place + 4) (c.body s.pkg.clock.ptime)).hostWrite q c.seq place (bytesOf 4 c.seq)) := by
  simp only [exec, execCommandCompletion, h]
  rfl

theorem commandCompletion_busy (hbusy : s.hostBusy s.arg.n c.seq = true) : exec .commandCompletion s = .next s :=
  (commandCompletion_owed h).trans (if_pos hbusy)

variable (hbusy : s.hostBusy s.arg.n c.seq = false)
include hbusy

theorem commandCompletion_noContext (huse : s.entryUsable hostJob s.arg.n = true)
    (hfull : s.pdcFull hostJob s.arg.n = true) :
    exec .commandCompletion s =
      let r := s.notePdcWait hostJob s.arg.n
      .next (if c.waits = true then s
        else r.setPkg { r.pkg with pendCmds := s.pkg.pendCmds.map (fun p =>
          if p.isCmd s.arg.n c.seq then { p with waits := true } else p) }) :=
  (commandCompletion_owed h).trans ((if_neg (by simp [hbusy])).trans (if_pos ⟨huse, hfull⟩))

theorem commandCompletion_sent (hctx : ¬ (s.entryUsable hostJob s.arg.n = true ∧ s.pdcFull hostJob s.arg.n = true)) :
    exec .commandCompletion s =
      let q := s.arg.n
      let place := (s.queue q).ring.toNat / 32 * 32 + c.seq % 64 * 32
      let s1 := s.setPkg { s.pkg with pendCmds := s.pkg.pendCmds.filter (fun p => !p.isCmd q c.seq) }
      .next ((s1.hostWrite q c.seq (place + 4) (c.body s.pkg.clock.ptime)).hostWrite q c.seq place (bytesOf 4 c.seq)) :=
  (commandCompletion_owed h).trans ((if_neg (by simp [hbusy])).trans (if_neg hctx))

end

end

/-! ## The obligation -/

/-- Settles O38: the doorbell and the completion, each case by its own lemma; a refused command is `hostCmd` of an effect that
it does not have. -/
theorem commandsAreTakenOrRefused : Obligations.CommandsAreTakenOrRefused := by
  unfold Obligations.CommandsAreTakenOrRefused
  refine ⟨fun s => ⟨commandThread_disabled, fun hq hslot hon => ⟨commandThread_turn hq hslot hon,
      fun hb hheld => ?kept, fun hb hheld hfull => ?full, fun hb hheld hroom => ?taken⟩,
      fun c h => ⟨commandCompletion_busy h,
        fun hbusy huse hfull hw => (commandCompletion_noContext h hbusy huse hfull).trans (congrArg _ (if_pos hw)),
        fun hbusy huse hfull hw => (commandCompletion_noContext h hbusy huse hfull).trans (congrArg _ (if_neg (by simp [hw]))),
        commandCompletion_sent h⟩, commandCompletion_none⟩,
    fun s => ⟨fun st hst i hi => ?refused, cmdRefused_degraded, fun hsafe hlog hsec hlo hhi => ?notOpen⟩⟩
  case kept => exact (commandThread_enabled hq hslot hon).trans ((if_neg (ne_true_of_eq_false hb)).trans (if_pos hheld))
  case full =>
    exact (commandThread_enabled hq hslot hon).trans
      ((if_neg (ne_true_of_eq_false hb)).trans ((if_neg (ne_true_of_eq_false hheld)).trans (if_pos hfull)))
  case taken =>
    exact (commandThread_enabled hq hslot hon).trans
      ((if_neg (ne_true_of_eq_false hb)).trans
        ((if_neg (ne_true_of_eq_false hheld)).trans (if_neg (Nat.not_le.mpr hroom))))
  case refused =>
    obtain ⟨f, hf⟩ := exec_command s i hi
    exact hf.trans (hostCmd_refused hst)
  case notOpen => exact cmdRefused_notOpen hsafe hlog hsec (by simp [namesJob, hlo, hhi])

end Sys2Proof.HostQueues
end

section
/-! PROOF. The commands about one job (04 R87 to R92; 05 R102): what each case of a command does, and what a job that is erased
leaves behind. -/

namespace Sys2Proof.JobEffects

open Sys2Proof
open Sys2Proof.Machine
open Sys2Proof.HostQueues

/-! ## A job erased (04 R89; 05 R102) -/

theorem get_clearRange_inside {α : Type} (d : α) {lo hi k : Nat} (hlo : lo ≤ k) (hhi : k < hi) (t : Store α) :
    Store.get d k (Store.clearRange lo hi t) = d := by
  rw [Store.clearRange_eq_filter,
    PackagePower.get_filter_key d (fun a => !(decide (lo ≤ a) && decide (a < hi)))]
  simp [hlo, hhi]

section
variable (r : State) (j : Nat)

theorem eraseJob_job : (r.eraseJob j).job j = Job.init := State.job_setJob_same ..

theorem eraseJob_ptroot : Store.get 0 j (r.eraseJob j).ptroot = 0 := Store.get_erase_same ..

theorem eraseJob_pool : ∀ p ∈ (r.eraseJob j).pool, p.2 ≠ some j :=
  fun _ hp => bne_iff_ne.mp (List.mem_filter.mp hp).2

theorem eraseJob_gateLogs : ∀ p ∈ (r.eraseJob j).gateLogs, p.1 / 4096 ≠ j :=
  fun _ hp => of_decide_eq_true (List.mem_filter.mp hp).2

theorem eraseJob_access : (r.eraseJob j).pkg.sec.access ≠ .jobDebug j := by
  rw [State.eraseJob]
  simp only [State.setJob_pkg]
  split
  · simp
  · assumption

theorem eraseJob_peers {a : Nat} (hlo : 0xFEE0000000 + j * 0x20000 ≤ a)
    (hhi : a < 0xFEE0000000 + j * 0x20000 + 0x20000) : Store.get 0 a (r.eraseJob j).peers = 0 :=
  get_clearRange_inside 0 hlo hhi _

end

/-! ## What each command does (04 R87 to R92) -/

section
variable {s : State} (h : s.cmdRefused (command s) = none)
include h

/-- An operand of JOB.OPEN is out of its range (04 R87). -/
def badOpen (c : Cmd) : Prop := 3 < c.arg 16 1 ∨ 3 < c.arg 17 1 ∨ c.arg 18 1 < 8 ∨ 16 < c.arg 18 1

theorem jobOpen_badArg (hbad : badOpen (command s)) : exec .jobOpen s = .next (s.doneCmd (command s) stBadArg noResult) :=
  (hostCmd_taken h (if_pos hbad) : execJobOpen s = _)

theorem jobOpen_noJob (hgood : ¬ badOpen (command s))
    (hnone : lowestFree 256 (fun j => (s.job j).st == .closed) = none) :
    exec .jobOpen s = .next (s.doneCmd (command s) stNoRes noResult) :=
  (hostCmd_taken h ((if_neg hgood).trans (by simp only [hnone])) : execJobOpen s = _)

theorem jobOpen_opens {j asid tab : Nat} {r : State} {key : Option (List Byte)} (hgood : ¬ badOpen (command s))
    (hjob : lowestFree 256 (fun j => (s.job j).st == .closed) = some j) (hasid : s.freeAsid = some asid)
    (htab : s.takeTable j = some (tab, r)) (hkey : s.debugKey (command s).q ((command s).arg 44 8) = some key) :
    exec .jobOpen s =
      let c := command s
      let r1 := r.setJob j (c.newJob asid key (Config.jobAssociations j))
      .next (State.doneCmd { r1 with ptroot := Store.put 0 j tab r.ptroot, jobOpened := true } c stOk
        (result16 (bytesOf 2 j ++ bytesOf 2 asid ++ bytesOf 4 (0x1000 + j)))) :=
  (hostCmd_taken h ((if_neg hgood).trans (by simp only [hjob, hasid, htab, hkey]; rfl)) : execJobOpen s = _)

theorem jobClose_closes : exec .jobClose s = .next ((s.closeJob (command s).job).doneCmd (command s) stOk noResult) :=
  (hostCmd_taken h rfl : execJobClose s = _)

theorem seed_sets :
    exec .seed s =
      let c := command s
      .next ((s.setJob c.job { s.job c.job with seed := BitVec.ofNat 64 (c.arg 16 8) }).doneCmd c stOk noResult) :=
  (hostCmd_taken h rfl : execSeed s = _)

theorem peer_badArg (hi : 4095 < (command s).arg 16 2) :
    exec .peer s = .next (s.doneCmd (command s) stBadArg noResult) :=
  (hostCmd_taken h (if_pos hi) : execPeer s = _)

theorem peer_writes (hi : (command s).arg 16 2 ≤ 4095) :
    exec .peer s =
      let c := command s
      .next (((List.range 4).foldl (fun (t : State) k =>
        t.peerWrite (0xFEE0000000 + c.job * 0x20000 + c.arg 16 2 * 32 + 8 * k) (c.arg (20 + 8 * k) 8)) s).doneCmd c stOk
          noResult) :=
  (hostCmd_taken h (if_neg (Nat.not_lt.mpr hi)) : execPeer s = _)

theorem query_answers {bs : List Byte} (hq : s.queryResult ((command s).arg 16 1) (command s).job = some bs) :
    exec .query s = .next (s.doneCmd (command s) stOk (result16 bs)) :=
  (hostCmd_taken h (by simp only [hq]) : execQuery s = _)

theorem query_badArg (hq : s.queryResult ((command s).arg 16 1) (command s).job = none) :
    exec .query s = .next (s.doneCmd (command s) stBadArg noResult) :=
  (hostCmd_taken h (by simp only [hq]) : execQuery s = _)

/-! ### MAP (04 R88) -/

theorem map_badArg
    (hbad : let c := command s
      s.badMap (c.arg 16 8) (c.arg 24 8) (c.arg 32 4) = true) :
    exec .map s = .next (s.doneCmd (command s) stBadArg noResult) :=
  (hostCmd_taken h (if_pos hbad) : execMap s = _)

omit h in
theorem bit_zero_eq (n : Nat) : bit n 0 = (n % 2 == 1) := by simp [bit]

section
variable {va pte count : Nat} (hva : (command s).arg 16 8 = va) (hpte : (command s).arg 24 8 = pte)
  (hcount : (command s).arg 32 4 = count) (hgood : s.badMap va pte count = false)
  (hstill : (mapLeaves va pte count).any (fun l => s.walk (command s).job l.1 == .migrating) = false)
include hva hpte hcount hgood hstill

theorem map_noTable
    (hnone : State.writeLeaves (command s).job (levelOf (bits pte 7 5)) (pte % 2 == 1)
      (mapLeaves va pte count) s = none) :
    exec .map s = .next (s.doneCmd (command s) stNoRes noResult) := by
  subst hva hpte hcount
  rw [← bit_zero_eq] at hnone
  show execMap s = _
  refine hostCmd_taken h ((if_neg (ne_true_of_eq_false hgood)).trans
    ((if_neg (ne_true_of_eq_false hstill)).trans ?_))
  simp only [hnone]

theorem map_writes {r : State}
    (hr : State.writeLeaves (command s).job (levelOf (bits pte 7 5)) (pte % 2 == 1)
      (mapLeaves va pte count) s = some r) :
    exec .map s =
      let c := command s
      .next ((r.tlbDrop (fun l => l.asid == (s.job c.job).asid &&
        decide (overlap l.va l.size va (count * pageBytes (pte / 2 ^ 5 % 8)) ≠ 0))
          (s.oldPages c.job (mapLeaves va pte count))).doneCmd c stOk noResult) := by
  subst hva hpte hcount
  rw [← bit_zero_eq] at hr
  show execMap s = _
  refine hostCmd_taken h ((if_neg (ne_true_of_eq_false hgood)).trans
    ((if_neg (ne_true_of_eq_false hstill)).trans ?_))
  simp only [hr]
  rfl

end

/-! ### VINTAGE (04 R91) -/

theorem vintage_badArg
    (hbad : let c := command s
      1 < c.arg 20 1 ∨ 3 < c.arg 21 1 ∨ (c.arg 20 1 = 0 ∧ c.arg 21 1 ≠ 0) ∨
        s.ownsSet c.job (BitVec.ofNat 64 (c.arg 16 4)) = false) :
    exec .vintage s = .next (s.doneCmd (command s) stBadArg noResult) := by
  have hrefused := hbad.imp_right (Or.imp_right (Or.imp_right (Bool.not_eq_true' _).mpr))
  exact (hostCmd_taken h (if_pos hrefused) : execVintage s = _)

section
variable (hown : s.ownsSet (command s).job (BitVec.ofNat 64 ((command s).arg 16 4)) = true)
include hown

theorem vintage_query (hop : (command s).arg 20 1 = 0) (hk : (command s).arg 21 1 = 0) :
    exec .vintage s = .next (s.doneCmd (command s) stOk (s.vset ((command s).arg 16 4)).result) :=
  (hostCmd_taken h ((if_neg (by simp [hown, hop, hk])).trans (if_pos hop)) : execVintage s = _)

theorem vintage_publish (hop : (command s).arg 20 1 = 1) (hk : (command s).arg 21 1 ≤ 3) :
    exec .vintage s =
      let c := command s
      let v := c.arg 16 4
      let k := c.arg 21 1
      .next (if ((s.vset v).bar k).isSome = true then s.doneCmd c stBadState noResult
        else (s.publish v k).doneCmd c stOk ((s.publish v k).vset v).result) :=
  (hostCmd_taken h ((if_neg (by simp [hown, hop, hk])).trans (if_neg (by simp [hop]))) : execVintage s = _)

end

end

/-! ## The obligation -/

/-- Settles O39: each command's cases by their own lemmas, and JOB.CLOSE by what `eraseJob`, its last act, leaves behind. -/
theorem jobCommands : Obligations.JobCommands := by
  unfold Obligations.JobCommands
  intro s c h
  refine ⟨⟨jobOpen_badArg h, jobOpen_noJob h, fun j asid tab r key hgood hjob hasid htab hkey =>
        ⟨_, _, jobOpen_opens h hgood hjob hasid htab hkey, rfl, rfl, rfl, rfl, rfl, rfl, rfl, rfl, rfl, rfl⟩⟩,
    jobClose_closes h,
    ⟨rfl, eraseJob_job _ _, eraseJob_ptroot _ _, eraseJob_pool _ _, eraseJob_gateLogs _ _, eraseJob_access _ _,
      fun a => eraseJob_peers _ _⟩,
    seed_sets h, peer_badArg h, peer_writes h, fun bs => query_answers h, query_badArg h,
    ⟨map_badArg h, fun hgood hstill =>
      ⟨map_noTable h rfl rfl rfl hgood hstill, fun r => map_writes h rfl rfl rfl hgood hstill⟩⟩,
    ⟨vintage_badArg h, fun hown hop hk => vintage_query h hown hop hk,
      fun hown hop hk => ⟨fun hbar => ?barred, fun hbar => ?published⟩⟩⟩
  case barred =>
    exact (vintage_publish h hown hop hk).trans (congrArg _ (if_pos (Option.isSome_iff_ne_none.mpr hbar)))
  case published => exact (vintage_publish h hown hop hk).trans (congrArg _ (if_neg (Option.not_isSome_iff_eq_none.mpr hbar)))

end Sys2Proof.JobEffects
end

section
/-! PROOF. The commands about the package (04 R87, R92 to R99; 02 R36, R39, R49): what each case of a command does. -/

namespace Sys2Proof.PackageEffects

open Sys2Proof
open Sys2Proof.Machine
open Sys2Proof.HostQueues

section
variable {s : State} (h : s.cmdRefused (command s) = none)
include h

/-! ## ATTEST (04 R97) -/

theorem attest_badArg (hwith : 1 < (command s).arg 56 1) :
    exec .attest s = .next (s.doneCmd (command s) stBadArg noResult) :=
  (hostCmd_taken h (if_pos hwith) : execAttest s = _)

section
variable (hwith : (command s).arg 56 1 = 0)
include hwith

/-- A report without a job: it needs only a usable entry of the queue. -/
theorem attest_package :
    exec .attest s =
      let c := command s
      let body := s.reportBody (sub c.bytes 16 32) none
      .next (if (!s.entryUsable hostJob c.q) = true then s.doneCmd c stHostIo noResult
        else (s.doneCmd c stOk noResult).hostBuffer c (c.arg 48 8) (body ++ identitySign body)) := by
  show execAttest s = _
  refine hostCmd_taken h ((if_neg (by simp [hwith])).trans ((if_neg (by simp [hwith])).trans ?_))
  simp only [hwith]
  rfl

theorem attest_unusable (huse : s.entryUsable hostJob (command s).q = false) :
    exec .attest s = .next (s.doneCmd (command s) stHostIo noResult) :=
  (attest_package h hwith).trans (congrArg _ (if_pos (by simp [huse])))

theorem attest_sends (huse : s.entryUsable hostJob (command s).q = true) :
    exec .attest s =
      let c := command s
      let body := s.reportBody (sub c.bytes 16 32) none
      .next ((s.doneCmd c stOk noResult).hostBuffer c (c.arg 48 8) (body ++ identitySign body)) :=
  (attest_package h hwith).trans (congrArg _ (if_neg (by simp [huse])))

end

/-! ## DEBUG (04 R98, R99) -/

theorem debug_badArg (hop : 1 < (command s).arg 24 1) :
    exec .debug s = .next (s.doneCmd (command s) stBadArg noResult) :=
  (hostCmd_taken h (if_pos hop) : execDebug s = _)

theorem debug_inFull (hop : (command s).arg 24 1 ≤ 1) (hfull : s.pkg.sec.access = .full) :
    exec .debug s = .next (s.doneCmd (command s) stBadState noResult) :=
  (hostCmd_taken h ((if_neg (Nat.not_lt.mpr hop)).trans (if_pos hfull)) : execDebug s = _)

section
variable (hfull : s.pkg.sec.access ≠ .full)
include hfull

/-- DEBUG that leaves a state. -/
theorem debug_leaves (hop : (command s).arg 24 1 = 1) :
    exec .debug s =
      .next (if s.pkg.sec.access = .locked then s.doneCmd (command s) stBadState noResult
        else (s.setPkg { s.pkg with sec := { s.pkg.sec with access := .locked } }).doneCmd (command s) stOk noResult) :=
  (hostCmd_taken h ((if_neg (by simp [hop])).trans ((if_neg hfull).trans (if_pos hop))) : execDebug s = _)

section
variable (hop : (command s).arg 24 1 = 0)
include hop

theorem debug_unread (hread : s.hostRead (command s).q ((command s).arg 16 8) 128 = none) :
    exec .debug s = .next (s.doneCmd (command s) stHostIo noResult) := by
  show execDebug s = _
  refine hostCmd_taken h ((if_neg (by simp [hop])).trans ((if_neg hfull).trans ((if_neg (by simp [hop])).trans ?_)))
  simp only [hread]

/-- DEBUG that enters a state, its token read. -/
theorem debug_enters {tk : List Byte} (hread : s.hostRead (command s).q ((command s).arg 16 8) 128 = some tk) :
    exec .debug s =
      let c := command s
      .next (if (!s.tokenOk tk) = true then s.doneCmd c stAuth noResult
        else if field tk 4 1 = 2 then s.enterFull.doneCmd c stOk noResult
        else if s.pkg.sec.access = .locked ∨ s.pkg.sec.access = DebugState.jobDebug (field tk 6 2) then
          (s.enterJobDebug (field tk 6 2) (field tk 8 8)).doneCmd c stOk noResult
        else s.doneCmd c stBadState noResult) := by
  show execDebug s = _
  refine hostCmd_taken h ((if_neg (by simp [hop])).trans ((if_neg hfull).trans ((if_neg (by simp [hop])).trans ?_)))
  simp only [hread]

end

end

/-! ## FWLOAD and START (04 R93 to R95; 02 R49) -/

theorem fwload_unread (hread : s.hostRead (command s).q ((command s).arg 16 8) ((command s).arg 24 4) = none) :
    exec .fwload s = .next (s.doneCmd (command s) stHostIo noResult) :=
  (hostCmd_taken h (by simp only [hread]) : execFwload s = _)

theorem fwload_read {b : List Byte}
    (hread : s.hostRead (command s).q ((command s).arg 16 8) ((command s).arg 24 4) = some b) :
    exec .fwload s =
      let c := command s
      .next (if s.imageOk b = true then
          (s.setPkg { s.pkg with sec := (s.pkg.sec.store b).2 }).doneCmd c stOk (result16 (bytesOf 1 (s.pkg.sec.store b).1))
        else s.doneCmd c stAuth noResult) :=
  (hostCmd_taken h (by simp only [hread]) : execFwload s = _)

theorem start_badArg (hkind : 1 < (command s).arg 16 1) :
    exec .start s = .next (s.doneCmd (command s) stBadArg noResult) :=
  (hostCmd_taken h (if_pos hkind) : execStart s = _)

theorem start_asks (hkind : (command s).arg 16 1 ≤ 1) :
    exec .start s =
      let c := command s
      let st := s.pkg.starts
      let warm := c.arg 16 1 == 0 && s.pkg.power.st == .retention && !st.safe
      .next ((s.setPkg { s.pkg with
        starts := { st with fails := if st.safe then 2 else st.fails, asked := some warm } }).doneCmd c stOk noResult) :=
  (hostCmd_taken h (if_neg (Nat.not_lt.mpr hkind)) : execStart s = _)

/-! ## LOG (04 R92) -/

theorem log_badArg (hkind : 4 < (command s).arg 16 1) :
    exec .log s = .next (s.doneCmd (command s) stBadArg noResult) :=
  (hostCmd_taken h (if_pos hkind) : execLog s = _)

theorem log_sends (hkind : (command s).arg 16 1 ≤ 4) (hcontexts : (command s).arg 16 1 ≠ 3)
    (huse : s.entryUsable hostJob (command s).q = true) :
    exec .log s =
      let c := command s
      let b := (s.logData (c.arg 16 1) c.job).take (c.arg 20 4)
      .next ((State.doneCmd { s with free := s.free + s.logFree (c.arg 16 1) c.job } c stOk
        (result16 (bytesOf 4 b.length))).hostBuffer c (c.arg 24 8) b) :=
  (hostCmd_taken h ((if_neg (Nat.not_lt.mpr hkind)).trans
    ((if_neg (by simp [hcontexts])).trans (if_neg (by simp [huse])))) : execLog s = _)

/-! ## POWER (02 R37, R39) -/

theorem power_cap (hop : (command s).arg 16 1 = 0) :
    exec .power s =
      let c := command s
      .next (if 1200 ≤ c.arg 18 2 ∧ c.arg 18 2 ≤ 3000 then
          (s.setPkg { s.pkg with power := { s.pkg.power with cap := c.arg 18 2 } }).doneCmd c stOk noResult
        else s.doneCmd c stBadArg noResult) := by
  show execPower s = _
  refine hostCmd_taken h ?_
  simp only [hop]

theorem power_toRetention (hop : (command s).arg 16 1 = 1) :
    exec .power s = .next (((s.setPkg { s.pkg with power := { s.pkg.power with toRetention := true } }).holdAll).doneCmd
      (command s) stOk noResult) := by
  show execPower s = _
  refine hostCmd_taken h ?_
  simp only [hop]

theorem power_fromRetention (hop : (command s).arg 16 1 = 2) :
    exec .power s =
      let c := command s
      .next (if s.pkg.power.st = .retention then
          (s.setPkg { s.pkg with starts := { s.pkg.starts with asked := some true } }).doneCmd c stOk noResult
        else s.doneCmd c stBadState noResult) := by
  show execPower s = _
  refine hostCmd_taken h ?_
  simp only [hop]

theorem power_badArg (hop : 2 < (command s).arg 16 1) :
    exec .power s = .next (s.doneCmd (command s) stBadArg noResult) := by
  show execPower s = _
  refine hostCmd_taken h ?_
  dsimp only
  split
  case h_4 => rfl
  all_goals omega

end

/-! ## The obligation -/

/-- Settles O40: each command's cases by their own lemmas; a token of KIND 2 or an image that passes is the one branch of what
was read. -/
theorem packageCommands : Obligations.PackageCommands := by
  unfold Obligations.PackageCommands
  intro s c h
  refine ⟨attest_badArg h, attest_unusable h, attest_sends h, debug_badArg h, debug_inFull h,
    fun hop hfull => ⟨fun hlocked => (debug_leaves h hfull hop).trans (congrArg _ (if_pos hlocked)),
      fun hlocked => (debug_leaves h hfull hop).trans (congrArg _ (if_neg hlocked))⟩,
    fun hop hfull => ⟨debug_unread h hfull hop, fun tk hread => ?token⟩,
    fwload_unread h, fun b hread => ⟨fun hbad => ?refused, fun hok => (fwload_read h hread).trans (congrArg _ (if_pos hok))⟩,
    start_badArg h, fun hkind => ⟨_, start_asks h hkind, ?warm⟩, log_badArg h, log_sends h,
    fun hop hcap => ?range, fun hop hlo hhi => (power_cap h hop).trans (congrArg _ (if_pos ⟨hlo, hhi⟩)),
    power_toRetention h, fun hop hst => (power_fromRetention h hop).trans (congrArg _ (if_pos hst)),
    fun hop hst => (power_fromRetention h hop).trans (congrArg _ (if_neg hst)), power_badArg h⟩
  case token =>
    have htoken := debug_enters h hfull hop hread
    refine ⟨fun hbad => htoken.trans (congrArg _ (if_pos (by simp [hbad]))), fun hok hkind => htoken.trans (congrArg _ ?_),
      fun hok hkind hlocked => htoken.trans (congrArg _ ?_)⟩
    · exact (if_neg (by simp [hok])).trans (if_pos hkind)
    · exact (if_neg (by simp [hok])).trans ((if_neg hkind).trans (if_pos (.inl hlocked)))
  case refused => exact (fwload_read h hread).trans (congrArg _ (if_neg (ne_true_of_eq_false hbad)))
  case warm => simp [Bool.decide_and, Bool.and_assoc, beq_eq_decide, c]
  case range =>
    have hout : ¬ (1200 ≤ c.arg 18 2 ∧ c.arg 18 2 ≤ 3000) := by omega
    exact (power_cap h hop).trans (congrArg _ (if_neg hout))

end Sys2Proof.PackageEffects
end

section
/-! PROOF. Launches (04 R87; 05 R108 to R119, R495): what a launch command or a descriptor submits, what a queued launch comes
to, and what a kernel without threads and records held for a supervisor come to. -/

namespace Sys2Proof.Launches

open Sys2Proof
open Sys2Proof.Machine
open Sys2Proof.HostQueues

section
variable {s : State}

/-! ## Submission (04 R87; 05 R108, R114) -/

theorem schedLoad_submits (h : s.cmdRefused (command s) = none) :
    exec .schedLoad s =
      let c := command s
      .next (s.submitCmd c { c.ask true (c.arg 24 4) with
        origin := c.arg 28 1, w := c.arg 29 1, h := c.arg 30 1, startAt := BitVec.ofNat 64 (c.arg 32 8) }) :=
  (hostCmd_taken h rfl : execSchedLoad s = _)

theorem klaunch_submits (h : s.cmdRefused (command s) = none) :
    exec .klaunch s =
      let c := command s
      .next (s.submitCmd c { c.ask false (c.arg 24 4) with
        listVa := c.arg 28 8
        args := [BitVec.ofNat 64 (c.arg 36 8), BitVec.ofNat 64 (c.arg 44 8), BitVec.ofNat 64 (c.arg 52 8)] }) :=
  (hostCmd_taken h rfl : execKlaunch s = _)

theorem launchPort_closed (h : (s.job s.arg.n).st = .closed) : exec .launchPort s = .next s :=
  congrArg Host.Outcome.next (if_pos h)

theorem launchPort_submits {b : List Byte} (hopen : (s.job s.arg.n).st ≠ .closed)
    (hread : s.readVa s.arg.n .supervisor s.arg.v.toNat 64 = .ok b) (halign : s.arg.v.toNat % 64 = 0)
    (hfields : badDescriptor b = false) :
    exec .launchPort s =
      .next (s.submit (askOf s.arg.n s.arg.v b) { s with submits := s.submits ++ [(s.arg.n, s.arg.v)] }) := by
  refine congrArg Host.Outcome.next ((if_neg hopen).trans ?_)
  simp only [hread]
  exact if_neg (by simp [halign, hfields])

/-! ## Acceptance (05 R108, R115, R118) -/

/-- The state after a queued launch has been looked at, by what its acceptance comes to. -/
def answered (s : State) (l : Launch) : Taken → State
  | .accepted r id => r.launched l id
  | .refused z => ((s.unqueue l).dropClaims l).refuseLaunch l.job l.res l.cmd stRefused z
  | .waits r => r
  | .lacks =>
    if l.nowait = true then ((s.unqueue l).dropClaims l).refuseLaunch l.job l.res l.cmd stRefused rBusy
    else if l.cls = 1 then (State.choose l (s.candidates [3]) s).1.foldl State.holdFor s
    else s

theorem launchAccept_gone (h : s.launches.find? (fun l => l.num == s.arg.n && l.resumes.isNone) = none) :
    exec .launchAccept s = .next s := by
  simp only [exec, execLaunchAccept, h]

section
variable {l : Launch} (h : s.launches.find? (fun l => l.num == s.arg.n && l.resumes.isNone) = some l)
include h

theorem launchAccept_notConsidered (hturn : s.considered l = false) : exec .launchAccept s = .next s := by
  simp only [exec, execLaunchAccept, h]
  exact if_pos (.inl (by simp [hturn]))

section
variable (hturn : s.considered l = true) (hres : s.resWaits l.job l.res = false)
include hturn hres

/-- A launch whose turn it is and whose answer can be written: what its acceptance comes to decides. -/
theorem launchAccept_considered : exec .launchAccept s = .next (answered s l (s.take l)) := by
  simp only [exec, execLaunchAccept, h]
  refine (if_neg (by simp [hturn, hres])).trans ?_
  cases s.take l <;> rfl

theorem launchAccept_taken {x : Taken} (ht : s.take l = x) : exec .launchAccept s = .next (answered s l x) :=
  ht ▸ launchAccept_considered h hturn hres

/-- A launch that lacks something and neither gives up nor pre-empts stays as it is. -/
theorem launchAccept_lacks (ht : s.take l = .lacks) (hnowait : l.nowait = false) (hcls : l.cls ≠ 1) :
    exec .launchAccept s = .next s :=
  (launchAccept_taken h hturn hres ht).trans
    (congrArg Host.Outcome.next ((if_neg (ne_true_of_eq_false hnowait)).trans (if_neg hcls)))

end

end

/-! ## Kernels that end and records that were held (05 R104, R112, R113) -/

theorem kernelComplete_ends (hrun : (s.kernel s.arg.n s.arg.m).st = .running)
    (hlives : s.kernelLives s.arg.n s.arg.m = false) (hheld : s.counterHolds s.arg.n s.arg.m = false) :
    exec .kernelComplete s = .next ((s.endKernel s.arg.n s.arg.m stOk).launchDone s.arg.n s.arg.m) :=
  if_neg (by simp [hrun, hlives, hheld])

theorem kernelComplete_lives (hlives : s.kernelLives s.arg.n s.arg.m = true) : exec .kernelComplete s = .next s :=
  if_pos (.inr (.inl hlives))

theorem heldRecordDelivery_noSupervisor (h : s.supervisor s.arg.n = none) : exec .heldRecordDelivery s = .next s :=
  if_pos (by simp [h])

theorem deliverHeld_nil {j : Nat} (h : (s.job j).heldRecords = []) : s.deliverHeld j = s := by
  simp only [State.deliverHeld, h]
  cases s.supervisor j <;> rfl

theorem deliverHeld_held {j t : Nat} (hsup : s.supervisor j = some t) (hheld : (s.job j).heldRecords ≠ []) :
    s.deliverHeld j = (s.job j).heldRecords.foldl (fun w b => w.postRecord j t b)
      (s.setJob j { s.job j with heldRecords := [] }) := by
  obtain ⟨b, l, hl⟩ := List.exists_cons_of_ne_nil hheld
  simp only [State.deliverHeld, hsup, hl]

theorem heldRecordDelivery_noneHeld (h : (s.job s.arg.n).heldRecords = []) : exec .heldRecordDelivery s = .next s := by
  show execHeldRecordDelivery s = _
  rw [execHeldRecordDelivery, deliverHeld_nil h, ite_self]

theorem heldRecordDelivery_sends {t : Nat} (hsup : s.supervisor s.arg.n = some t)
    (hheld : (s.job s.arg.n).heldRecords ≠ []) :
    exec .heldRecordDelivery s =
      .next ((s.job s.arg.n).heldRecords.foldl (fun w b => w.postRecord s.arg.n t b)
        (s.setJob s.arg.n { s.job s.arg.n with heldRecords := [] })) :=
  (if_neg (by simp [hsup])).trans (congrArg Host.Outcome.next (deliverHeld_held hsup hheld))

end

/-! ## The obligation -/

/-- Settles O41: submission, each outcome of an acceptance, the end of a kernel and the delivery of held records, by their own
lemmas. -/
theorem launchesAreServed : Obligations.LaunchesAreServed := by
  unfold Obligations.LaunchesAreServed
  intro s c j
  exact ⟨schedLoad_submits, klaunch_submits, launchPort_closed, fun b => launchPort_submits, launchAccept_gone,
    fun l h => ⟨launchAccept_notConsidered h, fun hturn hres =>
      ⟨fun r id => launchAccept_taken h hturn hres, fun z => launchAccept_taken h hturn hres,
        fun r => launchAccept_taken h hturn hres, launchAccept_lacks h hturn hres⟩⟩,
    kernelComplete_ends, kernelComplete_lives, heldRecordDelivery_noSupervisor, heldRecordDelivery_noneHeld,
    fun t => heldRecordDelivery_sends⟩

end Sys2Proof.Launches
end

section
/-! PROOF. Pre-emption and resumption (04 R90; 05 R118, R121 to R130): PREEMPT and RESUME by the kind of unit that they name,
and each event of a stop, a save and a restore by its own cases. -/

namespace Sys2Proof.Preemption

open Sys2Proof
open Sys2Proof.Machine
open Sys2Proof.HostQueues

section
variable {s : State}

/-! ## PREEMPT and RESUME (04 R87, R90) -/

section
variable (h : s.cmdRefused (command s) = none)
include h

theorem preempt_partition (hkind : (command s).arg 16 1 = 0) :
    exec .preempt s =
      let c := command s
      let pk := unitKey c.job (c.arg 18 4)
      .next (if (s.part pk).mayHold = true then s.moving c (fun w => w.hostHoldPart pk (c.q, c.seq))
        else s.doneCmd c stBadState noResult) := by
  refine (hostCmd_taken h ?_ : execPreempt s = _)
  simp only [hkind]

theorem preempt_kernel (hkind : (command s).arg 16 1 = 1) :
    exec .preempt s =
      let c := command s
      let id := c.arg 18 4
      .next (if (s.kernel c.job id).mayHold = true then s.moving c (fun w => w.hostHoldKernel c.job id (c.q, c.seq))
        else s.doneCmd c stBadState noResult) := by
  refine (hostCmd_taken h ?_ : execPreempt s = _)
  simp only [hkind]

theorem preempt_job (hkind : (command s).arg 16 1 = 2) :
    exec .preempt s =
      let c := command s
      .next (if (s.job c.job).st = .held ∨ s.jobRunsUnits c.job = false then s.doneCmd c stBadState noResult
        else s.moving c (fun w => w.hostHoldJob c.job (c.q, c.seq))) := by
  refine (hostCmd_taken h ?_ : execPreempt s = _)
  simp only [hkind, Bool.not_eq_true']

theorem preempt_badArg (hkind : 2 < (command s).arg 16 1) :
    exec .preempt s = .next (s.doneCmd (command s) stBadArg noResult) := by
  refine (hostCmd_taken h ?_ : execPreempt s = _)
  dsimp only
  split
  case h_4 => rfl
  all_goals omega

theorem resume_partition (hkind : (command s).arg 16 1 = 0) :
    exec .resume s =
      let c := command s
      let pk := unitKey c.job (c.arg 18 4)
      .next (if (s.part pk).hostHold = true then s.resuming c (fun w => w.releasePart pk (c.q, c.seq))
        else s.doneCmd c stBadState noResult) := by
  refine (hostCmd_taken h ?_ : execResume s = _)
  simp only [hkind]

theorem resume_kernel (hkind : (command s).arg 16 1 = 1) :
    exec .resume s =
      let c := command s
      let id := c.arg 18 4
      .next (if (s.kernel c.job id).hostHold = true then s.resuming c (fun w => w.releaseKernel c.job id (c.q, c.seq))
        else s.doneCmd c stBadState noResult) := by
  refine (hostCmd_taken h ?_ : execResume s = _)
  simp only [hkind]

theorem resume_job (hkind : (command s).arg 16 1 = 2) :
    exec .resume s =
      let c := command s
      .next (if (s.job c.job).st = .held then s.resuming c (fun w => w.releaseJob c.job (c.q, c.seq))
        else s.doneCmd c stBadState noResult) := by
  refine (hostCmd_taken h ?_ : execResume s = _)
  simp only [hkind]

theorem resume_badArg (hkind : 2 < (command s).arg 16 1) :
    exec .resume s = .next (s.doneCmd (command s) stBadArg noResult) := by
  refine (hostCmd_taken h ?_ : execResume s = _)
  dsimp only
  split
  case h_4 => rfl
  all_goals omega

end

/-! ## A stop (05 R123, R127) -/

/-- A partition that asks for its pre-emption freeze at a schedule cycle. -/
def freezeAsked (q : Partition) (cyc : Int) : Partition :=
  { q with freezes := q.freezes ++ [{ cyc := cyc, cause := .preempt, ends := none }] }

/-- A frozen partition saved as it stands. -/
def stoppedNow (s : State) (q : Partition) : Partition :=
  { q with st := .preempted, stoppedAt := s.pkg.clock.ptime, stopCyc := s.cyc }

theorem partitionPreemption_notHeld (hhost : (s.part s.arg.n).hostHold = false)
    (hdeadline : (s.part s.arg.n).deadlineHold = false) : exec .partitionPreemption s = .next s :=
  if_pos (.inl (by simp [hhost, hdeadline]))

section
variable (hhost : (s.part s.arg.n).hostHold = true) (hgoes : (s.part s.arg.n).stopping = false)
  (hnot : (s.part s.arg.n).isPreempted = false)
include hhost hgoes hnot

theorem partitionPreemption_loading (hst : (s.part s.arg.n).st = .loading) :
    exec .partitionPreemption s =
      .next ((s.partRecord s.arg.n 0).setPart s.arg.n
        { s.part s.arg.n with st := .preempted, stoppedAt := s.pkg.clock.ptime }) :=
  (if_neg (by simp [hhost, hgoes, hnot, hst])).trans (if_pos hst)

section
variable (hst : (s.part s.arg.n).st = .running) (hspan : ((s.partRecord s.arg.n 0).part s.arg.n).span = false)
include hst hspan

/-- A running partition of one package, which its hold stops, asks for its freeze. -/
theorem partitionPreemption_running :
    exec .partitionPreemption s =
      let r := s.partRecord s.arg.n 0
      let q := r.part s.arg.n
      let q1 := freezeAsked q (if q.frozen = true then q.scyc else q.scyc + q.lead)
      .next (r.setPart s.arg.n (if q.frozen = true then stoppedNow s q1 else q1)) := by
  refine (if_neg (by simp [hhost, hgoes, hnot, hst])).trans ((if_neg (by simp [hst])).trans ?_)
  exact congrArg Host.Outcome.next (if_neg (ne_true_of_eq_false hspan))

theorem partitionPreemption_freezes (hfrozen : ((s.partRecord s.arg.n 0).part s.arg.n).frozen = false) :
    exec .partitionPreemption s =
      let r := s.partRecord s.arg.n 0
      let q := r.part s.arg.n
      .next (r.setPart s.arg.n (freezeAsked q (q.scyc + q.lead))) := by
  rw [partitionPreemption_running hhost hgoes hnot hst hspan]
  simp only [hfrozen, Bool.false_eq_true, if_false]

theorem partitionPreemption_stops (hfrozen : ((s.partRecord s.arg.n 0).part s.arg.n).frozen = true) :
    exec .partitionPreemption s =
      let r := s.partRecord s.arg.n 0
      let q := r.part s.arg.n
      .next (r.setPart s.arg.n (stoppedNow s (freezeAsked q q.scyc))) := by
  rw [partitionPreemption_running hhost hgoes hnot hst hspan]
  simp only [hfrozen, if_true]

end

end

theorem kernelPreemption_held (hst : (s.kernel s.arg.n s.arg.m).st = .running)
    (hhost : (s.kernel s.arg.n s.arg.m).hostHold = true) :
    exec .kernelPreemption s =
      .next (((s.kernelRecord s.arg.n s.arg.m 0).setKernel s.arg.n s.arg.m
        { s.kernel s.arg.n s.arg.m with st := .saving }).closeRuns s.arg.n) :=
  if_pos ⟨hst, by simp [hhost]⟩

theorem kernelPreemption_notHeld (hhost : (s.kernel s.arg.n s.arg.m).hostHold = false)
    (hdeadline : (s.kernel s.arg.n s.arg.m).deadlineHold = false) : exec .kernelPreemption s = .next s :=
  if_neg (by simp [hhost, hdeadline])

/-! ## A save (05 R123, R127, R129, R130) -/

theorem preemptSaveDone_kernel (hb : s.arg.b = true) :
    exec .preemptSaveDone s =
      .next (if (s.kernel s.arg.n s.arg.m).st = .saving ∧ s.kernelDrained s.arg.n s.arg.m = true ∧
          s.retrains (unitKey s.arg.n s.arg.m) = false
        then s.kernelSaved s.arg.n s.arg.m else s) := by
  simp only [apply_ite Host.Outcome.next, ← Bool.not_eq_true']
  exact if_pos hb

theorem preemptSaveDone_partition (hb : s.arg.b = false) :
    exec .preemptSaveDone s =
      .next (if (s.part s.arg.n).isPreempted = true ∧
          (s.part s.arg.n).tiles.any (fun t => (s.tile t).part == some s.arg.n) = true ∧ s.drained s.arg.n = true ∧
          s.retrains s.arg.n = false
        then s.partSaved s.arg.n else s) := by
  simp only [apply_ite Host.Outcome.next, ← Bool.not_eq_true']
  exact if_neg (ne_true_of_eq_false hb)

/-! ## A restore (05 R117, R124 to R128) -/

theorem partitionRestore_kept (hb : s.arg.b = true) : exec .partitionRestore s = .next (s.applyKept s.arg.n) :=
  if_pos hb

section
variable (hb : s.arg.b = false)
include hb

theorem partitionRestore_queued {l : Launch} {n : Nat}
    (hl : s.launches.find? (fun l => l.resumes == some (false, s.arg.n)) = some l)
    (hn : s.resumeNum s.arg.n = some n) :
    exec .partitionRestore s =
      .next (if s.considered l = true ∧ s.canRestore s.arg.n = true then (s.unqueue l).restorePart s.arg.n n else s) := by
  refine (if_neg (ne_true_of_eq_false hb)).trans ?_
  simp only [hl, hn, Bool.and_eq_true, apply_ite Host.Outcome.next]

theorem partitionRestore_noLaunch (h : s.launches = []) : exec .partitionRestore s = .next s := by
  refine (if_neg (ne_true_of_eq_false hb)).trans ?_
  simp only [h, List.find?_nil]

end

theorem kernelRestore_queued {l : Launch} {at_ : List Nat}
    (hl : s.launches.find? (fun l => l.job == s.arg.n && l.resumes == some (true, s.arg.m)) = some l)
    (hcores : s.restoreCores s.arg.n s.arg.m = some at_) :
    exec .kernelRestore s =
      .next (if s.considered l = true ∧ (s.kernel s.arg.n s.arg.m).st = .preempted
        then (s.unqueue l).restoreKernel s.arg.n s.arg.m at_ else s) := by
  show execKernelRestore s = _
  simp only [execKernelRestore, hl, hcores, Bool.and_eq_true, beq_iff_eq, apply_ite Host.Outcome.next]

theorem kernelRestore_noLaunch (h : s.launches = []) : exec .kernelRestore s = .next s := by
  show execKernelRestore s = _
  simp only [execKernelRestore, h, List.find?_nil]

end

/-! ## The obligation -/

/-- Settles O42: the commands by the kind of unit, and each event's cases by their own lemmas; what a restore lets go comes
first on the agenda by its definition. -/
theorem unitsArePreemptedAndRestored : Obligations.UnitsArePreemptedAndRestored := by
  unfold Obligations.UnitsArePreemptedAndRestored
  intro s c cmd id kind pk kid k p bad
  exact ⟨fun h => ⟨fun hk => (preempt_partition h hk).trans (apply_ite ..),
      fun hk => (preempt_kernel h hk).trans (apply_ite ..), fun hk => (preempt_job h hk).trans (apply_ite ..),
      fun hk => (resume_partition h hk).trans (apply_ite ..), fun hk => (resume_kernel h hk).trans (apply_ite ..),
      fun hk => (resume_job h hk).trans (apply_ite ..), fun hk => ⟨preempt_badArg h hk, resume_badArg h hk⟩⟩,
    partitionPreemption_notHeld,
    fun hhost hgoes hnot => ⟨partitionPreemption_loading hhost hgoes hnot, fun hst hspan =>
      ⟨partitionPreemption_freezes hhost hgoes hnot hst hspan, partitionPreemption_stops hhost hgoes hnot hst hspan⟩⟩,
    kernelPreemption_held, kernelPreemption_notHeld, preemptSaveDone_kernel, preemptSaveDone_partition,
    partitionRestore_kept, ⟨_, rfl⟩, fun l n hb => partitionRestore_queued hb, fun l at_ => kernelRestore_queued,
    fun h => ⟨fun hb => partitionRestore_noLaunch hb h, kernelRestore_noLaunch h⟩⟩

end Sys2Proof.Preemption
end

section
/-! PROOF. Every arm of `exec` answers a next state (05 R133; 10 R282). An instruction answers through the form that it shares
with others (`unrecorded`, `recordable`, `issued`, ...), each treated once; an event is a case distinction whose every branch is
a next state. -/

namespace Sys2Proof.ExecAnswers

open Sys2Proof
open Sys2Proof.Machine

/-- An outcome that is a next state. -/
def Answers (o : Out) : Prop := ∃ t, o = .next t

theorem answers_next (t : State) : Answers (.next t) := ⟨t, rfl⟩

theorem answers_ite {c : Prop} [Decidable c] {a b : Out} (ha : Answers a) (hb : Answers b) : Answers (if c then a else b) := by
  split <;> assumption

/-! ## The forms that instructions share -/

theorem unrecorded_answers (f : State → Except State State) (s : State) : Answers (unrecorded f s) := by
  unfold unrecorded
  split <;> exact answers_next _

theorem recordable_answers (i : Instr) (f : State → State) (s : State) : Answers (recordable i f s) := by
  unfold recordable
  split <;> exact answers_next _

theorem issued_answers (i : Instr) (len : Nat) (f : State → State) (s : State) : Answers (issued i len f s) :=
  answers_ite (answers_ite (answers_next _) (answers_next _)) (answers_next _)

theorem issuedFrom_answers (i : Instr) (len : Nat) (src : State → List (Nat × Nat)) (f : State → State) (s : State) :
    Answers (issuedFrom i len src f s) :=
  answers_ite (answers_next _) (issued_answers ..)

theorem issuedControl_answers (len : Nat) (f : State → Stream → Stream) (s : State) : Answers (issuedControl len f s) :=
  answers_ite (answers_ite (answers_next _) (answers_next _)) (answers_next _)

theorem hbmStore_answers (s : State) (i : Instr) (acum : Option Nat) (kt kv : BitVec 4) (n16 : BitVec 14) :
    Answers (s.hbmStore i acum kt kv n16) := by
  unfold State.hbmStore
  split
  · exact issuedFrom_answers ..
  · exact answers_next _

/-! ## Instructions with cases of their own -/

theorem arc_answers (d a : BitVec 5) (s : State) : Answers (execArc d a s) := by
  unfold execArc
  split
  · exact answers_next _
  · refine answers_ite (answers_next _) ?_
    split
    · exact answers_next _
    · refine answers_ite (answers_next _) ?_
      split <;> exact answers_next _

theorem hld_answers (kt kv : BitVec 4) (n16 : BitVec 14) (s : State) : Answers (execHld kt kv n16 s) := by
  unfold execHld
  split
  · exact issued_answers ..
  · exact answers_next _

theorem tld_answers (kt kv : BitVec 4) (n16 : BitVec 14) (vchk : BitVec 1) (s : State) :
    Answers (execTld kt kv n16 vchk s) := by
  unfold execTld
  split
  · exact issued_answers ..
  · exact answers_next _

/-! ## Events whose cases lie in cases -/

theorem kernelRestore_answers (s : State) : Answers (execKernelRestore s) := by
  unfold execKernelRestore
  dsimp only
  split
  · exact answers_next _
  · split
    · exact answers_next _
    · exact answers_ite (answers_next _) (answers_next _)

theorem partitionRestore_answers (s : State) : Answers (execPartitionRestore s) := by
  unfold execPartitionRestore
  refine answers_ite (answers_next _) ?_
  split
  · exact answers_next _
  · split
    · exact answers_next _
    · exact answers_ite (answers_next _) (answers_next _)

theorem qscQuietCheck_answers (s : State) : Answers (execQscQuietCheck s) := by
  unfold execQscQuietCheck
  dsimp only
  split
  · exact answers_next _
  · exact answers_ite (answers_next _) (answers_ite (answers_next _) (answers_ite (answers_next _) (answers_next _)))
  · exact answers_next _

theorem sidebandBar_answers (s : State) : Answers (execSidebandBar s) := by
  unfold execSidebandBar
  refine answers_ite (answers_next _) ?_
  split <;> exact answers_ite (answers_next _) (answers_next _)

theorem hang_answers (s : State) : Answers (execHang s) := by
  unfold execHang
  refine answers_ite (answers_ite (answers_next _) (answers_next _)) ?_
  split
  · exact answers_next _
  · exact answers_ite (answers_next _) (answers_next _)

theorem timestamp_answers (s : State) : Answers (execTimestamp s) := by
  unfold execTimestamp
  refine answers_ite (answers_next _) (answers_ite ?_ (answers_next _))
  split <;> exact answers_next _

theorem meshFlitArrival_answers (s : State) : Answers (execMeshFlitArrival s) := by
  unfold execMeshFlitArrival
  refine answers_ite ?_ ?_
  · dsimp only
    split
    · exact answers_ite (answers_next _) (answers_next _)
    · exact answers_next _
  · split
    · exact answers_ite (answers_next _) (answers_next _)
    · exact answers_next _

/-! ## Every arm -/

theorem exec_answers (i : Instr) (s : State) : Answers (exec i s) := by
  cases i
  case add | sub | addi | mul | mulh | mulhu | div | divu | rem | remu | andR | orR | xorR | andn | lea | andi | ori |
    xori | shl | shr | sar | rot | shli | shri | sari | roti | clz | ctz | popc | brev | bswp | bext | bins | min | max |
    minu | maxu | lih =>
    simp only [exec, execAdd, execSub, execAddi, execMul, execMulh, execMulhu, execDiv, execDivu, execRem, execRemu, execAndR,
      execOrR, execXorR, execAndn, execLea, execAndi, execOri, execXori, execShl, execShr, execSar, execRot, execShli,
      execShri, execSari, execRoti, execClz, execCtz, execPopc, execBrev, execBswp, execBext, execBins, execMin, execMax,
      execMinu, execMaxu, execLih, intExec, recordable_answers]
  case sk | ski =>
    simp only [exec, execSk, execSki, recordable_answers]
  case fsk | br | jr | call | callr | ret | dbnz | ld | st | ldx | stx | ldc | prf | ldf | ste | ldp | stf | fec | amo |
    cas | arb | fence | bfence | fadd | fsub | fmul | fdiv | fsqrt | fma | fms | fnma | fmin | fmax | fcvt | fcls | fsgn |
    frnd | vadd | vsub | vmul | vfma | vdiv | vmin | vmax | vlog | vshf | vcmp | vsel | vred | vld | vst | vgth | vsct |
    vbrd | vext | vprm | vcvt | send | recv | rpc | rply | htw | spwn | quit | bar | qsc | wft | cps | cpl | cpq | hwt |
    hrl | uls | ulr | rst | rinc | post | wwt | vpub | vqry | bcmd | rng | gmb | alc | fre | trap | eret | syr | syw |
    tlbi | tlbiAll | migr | time | timeRot | brk =>
    simp only [exec, execFsk, execBr, execJr, execCall, execCallr, execRet, execDbnz, execLd, execSt, execLdx, execStx,
      execLdc, execPrf, execLdf, execSte, execLdp, execStf, execFec, execAmo, execCas, execArb, execFence, execBfence,
      execFadd, execFsub, execFmul, execFdiv, execFsqrt, execFma, execFms, execFnma, execFmin, execFmax, execFcvt, execFcls,
      execFsgn, execFrnd, execVadd, execVsub, execVmul, execVfma, execVdiv, execVmin, execVmax, execVlog, execVshf, execVcmp,
      execVsel, execVred, execVld, execVst, execVgth, execVsct, execVbrd, execVext, execVprm, execVcvt, execSend, execRecv,
      execRpc, execRply, execHtw, execSpwn, execQuit, execBar, execQsc, execWft, execCps, execCpl, execCpq, execHwt, execHrl,
      execUls, execUlr, execRst, execRinc, execPost, execWwt, execVpub, execVqry, execBcmd, execRng, execGmb, execAlc,
      execFre, execTrap, execEret, execSyr, execSyw, execTlbi, execTlbiAll, execMigr, execTime, execTimeRot, execBrk,
      unrecorded_answers]
  case nop | dly | wut | tkp | kli | kliHi | kliAdd | kliMul | kop | lkr | lka | win | wcl | prd | vlt | fmt | acz | var |
    vsy | vrd | vtr | vcm | vsl =>
    simp only [exec, execNop, execDly, execWut, execTkp, execKli, execKliHi, execKliAdd, execKliMul, execKop, execLkr,
      execLka, execWin, execWcl, execPrd, execVlt, execFmt, execAcz, execVar, execVsy, execVrd, execVtr, execVcm, execVsl,
      issued_answers]
  case lks | scp | qnt | dqn | cvt | trn | pak | srs | wld | mma | acr | vly =>
    simp only [exec, execLks, execScp, execQnt, execDqn, execCvt, execTrn, execPak, execSrs, execWld, execMma, execAcr,
      execVly, issuedFrom_answers]
  case blk | brc | endT =>
    simp only [exec, execBlk, execBrc, execEndT, issuedControl_answers]
  case hst | hac =>
    simp only [exec, execHst, execHac, hbmStore_answers]
  case arc =>
    exact arc_answers ..
  case hld =>
    exact hld_answers ..
  case tld =>
    exact tld_answers ..
  case tkw =>
    exact answers_ite (answers_next _) (issued_answers ..)
  case jobOpen | jobClose | map | peer | schedLoad | klaunch | preempt | resume | seed | vintage | query | attest | debug
    | log | fwload | start | power =>
    exact answers_next _
  case arl | ars | launchPort | counterFeedWrite | counterTotalWrite | ullageCountReport | storeBufferDrain | rlcEviction
    | movedReissue | rmaWrite | rmaRead | fetchAdd | nonFetchingAtomicAdd | throttleInterval | sramScrub |
    thermalFloorRelease =>
    exact answers_next _
  case commandThread =>
    exact answers_ite (answers_next _) (answers_ite (answers_next _) (answers_ite (answers_next _)
      (answers_ite (answers_next _) (answers_next _))))
  case ahqctlEnable | alccfgWrite | alertBackOff | checkPoint | clockPhaseStep | corr | deadlineMiss | ethernetPortDown |
    frameReceive | freezeEnd | hbmFallbackRate | hbmRetrainingEnd | heldRecordDelivery | kernelComplete | kernelPreemption
    | link | linkmgt | marginPlan | neighbourDiscovery | podDissolve | podForm | powerSample | quantumEnd | retentionEntry
    | scheduleStart | securityFault | sidebandReserved | slipTimeout | thermalFloor | thermalTrip | windowClose |
    windowFill | windowSpill =>
    exact answers_ite (answers_next _) (answers_next _)
  case ethernetPortTraining | freezeTakesEffect | hbmRetrainRequest | marginMonitorLow | partitionPreemption |
    ptpEventMessage | railEnable | reset | tendrilTraining =>
    exact answers_ite (answers_next _) (answers_ite (answers_next _) (answers_next _))
  case patrolScrub | ptimeCorrectionStep | scheduleEnd | throttleStep =>
    exact answers_ite (answers_next _) (answers_ite (answers_next _) (answers_ite (answers_next _) (answers_next _)))
  case preemptSaveDone =>
    exact answers_ite (answers_ite (answers_next _) (answers_next _)) (answers_ite (answers_next _) (answers_next _))
  case corePowerGate | pctlAbort | registerWrite | coreClockGate | copyTransferStart | copyTransferComplete | wftRelease |
    remoteAck | retransmissionLimit | sidebandFreeze | bcast | debugExpiry | postArrival | negativeAcknowledgement |
    migrationEnd | bauCommand | gatedRequestService | pageWalk | hbmGranuleLanding | sidebandResume =>
    dsimp only [exec, execCorePowerGate, execPctlAbort, execRegisterWrite, execCoreClockGate, execCopyTransferStart,
      execCopyTransferComplete, execWftRelease, execRemoteAck, execRetransmissionLimit, execSidebandFreeze, execBcast,
      execDebugExpiry, execPostArrival, execNegativeAcknowledgement, execMigrationEnd, execBauCommand,
      execGatedRequestService, execPageWalk, execHbmGranuleLanding, execSidebandResume]
    split <;> exact answers_next _
  case deadlinePreemption | rplyDelivery | spawnService | barrierEpisodeComplete | pdcIdleClose | sidebandFault |
    startSequence | retrainDeferExpiry =>
    dsimp only [exec, execDeadlinePreemption, execRplyDelivery, execSpawnService, execBarrierEpisodeComplete,
      execPdcIdleClose, execSidebandFault, execStartSequence, execRetrainDeferExpiry]
    split
    · exact answers_next _
    · exact answers_ite (answers_next _) (answers_next _)
  case timestampExchange | windowOpen =>
    dsimp only [exec, execTimestampExchange, execWindowOpen]
    split
    · exact answers_ite (answers_next _) (answers_next _)
    · exact answers_next _
  case launchAccept | ullageLaunch | messageDelivery =>
    dsimp only [exec, execLaunchAccept, execUllageLaunch, execMessageDelivery]
    split
    · exact answers_next _
    · refine answers_ite (answers_next _) ?_
      split <;> exact answers_next _
  case commandCompletion | pctlContinue =>
    dsimp only [exec, execCommandCompletion, execPctlContinue]
    split
    · exact answers_next _
    · exact answers_ite (answers_next _) (answers_ite (answers_next _) (answers_next _))
  case kernelRestore =>
    exact kernelRestore_answers s
  case partitionRestore =>
    exact partitionRestore_answers s
  case qscQuietCheck =>
    exact qscQuietCheck_answers s
  case sidebandBar =>
    exact sidebandBar_answers s
  case hang =>
    exact hang_answers s
  case timestamp =>
    exact timestamp_answers s
  case meshFlitArrival =>
    exact meshFlitArrival_answers s

/-- Settles O60: each arm by the form that it shares with others, or by its own cases. -/
theorem execAnswersANextState : Obligations.ExecAnswersANextState := exec_answers

end Sys2Proof.ExecAnswers
end

section
/-! PROOF. What the acquires, departures, digest points, traps and gates of one thread leave of the others and of the state (05 R133,
R134; 06 R149; 07 R187, R203; 10 R282, R289, R301): the rules that the statements on threads are proved from. What is kept is that
of `Kept`: all but memory and its bookkeeping, the cores, the faults deferred to threads and the scopes of their accesses. -/

namespace Sys2Proof.Becoming

open Sys2Proof
open Sys2Proof.Machine
open Sys2Proof.Kept

section
variable {s r : State}

/-! ## An instruction that may not be recorded, while nothing is being recorded (12 R365) -/

theorem unrecorded_performs (hp : s.performs) (f : State → Except State State) :
    unrecorded f s = .next (ended (f s)) := by
  simp only [unrecorded, hp]

theorem ended_ok (t : State) : ended (.ok t) = t := rfl

/-! ## One thread changed -/

/-- `r` is `s` with `y` as thread `t`, but for what is not kept. -/
structure Becomes (s r : State) (t : Nat) (y : Thread) : Prop where
  rest : outside r = outside s
  thread : bare (r.thread t) = bare y
  others : ∀ u, u ≠ t → bare (r.thread u) = bare (s.thread u)

theorem becomes_of_kept (h : kept r = kept s) (t : Nat) : Becomes s r t (s.thread t) :=
  ⟨outside_of_kept h, congrFun (congrArg Prod.snd h) t, fun u _ => congrFun (congrArg Prod.snd h) u⟩

theorem Becomes.setThread {t : Nat} {y : Thread} (h : Becomes s r t y) {x z : Thread} (hx : bare x = bare z) :
    Becomes s (r.setThread t x) t z :=
  ⟨h.rest, (congrArg bare (State.thread_setThread_same r t x)).trans hx,
    fun u hu => (congrArg bare (State.thread_setThread_other r hu x)).trans (h.others u hu)⟩

theorem Becomes.withCur {t : Nat} {y : Thread} (h : Becomes { s with cur := t } r t y) :
    Becomes s { r with cur := s.cur } t y :=
  ⟨congrArg (fun w : State => { w with cur := s.cur }) h.rest, h.thread, h.others⟩

section
variable {t : Nat} {y : Thread} (h : Becomes s r t y)
include h

theorem Becomes.job (j : Nat) : r.job j = s.job j :=
  congrArg (Store.get Job.init j) (congrArg State.jobs h.rest :)
theorem Becomes.cur : r.cur = s.cur := (congrArg State.cur h.rest :)
theorem Becomes.spawns : r.spawns = s.spawns := (congrArg State.spawns h.rest :)
theorem Becomes.episodes : r.episodes = s.episodes := (congrArg State.episodes h.rest :)
theorem Becomes.pc : (r.thread t).pc = y.pc := (congrArg Thread.pc h.thread :)
theorem Becomes.park : (r.thread t).park = y.park := (congrArg Thread.park h.thread :)

end

/-! ## Acquires (07 R187, R190) -/

/-- A thread whose later writes carry an acquire's scope on. -/
def carrying (x : Thread) (sc : Scope) : Thread := { x with carry := Scope.max x.carry sc }

theorem acquire_becomes (sc : Scope) : Becomes s (s.acquire sc) s.cur (carrying s.th sc) := by
  have hflush : kept (if sc.atLeast .die then (s.flushRlc (coreOf s.cur)).invalidateRlc (coreOf s.cur) else s) = kept s := by
    split
    · exact foldl_same kept (fun w (l : Line) => w.flushLine (coreOf s.cur) l.num) (fun _ _ => kept_flushWords ..) _ _
    · rfl
  unfold State.acquire
  generalize (if sc.atLeast .die then (s.flushRlc (coreOf s.cur)).invalidateRlc (coreOf s.cur) else s) = s1 at hflush ⊢
  dsimp only
  rw [State.setTh, cur_of_kept hflush]
  exact (becomes_of_kept hflush s.cur).setThread (congrArg (carrying · sc) (th_of_kept hflush))

theorem acquireFor_becomes (t : Nat) (sc : Scope) : Becomes s (s.acquireFor t sc) t (carrying (s.thread t) sc) :=
  (acquire_becomes (s := { s with cur := t }) sc).withCur

/-! ## Gates of a job in free mode (07 R203) -/

section
variable {j : Nat} (h : (s.job j).gmode = 0)
include h

theorem gateServed_free (g tid : Nat) : s.gateServed j g tid = s := by
  simp only [State.gateServed, h]

theorem gateAllows_free (g tid : Nat) : s.gateAllows j g tid = true := by
  simp only [State.gateAllows, h]
  rfl

end

/-! ## Records and traps (05 R133, R134; 10 R282) -/

theorem deliverHeld_threads (j : Nat) : (s.deliverHeld j).threads = s.threads := by
  unfold State.deliverHeld
  split
  · rfl
  · rfl
  · next t _ _ => exact foldl_same State.threads (fun w b => w.postRecord j t b) (fun _ _ => rfl) _ _

theorem sendRecord_threads (j : Nat) (b : List Byte) : (s.sendRecord j b).threads = s.threads := by
  unfold State.sendRecord
  split
  · exact deliverHeld_threads j
  · split <;> rfl

theorem gmode_setJob {j : Nat} {x : Job} (h : x.gmode = (s.job j).gmode) (i : Nat) :
    ((s.setJob j x).job i).gmode = (s.job i).gmode := by
  by_cases hi : i = j
  · rw [hi, State.job_setJob_same, h]
  · rw [State.job_setJob_other s hi]

theorem deliverHeld_gmode (j i : Nat) : ((s.deliverHeld j).job i).gmode = (s.job i).gmode := by
  unfold State.deliverHeld
  split
  · rfl
  · rfl
  · next t _ _ =>
    refine (foldl_same (fun w : State => (w.job i).gmode) (fun w b => w.postRecord j t b) (fun _ _ => rfl) _ _).trans ?_
    exact gmode_setJob (by rfl) i

theorem sendRecord_gmode (j : Nat) (b : List Byte) (i : Nat) : ((s.sendRecord j b).job i).gmode = (s.job i).gmode := by
  unfold State.sendRecord
  split
  · exact deliverHeld_gmode j i
  · split <;> exact gmode_setJob (by rfl) i

theorem trapFrom_gmode (t cause : Nat) (eval epc loc : Word) (i : Nat) :
    ((s.trapFrom t cause eval epc loc).job i).gmode = (s.job i).gmode := by
  unfold State.trapFrom
  dsimp only
  split
  · exact sendRecord_gmode ..
  · rfl

theorem trapFrom_thread_other {t u : Nat} (hu : u ≠ t) (cause : Nat) (eval epc loc : Word) :
    (s.trapFrom t cause eval epc loc).thread u = s.thread u := by
  unfold State.trapFrom
  dsimp only
  split
  · exact (congrArg (Store.get Thread.init u) (sendRecord_threads _ _)).trans (State.thread_setThread_other s hu _)
  · exact State.thread_setThread_other s hu _

/-! ## Digest points (10 R301; 17 R486) -/

/-- The threads, and the one that executes. -/
def running (s : State) : Store Thread × Nat := (s.threads, s.cur)

theorem noteWritten_running (pa n : Nat) : running (s.noteWritten pa n) = running s := by
  unfold State.noteWritten
  split
  · dsimp only
    split <;> rfl
  · rfl

theorem putSound_running (pa : Nat) (b : List Byte) : running (s.putSound pa b) = running s := by
  refine foldl_same running _ (fun w p => ?_) _ _
  split <;> rfl

theorem performQuiet_running (pa : Nat) (b : List Byte) (w : WTag) : running (s.performQuiet pa b w) = running s := by
  refine (noteWritten_running pa b.length).trans ?_
  show running (if s.partialUe pa b.length = true then s.putSound pa b else s.putMem pa b) = running s
  split
  · exact putSound_running pa b
  · rfl

theorem nudge_running (g : Nat) : running (s.nudge g) = running s := by
  unfold State.nudge
  split <;> rfl

theorem viewStore_running (pa : Nat) (b : List Byte) : running (s.viewStore pa b) = running s := by
  refine (nudge_running _).trans (foldl_same running _ (fun w p => ?_) _ _)
  split <;> rfl

theorem writePieces_running (w : WTag) (ps : List (Nat × Nat)) (b : List Byte) :
    running (s.writePieces w true ps b) = running s := by
  induction ps generalizing s b with
  | nil => rfl
  | cons p ps ih =>
    refine (ih _).trans ?_
    split
    · exact viewStore_running ..
    · exact performQuiet_running ..

theorem running_of_writeVa {j va : Nat} {lvl : Level} {b : List Byte} {w : WTag} {tlb : List Leaf}
    (h : s.writeVa j lvl va b w true tlb = .ok r) : running r = running s := by
  unfold State.writeVa at h
  split at h
  · cases h
  · split at h
    · cases h
    · cases h
      exact writePieces_running ..

theorem digestPoint_free (h : (s.job s.th.job).gmode = 0) : s.digestPoint = .ok s := by
  simp only [State.digestPoint, h]
  rfl

/-- A digest point that is passed leaves every thread alone. -/
theorem running_of_digestPoint (h : s.digestPoint = .ok r) : running r = running s := by
  unfold State.digestPoint at h
  dsimp only at h
  split at h
  · split at h
    · cases h; rfl
    · split at h
      · cases h; rfl
      · split at h
        · cases h; rfl
        · next hw =>
          split at h
          · cases h; rfl
          · next hw2 => cases h; exact (running_of_writeVa hw2).trans (running_of_writeVa hw)
  · split at h
    · split at h
      · split at h
        · cases h
        · split at h <;> cases h
          rfl
      · cases h
    · cases h; rfl

/-- A digest point at which the thread traps leaves every other thread alone. -/
theorem digestPoint_error_other (h : s.digestPoint = .error r) {u : Nat} (hu : u ≠ s.cur) : r.thread u = s.thread u := by
  unfold State.digestPoint at h
  dsimp only at h
  split at h
  · split at h
    · cases h
    · split at h
      · cases h
      · split at h
        · cases h
        · split at h <;> cases h
  · split at h
    · split at h
      · split at h
        · cases h; exact trapFrom_thread_other hu ..
        · split at h <;> cases h
          exact trapFrom_thread_other hu ..
      · cases h; exact trapFrom_thread_other hu ..
    · cases h

/-! ## Departures (10 R289, R301) -/

theorem depart_becomes {t : Nat} (hlive : (s.thread t).live = true) (hfree : (s.job (s.thread t).job).gmode = 0) (sc : Scope) :
    Becomes s (s.depart t sc) t ((carrying (s.thread t) sc).go ((s.thread t).pc + 4) 1) := by
  have hdigest : ({ s with cur := t } : State).digestPoint = .ok { s with cur := t } := digestPoint_free hfree
  have hacq := acquire_becomes (s := { s with cur := t }) sc
  have hdepart : s.depart t sc = { (({ s with cur := t } : State).acquire sc).retire with cur := s.cur } := by
    unfold State.depart
    dsimp only
    rw [hdigest]
    exact if_pos hlive
  rw [hdepart]
  refine Becomes.withCur ?_
  rw [State.retire, State.retireTo, State.setTh, State.th, hacq.cur, hacq.pc]
  exact hacq.setThread (congrArg (fun x : Thread => x.go ((s.thread t).pc + 4) 1) hacq.thread)

/-- A departure leaves every other thread as it was, whatever the mode of its job. -/
theorem depart_other {t u : Nat} (hu : u ≠ t) (sc : Scope) : bare ((s.depart t sc).thread u) = bare (s.thread u) := by
  unfold State.depart
  dsimp only
  split
  · split
    · next e herr => exact congrArg bare (digestPoint_error_other (s := { s with cur := t }) herr hu)
    · next s1 hok =>
      have hrun := running_of_digestPoint hok
      have hcur : s1.cur = t := (congrArg Prod.snd hrun :)
      have hthr : s1.thread u = s.thread u := congrArg (Store.get Thread.init u) (congrArg Prod.fst hrun :)
      have hacq := acquire_becomes (s := s1) sc
      rw [← hthr]
      refine Eq.trans ?_ (hacq.others u (hcur ▸ hu))
      refine congrArg bare (State.thread_setTh_other (s1.acquire sc) ?_ _)
      rw [hacq.cur, hcur]
      exact hu
  · rfl

/-! ## A remote line cache with no dirty word (06 R149) -/

/-- No line of a core's remote line cache has a dirty word. -/
def Clean (s : State) (c : Nat) : Prop := ∀ l ∈ (s.core c).rlc, l.dirty = 0

theorem flushGranule_clean {l : Line} (h : l.dirty = 0) (g : Nat) : s.flushGranule l g = s := by
  have hword : ∀ (w : State) i, w.flushWord l i = w := fun w i => if_pos (by rw [h]; exact BitVec.zero_and)
  have hpart : ((List.range 4).map (4 * g + ·)).all (fun i => l.dirty &&& wordBit i != 0) = false := by
    rw [h, List.all_eq_false]
    exact ⟨4 * g, List.mem_map.2 ⟨0, by decide, rfl⟩, by simp⟩
  unfold State.flushGranule
  simp only [hpart, Bool.false_and, Bool.false_eq_true, if_false]
  exact foldl_same id _ hword _ _

/-- `r` is `s` but for its cores, and the core's remote line cache has no dirty word. -/
def CleanFrom (s : State) (c : Nat) (r : State) : Prop := (∃ cs, r = { s with cores := cs }) ∧ Clean r c

theorem flushWords_clean {c : Nat} (h : CleanFrom s c r) (num : Nat) (mask : BitVec 16) :
    CleanFrom s c (r.flushWords c num mask) := by
  obtain ⟨⟨cs, hr⟩, hclean⟩ := h
  unfold State.flushWords
  split
  · exact ⟨⟨cs, hr⟩, hclean⟩
  · next l hl =>
    have hl0 : l.dirty = 0 := hclean l (List.mem_of_find?_eq_some hl)
    have hflush : (List.range 4).foldl (fun (w : State) g => w.flushGranule { l with dirty := l.dirty &&& mask } g) r = r :=
      foldl_same id _ (fun w g => flushGranule_clean (by rw [hl0]; exact BitVec.zero_and) g) _ _
    rw [hflush]
    refine ⟨⟨_, by rw [hr]; rfl⟩, fun m hm => ?_⟩
    rw [State.core_setCore_same] at hm
    rcases List.mem_cons.1 hm with rfl | hm
    · rw [hl0]; exact BitVec.zero_and
    · exact hclean m (List.mem_filter.1 hm).1

/-- Writing a remote line cache with no dirty word through changes the cores alone. -/
theorem writeThrough_clean (h : Clean s (coreOf s.cur)) (sc : Scope) : ∃ cs, s.writeThrough sc = { s with cores := cs } := by
  have hrefl : CleanFrom s (coreOf s.cur) s := ⟨⟨s.cores, rfl⟩, h⟩
  unfold State.writeThrough
  split
  · exact (foldl_keeps (CleanFrom s (coreOf s.cur)) (fun w (l : Line) => w.flushLine (coreOf s.cur) l.num)
      (fun _ _ hw => flushWords_clean hw _ _) _ s hrefl).1
  · exact hrefl.1

end
end Sys2Proof.Becoming
end

section
/-! PROOF. Deadlines, faulted partitions, hangs and gating (05 R121, R131, R132, R135, R136): each event by its own cases. -/

namespace Sys2Proof.Deadlines

open Sys2Proof
open Sys2Proof.Machine

section
variable {s : State}

/-! ## Deadlines (05 R121) -/

theorem deadlineMiss_comes (hopen : (s.job s.arg.n).st ≠ .closed) (hcls : (s.job s.arg.n).cls = 0)
    (hnew : (s.job s.arg.n).missed = false) (hdue : (s.job s.arg.n).deadline.toNat ≤ s.pkg.clock.ptime.toNat) :
    exec .deadlineMiss s =
      let r := s.setJob s.arg.n { s.job s.arg.n with missed := true }
      .next (if (s.job s.arg.n).started = true ∧ ¬ (s.partsOf s.arg.n = [] ∧ s.kernelsOf s.arg.n = [])
        then r.logEvent .deadlineMiss s.arg.n 1 else r) := by
  show execDeadlineMiss s = _
  unfold execDeadlineMiss
  refine (if_pos ⟨hopen, hcls, by simp only [hnew, Bool.not_false], hdue⟩).trans ?_
  simp only [Bool.and_eq_true, Bool.not_eq_true', Bool.and_eq_false_iff, List.isEmpty_eq_false_iff, ne_eq, not_and_or]

theorem deadlineMiss_not (h : (s.job s.arg.n).cls ≠ 0 ∨ (s.job s.arg.n).missed = true ∨
      s.pkg.clock.ptime.toNat < (s.job s.arg.n).deadline.toNat) :
    exec .deadlineMiss s = .next s := by
  refine if_neg ?_
  rintro ⟨-, hcls, hnew, hdue⟩
  rcases h with h | h | h
  · exact h hcls
  · simp only [h, Bool.not_true, Bool.false_eq_true] at hnew
  · exact absurd hdue (Nat.not_le.2 h)

theorem deadlinePreemption_noHead (h : s.headOf 0 = none) : exec .deadlinePreemption s = .next s := by
  show execDeadlinePreemption s = _
  simp only [execDeadlinePreemption, h]

theorem deadlinePreemption_head {l : Launch} (hhead : s.headOf 0 = some l) (hjob : l.job = s.arg.n)
    (hres : l.resumes = none) (hturn : s.considered l = true) (hlacks : s.lacksFor l = true) :
    exec .deadlinePreemption s =
      let x := s.job s.arg.n
      let v := State.choose l (s.candidates [3, 2, 1]) s
      .next (if x.started = true ∨
          x.deadline.toNat ≤ s.pkg.clock.ptime.toNat + x.wcrt.toNat + s.saveEstimate l v.1 v.2 + deadlineGuard
        then v.1.foldl State.holdFor s else s) := by
  show execDeadlinePreemption s = _
  simp only [execDeadlinePreemption, hhead, hjob, hres, hturn, hlacks, ne_eq, not_true_eq_false, Option.isSome_none,
    Bool.not_true, Bool.false_eq_true, or_self, if_false]
  rfl

/-! ## Faulted partitions (05 R135, R136) -/

theorem pctl_noPartition (h : s.partNo s.arg.n = none) :
    exec .pctlContinue s = .next s ∧ exec .pctlAbort s = .next s := by
  show execPctlContinue s = _ ∧ execPctlAbort s = _
  simp only [execPctlContinue, execPctlAbort, h, and_self]

section
variable {pk : Nat} (h : s.partNo s.arg.n = some pk)
include h

theorem pctlAbort_ends :
    exec .pctlAbort s = .next (s.endPartition pk 7 (resultAt 20 (bytesOf 1 (s.part pk).lastFault) noResult)) := by
  show execPctlAbort s = _
  simp only [execPctlAbort, h, stBadState]

theorem pctlContinue_notFaulted (hst : (s.part pk).st ≠ .faulted) : exec .pctlContinue s = .next s := by
  show execPctlContinue s = _
  simp only [execPctlContinue, h]
  exact if_pos (.inl hst)

theorem pctlContinue_goesOn (hst : (s.part pk).st = .faulted) (hstuck : (s.part pk).stuck = false)
    (hnone : ((s.checkAgain pk).part pk).faults.filter (fun f => decide (f.cyc = ((s.checkAgain pk).part pk).scyc)) = []) :
    exec .pctlContinue s = .next ((s.checkAgain pk).goOn pk) := by
  show execPctlContinue s = _
  have hgoes : ¬ ((s.part pk).st ≠ .faulted ∨ (s.part pk).stuck = true) := by simp only [hst, hstuck]; decide
  simp only [execPctlContinue, h]
  rw [if_neg hgoes, hnone]
  rfl

end

/-! ## Hangs (05 R132) -/

theorem hang_notFrozen (hb : s.arg.b = true) (hfrozen : (s.part s.arg.n).frozen = false) : exec .hang s = .next s := by
  refine (if_pos hb).trans (if_neg ?_)
  rintro ⟨h, -⟩
  exact absurd h (by rw [hfrozen]; decide)

theorem hang_frozen (hb : s.arg.b = true) (hfrozen : (s.part s.arg.n).frozen = true)
    (hst : (s.part s.arg.n).st ≠ .preempted) (hdue : s.hangDue (s.part s.arg.n).frozenAt = true) :
    exec .hang s = .next (s.drawn.sendRecord (s.part s.arg.n).job (recordBytes 0x11 1 (s.part s.arg.n).job
      ((s.part s.arg.n).num.getD 0) s.pkg.clock.ptime s.freeVal (BitVec.ofInt 64 (s.part s.arg.n).scyc) 0xFFFF 0xFF
      (List.replicate 4 0 ++ bytesOf 4 (s.part s.arg.n).launch))) :=
  (if_pos hb).trans (if_pos ⟨hfrozen, hst, hdue⟩)

theorem hang_notBlocked (hb : s.arg.b = false) (h : (s.core s.arg.n).blockedSince = none) : exec .hang s = .next s := by
  show execHang s = _
  simp only [execHang, hb, Bool.false_eq_true, if_false, h]

/-! ## Gating (05 R131) -/

theorem coreClockGate_blocked {t : Nat} (hrun : (s.core s.arg.n).gating = .running)
    (hblocked : (s.core s.arg.n).blockedSince = some t) :
    exec .coreClockGate s = .next (if t + gateAfter ≤ s.cyc
      then s.setCore s.arg.n { s.core s.arg.n with gating := .clockGated s.cyc } else s) := by
  show execCoreClockGate s = _
  simp only [execCoreClockGate, hrun, hblocked]

theorem corePowerGate_gated {t : Nat} (hgated : (s.core s.arg.n).gating = .clockGated t) :
    exec .corePowerGate s = .next (if t + cyclesPerMs ≤ s.cyc
      then s.setCore s.arg.n { s.core s.arg.n with gating := .powerGated } else s) := by
  show execCorePowerGate s = _
  simp only [execCorePowerGate, hgated]

end

/-! ## The obligation -/

/-- Settles O43: each event's cases by their own lemmas; what lets a partition go on is `goOn` of the state checked again. -/
theorem deadlinesHangsAndGating : Obligations.DeadlinesHangsAndGating := by
  unfold Obligations.DeadlinesHangsAndGating
  intro s n x k
  refine ⟨fun hopen hcls hnew hdue => ?_, deadlineMiss_not, deadlinePreemption_noHead,
    fun l hhead hjob hres hturn hlacks => ?_, pctl_noPartition,
    fun pk h => ⟨pctlAbort_ends h, pctlContinue_notFaulted h, pctlContinue_goesOn h⟩, hang_notFrozen,
    fun hb hfrozen hst hdue => ⟨_, hang_frozen hb hfrozen hst hdue⟩, hang_notBlocked,
    fun t hrun hblocked => ?_, fun t hgated => ?_⟩
  · rw [deadlineMiss_comes hopen hcls hnew hdue]
    refine ⟨fun hstarted hruns => congrArg _ (if_pos ⟨hstarted, hruns⟩), fun hnot => congrArg _ (if_neg ?_)⟩
    rintro ⟨hstarted, hruns⟩
    exact hnot.elim (fun hns => absurd hstarted (Bool.eq_false_iff.1 hns)) hruns
  · rw [deadlinePreemption_head hhead hjob hres hturn hlacks]
    refine ⟨fun hstarted => congrArg _ (if_pos (.inl hstarted)), fun hns hearly => congrArg _ (if_neg ?_)⟩
    rintro (hstarted | hdue)
    · exact absurd hstarted (Bool.eq_false_iff.1 hns)
    · exact absurd hearly (Nat.not_lt.2 hdue)
  · rw [coreClockGate_blocked hrun hblocked]
    exact ⟨fun h => congrArg _ (if_pos h), fun h => congrArg _ (if_neg (Nat.not_le.2 h))⟩
  · rw [corePowerGate_gated hgated]
    exact ⟨fun h => congrArg _ (if_pos h), fun h => congrArg _ (if_neg (Nat.not_le.2 h))⟩

end Sys2Proof.Deadlines
end

section
/-! PROOF. POST, WWT, VPUB and VQRY (05 R125; 06 R164 to R166; 09 R253, R254, R258; 13 R407 to R410): each by the checks that it
makes in turn. -/

namespace Sys2Proof.PostsAndVintages

open Sys2Proof
open Sys2Proof.Machine
open Sys2Proof.Kept
open Sys2Proof.Becoming

section
variable {s r : State}

/-! ## POST (13 R407) -/

theorem postBad_eq_true {w : Nat} : postBad w = true ↔
    2 ^ 26 ≤ w ∨ w / 2 ^ 11 % 4 = 3 ∨ (w / 2 ^ 11 % 4 ≠ 2 ∧ w / 2 ^ 17 % 512 ≠ 0) ∨
      (w / 2 ^ 11 % 4 = 1 ∧ 2 ≤ w / 2 ^ 13 % 16) ∨ (w / 2 ^ 11 % 4 = 2 ∧ w / 2 ^ 13 % 16 ≠ 0) := by
  have hbig : w / 67108864 ≠ 0 ↔ 67108864 ≤ w := by omega
  simp only [postBad, Bool.or_eq_true, Bool.and_eq_true, decide_eq_true_eq, beq_iff_eq, bne_iff_ne, or_assoc]
  simp only [bits, Nat.reduceAdd, Nat.reduceSub, Nat.reducePow, hbig]

/-- The post that an operand and a value ask for, of a partition. -/
def postAsked (s : State) (w : Nat) (v : Word) (k : Nat) : Post :=
  { thr := s.cur, part := k, tiles := if w / 2 ^ 10 % 2 = 1 then (s.part k).tiles else [w % 1024], form := w / 2 ^ 11 % 4,
    sel := w / 2 ^ 13 % 16, idx := w / 2 ^ 17 % 512, value := v }

section
variable (hp : s.performs) {a b : BitVec 5}
include hp

theorem post_bad (hbad : postBad (s.g a).toNat = true) : exec (.post a b) s = .next (s.trap 0x01 (s.g a)) := by
  show execPost a b s = _
  simp only [execPost, unrecorded_performs hp, hbad, if_true]
  rfl

theorem post_nobody (hbad : postBad (s.g a).toNat = false)
    (hnone : s.addressed s.th.job ((s.g a).toNat % 1024) = none) :
    exec (.post a b) s =
      .next (s.trapFree (if s.anyPartition ((s.g a).toNat % 1024) = true then 0x05 else 0x06)) := by
  show execPost a b s = _
  simp only [execPost, unrecorded_performs hp, hbad, hnone, Bool.false_eq_true, if_false]
  rfl

theorem post_asked {k : Nat} (hbad : postBad (s.g a).toNat = false)
    (hk : s.addressed s.th.job ((s.g a).toNat % 1024) = some k) (hrel : s.beforeRelease 0x78 .pkg = .ok r) :
    exec (.post a b) s =
      let q := postAsked s (s.g a).toNat (s.g b) k
      .next (if q.form = 0 ∧ r.beforeStart k = true then r.retire
        else (r.setTh { r.th with park := .post }).performPost q false) := by
  show execPost a b s = _
  simp only [execPost, unrecorded_performs hp, hbad, hk, hrel, postAsked, bits, bit, Nat.reduceAdd, Nat.reduceSub,
    Nat.reducePow, beq_iff_eq, Bool.false_eq_true, if_false, State.parkOn, apply_ite ended, ended_ok]
  congr

/-! ## WWT (13 R408) -/

variable {d : BitVec 5}

theorem wwt_bad (hw : 2 ^ 14 ≤ (s.g a).toNat) : exec (.wwt d a) s = .next (s.trap 0x01 (s.g a)) := by
  have hbig : (s.g a).toNat / 2 ^ 14 ≠ 0 := by omega
  show execWwt d a s = _
  simp only [execWwt, unrecorded_performs hp, if_pos hbig]
  rfl

theorem wwt_nobody (hw : (s.g a).toNat < 2 ^ 14) (hnew : s.th.wwtFor = none)
    (hnone : s.addressed s.th.job ((s.g a).toNat % 1024) = none) : exec (.wwt d a) s = .next (s.trapFree 0x06) := by
  show execWwt d a s = _
  simp only [execWwt, unrecorded_performs hp, Nat.div_eq_of_lt hw, hnew, hnone]
  rfl

theorem wwt_addressed {k : Nat} (hw : (s.g a).toNat < 2 ^ 14) (hnew : s.th.wwtFor = none)
    (hk : s.addressed s.th.job ((s.g a).toNat % 1024) = some k) :
    exec (.wwt d a) s = .next (ended (s.wwtAt d k ((s.g a).toNat % 1024) ((s.g a).toNat / 2 ^ 10 % 16))) := by
  show execWwt d a s = _
  simp only [execWwt, unrecorded_performs hp, Nat.div_eq_of_lt hw, hnew, hk]
  rfl

end

theorem wwtAt_open {d : BitVec 5} {k t wid : Nat} {x : Win}
    (hopen : (s.tileOf k t).wins.find? (fun y => y.defn.wid == wid && y.isOpen) = some x) :
    s.wwtAt d k t wid = .ok ((s.acquire (s.wwtScope k t)).retireG d (x.checkCycle (s.part k).lead)) := by
  simp only [State.wwtAt, hopen]

theorem wwtAt_shut {d : BitVec 5} {k t wid : Nat}
    (hshut : (s.tileOf k t).wins.find? (fun y => y.defn.wid == wid && y.isOpen) = none) :
    s.wwtAt d k t wid = .error (s.setTh { s.th with park := .wwt k }) := by
  simp only [State.wwtAt, hshut, State.parkOn]

/-! ## VQRY and VPUB (13 R409, R410) -/

theorem ownsSet_eq_true {j : Nat} {v : Word} :
    s.ownsSet j v = true ↔ v.toNat < 1024 ∧ (s.vset v.toNat).used = true ∧ (s.vset v.toNat).owner = j := by
  simp only [State.ownsSet, Bool.and_eq_true, decide_eq_true_eq, beq_iff_eq, and_assoc]

theorem vset_of_kept (h : kept r = kept s) (v : Nat) : r.vset v = s.vset v :=
  congrArg (Store.get VSet.init v) (congrArg State.vsets (outside_of_kept h) :)

section
variable (hp : s.performs) {a b d : BitVec 5}
include hp

theorem vqry_foreign (hown : s.ownsSet s.th.job (s.g a) = false) : exec (.vqry d a) s = .next (s.trapFree 0x05) := by
  show execVqry d a s = _
  simp only [execVqry, unrecorded_performs hp, hown, Bool.not_false, if_true]
  rfl

theorem vqry_reads (hown : s.ownsSet s.th.job (s.g a) = true) :
    exec (.vqry d a) s =
      let x := s.vset (s.g a).toNat
      .next ((s.setG d (BitVec.ofNat 64 (x.pub.toNat + x.pubcopy * 2 ^ 32 + x.ncopy * 2 ^ 34))).retireG
        (d + 1) (BitVec.ofNat 64 (natOf (x.latch.flatMap (fun l => bytesOf 2 l.toNat))))) := by
  show execVqry d a s = _
  simp only [execVqry, unrecorded_performs hp, hown, Bool.not_true, Bool.false_eq_true, if_false]
  rfl

section
variable (htake : s.takeDeferred true = none)
include htake

theorem vpub_foreign (hown : s.ownsSet s.th.job (s.g a) = false) : exec (.vpub d a b) s = .next (s.trapFree 0x05) := by
  show execVpub d a b s = _
  simp only [execVpub, unrecorded_performs hp, htake, hown, Bool.not_false, if_true]
  rfl

variable (hown : s.ownsSet s.th.job (s.g a) = true)
include hown

theorem vpub_barred {e : Nat} (hbar : (s.vset (s.g a).toNat).bar (s.g b).toNat = some e) :
    exec (.vpub d a b) s = .next (s.trap 0x07 (BitVec.ofNat 64 e)) := by
  show execVpub d a b s = _
  simp only [execVpub, unrecorded_performs hp, htake, hown, hbar, Bool.not_true, Bool.false_eq_true, if_false]
  rfl

theorem vpub_publishes (hbar : (s.vset (s.g a).toNat).bar (s.g b).toNat = none) (hsb : s.th.sb = []) :
    exec (.vpub d a b) s =
      let v := (s.g a).toNat
      let k := (s.g b).toNat
      let x := s.vset v
      .next ((((s.release .pkg).tagCopy v k (x.pub + 1)).setVset v { x with pub := x.pub + 1, pubcopy := k }).retireG d
        ((x.pub + 1).setWidth 64)) := by
  show execVpub d a b s = _
  simp only [execVpub, unrecorded_performs hp, htake, hown, hbar, State.sbEmpty, hsb, List.isEmpty_nil, State.publish,
    vset_of_kept (kept_release Scope.pkg), State.vset_setVset_same, Bool.not_true, Bool.false_eq_true, if_false, if_true, ended]

end
end
end

/-! ## The obligation -/

/-- Settles O37: each instruction's cases by their own lemmas; what VPUB is barred from follows the order of `VSet.bar`. -/
theorem postsWaitsAndVintages : Obligations.PostsWaitsAndVintages := by
  unfold Obligations.PostsWaitsAndVintages
  refine ⟨fun s r d a b k x hp => ?_, fun s d a b hp => ?_⟩
  · refine ⟨fun hbad => post_bad hp (postBad_eq_true.2 hbad),
      fun hbad => ⟨post_nobody hp hbad, fun hk hrel => ⟨fun hgoes => ?_, fun hform hstart => ?_⟩⟩, wwt_bad hp,
      fun hw hnew => ⟨wwt_nobody hp hw hnew, fun hk => ⟨fun hopen => ?_, fun hshut => ?_⟩⟩⟩
    · refine (post_asked hp hbad hk hrel).trans (congrArg _ (if_neg ?_))
      rintro ⟨hform, hstart⟩
      exact hgoes.elim (fun h => h hform) (fun h => absurd hstart (Bool.eq_false_iff.1 h))
    · exact (post_asked hp hbad hk hrel).trans (congrArg _ (if_pos ⟨hform, hstart⟩))
    · rw [wwt_addressed hp hw hnew hk, wwtAt_open hopen, ended]
    · rw [wwt_addressed hp hw hnew hk, wwtAt_shut hshut, ended]
  · intro v k x mine
    have hmine : s.ownsSet s.th.job (s.g a) = true ↔ mine := ownsSet_eq_true
    have hforeign : ¬ mine → s.ownsSet s.th.job (s.g a) = false := fun h => Bool.eq_false_iff.2 (mt hmine.1 h)
    refine ⟨fun h => vqry_foreign hp (hforeign h), fun h htake => vpub_foreign hp htake (hforeign h),
      fun h => vqry_reads hp (hmine.2 h), fun h htake => ⟨fun hk => vpub_barred hp htake (hmine.2 h) (if_pos hk),
        fun hk hlatch => vpub_barred hp htake (hmine.2 h) ?_, fun hk hlatch hpub => vpub_barred hp htake (hmine.2 h) ?_,
        fun hk hlatch hpub hsb => vpub_publishes hp htake (hmine.2 h) ?_ hsb⟩⟩
    · exact (if_neg (Nat.not_le.2 hk)).trans (if_pos hlatch)
    · exact (if_neg (Nat.not_le.2 hk)).trans ((if_neg (not_not.2 hlatch)).trans (if_pos hpub))
    · exact (if_neg (Nat.not_le.2 hk)).trans ((if_neg (not_not.2 hlatch)).trans (if_neg hpub))

end Sys2Proof.PostsAndVintages
end

section
/-! PROOF. SPWN, its service, and QUIT (05 R112, R119; 10 R278, R287; 13 R394, R395): what SPWN asks for, what the service of a
request leaves in the slot and in the requester, and how a thread ends. -/

namespace Sys2Proof.SpawnAndQuit

open Sys2Proof
open Sys2Proof.Machine
open Sys2Proof.Kept
open Sys2Proof.Becoming

section
variable {s : State}

/-! ## SPWN (13 R394) -/

/-- The request that the executing thread sends once it has released, for a thread of core `n`. -/
def spawnAsked (r : State) (n : Nat) (sc : Scope) (pc : Word) (d c : Nat) : SpawnReq :=
  { core := n, waiter := some (r.cur, d), counter := none, job := r.th.job, kid := r.th.kid, level := r.th.level,
    slots := BitVec.allOnes 16, pc := pc, regs := (List.range 4).map (fun i => r.th.gr (c + i)), fctl := r.th.fctl,
    tvec := r.th.tvec, seed := r.th.seed, tid := r.th.tid, src := coreOf r.cur, num := r.msgSeq,
    tag := Scope.max sc r.th.carry, quantum := r.th.qnum, seq := r.th.qseq, held := r.holds }

/-- The executing thread waiting for the answer to a request. -/
def spawnWaits (r : State) (q : SpawnReq) : State :=
  { r.bumpSeq.setTh { r.bumpSeq.th with park := .spawn } with spawns := r.spawns ++ [q], msgSeq := r.msgSeq + 1 }

theorem spawnWaits_th (r : State) (q : SpawnReq) :
    (spawnWaits r q).th = { r.th with qseq := r.th.qseq + 1, park := .spawn } := by
  have hbump : r.bumpSeq.th = { r.th with qseq := r.th.qseq + 1 } := State.th_setTh ..
  exact (State.th_setTh r.bumpSeq _).trans (by rw [hbump])

section
variable (hp : s.performs) {d a b c : BitVec 5}
include hp

theorem spwn_illegal (hn : 1023 < (s.g a).toNat) : exec (.spwn d a b c) s = .next (s.trapFree 0x01) := by
  show execSpwn d a b c s = _
  simp only [execSpwn, unrecorded_performs hp, if_pos (show (s.g a).toNat > 1023 from hn)]
  rfl

theorem spwn_asks (hn : (s.g a).toNat ≤ 1023) (hsb : s.th.sb = []) :
    exec (.spwn d a b c) s =
      let sc := s.th.effRelease (s.towards (s.g a).toNat)
      let r := s.release sc
      .next (spawnWaits r (spawnAsked r (s.g a).toNat sc (s.g b) d.toNat c.toNat)) := by
  show execSpwn d a b c s = _
  simp only [execSpwn, unrecorded_performs hp, if_neg (Nat.not_lt.2 hn), State.plainRelease, State.sbEmpty, hsb,
    List.isEmpty_nil, if_true]
  rfl

/-- What SPWN asks for is of the executing thread as it was before its release. -/
theorem spwn_requests (hn : (s.g a).toNat ≤ 1023) (hsb : s.th.sb = []) :
    let sc := s.th.effRelease (s.towards (s.g a).toNat)
    let r := s.release sc
    ∃ (t : State) (q : SpawnReq), exec (.spwn d a b c) s = .next t ∧ t.th.park = .spawn ∧ t.th.pc = s.th.pc ∧ t.spawns = r.spawns ++ [q] ∧
      q.core = (s.g a).toNat ∧ q.waiter = some (s.cur, d.toNat) ∧ q.job = s.th.job ∧ q.kid = s.th.kid ∧
      q.src = coreOf s.cur ∧ q.num = r.msgSeq ∧ q.tag = Scope.max sc s.th.carry ∧ q.pc = s.g b ∧
      q.regs = [r.th.gr c.toNat, r.th.gr (c.toNat + 1), r.th.gr (c.toNat + 2), r.th.gr (c.toNat + 3)] ∧
      q.fctl = s.th.fctl ∧ q.tvec = s.th.tvec ∧ q.seed = s.th.seed := by
  intro sc r
  have hkept : kept r = kept s := kept_release sc
  have hth := th_of_kept hkept
  have hcur := cur_of_kept hkept
  exact ⟨_, _, spwn_asks hp hn hsb, congrArg Thread.park (spawnWaits_th ..),
    (congrArg Thread.pc (spawnWaits_th ..)).trans (congrArg Thread.pc hth :), rfl, rfl,
    congrArg (fun u => some (u, d.toNat)) hcur, (congrArg Thread.job hth :), (congrArg Thread.kid hth :),
    congrArg coreOf hcur, rfl, congrArg (Scope.max sc) (congrArg Thread.carry hth :), rfl, rfl,
    (congrArg Thread.fctl hth :), (congrArg Thread.tvec hth :), (congrArg Thread.seed hth :)⟩

end

/-! ## The thread that a request starts (10 R278, R287) -/

/-- A thread as it starts: what a request gives it, and the values of a new thread in what a later thread reads. -/
structure StartedAs (lvl : Level) (r : SpawnReq) (id : Nat) (x : Thread) : Prop where
  live : x.live = true
  job : x.job = r.job
  kid : x.kid = r.kid
  level : x.level = lvl
  tid : x.tid = BitVec.ofNat 14 id
  pc : x.pc = r.pc
  fctl : x.fctl = r.fctl
  tvec : x.tvec = r.tvec
  seed : x.seed = r.seed
  park : x.park = .running
  intrap : x.intrap = false
  nspill : x.nspill = 0
  fstat : x.fstat = 0
  digest : x.digest = 0

theorem StartedAs.of_bare {lvl : Level} {r : SpawnReq} {id : Nat} {x y : Thread} (hy : StartedAs lvl r id y) {sc : Scope}
    (h : bare x = bare (carrying y sc)) : StartedAs lvl r id x where
  live := (congrArg Thread.live h :).trans hy.live
  job := (congrArg Thread.job h :).trans hy.job
  kid := (congrArg Thread.kid h :).trans hy.kid
  level := (congrArg Thread.level h :).trans hy.level
  tid := (congrArg Thread.tid h :).trans hy.tid
  pc := (congrArg Thread.pc h :).trans hy.pc
  fctl := (congrArg Thread.fctl h :).trans hy.fctl
  tvec := (congrArg Thread.tvec h :).trans hy.tvec
  seed := (congrArg Thread.seed h :).trans hy.seed
  park := (congrArg Thread.park h :).trans hy.park
  intrap := (congrArg Thread.intrap h :).trans hy.intrap
  nspill := (congrArg Thread.nspill h :).trans hy.nspill
  fstat := (congrArg Thread.fstat h :).trans hy.fstat
  digest := (congrArg Thread.digest h :).trans hy.digest

/-- A thread but for its registers. -/
def registerless (x : Thread) : Thread := { x with g := [] }

theorem registerless_setGrs (x : Thread) (n : Nat) (l : List Word) : registerless (x.setGrs n l) = registerless x := by
  unfold Thread.setGrs
  generalize indexed l = ps
  induction ps generalizing x with
  | nil => rfl
  | cons p ps ih => exact (ih _).trans (congrArg registerless (Thread.setGr_eq x (n + p.1) p.2) :)

theorem setGrs_eq (x : Thread) (n : Nat) (l : List Word) : x.setGrs n l = { x with g := (x.setGrs n l).g } :=
  congrArg (fun y : Thread => { y with g := (x.setGrs n l).g }) (registerless_setGrs x n l)

/-- The state in which a request's thread has started in a slot. -/
def startFor (s : State) (r : SpawnReq) (t id : Nat) : State :=
  s.startThread t r.job r.kid id r.pc r.regs r.fctl r.tvec r.seed

theorem startFor_thread (r : SpawnReq) (t id : Nat) :
    StartedAs (s.kernel r.job r.kid).level r id ((startFor s r t id).thread t) := by
  have h : (startFor s r t id).thread t = _ := State.thread_setThread_same s t _
  rw [h, setGrs_eq]
  constructor <;> rfl

theorem startFor_other (r : SpawnReq) {t u : Nat} (id : Nat) (hu : u ≠ t) : (startFor s r t id).thread u = s.thread u :=
  State.thread_setThread_other s hu _

theorem startFor_jobs (r : SpawnReq) (t id : Nat) : (startFor s r t id).jobs = s.jobs := by
  dsimp only [startFor, State.startThread, State.setKernel, State.setThread]

theorem startFor_job (r : SpawnReq) (t id j : Nat) : (startFor s r t id).job j = s.job j :=
  congrArg (Store.get Job.init j) (startFor_jobs r t id)

/-! ## SPAWN_SERVICE (10 R287; 13 R394) -/

/-- The place of a slot of a request's core. -/
def spawnSlot (r : SpawnReq) (slot : Nat) : Nat := r.core * 16 + slot

/-- A request of a job in free mode served: the thread has started after its acquire, and its requester has the answer. -/
theorem spawnNow_free {r : SpawnReq} (hfree : (s.job r.job).gmode = 0) (slot id : Nat) :
    s.spawnNow r slot id =
      ((startFor s r (spawnSlot r slot) id).acquireFor (spawnSlot r slot) r.tag).spawnAnswer r.waiter id := by
  have hacq := acquireFor_becomes (s := startFor s r (spawnSlot r slot) id) (spawnSlot r slot) r.tag
  have hjob := (hacq.job r.job).trans (startFor_job r (spawnSlot r slot) id r.job)
  refine gateServed_free ((congrArg Job.gmode ?_).trans hfree) ..
  refine Eq.trans ?_ hjob
  unfold State.spawnAnswer
  split <;> rfl

/-- The state without the request that the unit serves. -/
def unasked (s : State) : State := { s with spawns := dropAt s.spawns s.arg.n }

section
variable {r : SpawnReq} (hr : s.spawns[s.arg.n]? = some r) (hheld : r.held = false) (hfree : (s.job r.job).gmode = 0)
  (hbehind : s.behind r.src r.core r.num r.job r.tid = false)
include hr hheld hfree hbehind

theorem spawnService_serves :
    exec .spawnService s = .next ((State.serveSpawn (unasked s) r).getD s) := by
  have hnow : ¬ (r.held = true ∨ s.behind r.src r.core r.num r.job r.tid = true ∨
      (!s.gateAllows r.job gateSpawn r.tid.toNat) = true) := by
    simp [hheld, hbehind, gateAllows_free hfree]
  show execSpawnService s = _
  simp only [execSpawnService, hr, if_neg hnow]
  rfl

theorem spawnService_waits (hslots : s.freeSlots r.job r.kid r.core r.slots = []) (hw : r.waiter = none) :
    exec .spawnService s = .next s := by
  have hslots' : (unasked s).freeSlots r.job r.kid r.core r.slots = [] := hslots
  rw [spawnService_serves hr hheld hfree hbehind, State.serveSpawn, hslots', hw]
  rfl

theorem spawnService_reserve {w dd : Nat} (hslots : s.freeSlots r.job r.kid r.core r.slots = [])
    (hw : r.waiter = some (w, dd)) :
    exec .spawnService s = .next ((unasked s).drawn.trapOf w 0x16 s.freeVal
      (s.thread w).pc) := by
  have hslots' : (unasked s).freeSlots r.job r.kid r.core r.slots = [] := hslots
  rw [spawnService_serves hr hheld hfree hbehind, State.serveSpawn, hslots', hw]
  refine congrArg Host.Outcome.next (gateServed_free ?_ ..)
  exact (trapFrom_gmode ..).trans hfree

/-- A request served for a thread that waits: what its slot then holds, and what the waiting thread has. -/
theorem spawnService_starts {slot id w dd : Nat} {rest : List Nat} (hw : r.waiter = some (w, dd))
    (hslots : s.freeSlots r.job r.kid r.core r.slots = slot :: rest) (hid : s.freeId r.job = some id)
    (hne : w ≠ spawnSlot r slot) :
    ∃ t : State, exec .spawnService s = .next t ∧ t.spawns = s.spawns.eraseIdx s.arg.n ∧
      StartedAs (s.kernel r.job r.kid).level r id (t.thread (spawnSlot r slot)) ∧
      (t.thread w).pc = (s.thread w).pc + 4 ∧ (t.thread w).park = .running ∧
      (t.thread w).gr dd = if dd = 0 then 0 else BitVec.ofNat 64 id := by
  have hserve : State.serveSpawn (unasked s) r =
      some ((unasked s).spawnNow r slot id) := by
    have hslots' : (unasked s).freeSlots r.job r.kid r.core r.slots = slot :: rest := hslots
    have hid' : (unasked s).freeId r.job = some id := hid
    rw [State.serveSpawn, hslots', hid']
    rfl
  have hacq := acquireFor_becomes (s := startFor (unasked s) r (spawnSlot r slot) id)
    (spawnSlot r slot) r.tag
  have hstart := startFor_thread (s := unasked s) r (spawnSlot r slot) id
  refine ⟨_, spawnService_serves hr hheld hfree hbehind, ?_⟩
  rw [hserve, Option.getD_some, spawnNow_free (s := unasked s) hfree, hw]
  generalize (startFor (unasked s) r (spawnSlot r slot) id).acquireFor (spawnSlot r slot)
    r.tag = s2 at hacq ⊢
  have hwait : bare (s2.thread w) = bare (s.thread w) :=
    (hacq.others w hne).trans (congrArg bare (startFor_other _ _ hne))
  have hanswer : (s2.spawnAnswer (some (w, dd)) id).thread w =
      ((s2.thread w).setGr dd (BitVec.ofNat 64 id)).go (((s2.thread w).setGr dd (BitVec.ofNat 64 id)).pc + 4) 1 :=
    State.thread_setThread_same ..
  refine ⟨hacq.spawns, ?_, ?_, ?_, ?_⟩
  · have hslot : (s2.spawnAnswer (some (w, dd)) id).thread (spawnSlot r slot) = s2.thread (spawnSlot r slot) :=
      State.thread_setThread_other s2 (Ne.symm hne) _
    rw [hslot]
    exact hstart.of_bare hacq.thread
  · rw [hanswer, Thread.setGr_eq]
    exact congrArg (· + 4) (congrArg Thread.pc hwait :)
  · rw [hanswer]
    rfl
  · rw [hanswer]
    refine (Thread.gr_setGr ..).trans ?_
    rw [if_pos rfl]

end

/-! ## QUIT (10 R287; 13 R395) -/

theorem freeSlot_th : s.freeSlot.th = { Thread.init with rpcSeq := s.th.rpcSeq } := State.th_setTh ..

theorem freeSlot_other {u : Nat} (hu : u ≠ s.cur) : s.freeSlot.thread u = s.thread u := State.thread_setThread_other _ hu _

/-- A thread's slot freed, and the completion of its kernel put next where it was its kernel's last. -/
def quits (w : State) : State :=
  if w.lastOfKernel = true then w.freeSlot.push .kernelComplete (Arg.ofNM w.th.job w.th.kid) else w.freeSlot

theorem quits_th : (quits s).th = { Thread.init with rpcSeq := s.th.rpcSeq } := by
  unfold quits
  split <;> exact freeSlot_th

theorem quits_mem : (quits s).mem = s.mem := by
  unfold quits
  split <;> rfl

theorem quits_other {u : Nat} (hu : u ≠ s.cur) : (quits s).thread u = s.thread u := by
  unfold quits
  split <;> exact freeSlot_other hu

theorem quits_agenda :
    (quits s).agenda = (if s.lastOfKernel = true then [Act.event .kernelComplete (Arg.ofNM s.th.job s.th.kid)] else []) ++ s.agenda := by
  unfold quits
  split <;> rfl

section
variable (hp : s.performs)
include hp

theorem quit_waits (hsb : s.th.sb ≠ []) : exec .quit s = .next (s.setTh { s.th with park := .retry 0x6B }) := by
  show execQuit s = _
  simp only [execQuit, unrecorded_performs hp, State.sbEmpty, List.isEmpty_eq_false_iff.2 hsb, Bool.false_eq_true, if_false]
  rfl

theorem quit_ends {w : State} (hw : s.writeThrough .pkg = w) (hsb : s.th.sb = []) (hout : w.outstanding = 0)
    (hue : w.ueDue w.cur = false) (htake : w.takeDeferred true = none) (hfree : (w.job w.th.job).gmode = 0)
    (hcopy : (w.lastOfKernel && w.copying w.th.job w.th.kid) = false) : exec .quit s = .next (quits w) := by
  have hgo : ¬ (w.outstanding ≠ 0 ∨ w.ueDue w.cur = true) := by simp [hout, hue]
  show execQuit s = _
  simp only [execQuit, unrecorded_performs hp, State.sbEmpty, hsb, List.isEmpty_nil, if_true, hw, if_neg hgo, htake, hcopy,
    digestPoint_free hfree, Bool.false_eq_true, if_false, ended_ok]
  rfl

end

end

/-! ## The obligation -/

/-- Settles O28: SPWN by what it asks for, its service by whether a slot is free, QUIT by what it leaves once nothing holds it
back. -/
theorem threadsAreSpawnedAndQuit : Obligations.ThreadsAreSpawnedAndQuit := by
  unfold Obligations.ThreadsAreSpawnedAndQuit
  refine ⟨fun s d a b c => ⟨fun hp hn hsb _ => spwn_requests hp hn hsb, fun hp => spwn_illegal hp, ?_, ?_⟩, fun s hp => ⟨?_, quit_waits hp⟩⟩
  · intro r slot rest id w dd hr hheld hfree hbehind hw hslots hid hne _
    obtain ⟨t, hexec, hspawns, hx, hwaiter⟩ := spawnService_starts hr hheld hfree hbehind hw hslots hid hne
    exact ⟨t, hexec, hspawns, ⟨hx.live, hx.job, hx.kid, hx.level, hx.tid, hx.pc, hx.fctl, hx.tvec, hx.seed, hx.park, hx.intrap,
      hx.nspill, hx.fstat, hx.digest⟩, hwaiter⟩
  · intro r hr hheld hfree hbehind hslots
    exact ⟨spawnService_waits hr hheld hfree hbehind hslots, fun w dd hw => spawnService_reserve hr hheld hfree hbehind hslots hw⟩
  · intro w hsb hout hue htake hfree hcopy
    have hkept : kept w = kept s := kept_writeThrough .pkg
    have hth := th_of_kept hkept
    have hjob : w.th.job = s.th.job := job_of_kept hkept
    have hkid : w.th.kid = s.th.kid := (congrArg Thread.kid hth :)
    have hseq : w.th.rpcSeq = s.th.rpcSeq := (congrArg Thread.rpcSeq hth :)
    have hcur : w.cur = s.cur := cur_of_kept hkept
    have hfree' : (w.job w.th.job).gmode = 0 := by
      rw [hjob, State.job, jobs_of_kept hkept]
      exact hfree
    refine ⟨quits w, quit_ends hp rfl hsb hout hue htake hfree' (by rw [hjob, hkid]; exact hcopy), ?_, ?_, ?_, ?_⟩
    · rw [quits_th, hseq]
    · exact fun a => congrArg (Store.get 0 a) quits_mem
    · exact fun u hu => quits_other (hcur ▸ hu)
    · rw [quits_agenda, hjob, hkid]

end Sys2Proof.SpawnAndQuit
end

section
/-! PROOF. SPWN, QUIT, BAR, QSC and WFT complete, and what they wait for ends (05 R112, R119; 07 R205; 10 R287, R289, R290; 13
R394 to R398; 03 R68). An episode and a QSC end by departures, of which each changes its own thread alone. -/

namespace Sys2Proof.ThreadsComplete

open Sys2Proof
open Sys2Proof.Machine
open Sys2Proof.Kept
open Sys2Proof.Becoming
open Sys2Proof.SpawnAndQuit

section
variable {s r : State}

/-! ## Deferred causes (10 R281) -/

theorem takeDeferred_none (hrpe : s.th.rpe = false) (hwpe : s.th.wpe = false) (hvpe : s.th.vpe = false) (rpeDue : Bool) :
    s.takeDeferred rpeDue = none := by
  simp only [State.takeDeferred, hrpe, hwpe, hvpe, Bool.and_false, Bool.false_eq_true, if_false]

/-! ## QUIT of a thread with nothing left to order (13 R395) -/

theorem quit_clear (h : s.clear) (hout : s.outstanding = 0) (hue : s.ueDue s.cur = false)
    (hfree : (s.job s.th.job).gmode = 0) (hcopy : (s.lastOfKernel && s.copying s.th.job s.th.kid) = false) :
    ∃ t, exec .quit s = .next t ∧ t.th = { Thread.init with rpcSeq := s.th.rpcSeq } := by
  obtain ⟨hp, hsb, hrpe, hwpe, hvpe, hclean⟩ := h
  obtain ⟨cs, hw⟩ := writeThrough_clean hclean .pkg
  exact ⟨_, quit_ends hp hw hsb hout hue (takeDeferred_none (s := { s with cores := cs }) hrpe hwpe hvpe true) hfree hcopy,
    quits_th⟩

/-! ## Departures of several threads (10 R289) -/

/-- Departures leave a thread that is not among them as it was, whatever the mode of its job. -/
theorem departs_other (sc : Scope) {u : Nat} (l : List Nat) (hu : u ∉ l) (s : State) :
    bare ((l.foldl (fun w t => w.depart t sc) s).thread u) = bare (s.thread u) := by
  induction l generalizing s with
  | nil => rfl
  | cons t l ih =>
    obtain ⟨hut, hul⟩ := List.ne_and_not_mem_of_not_mem_cons hu
    exact (ih hul _).trans (depart_other hut sc)

/-- A thread that lives and whose job is in free mode. -/
def Departs (s : State) (u : Nat) : Prop := (s.thread u).live = true ∧ (s.job (s.thread u).job).gmode = 0

theorem Departs.of_becomes {t u : Nat} {y : Thread} (h : Departs s u) (hr : Becomes s r t y) (hu : u ≠ t) : Departs r u := by
  obtain ⟨hlive, hfree⟩ := h
  have hthr := hr.others u hu
  have hjob : (r.thread u).job = (s.thread u).job := (congrArg Thread.job hthr :)
  refine ⟨(congrArg Thread.live hthr :).trans hlive, ?_⟩
  rw [hjob, hr.job]
  exact hfree

/-- Departures of different threads in free mode: each goes on at its next word, and the barriers stand. -/
theorem departs_free (sc : Scope) (l : List Nat) (hnodup : l.Nodup) (s : State) (h : ∀ u ∈ l, Departs s u) :
    (l.foldl (fun w t => w.depart t sc) s).episodes = s.episodes ∧
      ∀ u ∈ l, ((l.foldl (fun w t => w.depart t sc) s).thread u).pc = (s.thread u).pc + 4 ∧
        ((l.foldl (fun w t => w.depart t sc) s).thread u).park = .running := by
  induction l generalizing s with
  | nil => exact ⟨rfl, fun u hu => absurd hu List.not_mem_nil⟩
  | cons t l ih =>
    obtain ⟨hnot, hrest⟩ := List.nodup_cons.1 hnodup
    obtain ⟨hlive, hfree⟩ := h t List.mem_cons_self
    have hdep := depart_becomes hlive hfree sc
    have hne : ∀ u ∈ l, u ≠ t := fun u hu hut => hnot (hut ▸ hu)
    obtain ⟨hepi, hgo⟩ := ih hrest (s.depart t sc)
      (fun u hu => (h u (List.mem_cons_of_mem t hu)).of_becomes hdep (hne u hu))
    refine ⟨hepi.trans hdep.episodes, fun u hu => ?_⟩
    rw [List.foldl_cons]
    rcases List.mem_cons.1 hu with rfl | hu
    · have hstay := departs_other sc l hnot (s.depart u sc)
      exact ⟨(congrArg Thread.pc hstay :).trans hdep.pc, (congrArg Thread.park hstay :).trans hdep.park⟩
    · obtain ⟨hpc, hpark⟩ := hgo u hu
      have hpc' : ((s.depart t sc).thread u).pc = (s.thread u).pc := (congrArg Thread.pc (hdep.others u (hne u hu)) :)
      exact ⟨hpc.trans (congrArg (· + 4) hpc'), hpark⟩

/-! ## What an arrival at a barrier leaves to others: the threads and the episodes (10 R289; 03 R68) -/

/-- The threads, the one that executes, and the barriers' episodes. -/
def seen (s : State) : Store Thread × Nat × List Episode := (s.threads, s.cur, s.episodes)

theorem thread_of_seen (h : seen r = seen s) (u : Nat) : r.thread u = s.thread u :=
  congrArg (fun v : Store Thread × Nat × List Episode => Store.get Thread.init u v.1) h

theorem th_of_seen (h : seen r = seen s) : r.th = s.th :=
  congrArg (fun v : Store Thread × Nat × List Episode => Store.get Thread.init v.2.1 v.1) h

theorem episode_of_episodes (h : r.episodes = s.episodes) (key : Nat) : r.episode key = s.episode key := by
  simp only [State.episode, h]

theorem episode_of_seen (h : seen r = seen s) (key : Nat) : r.episode key = s.episode key :=
  episode_of_episodes (congrArg (fun v : Store Thread × Nat × List Episode => v.2.2) h) key

theorem sideband_seen (ports : List Nat) (type id : Nat) (at_ : Word) (body : List Byte) :
    seen (s.sideband ports type id at_ body) = seen s :=
  foldl_same seen (fun w n => w.sidebandOn type id at_ body n) (fun _ _ => rfl) ports s

theorem tellRoot_seen (id : Nat) (body : List Byte) : seen (s.tellRoot id body) = seen s := by
  unfold State.tellRoot
  split
  · split
    · exact sideband_seen ..
    · rfl
  · rfl

theorem barCheck_seen (key : Nat) : seen (s.barCheck key) = seen s := by
  unfold State.barCheck
  split
  · rfl
  · dsimp only
    rw [apply_ite seen]
    exact ite_self (seen s)

theorem episode_putEpisode (e : Episode) : (s.putEpisode e).episode e.key = some e :=
  List.find?_cons_of_pos (beq_self_eq_true e.key)

theorem key_of_episode {key : Nat} {e : Episode} (h : s.episode key = some e) : e.key = key :=
  beq_iff_eq.1 (List.find?_some h :)

/-! ## BAR (13 R396) -/

theorem barScope_eq (sc : BitVec 3) :
    s.barScope sc = if sc = 4 ∧ s.pkg.pod.form = false then Scope.pkg else scopeOfCode sc.toNat := by
  simp only [State.barScope, Bool.not_eq_true']

/-- The episode that the executing thread opens at a barrier for `n` arrivals, of which its own is the first. -/
def opened (r : State) (key n : Nat) (tag : Scope) : Episode :=
  (Episode.fresh key r.th.job).arrive (some n) (some r.cur) tag

/-- The executing thread waiting at the barrier of an episode. -/
def waitsAt (r : State) (e : Episode) : State := (r.putEpisode e).parkOn (.bar e.key)

theorem waitsAt_th (r : State) (e : Episode) : (waitsAt r e).th = { r.th with park := .bar e.key } :=
  State.th_setTh (r.putEpisode e) _

/-- A thread that waits at a barrier told to the root, or looked at here where this package decides (03 R68). -/
def arrivalTold (s w : State) (scope : Scope) (key id n : Nat) : State :=
  if scope = .pod ∧ !s.pkg.pod.isRoot then w.tellRoot id (bytesOf 2 n ++ [0]) else w.barCheck key

theorem arrivalTold_seen (s w : State) (scope : Scope) (key id n : Nat) : seen (arrivalTold s w scope key id n) = seen w := by
  unfold arrivalTold
  split
  · exact tellRoot_seen ..
  · exact barCheck_seen ..

section
variable {a : BitVec 5} {id sc : BitVec 3} {key : Nat}

theorem bar_opens (h : s.clear) (hkey : barKey (s.barScope sc) (scopeInst (s.barScope sc) (coreOf s.cur)) id.toNat = key)
    (hlow : 1 ≤ (s.g a).toNat) (hhigh : (s.g a).toNat ≤ 16384) (hout : s.outstanding = 0) (hnone : s.episode key = none) :
    exec (.bar a id sc) s =
      let eff := s.th.effRelease (s.barScope sc)
      let r := s.release eff
      .next (arrivalTold s (waitsAt r (opened r key (s.g a).toNat (Scope.max eff r.th.carry))) (s.barScope sc) key id.toNat
        (s.g a).toNat) := by
  obtain ⟨hp, hsb, hrpe, hwpe, hvpe, -⟩ := h
  have hcount : ¬ ((s.g a).toNat = 0 ∨ (s.g a).toNat > 16384) := by omega
  have hwait : ¬ ((s.barScope sc).atLeast .pkg = true ∧ s.outstanding ≠ 0) := fun h => h.2 hout
  have hrel : s.plainRelease 0x6C (s.th.effRelease (s.barScope sc)) = .ok (s.release (s.th.effRelease (s.barScope sc))) := by
    simp only [State.plainRelease, State.sbEmpty, hsb, List.isEmpty_nil, if_true]
  have hepi : (s.release (s.th.effRelease (s.barScope sc))).episode key = none :=
    (episode_of_episodes (congrArg State.episodes (outside_of_kept (kept_release _)) :) key).trans hnone
  show execBar a id sc s = _
  simp only [execBar, unrecorded_performs hp, if_neg hcount, if_neg hwait, takeDeferred_none hrpe hwpe hvpe, hrel, hkey, hepi]
  simp only [Option.getD_none, Episode.adopt, Episode.fresh, Episode.complete, ne_eq, not_true_eq_false, Bool.false_eq_true,
    or_self, if_false, Option.isSome_none, false_and, ended_ok]
  rfl

/-- BAR opens its episode with the executing thread's arrival, and the thread waits there. -/
theorem bar_joins (h : s.clear) (hkey : barKey (s.barScope sc) (scopeInst (s.barScope sc) (coreOf s.cur)) id.toNat = key)
    (hlow : 1 ≤ (s.g a).toNat) (hhigh : (s.g a).toNat ≤ 16384) (hout : s.outstanding = 0) (hnone : s.episode key = none) :
    ∃ (t : State) (e : Episode), exec (.bar a id sc) s = .next t ∧ t.th.park = .bar key ∧ t.episode key = some e ∧
      e.arrivals = 1 ∧ e.parked = [s.cur] ∧ e.count = some (s.g a).toNat ∧ e.job = some s.th.job := by
  have hkept : kept (s.release (s.th.effRelease (s.barScope sc))) = kept s := kept_release _
  refine ⟨_, _, bar_opens h hkey hlow hhigh hout hnone, ?_, (episode_of_seen (arrivalTold_seen ..) key).trans
    (episode_putEpisode (opened _ key _ _)), rfl, congrArg (fun u => [u]) (cur_of_kept hkept), rfl,
    congrArg some (job_of_kept hkept)⟩
  rw [th_of_seen (arrivalTold_seen ..), waitsAt_th]
  rfl

end

/-! ## The end of an episode (10 R289; 03 R70) -/

theorem endEpisode_ends {e : Episode} (hnodup : e.parked.Nodup) (h : ∀ u ∈ e.parked, Departs s u) :
    (s.endEpisode e).episode e.key = none ∧
      ∀ u ∈ e.parked, ((s.endEpisode e).thread u).pc = (s.thread u).pc + 4 ∧ ((s.endEpisode e).thread u).park = .running := by
  obtain ⟨hepi, hgo⟩ := departs_free (Scope.max (barKeyScope e.key) e.tag) e.parked hnodup
    { s with episodes := s.episodes.filter (fun f => f.key != e.key) } h
  refine ⟨(episode_of_episodes hepi e.key).trans (List.find?_eq_none.2 fun f hf => ?_), hgo⟩
  simpa using (List.mem_filter.1 hf).2

/-- The end of a pod barrier's episode told to the other packages (03 R70). -/
def endTold (w : State) (e : Episode) : State :=
  if barKeyScope e.key = .pod then
    w.sideband w.pkg.pod.livePorts 4 (e.key % 8) w.ptime (bytesOf 2 (e.count.getD 0) ++ [1]) else w

theorem endTold_seen (w : State) (e : Episode) : seen (endTold w e) = seen w := by
  unfold endTold
  split
  · exact sideband_seen ..
  · rfl

theorem barrierEpisodeComplete_ends {e : Episode} (he : s.episode s.arg.n = some e) (hfull : e.complete = true)
    (hup : ∀ p ∈ e.ports, (s.pkg.pod.port p).up = true) :
    exec .barrierEpisodeComplete s = .next (endTold (s.endEpisode e) e) := by
  have hgo : e.complete = true ∧ s.pathsUp e = true := ⟨hfull, List.all_eq_true.2 hup⟩
  show execBarrierEpisodeComplete s = _
  simp only [execBarrierEpisodeComplete, he, if_pos hgo]
  rfl

/-! ## SIDEBAND_BAR (03 R68) -/

/-- The episode that an arrival from another package joins: the one open at the barrier, or a new one of no job yet. -/
def joined (s : State) (key : Nat) : Episode := (s.episode key).getD { Episode.fresh key 0 with job := none }

theorem joined_key (s : State) (key : Nat) : (joined s key).key = key := by
  unfold joined
  cases he : s.episode key with
  | none => rfl
  | some e => exact key_of_episode he

theorem joined_arrivals (s : State) (key : Nat) : (joined s key).arrivals = ((s.episode key).map (·.arrivals)).getD 0 := by
  unfold joined
  cases s.episode key <;> rfl

/-- The episode of a pod barrier once the arrival that the event carries has joined it. -/
def arrived (s : State) (key : Nat) : Episode :=
  (joined s key).arriveBy (if s.arg.m = 0 then none else some s.arg.m) s.arg.v.toNat

theorem sidebandBar_arrives (hup : (s.pkg.pod.port s.arg.v.toNat).up = true) (hb : s.arg.b = false) :
    exec .sidebandBar s =
      let key := barKey .pod 0 (s.arg.n % 8)
      .next ((s.putEpisode (arrived s key)).barCheck key) := by
  show execSidebandBar s = _
  simp only [execSidebandBar, hup, hb, arrived, joined, Bool.not_true, Bool.false_eq_true, if_false]
  cases s.episode (barKey .pod 0 (s.arg.n % 8)) <;> rfl

theorem episode_arrived (key : Nat) : ((s.putEpisode (arrived s key)).barCheck key).episode key = some (arrived s key) := by
  have hkey : (arrived s key).key = key := joined_key s key
  refine (episode_of_seen (barCheck_seen key) key).trans ?_
  have hput := episode_putEpisode (s := s) (arrived s key)
  rwa [hkey] at hput

/-! ## QSC and WFT (10 R290; 13 R397, R398) -/

theorem qsc_parks (hp : s.performs) (sc : BitVec 3) :
    exec (.qsc sc) s = .next (s.parkOn (.qsc (scopeOfCode sc.toNat) none false)) := by
  show execQsc sc s = _
  simp only [execQsc, unrecorded_performs hp]
  rfl

theorem noteActive_quiet {t : Nat} {x : Thread} {scope : Scope} {since : Nat} (hpark : x.park = .qsc scope (some since) false)
    (hquiet : s.quiet scope (coreOf t) x.job = true) : s.noteActive t x = x := by
  simp only [State.noteActive, hpark, hquiet, Bool.not_true, Bool.or_false]
  rw [← hpark]

theorem qscQuietCheck_ends {scope : Scope} {since : Nat} (hpark : (s.thread s.arg.n).park = .qsc scope (some since) false)
    (hquiet : s.quiet scope (coreOf s.arg.n) (s.thread s.arg.n).job = true) (hdue : since + 2048 ≤ s.cyc)
    (hfree : (s.job (s.thread s.arg.n).job).gmode = 0) :
    exec .qscQuietCheck s =
      .next ((s.qscWith s.arg.n).foldl (fun w u => w.depart u .pkg) (s.depart s.arg.n .pkg)) := by
  show execQscQuietCheck s = _
  simp only [execQscQuietCheck, noteActive_quiet hpark hquiet, hpark, if_neg (Nat.not_lt.2 hdue), hfree, Bool.false_eq_true,
    if_false, false_and, OfNat.zero_ne_ofNat]

theorem not_mem_qscWith (t : Nat) : t ∉ s.qscWith t := by
  simp [State.qscWith]

/-- The thread whose check ends its QSC goes on, and those that end with it leave it so. -/
theorem qscQuietCheck_goesOn {scope : Scope} {since : Nat}
    (hpark : (s.thread s.arg.n).park = .qsc scope (some since) false)
    (hquiet : s.quiet scope (coreOf s.arg.n) (s.thread s.arg.n).job = true) (hdue : since + 2048 ≤ s.cyc)
    (h : Departs s s.arg.n) :
    ∃ t : State, exec .qscQuietCheck s = .next t ∧ (t.thread s.arg.n).pc = (s.thread s.arg.n).pc + 4 ∧
      (t.thread s.arg.n).park = .running := by
  have hdep := depart_becomes h.1 h.2 .pkg
  have hstay := departs_other .pkg (s.qscWith s.arg.n) (not_mem_qscWith s.arg.n) (s.depart s.arg.n .pkg)
  exact ⟨_, qscQuietCheck_ends hpark hquiet hdue h.2, (congrArg Thread.pc hstay :).trans hdep.pc,
    (congrArg Thread.park hstay :).trans hdep.park⟩

theorem wft_retires (hp : s.performs) {a : BitVec 5} (h : (s.g a).toNat ≤ s.pkg.clock.ptime.toNat) :
    exec (.wft a) s = .next s.retire := by
  have hle : s.g a ≤ s.ptime := h
  show execWft a s = _
  simp only [execWft, unrecorded_performs hp, if_pos hle]
  rfl

theorem wftRelease_goesOn {target : Word} (hpark : (s.thread s.arg.n).park = .wft target)
    (h : target.toNat ≤ s.pkg.clock.ptime.toNat) :
    exec .wftRelease s = .next (s.setThread s.arg.n ((s.thread s.arg.n).go ((s.thread s.arg.n).pc + 4) 1)) := by
  have hle : target ≤ s.ptime := h
  show execWftRelease s = _
  simp only [execWftRelease, hpark, if_pos hle]

/-! ## QUANTUM_END with nothing at the gates (07 R205) -/

/-- Threads put at the start of the next quantum. -/
def nextQuantum (l : List Nat) (s : State) : State := l.foldl (fun w t => w.setThread t (w.thread t).nextQuantum) s

theorem nextQuantum_jobs (l : List Nat) (s : State) : (nextQuantum l s).jobs = s.jobs :=
  foldl_same State.jobs (fun w t => w.setThread t (w.thread t).nextQuantum) (fun _ _ => rfl) l s

theorem nextQuantum_qcount {u : Nat} (l : List Nat) (s : State) (h : (s.thread u).qcount = 0 ∨ u ∈ l) :
    ((nextQuantum l s).thread u).qcount = 0 := by
  induction l generalizing s with
  | nil => exact h.resolve_right List.not_mem_nil
  | cons t l ih =>
    refine ih _ ?_
    by_cases hut : u = t
    · left
      rw [hut, State.thread_setThread_same]
      rfl
    · rw [State.thread_setThread_other s hut]
      exact h.imp id (fun hu => (List.mem_cons.1 hu).resolve_left hut)

/-- Nothing is at a gate, on its way or asked for. -/
def GatesEmpty (s : State) : Prop := s.gateQueue = [] ∧ s.msgs = [] ∧ s.replies = [] ∧ s.spawns = []

theorem renumber_empty (h : GatesEmpty s) (j : Nat) : s.renumber j = s := by
  obtain ⟨-, hmsgs, hreplies, hspawns⟩ := h
  simp only [State.renumber, State.heldSent, hmsgs, hreplies, hspawns, List.filter_nil, List.map_nil, List.append_nil, sortBy,
    List.foldl_nil, List.length_nil, Nat.add_zero]
  rw [← hmsgs, ← hreplies, ← hspawns]

theorem heldSent_empty (h : GatesEmpty s) (j : Nat) : s.heldSent j = [] := by
  obtain ⟨-, hmsgs, hreplies, hspawns⟩ := h
  simp only [State.heldSent, hmsgs, hreplies, hspawns, List.filter_nil, List.map_nil, List.append_nil, sortBy, List.foldl_nil]

theorem offerTasks_empty (h : GatesEmpty s) (j : Nat) : s.offerTasks j = s := by
  obtain ⟨-, -, -, hspawns⟩ := h
  simp only [State.offerTasks, hspawns, List.filter_nil, sortBy, List.foldl_nil]

/-- The next quantum of a job begun: its number, and its threads at its start. -/
def quantumBegun (s : State) (j : Nat) : State :=
  let r := s.setJob j { s.job j with quantum := (s.job j).quantum + 1 }
  (nextQuantum (r.jobThreads j) r).nextQuantumSaved j

/-- The ends of a job's waits that come with its next quantum: its full barriers, and its threads in QSC before it. -/
def quantumWaits (s : State) (j : Nat) : List Act :=
  ((quantumBegun s j).fullEpisodes j).map (fun k => Act.event .barrierEpisodeComplete (Arg.ofN k)) ++
    (s.qscThreads j).map (fun t => Act.event .qscQuietCheck { Arg.ofN t with b := true })

theorem quantumBegun_job (s : State) (j : Nat) :
    (quantumBegun s j).job j = { s.job j with quantum := (s.job j).quantum + 1 } :=
  (congrArg (Store.get Job.init j) (nextQuantum_jobs ..)).trans (State.job_setJob_same s j _)

theorem quantumEnd_begins (hover : s.quantumOver s.arg.n = true) (hempty : GatesEmpty s) :
    exec .quantumEnd s =
      let t := quantumBegun s s.arg.n
      .next { t with agenda := quantumWaits s s.arg.n ++ t.agenda } := by
  have hoffer : s.offerAll (sortBy (fun r : GateReq => gateKey (s.job s.arg.n).quantum r.tid r.seq)
      (s.gateQueue.filter (fun r => r.job == s.arg.n))) = s := by
    rw [hempty.1]
    rfl
  show execQuantumEnd s = _
  simp only [execQuantumEnd, hover, if_true, hoffer, renumber_empty hempty, heldSent_empty hempty, List.foldl_nil,
    offerTasks_empty hempty, quantumBegun, quantumWaits, nextQuantum]

end

/-! ## The obligation -/

/-- Settles O55: the requests by what O28 proves of them, the waits by the departures that end them. -/
theorem threadsAndBarriersComplete : Obligations.ThreadsAndBarriersComplete := by
  unfold Obligations.ThreadsAndBarriersComplete
  intro s d a b c id sc n me
  refine ⟨fun hp hsb hn => ?_, ?_, quit_clear, ?_, ?_, fun hup hb => ?_, fun hp => ?_, ⟨?_, ?_⟩, fun hp hdue => ?_, ?_⟩
  · obtain ⟨t, q, hexec, hpark, -, hspawns, hcore, hwaiter, hjob, hkid, -, -, -, hpc, -⟩ := spwn_requests hp hn hsb
    have hkept : (s.release (s.th.effRelease (s.towards (s.g a).toNat))).spawns = s.spawns :=
      (congrArg State.spawns (outside_of_kept (kept_release _)) :)
    exact ⟨t, q, hexec, hpark, hspawns.trans (congrArg (· ++ [q]) hkept), hcore, hwaiter, hjob, hkid, hpc⟩
  · intro r slot rest tid w dd hr hheld hfree hbehind hw hslots hid hne
    obtain ⟨t, hexec, -, hx, hwaiter⟩ := spawnService_starts hr hheld hfree hbehind hw hslots hid hne
    exact ⟨t, hexec, hx.live, hx.pc, hwaiter⟩
  · intro scope key h hlow hhigh hout hnone
    refine bar_joins h ?_ hlow hhigh hout hnone
    rw [barScope_eq]
  · intro e he hfull hup hnodup hdeparts
    obtain ⟨hgone, hgo⟩ := endEpisode_ends hnodup hdeparts
    refine ⟨_, barrierEpisodeComplete_ends he hfull hup, ?_, fun u hu => ?_⟩
    · rw [episode_of_seen (endTold_seen ..), ← key_of_episode he]
      exact hgone
    · rw [thread_of_seen (endTold_seen ..)]
      exact hgo u hu
  · exact ⟨_, _, sidebandBar_arrives hup hb, episode_arrived _, congrArg (· + 1) (joined_arrivals ..)⟩
  · exact ⟨_, qsc_parks hp sc, congrArg Thread.park (State.th_setTh s _)⟩
  · exact fun scope since hpark hquiet hdue hlive hfree => qscQuietCheck_goesOn hpark hquiet hdue ⟨hlive, hfree⟩
  · intro target hpark hdue
    refine ⟨_, wftRelease_goesOn hpark hdue, ?_⟩
    rw [State.thread_setThread_same]
    exact ⟨rfl, rfl⟩
  · exact ⟨_, wft_retires hp hdue, retired_retire rfl rfl⟩
  · intro hover hgate hmsgs hreplies hspawns
    exact ⟨_, quantumEnd_begins hover ⟨hgate, hmsgs, hreplies, hspawns⟩, congrArg Job.quantum (quantumBegun_job ..),
      fun u hu => nextQuantum_qcount _ _ (.inr hu)⟩

end Sys2Proof.ThreadsComplete
end

section
/-! PROOF. What each function of the model that does not write memory leaves of it: all (05 R133; 06 R137). The rule of a
function `f` is
`f_mem`; each is tagged for `simp`, so that an arm's proof names only what writes. -/

namespace Sys2Proof.CanonicalMemory

open Sys2Proof
open Sys2Proof.Machine

/-- The canonical form of memory (log entry 2), as `State.memWf` says it of a state. -/
def Canon (m : Store Byte) : Prop := Memory.wf m

@[simp] theorem ite_mem (c : Prop) [Decidable c] (a b : State) : (if c then a else b).mem = if c then a.mem else b.mem :=
  apply_ite _ _ _ _

section
variable (s : State)

@[simp] theorem setTh_mem (x : Thread) : (s.setTh x).mem = s.mem := by rfl
@[simp] theorem setG_mem (n : BitVec 5) (v : Word) : (s.setG n v).mem = s.mem := by rfl
@[simp] theorem setKernel_mem (job kid : Nat) (x : Kernel) : (s.setKernel job kid x).mem = s.mem := by rfl
@[simp] theorem setCounter_mem (n : Nat) (x : Counter) : (s.setCounter n x).mem = s.mem := by rfl
@[simp] theorem setVset_mem (v : Nat) (x : VSet) : (s.setVset v x).mem = s.mem := by rfl
@[simp] theorem setEngine_mem (e : Nat) (x : Engine) : (s.setEngine e x).mem = s.mem := by rfl
@[simp] theorem setBank_mem (b : Nat) (x : Bank) : (s.setBank b x).mem = s.mem := by rfl
@[simp] theorem logEvent_mem (k : LogKind) (a b : Nat) : (s.logEvent k a b).mem = s.mem := by rfl
@[simp] theorem postRecord_mem (j t : Nat) (bytes : List Byte) : (s.postRecord j t bytes).mem = s.mem := by rfl
@[simp] theorem deliverHeld_mem (j : Nat) : (s.deliverHeld j).mem = s.mem := by
  unfold State.deliverHeld
  split
  · rfl
  · rfl
  · exact foldl_mem _ _ _ fun _ _ => rfl

@[simp] theorem sendRecord_mem (j : Nat) (bytes : List Byte) : (s.sendRecord j bytes).mem = s.mem := by
  unfold State.sendRecord
  split <;> simp

@[simp] theorem trapFrom_mem (t cause : Nat) (eval epc loc : Word) :
    (s.trapFrom t cause eval epc loc).mem = s.mem := by
  simp [State.trapFrom]

@[simp] theorem trapOf_mem (t cause : Nat) (eval epc : Word) : (s.trapOf t cause eval epc).mem = s.mem := by
  simp [State.trapOf]

@[simp] theorem trap_mem (cause : Nat) (eval : Word) : (s.trap cause eval).mem = s.mem := by
  simp [State.trap]

@[simp] theorem trapFree_mem (cause : Nat) : (s.trapFree cause).mem = s.mem := by
  simp [State.trapFree]

@[simp] theorem clearUe_mem (pa n : Nat) : (s.clearUe pa n).mem = s.mem := by rfl
@[simp] theorem countBytes_mem (pa n : Nat) : (s.countBytes pa n).mem = s.mem := by rfl
@[simp] theorem noteWritten_mem (pa n : Nat) : (s.noteWritten pa n).mem = s.mem := by
  unfold State.noteWritten
  split <;> simp

@[simp] theorem parkWalk_mem (t va opc : Nat) (eval : Option Word) : (s.parkWalk t va opc eval).mem = s.mem := by
  simp [State.parkWalk]

@[simp] theorem retry_mem (opc : Nat) : (s.retry opc).mem = s.mem := by rfl
@[simp] theorem parkOn_mem (p : Park) : (s.parkOn p).mem = s.mem := by rfl
@[simp] theorem deferFault_mem (t kind : Nat) (wkind : BitVec 2) (detail : Word) :
    (s.deferFault t kind wkind detail).mem = s.mem := by
  unfold State.deferFault
  split <;> rfl

@[simp] theorem refuseStore_mem (t c : Nat) (va : Word) : (s.refuseStore t c va).mem = s.mem := by
  simp [State.refuseStore]

@[simp] theorem invalidateRlc_mem (c : Nat) : (s.invalidateRlc c).mem = s.mem := by rfl
@[simp] theorem updateCopy_mem (c pa : Nat) (b : List Byte) : (s.updateCopy c pa b).mem = s.mem := by
  unfold State.updateCopy
  split <;> rfl

@[simp] theorem noteAccess_mem (pa : Nat) : (s.noteAccess pa).mem = s.mem := by rfl
@[simp] theorem noteRead_mem (pa n : Nat) : (s.noteRead pa n).mem = s.mem := by rfl
@[simp] theorem noteLoad_mem (p : Part) (fresh : Bool) : (s.noteLoad p fresh).mem = s.mem := by
  unfold State.noteLoad
  split <;> rfl

@[simp] theorem retireTo_mem (pc : Word) : (s.retireTo pc).mem = s.mem := by rfl
@[simp] theorem retire_mem : (s.retire).mem = s.mem := by rfl
@[simp] theorem retireG_mem (d : BitVec 5) (v : Word) : (s.retireG d v).mem = s.mem := by rfl
@[simp] theorem digest_mem (va : Word) (data : List Byte) : (s.digest va data).mem = s.mem := by rfl
@[simp] theorem recordPlain_mem (r : Region) (i : Instr) : (s.recordPlain r i).mem = s.mem := by
  simp [State.recordPlain]

@[simp] theorem setQueue_mem (q : Nat) (x : AhQueue) : (s.setQueue q x).mem = s.mem := by rfl
@[simp] theorem peerWrite_mem (pa v : Nat) : (s.peerWrite pa v).mem = s.mem := by rfl
@[simp] theorem regWrite_mem (r : Reg) (v : Word) : (s.regWrite r v).mem = s.mem := by
  unfold State.regWrite
  split <;> simp

@[simp] theorem mmioWrite_mem (w : Who) (r : Reg) (v : Word) : (s.mmioWrite w r v).mem = s.mem := by
  unfold State.mmioWrite
  split <;> simp

@[simp] theorem setFull_mem (c off : Nat) (v : Bool) : (s.setFull c off v).mem = s.mem := by rfl
@[simp] theorem nudge_mem (g : Nat) : (s.nudge g).mem = s.mem := by
  unfold State.nudge
  split <;> rfl

@[simp] theorem viewStore_mem (pa : Nat) (b : List Byte) : (s.viewStore pa b).mem = s.mem := by
  simp [State.viewStore]

@[simp] theorem sideband_mem (ports : List Nat) (type id : Nat) (at_ : Word) (body : List Byte) :
    (s.sideband ports type id at_ body).mem = s.mem :=
  foldl_mem _ _ _ fun _ _ => rfl

@[simp] theorem spread_mem (p : Partition) (kind : Nat) (at_ : Word) (value : List Byte) :
    (s.spread p kind at_ value).mem = s.mem := by
  simp [State.spread]

@[simp] theorem tellRoot_mem (id : Nat) (body : List Byte) : (s.tellRoot id body).mem = s.mem := by
  unfold State.tellRoot
  split <;> simp

@[simp] theorem tellPeers_mem (p : Partition) (what answer : Nat) : (s.tellPeers p what answer).mem = s.mem :=
  foldl_mem _ _ _ fun _ _ => rfl

@[simp] theorem replayServed_mem (j g : Nat) : (s.replayServed j g).mem = s.mem := by
  unfold State.replayServed
  split <;> rfl

@[simp] theorem refused_mem (a : Ans) (va : Word) (opc : Nat) : (s.refused a va opc).mem = s.mem := by
  unfold State.refused
  split <;> simp

@[simp] theorem setWordFull_mem (pa : Nat) (v : Bool) : (s.setWordFull pa v).mem = s.mem := by rfl
@[simp] theorem serveClear_mem (pa : Nat) : (s.serveClear pa).mem = s.mem := by rfl
@[simp] theorem serveAlc_mem (n : Word) (d : Nat) : (s.serveAlc n d).mem = s.mem := by
  unfold State.serveAlc
  split <;> simp

@[simp] theorem serveFre_mem (a : Word) : (s.serveFre a).mem = s.mem := by
  unfold State.serveFre
  simp
  split <;> simp

@[simp] theorem enqueue_mem (g : Nat) (op : GateOp) (held : Bool) : (s.enqueue g op held).mem = s.mem := by rfl
@[simp] theorem divergeAt_mem (g : Nat) : (s.divergeAt g).mem = s.mem := by
  simp [State.divergeAt]

@[simp] theorem noteBuffered_mem (ps : List Part) : (s.noteBuffered ps).mem = s.mem :=
  foldl_mem _ _ _ fun _ _ => rfl

@[simp] theorem tlbFill_mem (c : Nat) (l : Leaf) : (s.tlbFill c l).mem = s.mem := by rfl
@[simp] theorem walkDone_mem (q : WalkReq) (w : Walk) : (s.walkDone q w).mem = s.mem := by
  unfold State.walkDone
  simp
  split <;> simp

@[simp] theorem noteLatch_mem (pa : Nat) : (s.noteLatch pa).mem = s.mem := by rfl
@[simp] theorem recordAccess_mem (i : Instr) (base : BitVec 5) (off : BitVec 9) (wc : BitVec 3) (s : State) :
    (recordAccess i base off wc s).mem = s.mem := by
  unfold recordAccess
  split <;> simp

@[simp] theorem clearErrors_mem (f : Nat → Bool) (key : Nat) : (s.clearErrors f key).mem = s.mem := by rfl
@[simp] theorem digestLanes_mem (vd : BitVec 3) (addr : Nat → Word) (ls : List (Nat × List Part)) :
    (s.digestLanes vd addr ls).mem = s.mem :=
  foldl_mem _ _ _ fun _ _ => rfl

@[simp] theorem openPdc_mem (j i : Nat) : (s.openPdc j i).mem = s.mem := by
  unfold State.openPdc
  split <;> rfl

@[simp] theorem notePdcWait_mem (j i : Nat) : (s.notePdcWait j i).mem = s.mem := by rfl
@[simp] theorem emit_mem (q : OutPkt) : (s.emit q).mem = s.mem := by rfl
@[simp] theorem sendRemote_mem (thr : Option Nat) (tid : BitVec 14) (engine cmd : Option (Nat × Nat)) (p : OutPkt) :
    (s.sendRemote thr tid engine cmd p).mem = s.mem := by
  simp [State.sendRemote]

@[simp] theorem failThread_mem (t job : Nat) (tid : BitVec 14) (eval : Word) :
    (s.failThread t job tid eval).mem = s.mem := by
  simp [State.failThread]

@[simp] theorem mapTransfer_mem (e num : Nat) (f : Transfer → Transfer) :
    (s.mapTransfer e num f).mem = s.mem := by rfl

@[simp] theorem failTransfer_mem (e num code : Nat) : (s.failTransfer e num code).mem = s.mem := by rfl
@[simp] theorem failRemote_mem (r : RemoteOp) (cause : Nat) : (s.failRemote r cause).mem = s.mem := by
  unfold State.failRemote
  split <;> simp

@[simp] theorem dropRemote_mem (r : RemoteOp) : (s.dropRemote r).mem = s.mem := by rfl
@[simp] theorem leaveEgress_mem (o : RemoteOp) : (s.leaveEgress o).mem = s.mem := by
  simp [State.leaveEgress]

@[simp] theorem sendWaiting_mem : (s.sendWaiting).mem = s.mem := by
  unfold State.sendWaiting
  split <;> simp

@[simp] theorem sendAllWaiting_mem : (s.sendAllWaiting).mem = s.mem := by
  simp [State.sendAllWaiting]

@[simp] theorem threadRemote_mem (kind peer : Nat) (va : Word) (data : List Byte) (rel : Bool) :
    (s.threadRemote kind peer va data rel).mem = s.mem := by
  simp [State.threadRemote]

@[simp] theorem parkRemote_mem (peer opc : Nat) : (s.parkRemote peer opc).mem = s.mem := by
  unfold State.parkRemote
  split <;> rfl

@[simp] theorem rincSend_mem (peer : Nat) (va addend : Word) (rel kind : BitVec 1) :
    (s.rincSend peer va addend rel kind).mem = s.mem := by
  simp [State.rincSend]

@[simp] theorem answer_mem (p : Packet) (op : Nat) (data : List Byte) : (s.answer p op data).mem = s.mem := by rfl
@[simp] theorem refusePkt_mem (p : Packet) (cause : Nat) : (s.refusePkt p cause).mem = s.mem := by rfl
@[simp] theorem holdPkt_mem (kind : Nat) (p : Packet) (w : Wait) : (s.holdPkt kind p w).mem = s.mem := by
  unfold State.holdPkt
  (repeat' split) <;> simp

@[simp] theorem donePkt_mem (p : Packet) : (s.donePkt p).mem = s.mem := by
  unfold State.donePkt
  split <;> rfl

@[simp] theorem startThread_mem (t job kid id : Nat) (pc : Word) (regs : List Word) (fctl tvec seed : Word) :
    (s.startThread t job kid id pc regs fctl tvec seed).mem = s.mem := by rfl

@[simp] theorem digestLost_mem (j id : Nat) : (s.digestLost j id).mem = s.mem := by rfl
@[simp] theorem bumpSeq_mem : (s.bumpSeq).mem = s.mem := by rfl
@[simp] theorem sendMsg_mem (dst hidx len : Nat) (payload : List Byte) (call : Bool) (token : BitVec 32) (tag : Scope) :
    (s.sendMsg dst hidx len payload call token tag).mem = s.mem := by rfl

@[simp] theorem handlerEmpty_mem (c : Nat) : (s.handlerEmpty c).mem = s.mem := by
  unfold State.handlerEmpty
  split <;> simp

@[simp] theorem deferFor_mem (job : Nat) (tid : BitVec 14) (c kind : Nat) (wkind : BitVec 2) (detail : Word) :
    (s.deferFor job tid c kind wkind detail).mem = s.mem := by
  unfold State.deferFor
  dsimp only
  (repeat' split) <;> simp

@[simp] theorem spawnAnswer_mem (w : Option (Nat × Nat)) (id : Nat) : (s.spawnAnswer w id).mem = s.mem := by
  unfold State.spawnAnswer
  split <;> rfl

@[simp] theorem renumber_mem (j : Nat) : (s.renumber j).mem = s.mem := by rfl
@[simp] theorem nextQuantumSaved_mem (j : Nat) : (s.nextQuantumSaved j).mem = s.mem := by rfl
@[simp] theorem freeSlot_mem : (s.freeSlot).mem = s.mem := by rfl
@[simp] theorem putEpisode_mem (e : Episode) : (s.putEpisode e).mem = s.mem := by rfl
@[simp] theorem barCheck_mem (key : Nat) : (s.barCheck key).mem = s.mem := by
  unfold State.barCheck
  split <;> simp

@[simp] theorem claimHandles_mem (hs : List Nat) : (s.claimHandles hs).mem = s.mem := by rfl
@[simp] theorem launchCopy_mem (e : Nat) (d : BitVec 5) : (s.launchCopy e d).mem = s.mem := by
  simp [State.launchCopy]

@[simp] theorem engineFill_mem (e j va : Nat) : (s.engineFill e j va).mem = s.mem := by
  unfold State.engineFill
  simp
  split <;> simp

@[simp] theorem sendParts_mem (e : Nat) (t : Transfer) (l : List (Word × List Byte)) (s : State) :
    (s.sendParts e t l).mem = s.mem := by
  induction l generalizing s with
  | nil => rfl
  | cons p l ih => simp [State.sendParts, ih]

@[simp] theorem endTransfer_mem (e : Nat) (t : Transfer) : (s.endTransfer e t).mem = s.mem := by
  unfold State.endTransfer
  split <;> rfl

@[simp] theorem counterRecord_mem (n code : Nat) (eval : Word) : (s.counterRecord n code eval).mem = s.mem := by
  unfold State.counterRecord
  simp
  split <;> simp

@[simp] theorem ullageArrive_mem (c : Counter) : (s.ullageArrive c).mem = s.mem := by
  simp [State.ullageArrive]

@[simp] theorem bauError_mem (b : Nat) (c : BauCmd) (pa : Nat) : (s.bauError b c pa).mem = s.mem := by rfl
@[simp] theorem setCt_mem (x : Tile) : (s.setCt x).mem = s.mem := by rfl
@[simp] theorem setCs_mem (v : Stream) : (s.setCs v).mem = s.mem := by rfl
@[simp] theorem setKr_mem (n : BitVec 4) (v : Word32) : (s.setKr n v).mem = s.mem := by rfl
@[simp] theorem noteStore_mem (t off n : Nat) (cyc : Int) : (s.noteStore t off n cyc).mem = s.mem := by
  simp [State.noteStore]

@[simp] theorem later_mem (n : Nat) (e : Eff) : (s.later n e).mem = s.mem := by rfl
@[simp] theorem loaded_mem (len : Nat) : (s.loaded len).mem = s.mem := by rfl
@[simp] theorem undecide_mem : (s.undecide).mem = s.mem := by rfl
@[simp] theorem retryPosts_mem (t : Nat) : (s.retryPosts t).mem = s.mem := by
  unfold State.retryPosts
  split <;> rfl

@[simp] theorem noteHere_mem (pk : Nat) (cyc : Int) (code : Nat) (tile : Option Nat) (st : Option StreamId)
    (detail : List Byte) (eval : Option Word) :
    (s.noteHere pk cyc code tile st detail eval).mem = s.mem := by rfl

@[simp] theorem noteFault_mem (pk : Nat) (cyc : Int) (code : Nat) (tile : Option Nat) (st : Option StreamId)
    (detail : List Byte) (eval : Option Word) :
    (s.noteFault pk cyc code tile st detail eval).mem = s.mem := by
  simp [State.noteFault]

@[simp] theorem ueStop_mem : (s.ueStop).mem = s.mem := by
  simp [State.ueStop]

@[simp] theorem passed_mem (len occ : Nat) : (s.passed len occ).mem = s.mem := by
  unfold State.passed
  split <;> rfl

@[simp] theorem popToken_mem (f : Nat) (kd : BitVec 4) : (s.popToken f kd).mem = s.mem := by
  unfold State.popToken
  split <;> simp

@[simp] theorem addGranules_mem (l : List Granule) : (s.addGranules l).mem = s.mem := by rfl
@[simp] theorem blockmapStop_mem : (s.blockmapStop).mem = s.mem := by
  simp [State.blockmapStop]

@[simp] theorem useLink_mem (pk t d : Nat) (cyc : Int) : (s.useLink pk t d cyc).mem = s.mem := by
  simp [State.useLink]

@[simp] theorem addFlit_mem (pk : Nat) (f : Flit) : (s.addFlit pk f).mem = s.mem := by rfl
@[simp] theorem leaving_mem (pk t d : Nat) (dep : Int) (multi : Bool) (data : List Byte) :
    (s.leaving pk t d dep multi data).mem = s.mem := by
  unfold State.leaving
  split <;> simp

@[simp] theorem flitAway_mem (pk : Nat) (f : Flit) (slot : Nat) : (s.flitAway pk f slot).mem = s.mem := by rfl
@[simp] theorem sendOne_mem (pk t d : Nat) (dep : Int) (data : List Byte) :
    (s.sendOne pk t d dep data).mem = s.mem := by
  unfold State.sendOne
  dsimp only
  split <;> simp

@[simp] theorem sendAlong_mem (pk d : Nat) (data : List Byte) (fuel : Nat) (s : State) (t : Nat) (dep : Int) :
    (State.sendAlong pk d data fuel s t dep).mem = s.mem := by
  induction fuel generalizing s t dep with
  | zero => rfl
  | succ fuel ih =>
    unfold State.sendAlong
    split <;> simp [ih]

@[simp] theorem sendFlit_mem (form dir : Nat) (dep : Int) (data : List Byte) :
    (s.sendFlit form dir dep data).mem = s.mem := by
  simp [State.sendFlit]

@[simp] theorem addRecv_mem (v : Recv) : (s.addRecv v).mem = s.mem := by rfl
@[simp] theorem countSr_mem (rm : BitVec 3) : (s.countSr rm).mem = s.mem := by
  unfold State.countSr
  split <;> rfl

@[simp] theorem finish_mem (cmd : Option (Nat × Nat)) (status : Nat) (result : List Byte) :
    (s.finish cmd status result).mem = s.mem := by
  unfold State.finish
  split <;> rfl

@[simp] theorem passSeq_mem (q seq : Nat) : (s.passSeq q seq).mem = s.mem := by rfl
@[simp] theorem effect_mem (q seq : Nat) (result : List Byte) : (s.effect q seq result).mem = s.mem := by
  simp [State.effect]

@[simp] theorem effectOnce_mem (cmd : Nat × Nat) : (s.effectOnce cmd).mem = s.mem := by
  simp [State.effectOnce]

@[simp] theorem launchDone_mem (job id : Nat) : (s.launchDone job id).mem = s.mem := by rfl
@[simp] theorem settle_mem (cmds : List (Nat × Nat)) : (s.settle cmds).mem = s.mem := by
  refine foldl_mem _ _ _ fun w c => ?_
  split
  · rfl
  · split
    · dsimp only
      split <;> simp
    · rfl

@[simp] theorem dropLatches_mem (pk : Nat) : (s.dropLatches pk).mem = s.mem := by
  simp [State.dropLatches]

@[simp] theorem windowTrap_mem (t : Nat) : (s.windowTrap t).mem = s.mem := by
  simp [State.windowTrap]

@[simp] theorem refuseOldest_mem (t : Nat) : (s.refuseOldest t).mem = s.mem := by
  unfold State.refuseOldest
  dsimp only
  split <;> simp

@[simp] theorem refuseTransfer_mem (h : Nat × Nat) : (s.refuseTransfer h).mem = s.mem := by
  unfold State.refuseTransfer
  split <;> simp

@[simp] theorem refuseHeld_mem (pk : Nat) : (s.refuseHeld pk).mem = s.mem := by
  simp [State.refuseHeld]

@[simp] theorem freeTiles_mem (pk : Nat) : (s.freeTiles pk).mem = s.mem := by
  simp [State.freeTiles]

@[simp] theorem endPartition_mem (s0 : State) (pk status : Nat) (result : List Byte) :
    (State.endPartition s0 pk status result).mem = s0.mem := by
  simp [State.endPartition]

@[simp] theorem leaveCore_mem (job kid c : Nat) : (s.leaveCore job kid c).mem = s.mem := by rfl
@[simp] theorem addDecision_mem (pk : Nat) (x : Seen) (d : Decision) : (s.addDecision pk x d).mem = s.mem := by rfl
@[simp] theorem addFreeze_mem (pk : Nat) (cyc : Int) (c : Cause) (ends : Option Nat) :
    (s.addFreeze pk cyc c ends).mem = s.mem := by rfl

@[simp] theorem castEnd_mem (p : Partition) (cyc : Int) (e : Nat) : (s.castEnd p cyc e).mem = s.mem := by
  simp [State.castEnd]

@[simp] theorem freezeAt_mem (pk : Nat) (cyc : Int) (c : Cause) (ends : Option Nat) :
    (s.freezeAt pk cyc c ends).mem = s.mem := by
  unfold State.freezeAt
  split <;> simp

@[simp] theorem keepPoint_mem (pk : Nat) : (s.keepPoint pk).mem = s.mem := by rfl
@[simp] theorem resolve_mem (pk : Nat) : (s.resolve pk).mem = s.mem := by
  simp [State.resolve]

@[simp] theorem stallCheck_mem (pk t : Nat) : (s.stallCheck pk t).mem = s.mem := by
  simp [State.stallCheck]

@[simp] theorem windowCheck_mem (pk t : Nat) (w : Win) (close : Int) : (s.windowCheck pk t w close).mem = s.mem := by
  simp [State.windowCheck]

@[simp] theorem checkWindows_mem (pk : Nat) : (s.checkWindows pk).mem = s.mem := by
  simp [State.checkWindows]

@[simp] theorem decideWcl_mem (pk : Nat) (x : Seen) (wid : Nat) : (s.decideWcl pk x wid).mem = s.mem := by
  unfold State.decideWcl
  dsimp only
  (repeat' split) <;> simp

@[simp] theorem decideTkw_mem (pk : Nat) (x : Seen) (f : Nat) : (s.decideTkw pk x f).mem = s.mem := by
  simp [State.decideTkw]

@[simp] theorem decideTkp_mem (pk : Nat) (x : Seen) (f : Nat) : (s.decideTkp pk x f).mem = s.mem := by
  simp [State.decideTkp]

@[simp] theorem decideWut_mem (pk : Nat) (x : Seen) (ka kb : BitVec 4) : (s.decideWut pk x ka kb).mem = s.mem := by
  simp [State.decideWut]

@[simp] theorem decideHbm_mem (pk : Nat) (x : Seen) (kt kv : BitVec 4) (n16 : BitVec 14) :
    (s.decideHbm pk x kt kv n16).mem = s.mem := by
  unfold State.decideHbm
  dsimp only
  split <;> simp

@[simp] theorem decideVlt_mem (pk : Nat) (x : Seen) (sl : Nat) : (s.decideVlt pk x sl).mem = s.mem := by
  simp [State.decideVlt]

@[simp] theorem decideOne_mem (pk : Nat) (x : Seen) : (s.decideOne pk x).mem = s.mem := by
  unfold State.decideOne
  split <;> simp

@[simp] theorem diverge_mem (pk : Nat) (cyc : Int) (runs skips : Nat) (here : Bool) :
    (s.diverge pk cyc runs skips here).mem = s.mem := by
  simp [State.diverge]

@[simp] theorem agree_mem (pk : Nat) (cyc : Int) : (s.agree pk cyc).mem = s.mem := by
  simp [State.agree]

@[simp] theorem slotFreeze_mem (pk : Nat) (g : Granule) : (s.slotFreeze pk g).mem = s.mem := by
  unfold State.slotFreeze
  split <;> simp

@[simp] theorem granuleCheck_mem (pk t : Nat) (g : Granule) : (s.granuleCheck pk t g).mem = s.mem := by
  unfold State.granuleCheck
  dsimp only
  (repeat' split) <;> simp

@[simp] theorem checkGranules_mem (pk : Nat) : (s.checkGranules pk).mem = s.mem := by
  simp [State.checkGranules]

@[simp] theorem checkPoint_mem (pk : Nat) : (s.checkPoint pk).mem = s.mem := by
  simp only [State.checkPoint, checkGranules_mem, agree_mem, foldl_mem, decideOne_mem, implies_true, keepPoint_mem,
    checkWindows_mem]
  refine (foldl_mem _ _ _ fun w x => ?_).trans (resolve_mem s pk)
  split <;> simp

@[simp] theorem applyAll_mem (pk : Nat) : (s.applyAll pk).mem = s.mem := by
  simp [State.applyAll]

@[simp] theorem takeFault_mem (pk : Nat) (f : PFault) : (s.takeFault pk f).mem = s.mem := by
  simp [State.takeFault]

@[simp] theorem noteHbmWrite_mem (t : Nat) : (s.noteHbmWrite t).mem = s.mem := by
  unfold State.noteHbmWrite
  split <;> rfl

@[simp] theorem startFreeze_mem (pk : Nat) : (s.startFreeze pk).mem = s.mem := by rfl
@[simp] theorem postDone_mem (t : Nat) : (s.postDone t).mem = s.mem := by
  simp [State.postDone]

@[simp] theorem postAt_mem (q : Post) (t : Nat) : (s.postAt q t).mem = s.mem := by
  simp [State.postAt]

@[simp] theorem postHeld_mem (q : Post) (atFirst : Bool) : (s.postHeld q atFirst).mem = s.mem := by
  simp [State.postHeld]

@[simp] theorem performPost_mem (q : Post) (again : Bool) : (s.performPost q again).mem = s.mem := by
  simp [State.performPost]

@[simp] theorem flitResult_mem (t : Nat) (cyc : Int) (seq : Nat) (e : Eff) :
    (s.flitResult t cyc seq e).mem = s.mem := by rfl

@[simp] theorem arrive_mem (pk : Nat) (f : Flit) : (s.arrive pk f).mem = s.mem := by
  unfold State.arrive
  dsimp only
  split <;> simp

@[simp] theorem crossing_mem (pk t dir : Nat) (dep : Int) (multi : Bool) (data : List Byte) :
    (s.crossing pk t dir dep multi data).mem = s.mem := by
  simp [State.crossing]

@[simp] theorem noteActivity_mem : (s.noteActivity).mem = s.mem := by rfl
@[simp] theorem publish_mem (v k : Nat) : (s.publish v k).mem = s.mem := by rfl
@[simp] theorem tlbRemove_mem (c : Nat) (f : Leaf → Bool) : (s.tlbRemove c f).mem = s.mem := by rfl
@[simp] theorem shootDown_mem (pa size : Nat) : (s.shootDown pa size).mem = s.mem := by rfl
@[simp] theorem beginCmd_mem (c : Cmd) : (s.begin_ c).mem = s.mem := by rfl
@[simp] theorem waitCmd_mem (c : Cmd) (early : List Byte) : (s.waitCmd c early).mem = s.mem := by
  simp [State.waitCmd]

@[simp] theorem doneCmd_mem (c : Cmd) (status : Nat) (result : List Byte) :
    (s.doneCmd c status result).mem = s.mem := by rfl

@[simp] theorem armSlot_mem (q sl : Nat) : (s.armSlot q sl).mem = s.mem := by rfl
@[simp] theorem keepCmd_mem (q sl : Nat) (wake : Bool) : (s.keepCmd q sl wake).mem = s.mem := by rfl
@[simp] theorem takeTurn_mem (q : Nat) : (s.takeTurn q).mem = s.mem := by
  unfold State.takeTurn
  dsimp only
  (repeat' split) <;> simp

@[simp] theorem hostWrite_mem (q seq va : Nat) (b : List Byte) : (s.hostWrite q seq va b).mem = s.mem := by
  simp [State.hostWrite]

@[simp] theorem stopThreads_mem (j : Nat) : (s.stopThreads j).mem = s.mem :=
  foldl_mem _ _ _ fun _ _ => rfl

@[simp] theorem stopTransfers_mem (j : Nat) : (s.stopTransfers j).mem = s.mem := by rfl
@[simp] theorem eraseSets_mem (j : Nat) : (s.eraseSets j).mem = s.mem := by rfl
@[simp] theorem freeCounters_mem (j : Nat) : (s.freeCounters j).mem = s.mem := by rfl
@[simp] theorem closeCmds_mem (j : Nat) : (s.closeCmds j).mem = s.mem := by rfl
@[simp] theorem dropClaims_mem (l : Launch) : (s.dropClaims l).mem = s.mem := by
  simp [State.dropClaims]

@[simp] theorem dropLaunches_mem (j : Nat) : (s.dropLaunches j).mem = s.mem := by
  refine foldl_mem _ _ _ fun w l => ?_
  split <;> simp

@[simp] theorem passResumes_mem (j : Nat) : (s.passResumes j).mem = s.mem :=
  foldl_mem _ _ _ fun _ _ => rfl

@[simp] theorem hostBuffer_mem (c : Cmd) (va : Nat) (b : List Byte) : (s.hostBuffer c va b).mem = s.mem := by
  unfold State.hostBuffer
  generalize chunks 4096 b = l
  suffices ∀ q : State × Nat, (l.foldl (fun (q : State × Nat) k => (q.1.hostWrite c.q c.seq q.2 k, q.2 + k.length)) q).1.mem =
      q.1.mem from this (s, va)
  induction l with
  | nil => exact fun _ => rfl
  | cons k l ih => exact fun q => (ih _).trans (hostWrite_mem ..)

@[simp] theorem enterJobDebug_mem (j notAfter : Nat) : (s.enterJobDebug j notAfter).mem = s.mem := by rfl
@[simp] theorem forceOut_mem (pk t off n : Nat) : (s.forceOut pk t off n).mem = s.mem := by
  simp [State.forceOut]

@[simp] theorem forceAll_mem (tiles : List Nat) (off n : Nat) : (s.forceAll tiles off n).mem = s.mem := by
  simp [State.forceAll]

@[simp] theorem forceRegion_mem (c lo n : Nat) : (s.forceRegion c lo n).mem = s.mem := by rfl
@[simp] theorem regionBits_mem (k : KImage) (c : Nat) : (s.regionBits k c).mem = s.mem := by
  simp [State.regionBits]

@[simp] theorem enterCore_mem (j kid c : Nat) : (s.enterCore j kid c).mem = s.mem := by
  simp [State.enterCore]

@[simp] theorem queueLaunch_mem (a : Ask) (image : List Byte) (cores : List Nat) :
    (s.queueLaunch a image cores).mem = s.mem := by rfl

@[simp] theorem unqueue_mem (l : Launch) : (s.unqueue l).mem = s.mem := by rfl
@[simp] theorem sendClaims_mem (l : Launch) (p : Partition) : (s.sendClaims l p).mem = s.mem :=
  foldl_mem _ _ _ fun _ _ => rfl

@[simp] theorem holdFor_mem (v : Victim) : (s.holdFor v).mem = s.mem := by
  simp [State.holdFor]

@[simp] theorem acceptCmd_mem (l : Launch) (id : Nat) : (s.acceptCmd l id).mem = s.mem := by
  unfold State.acceptCmd
  split <;> simp

@[simp] theorem noteLateStart_mem (j : Nat) : (s.noteLateStart j).mem = s.mem := by
  simp [State.noteLateStart]

@[simp] theorem partRecord_mem (pk what : Nat) : (s.partRecord pk what).mem = s.mem := by
  simp [State.partRecord]

@[simp] theorem kernelRecord_mem (j kid what : Nat) : (s.kernelRecord j kid what).mem = s.mem := by
  simp [State.kernelRecord]

@[simp] theorem queueResume_mem (j : Nat) (u : Bool × Nat) : (s.queueResume j u).mem = s.mem := by
  unfold State.queueResume
  split <;> rfl

@[simp] theorem stowTiles_mem (pk : Nat) : (s.stowTiles pk).mem = s.mem :=
  foldl_mem _ _ _ fun _ _ => rfl

@[simp] theorem cmdsSaved_mem (cmds : List (Nat × Nat)) (n : Nat) : (s.cmdsSaved cmds n).mem = s.mem :=
  (settle_mem ..).trans (foldl_mem _ _ _ fun _ _ => rfl)

@[simp] theorem partSaved_mem (pk : Nat) : (s.partSaved pk).mem = s.mem := by
  simp [State.partSaved]

@[simp] theorem unwait_mem (t : Nat) : (s.unwait t).mem = s.mem := by rfl
@[simp] theorem takeStoreUe_mem (t : Nat) (va : Word) : (s.takeStoreUe t va).mem = s.mem := by
  simp [State.takeStoreUe]

@[simp] theorem putTiles_mem (pk : Nat) : (s.putTiles pk).mem = s.mem :=
  foldl_mem _ _ _ fun _ _ => rfl

@[simp] theorem applyKept_mem (pk : Nat) : (s.applyKept pk).mem = s.mem := by
  simp [State.applyKept]

@[simp] theorem resumeParts_mem (p : Partition) : (s.resumeParts p).mem = s.mem := by
  simp [State.resumeParts]

@[simp] theorem putThread_mem (j kid c : Nat) (x : Thread) : (s.putThread j kid c x).mem = s.mem := by
  unfold State.putThread
  split <;> rfl

@[simp] theorem hostHoldPart_mem (pk : Nat) (cmd : Nat × Nat) : (s.hostHoldPart pk cmd).mem = s.mem := by
  simp [State.hostHoldPart]

@[simp] theorem hostHoldKernel_mem (j kid : Nat) (cmd : Nat × Nat) : (s.hostHoldKernel j kid cmd).mem = s.mem := by
  simp [State.hostHoldKernel]

@[simp] theorem hostHoldJob_mem (j : Nat) (cmd : Nat × Nat) : (s.hostHoldJob j cmd).mem = s.mem := by
  simp [State.hostHoldJob]

@[simp] theorem releasePart_mem (pk : Nat) (cmd : Nat × Nat) : (s.releasePart pk cmd).mem = s.mem := by
  simp [State.releasePart]

@[simp] theorem releaseKernel_mem (j kid : Nat) (cmd : Nat × Nat) : (s.releaseKernel j kid cmd).mem = s.mem := by
  simp [State.releaseKernel]

@[simp] theorem releaseJob_mem (j : Nat) (cmd : Nat × Nat) : (s.releaseJob j cmd).mem = s.mem := by
  simp [State.releaseJob]

@[simp] theorem holdAll_mem : (s.holdAll).mem = s.mem := by
  simp [State.holdAll]

@[simp] theorem checkAgain_mem (s0 : State) (pk : Nat) : (State.checkAgain s0 pk).mem = s0.mem := by
  simp [State.checkAgain]

@[simp] theorem goOn_mem (pk : Nat) : (s.goOn pk).mem = s.mem := by
  simp [State.goOn]

@[simp] theorem armSlots_mem (q : Nat) : (s.armSlots q).mem = s.mem :=
  foldl_mem _ _ _ fun _ _ => rfl

@[simp] theorem setPod_mem (p : Pod) : (s.setPod p).mem = s.mem := by rfl
@[simp] theorem setPort_mem (n : Nat) (x : Tendril) : (s.setPort n x).mem = s.mem := by rfl
@[simp] theorem relock_mem : (s.relock).mem = s.mem := by rfl
@[simp] theorem newPort_mem (n : Nat) : (s.newPort n).mem = s.mem := by rfl
@[simp] theorem setEth_mem (n : Nat) (x : EthPort) : (s.setEth n x).mem = s.mem := by rfl
@[simp] theorem addressPorts_mem : (s.addressPorts).mem = s.mem :=
  foldl_mem _ _ _ fun _ _ => rfl

@[simp] theorem reroute_mem (o : RemoteOp) : (s.reroute o).mem = s.mem := by rfl
@[simp] theorem setClock_mem (c : Clock) : (s.setClock c).mem = s.mem := by rfl
@[simp] theorem correct_mem (c : Int) : (s.correct c).mem = s.mem := by rfl
@[simp] theorem takeCorr_mem : (s.takeCorr).mem = s.mem := by
  unfold State.takeCorr
  dsimp only
  split <;> simp

@[simp] theorem stepTime_mem (c : Int) : (s.stepTime c).mem = s.mem := by rfl
@[simp] theorem anchorTimes_mem : (s.anchorTimes).mem = s.mem := by
  simp [State.anchorTimes]

@[simp] theorem timestampOn_mem (n : Nat) : (s.timestampOn n).mem = s.mem := by rfl
@[simp] theorem startPart_mem (pk no : Nat) (at_ : Word) : (s.startPart pk no at_).mem = s.mem := by rfl
@[simp] theorem castFreeze_mem (pk : Nat) (cyc : Int) (at_ : Word) : (s.castFreeze pk cyc at_).mem = s.mem := by
  unfold State.castFreeze
  split <;> rfl

@[simp] theorem castLatch_mem (pk sl pub : Nat) (cyc : Int) : (s.castLatch pk sl pub cyc).mem = s.mem := by
  unfold State.castLatch
  dsimp only
  split <;> simp

@[simp] theorem castChoice_mem (pk : Nat) (cyc : Int) (runs skips : Nat) :
    (s.castChoice pk cyc runs skips).mem = s.mem := by
  simp [State.castChoice]

@[simp] theorem takeAnswer_mem (j no answer : Nat) (from_ : Nat × Nat) :
    (s.takeAnswer j no answer from_).mem = s.mem := by rfl

@[simp] theorem endPart_mem (j no : Nat) : (s.endPart j no).mem = s.mem := by
  unfold State.endPart
  split <;> simp

@[simp] theorem partOver_mem (j no : Nat) (from_ : Nat × Nat) : (s.partOver j no from_).mem = s.mem := by
  unfold State.partOver
  split <;> rfl

@[simp] theorem setPower_mem (p : Power) : (s.setPower p).mem = s.mem := by rfl
@[simp] theorem throttlePart_mem (d pk : Nat) : (s.throttlePart d pk).mem = s.mem := by
  simp [State.throttlePart]

@[simp] theorem askStart_mem (a : Option Bool) : (s.askStart a).mem = s.mem := by rfl
@[simp] theorem makePlan_mem (online : Bool) (readings : List Byte) : (s.makePlan online readings).mem = s.mem :=
  foldl_mem _ _ _ fun _ _ => rfl

@[simp] theorem startQueues_mem : s.startQueues.mem = s.mem :=
  foldl_mem _ _ _ fun _ q => (armSlots_mem _ q).trans rfl

@[simp] theorem startOk_mem (warm kept : Bool) (readings : List Byte) : (s.startOk warm kept readings).mem = s.mem :=
  (makePlan_mem ..).trans ((startQueues_mem _).trans ((addressPorts_mem _).trans rfl))

@[simp] theorem setStack_mem (n : Nat) (x : Stack) : (s.setStack n x).mem = s.mem := by rfl
@[simp] theorem passEcc_mem (b : Nat) : (s.passEcc b).mem = s.mem := by
  simp [State.passEcc]

@[simp] theorem passRows_mem (b : Nat) : (s.passRows b).mem = s.mem := by
  simp [State.passRows]

@[simp] theorem scrubOn_mem : (s.scrubOn).mem = s.mem := by
  simp [State.scrubOn]

@[simp] theorem passTime_mem : (s.passTime).mem = s.mem := by
  unfold State.passTime
  split <;> simp

@[simp] theorem passCore_mem (c : Nat) : (s.passCore c).mem = s.mem := by
  simp [State.passCore]

@[simp] theorem passPower_mem : (s.passPower).mem = s.mem := by rfl
@[simp] theorem spareCycle_mem (c : Nat) (tried : Bool) : (s.spareCycle c tried).mem = s.mem := by
  unfold State.spareCycle
  simp
  split <;> simp

@[simp] theorem passMonitors_mem : (s.passMonitors).mem = s.mem := by
  unfold State.passMonitors
  split <;> rfl

end

end Sys2Proof.CanonicalMemory
end

section
/-! PROOF. Storage and the accesses of threads keep the canonical form of memory (log entry 2; 06 R137, R151): what writes,
reads, gates and
buffers it for an instruction. The rule of a function `f` is `f_canon`. -/

namespace Sys2Proof.CanonicalMemory

open Sys2Proof
open Sys2Proof.Machine

/-- Every state that a result holds has canonical memory: the one in which an instruction ends early, and what the value says.
-/
def Ends {α : Type} (P : α → Prop) : Except State α → Prop
  | .ok a => P a
  | .error e => Canon e.mem

/-- The next state of an outcome, where it has one, has canonical memory. -/
def CanonOut : Out → Prop
  | .next t => Canon t.mem
  | _ => True

@[simp] theorem canonOut_next (t : State) : CanonOut (.next t) ↔ Canon t.mem := Iff.rfl
@[simp] theorem ends_ok {α : Type} {P : α → Prop} (a : α) : Ends P (.ok a) ↔ P a := Iff.rfl
@[simp] theorem ends_error {α : Type} {P : α → Prop} (e : State) : Ends P (.error e) ↔ Canon e.mem := Iff.rfl

theorem Ends.of_error {α : Type} {P : α → Prop} {r : Except State α} (h : Ends P r) {e : State} (he : r = .error e) :
    Canon e.mem := by
  rwa [he] at h

theorem Ends.of_ok {α : Type} {P : α → Prop} {r : Except State α} (h : Ends P r) {a : α} (ha : r = .ok a) : P a := by
  rwa [ha] at h

theorem Ends.ended {r : Except State State} (h : Ends (fun t => Canon t.mem) r) : Canon (ended r).mem := by
  cases r <;> exact h

theorem canon_foldl {β : Type} {f : State → β → State} (l : List β) {s : State} (h : Canon s.mem)
    (hf : ∀ w b, Canon w.mem → Canon (f w b).mem) : Canon (l.foldl f s).mem :=
  foldl_keeps (fun w => Canon w.mem) f hf l s h

theorem canon_foldl_fst {β γ : Type} {f : State × γ → β → State × γ} (l : List β) {q : State × γ} (h : Canon q.1.mem)
    (hf : ∀ q b, Canon q.1.mem → Canon (f q b).1.mem) : Canon (l.foldl f q).1.mem := by
  induction l generalizing q with
  | nil => exact h
  | cons b l ih => exact ih (hf q b h)

theorem canon_ite {c : Prop} [Decidable c] {a b : State} (ha : Canon a.mem) (hb : Canon b.mem) :
    Canon (if c then a else b).mem := by
  split <;> assumption

section
variable {s : State} (h : Canon s.mem)
include h

@[simp] theorem putMem_canon (pa : Nat) (b : List Byte) : Canon (s.putMem pa b).mem := putMem_memWf s pa b h

@[simp] theorem putSound_canon (pa : Nat) (b : List Byte) : Canon (s.putSound pa b).mem :=
  canon_foldl _ h fun _ _ hw => canon_ite hw (putMem_canon hw ..)

@[simp] theorem perform_canon (pa : Nat) (b : List Byte) (w : WTag) : Canon (s.perform pa b w).mem := by
  simp [State.perform, h]

@[simp] theorem performQuiet_canon (pa : Nat) (b : List Byte) (w : WTag) : Canon (s.performQuiet pa b w).mem := by
  unfold State.performQuiet
  dsimp only
  split <;> simp [h]

theorem xpart_canon (opc va n : Nat) (need : Need) : Ends (fun _ => True) (s.xpart opc va n need) := by
  unfold State.xpart
  split <;> simp [h]

theorem xparts_canon (opc va n : Nat) (need : Need) : Ends (fun _ => True) (s.xparts opc va n need) := by
  unfold State.xparts
  dsimp only
  split
  · next e => exact (xpart_canon h ..).of_error e
  · split
    · trivial
    · split
      · next e => exact (xpart_canon h ..).of_error e
      · split <;> trivial

@[simp] theorem flushWord_canon (l : Line) (i : Nat) : Canon (s.flushWord l i).mem := by
  unfold State.flushWord
  dsimp only
  split
  · exact h
  · split <;> simp [h]

@[simp] theorem flushGranule_canon (l : Line) (g : Nat) : Canon (s.flushGranule l g).mem :=
  canon_foldl _ (canon_ite h h) fun _ _ hw => flushWord_canon hw ..

@[simp] theorem flushWords_canon (c num : Nat) (mask : BitVec 16) : Canon (s.flushWords c num mask).mem := by
  unfold State.flushWords
  split
  · exact h
  · exact canon_foldl _ h fun _ _ hw => flushGranule_canon hw ..

@[simp] theorem flushLine_canon (c num : Nat) : Canon (s.flushLine c num).mem := flushWords_canon h ..

@[simp] theorem flushRlc_canon (c : Nat) : Canon (s.flushRlc c).mem :=
  canon_foldl _ h fun _ _ hw => flushLine_canon hw ..

@[simp] theorem evictLine_canon (c num : Nat) : Canon (s.evictLine c num).mem := flushLine_canon h ..

@[simp] theorem makeRoom_canon (c num : Nat) : Canon (s.makeRoom c num).mem := by
  unfold State.makeRoom
  split
  · exact h
  · split <;> simp [h]

@[simp] theorem fillLine_canon (c pa n : Nat) (rox : Bool) : Canon (s.fillLine c pa n rox).mem := makeRoom_canon h ..

@[simp] theorem loadPart_canon (p : Part) (fresh : Bool) : Canon (s.loadPart p fresh).2.2.mem := by
  unfold State.loadPart
  dsimp only
  split
  · split
    · exact h
    · split
      · exact h
      · exact canon_foldl _ h fun _ _ hw => fillLine_canon hw ..
  · have h1 : Canon (if s.isFar (coreOf s.cur) p.pa = true then (lineParts p.pa p.len).foldl
        (fun r q => r.flushWords (coreOf s.cur) (q.1 / 128) (wordMask q.1 q.2)) s else s).mem :=
      canon_ite (canon_foldl _ h fun _ _ hw => flushWords_canon hw ..) h
    split
    · simpa using h1
    · exact h1

@[simp] theorem acquire_canon (sc : Scope) : Canon (s.acquire sc).mem := by
  simp only [State.acquire, State.setTh, State.setThread_mem]
  exact canon_ite (by simp [h]) h

@[simp] theorem writeThrough_canon (sc : Scope) : Canon (s.writeThrough sc).mem := canon_ite (flushRlc_canon h _) h

@[simp] theorem release_canon (sc : Scope) : Canon (s.release sc).mem := writeThrough_canon h sc

theorem takeDeferred_canon {rpeDue : Bool} {t : State} (e : s.takeDeferred rpeDue = some t) : Canon t.mem := by
  unfold State.takeDeferred at e
  dsimp only at e
  split_ifs at e <;> cases e <;> simp [h]

@[simp] theorem putHome_canon (pa : Nat) (b : List Byte) (w : WTag) : Canon (s.putHome pa b w).mem :=
  canon_ite (by simp [h]) (perform_canon h ..)

@[simp] theorem writePieces_canon (w : WTag) (quiet : Bool) (ps : List (Nat × Nat)) (b : List Byte) :
    Canon (s.writePieces w quiet ps b).mem := by
  induction ps generalizing s b with
  | nil => exact h
  | cons p ps ih => exact ih (canon_ite (by simp [h]) (canon_ite (performQuiet_canon h ..) (perform_canon h ..))) _

theorem writeVa_canon {j : Nat} {lvl : Level} {va : Nat} {b : List Byte} {w : WTag} {quiet : Bool} {tlb : List Leaf} {t : State}
    (e : s.writeVa j lvl va b w quiet tlb = .ok t) : Canon t.mem := by
  unfold State.writeVa at e
  split at e
  · cases e
  · split at e <;> cases e
    exact writePieces_canon h ..

theorem fpDone_canon (flags lanes : Nat) (write : Thread → Thread) :
    Ends (fun t => Canon t.mem) (s.fpDone flags lanes write) := by
  unfold State.fpDone
  dsimp only
  split <;> simp [h]

@[simp] theorem closeRun_canon (j g : Nat) : Canon (s.closeRun j g).mem := by
  unfold State.closeRun
  dsimp only
  split
  · exact h
  · split
    · exact h
    · split
      · exact h
      · next s1 e1 =>
        split
        · exact h
        · next s2 e2 => exact (writeVa_canon (writeVa_canon h e1) e2 : Canon s2.mem)

@[simp] theorem recordServed_canon (j g tid : Nat) : Canon (s.recordServed j g tid).mem := by
  have h1 : Canon (if (s.gateLog j g).runLen ≠ 0 ∧ (s.gateLog j g).runTid ≠ tid then s.closeRun j g else s).mem :=
    canon_ite (closeRun_canon h ..) h
  exact canon_ite h1 (canon_ite (closeRun_canon (s := State.setGateLog ..) h1 ..) h1)

@[simp] theorem gateServed_canon (j g tid : Nat) : Canon (s.gateServed j g tid).mem := by
  unfold State.gateServed
  split <;> simp [h]

@[simp] theorem writeOr_canon (lost : Bool) (va : Word) (pa : Nat) (b : List Byte) (w : WTag) :
    Canon (s.writeOr lost va pa b w).mem :=
  canon_ite ((deferFault_mem ..).symm ▸ h) (putHome_canon h ..)

/-- The ordering that an atomic does after its effect. -/
theorem ordered_canon (rlx : Bool) (pa : Nat) (sc acq : Scope) :
    Canon (if rlx = true then s.noteAccess pa else ((s.noteAccess pa).release sc).acquire acq).mem :=
  by split <;> simp [h]

@[simp] theorem serveAmo_canon (pa : Nat) (va : Word) (size fn : Nat) (operand : Word) (rlx : Bool) (d : Nat) :
    Canon (s.serveAmo pa va size fn operand rlx d).mem := by
  unfold State.serveAmo
  dsimp only
  split
  · exact ordered_canon (writeOr_canon (by simp [h]) ..) ..
  · simp [h]

@[simp] theorem serveCas_canon (pa : Nat) (va : Word) (size : Nat) (expected new : Word) (rlx : Bool) (d : Nat) :
    Canon (s.serveCas pa va size expected new rlx d).mem := by
  unfold State.serveCas
  dsimp only
  split
  · split
    · split
      · exact ordered_canon (writeOr_canon (by simp [h]) ..) ..
      · simp [h]
    · exact canon_ite (by simp [h]) (acquire_canon (by simp [h]) _)
  · simp [h]

@[simp] theorem serveRegion_canon (pa : Nat) (va : Word) (status abandon : Nat) :
    Canon (s.serveRegion pa va status abandon).mem := by
  unfold State.serveRegion
  split
  · simp [h]
  · dsimp only
    split
    · simp [h]
    · split
      · split
        · exact h
        · refine acquire_canon (release_canon ?_ _) _
          refine canon_foldl _ (canon_foldl _ ?_ fun _ _ hw => hw) fun _ _ hw => hw
          exact canon_ite (by simp [h]) (canon_foldl _ h fun _ _ hw => putHome_canon hw ..)
      · simp [h]

theorem serveTake_canon {pa d : Nat} {empties : Bool} {t : State} (e : s.serveTake pa d empties = some t) : Canon t.mem := by
  unfold State.serveTake at e
  split at e <;> cases e
  split
  · simp [h]
  · split <;> simp [h]

theorem servePut_canon {pa : Nat} {va v : Word} {waits : Bool} {t : State} (e : s.servePut pa va v waits = some t) :
    Canon t.mem := by
  unfold State.servePut at e
  split at e <;> cases e
  simp [h]

@[simp] theorem evictFor_canon (pa : Nat) : Canon (s.evictFor pa).mem := evictLine_canon h ..

theorem serveOp_canon {op : GateOp} {t : State} (e : s.serveOp op = some t) : Canon t.mem := by
  cases op with
  | ldf | ldp => exact serveTake_canon h e
  | ste | stf => exact servePut_canon h e
  | amo | cas | region | fec | alc | fre => cases e; simp [h]

@[simp] theorem gateRequest_canon (g : Nat) (op : GateOp) : Canon (s.gateRequest g op).mem := by
  unfold State.gateRequest
  split
  · simp [h]
  · split
    · split
      · next s1 e => simp [serveOp_canon h e]
      · simp [h]
    · simp [h]

theorem serveReq_canon {r : GateReq} {t : State} (e : s.serveReq r = some t) : Canon t.mem := by
  unfold State.serveReq at e
  split at e
  · cases e
  · next s1 e1 =>
    cases e
    exact gateServed_canon (serveOp_canon (s := { s with cur := r.thr }) h e1) ..

theorem serveFirst_canon {l : List GateReq} {t : State} (e : s.serveFirst l = some t) : Canon t.mem := by
  induction l with
  | nil => cases e
  | cons r l ih =>
    unfold State.serveFirst at e
    split at e
    · exact ih e
    · split at e
      · next s1 e1 => cases e; exact serveReq_canon h e1
      · exact ih e

@[simp] theorem offerAll_canon (l : List GateReq) : Canon (s.offerAll l).mem := by
  induction l generalizing s with
  | nil => exact h
  | cons r l ih =>
    unfold State.offerAll
    split
    · next s1 e => exact ih (serveReq_canon h e)
    · exact ih h

@[simp] theorem loadParts_canon (fresh : Bool) (ps : List Part) : Canon (s.loadParts fresh ps).2.2.mem := by
  induction ps generalizing s with
  | nil => exact h
  | cons p ps ih =>
    have hp := loadPart_canon h p fresh
    unfold State.loadParts
    split
    · exact ih h
    · split
      · exact ih h
      · split
        · next s1 e => exact ih (by simpa [e] using hp)
        · next s1 e => simpa [e] using hp

theorem noteLoads_canon (ps : List Part) (fresh : Bool) :
    Canon (ps.foldl (fun w p => (w.noteLoad p fresh).noteAccess p.pa) s).mem :=
  canon_foldl _ h fun _ _ hw => by simpa using hw

theorem loadAll_canon (opc : Nat) (va : Word) (ps : List Part) (fresh : Bool) :
    Ends (fun p => Canon p.2.mem) (s.loadAll opc va ps fresh) := by
  have hl := loadParts_canon h fresh ps
  unfold State.loadAll
  split
  · simp [h]
  · simp [h]
  · split
    · next s1 e =>
      rw [e] at hl
      exact noteLoads_canon hl ..
    · simp [h]
    · simp [h]

theorem storageCheck_canon (va : Word) (size : Nat) (ps : List Part) : Ends (fun _ => True) (s.storageCheck va size ps) := by
  unfold State.storageCheck
  split_ifs <;> simp [h]

theorem sbEmpty_canon (opc : Nat) : Ends (fun _ => True) (s.sbEmpty opc) := by
  unfold State.sbEmpty
  split <;> simp [h]

theorem mmioLoad_canon (opc pa : Nat) : Ends (fun p => Canon p.2.mem) (s.mmioLoad opc pa) := by
  unfold State.mmioLoad
  split
  · next e => exact (sbEmpty_canon h opc).of_error e
  · split <;> simp [h]

theorem scalarLoad_canon (opc : Nat) (va : Word) (size : Nat) (acq home : Bool) :
    Ends (fun p => Canon p.2.mem) (s.scalarLoad opc va size acq home) := by
  unfold State.scalarLoad
  split
  · next e => exact (xparts_canon h ..).of_error e
  · split
    · next e => exact (storageCheck_canon h ..).of_error e
    · split
      · next e => exact (mmioLoad_canon h ..).of_error e
      · next e =>
        have h1 := (mmioLoad_canon h ..).of_ok e
        exact canon_ite (acquire_canon h1 _) h1
    · split
      · simp [h]
      · split
        · next e => exact (loadAll_canon h ..).of_error e
        · next e =>
          have h1 := (loadAll_canon h ..).of_ok e
          exact canon_ite (acquire_canon h1 _) h1

theorem loadInstr_canon (opc : Nat) (d : BitVec 5) (va : Word) (wc : BitVec 3) (acq home : Bool) :
    Ends (fun t => Canon t.mem) (loadInstr opc d va wc acq home s) := by
  unfold loadInstr
  split
  · next e => exact (scalarLoad_canon h ..).of_error e
  · next e => exact (scalarLoad_canon h ..).of_ok e

theorem readyRelease_canon (opc : Nat) (sc : Scope) : Ends (fun t => Canon t.mem) (s.readyRelease opc sc) := by
  unfold State.readyRelease
  split
  · next e => exact takeDeferred_canon h e
  · split
    · next e => exact (sbEmpty_canon h opc).of_error e
    · simp [h]

theorem beforeRelease_canon (opc : Nat) (sc : Scope) : Ends (fun t => Canon t.mem) (s.beforeRelease opc sc) := by
  unfold State.beforeRelease
  split
  · next e => exact (readyRelease_canon h ..).of_error e
  · next e => exact release_canon ((readyRelease_canon h ..).of_ok e) sc

theorem enterStore_canon (opc : Nat) (parts : List SbPart) (rel joint : Bool) :
    Ends (fun t => Canon t.mem) (s.enterStore opc parts rel joint) := by
  unfold State.enterStore
  split
  · simp [h]
  · exact canon_foldl _ h fun _ _ hw => hw

@[simp] theorem mmioPut_canon (pa : Nat) (r : Reg) (v : Word) : Canon (s.mmioPut pa r v).mem := by
  unfold State.mmioPut
  cases r <;> simp [h]

theorem mmioStore_canon (opc pa : Nat) (v : Word) (rel : Bool) : Ends (fun t => Canon t.mem) (s.mmioStore opc pa v rel) := by
  have hrel : Ends (fun t => Canon t.mem) (if rel then s.beforeRelease opc (s.th.effRelease .pkg) else .ok s) := by
    split
    · exact beforeRelease_canon h ..
    · exact h
  unfold State.mmioStore
  split
  · next e => exact (sbEmpty_canon h opc).of_error e
  · split
    · simp [h]
    · split
      · simp [h]
      · split
        · next e => exact hrel.of_error e
        · next e => exact mmioPut_canon (hrel.of_ok e) ..

theorem scalarStore_canon (opc : Nat) (va : Word) (b : List Byte) (rel : Bool) :
    Ends (fun t => Canon t.mem) (s.scalarStore opc va b rel) := by
  unfold State.scalarStore
  split
  · next e => exact (xparts_canon h ..).of_error e
  · next ps _ =>
    have hrel : Ends (fun t => Canon t.mem) (if rel then s.beforeRelease opc (s.th.effRelease (s.partsScope ps)) else .ok s) := by
      split
      · exact beforeRelease_canon h ..
      · exact h
    split
    · next e => exact (storageCheck_canon h ..).of_error e
    · exact mmioStore_canon h ..
    · split
      · simp [h]
      · split
        · next e => exact hrel.of_error e
        · next e => exact enterStore_canon (hrel.of_ok e) ..

theorem storeInstr_canon (opc : Nat) (src : BitVec 5) (va : Word) (wc : BitVec 3) (rel : Bool) :
    Ends (fun t => Canon t.mem) (storeInstr opc src va wc rel s) := by
  unfold storeInstr
  dsimp only
  split
  · next e => exact (scalarStore_canon h ..).of_error e
  · next e =>
    have h1 := (scalarStore_canon h ..).of_ok e
    exact h1

@[simp] theorem drainHome_canon (t : Nat) (va : Word) (pa : Nat) (b : List Byte) (tag : WTag) :
    Canon (s.drainHome t va pa b tag).mem := by
  unfold State.drainHome
  split
  · simp [h]
  · split <;> simp [h]

@[simp] theorem drainWord_canon (t : Nat) (va : Word) (pa : Nat) (b : List Byte) (tag : WTag) (rox : Bool) :
    Canon (s.drainWord t va pa b tag rox).mem := makeRoom_canon h ..

@[simp] theorem drainSide_canon (t : Nat) (e : SbEntry) (p : SbPart) (tag : WTag) : Canon (s.drainSide t e p tag).mem := by
  unfold State.drainSide
  dsimp only
  split
  · split <;> simp [h]
  · simp [h]

@[simp] theorem drainPart_canon (t : Nat) (e : SbEntry) (p : SbPart) : Canon (s.drainPart t e p).mem :=
  canon_ite (canon_foldl _ h fun _ _ hw => canon_ite (drainWord_canon hw ..) (drainHome_canon hw ..)) (drainSide_canon h ..)

@[simp] theorem drainOldest_canon (t : Nat) : Canon (s.drainOldest t).mem := by
  unfold State.drainOldest
  split
  · exact h
  · exact canon_foldl _ h fun _ _ hw => drainPart_canon hw ..

@[simp] theorem drainNext_canon (t : Nat) : Canon (s.drainNext t).mem := by
  unfold State.drainNext
  split
  · exact h
  · split
    · exact h
    · split <;> simp [h]

theorem feCheck_canon (opc : Nat) (va : Word) (need : Need) : Ends (fun _ => True) (s.feCheck opc va need) := by
  unfold State.feCheck
  split
  · simp [h]
  · split
    · next e => exact (xpart_canon h ..).of_error e
    · split <;> simp [h]

theorem sbClear_canon (opc pa n : Nat) : Ends (fun _ => True) (s.sbClear opc pa n) := by
  unfold State.sbClear
  split <;> simp [h]

theorem takeInstr_canon (opc : Nat) (d base : BitVec 5) (off : BitVec 9) (need : Need) (op : Nat → Nat → GateOp) :
    Ends (fun t => Canon t.mem) (takeInstr opc d base off need op s) := by
  unfold takeInstr
  split
  · next e => exact (feCheck_canon h ..).of_error e
  · split
    · next e => exact (sbClear_canon h ..).of_error e
    · simp [h]

theorem putInstr_canon (opc : Nat) (src base : BitVec 5) (off : BitVec 9) (op : Nat → Word → Word → GateOp) :
    Ends (fun t => Canon t.mem) (putInstr opc src base off op s) := by
  unfold putInstr
  dsimp only
  split
  · next e => exact (feCheck_canon h ..).of_error e
  · split
    · next e => exact (readyRelease_canon h ..).of_error e
    · next e => exact gateRequest_canon ((readyRelease_canon h ..).of_ok e) ..

theorem atomicStart_canon (opc : Nat) (va : Word) (size : Nat) (rlx : Bool) :
    Ends (fun p => Canon p.2.mem) (s.atomicStart opc va size rlx) := by
  unfold State.atomicStart
  split
  · simp [h]
  · split
    · next e => exact (xpart_canon h ..).of_error e
    · split
      · simp [h]
      · split
        · split
          · next e => exact (sbClear_canon h ..).of_error e
          · simp [h]
        · split
          · next e => exact (readyRelease_canon h ..).of_error e
          · next e =>
            have h1 := (readyRelease_canon h ..).of_ok e
            exact h1

theorem fencePa_canon (a : BitVec 5) (sc : BitVec 3) : Ends (fun _ => True) (s.fencePa a sc) := by
  unfold State.fencePa
  split
  · trivial
  · split
    · trivial
    · split
      · next e => exact (xpart_canon h ..).of_error e
      · split <;> simp [h]

theorem laneParts_canon (opc : Nat) (need : Need) (whole : Bool) (va : Word) :
    Ends (fun _ => True) (s.laneParts opc need whole va) := by
  unfold State.laneParts
  extract_lets n1 one
  have hone : ∀ v n, Ends (fun _ => True) (one v n) := by
    intro v n
    simp only [one]
    split
    · split_ifs
      · simp [h]
      · split <;> simp [h]
      · simp [h]
      · trivial
    · simp [h]
    · simp [h]
  split
  · next e => exact (hone ..).of_error e
  · split
    · trivial
    · split
      · next e => exact (hone ..).of_error e
      · trivial

theorem allLanes_canon (opc : Nat) (need : Need) (whole : Bool) (addr : Nat → Word) (l : List Nat) :
    Ends (fun _ => True) (s.allLanes opc need whole addr l) := by
  induction l with
  | nil => trivial
  | cons i l ih =>
    unfold State.allLanes
    split
    · next e => exact (laneParts_canon h ..).of_error e
    · split
      · next e => exact ih.of_error e
      · trivial

theorem readLanes_canon (opc : Nat) (addr : Nat → Word) (fresh : Bool) (ls : List (Nat × List Part)) :
    Ends (fun p => Canon p.2.mem) (s.readLanes opc addr fresh ls) := by
  induction ls generalizing s with
  | nil => exact h
  | cons q ls ih =>
    have hl := loadParts_canon h fresh q.2
    have hb : Canon (s.noteBuffered q.2).mem := by simp [h]
    unfold State.readLanes
    split
    · split
      · next e => exact (ih hb).of_error e
      · next e =>
        have h1 := (ih hb).of_ok e
        exact h1
    · split
      · next e1 =>
        rw [e1] at hl
        have h1 := noteLoads_canon hl q.2 fresh
        split
        · next e => exact (ih h1).of_error e
        · next e =>
          have h2 := (ih h1).of_ok e
          exact h2
      · simp [h]
      · simp [h]

@[simp] theorem putLanes_canon (vd : BitVec 3) (ls : List (Nat × List Part)) : Canon (s.putLanes vd ls).mem := by
  refine canon_foldl _ h fun w q hw => ?_
  dsimp only
  split
  · exact mmioPut_canon hw ..
  · exact hw

end

end Sys2Proof.CanonicalMemory
end

section
/-! PROOF. Packets, messages, engines, counters, banks and the plane's landings keep the canonical form of memory (log entry
2; 06 R137, R158
to R173). -/

namespace Sys2Proof.CanonicalMemory

open Sys2Proof
open Sys2Proof.Machine

section
variable {s : State} (h : Canon s.mem)
include h

theorem endPkt_canon (kind : Nat) (p : Packet) (j : Nat) (need : Need) (n : Nat) {r : Except XErr (State × Nat × List Byte)}
    (hr : ∀ q, r = .ok q → Canon q.1.mem) : Canon (s.endPkt kind p j need n r).mem := by
  unfold State.endPkt
  split
  · simp [h]
  · split
    · simp [h]
    · have h1 := hr _ rfl
      simpa using h1

theorem endPkt_map_canon {α : Type} (kind : Nat) (p : Packet) (j : Nat) (need : Need) (n : Nat) {r : Except XErr α}
    {f : α → State × Nat × List Byte} (hr : ∀ a, r = .ok a → Canon (f a).1.mem) :
    Canon (s.endPkt kind p j need n (r.map f)).mem := by
  refine endPkt_canon h _ _ _ _ _ fun q e => ?_
  cases r with
  | error c => cases e
  | ok a => cases e; exact hr a rfl

theorem forJob_canon (p : Packet) {f : Nat → State} (hf : ∀ j, Canon (f j).mem) : Canon (s.forJob p f).mem := by
  unfold State.forJob
  split
  · exact hf _
  · simp [h]

theorem receive_canon (kind : Nat) (p : Packet) {f : State → State} (hf : Canon (f s).mem) :
    Canon (s.receive kind p f).mem := by
  unfold State.receive
  split
  · exact h
  · split
    · exact h
    · split
      · exact h
      · split
        · exact h
        · exact canon_ite hf (by simpa using hf)

theorem feedWrite_canon {pa : Nat} {b : List Byte} {t : State} (e : s.feedWrite pa b = .ok t) : Canon t.mem := by
  unfold State.feedWrite at e
  split at e
  · split at e <;> cases e
    exact canon_ite h h
  · cases e

theorem accumVa_canon {j : Nat} {lvl : Level} {va ty fn : Nat} {b : List Byte} {w : WTag} {tlb : List Leaf} {t : State}
    (e : s.accumVa j lvl va ty fn b w tlb = .ok t) : Canon t.mem := by
  unfold State.accumVa at e
  split at e
  · cases e
  · split at e
    · cases e
    · split at e <;> cases e
      exact writePieces_canon h ..

theorem writePkt_canon {p : Packet} {j : Nat} {t : State} (e : s.writePkt p j = .ok t) : Canon t.mem := by
  unfold State.writePkt at e
  split at e
  · exact feedWrite_canon h e
  · split at e
    · exact accumVa_canon h e
    · exact writeVa_canon h e

@[simp] theorem regionWrite_canon (q : Nat) (p : Packet) : Canon (s.regionWrite q p).mem :=
  canon_ite (canon_ite (by simp [h]) (by simp [h])) (by simp [h])

@[simp] theorem rmaWrite_canon (p : Packet) : Canon (s.rmaWrite p).mem := by
  unfold State.rmaWrite
  split
  · simp [h]
  · exact forJob_canon h p fun j => endPkt_map_canon h _ _ _ _ _ fun t e => writePkt_canon h e

@[simp] theorem rmaRead_canon (p : Packet) : Canon (s.rmaRead p).mem := by
  refine forJob_canon h p fun j => ?_
  split
  · refine endPkt_canon h _ _ _ _ _ fun q e => ?_
    split at e
    · split at e <;> cases e
      exact h
    · cases e
  · exact endPkt_map_canon h _ _ _ _ _ fun _ _ => h

theorem addWord_canon {j va : Nat} {addend : Word} {q : State × Word} (e : s.addWord j va addend = .ok q) : Canon q.1.mem := by
  unfold State.addWord at e
  split at e
  · cases e
  · split at e
    · cases e
    · cases e
    · split at e
      · cases e
      · split at e <;> cases e
        exact perform_canon h ..

@[simp] theorem fetchAddPkt_canon (p : Packet) : Canon (s.fetchAddPkt p).mem := by
  exact forJob_canon h p fun j => endPkt_map_canon h _ _ _ _ _ fun q e => addWord_canon h e

@[simp] theorem addPkt_canon (p : Packet) : Canon (s.addPkt p).mem := by
  refine forJob_canon h p fun j => ?_
  split
  · exact canon_ite (by simp [h]) (by simp [h])
  · exact endPkt_map_canon h _ _ _ _ _ fun q e => addWord_canon h e

theorem call_canon (target : Word) (opc : Nat) : Ends (fun t => Canon t.mem) (s.call target opc) := by
  unfold State.call
  dsimp only
  split
  · split <;> simp [h]
  · exact h

@[simp] theorem acquireFor_canon (t : Nat) (sc : Scope) : Canon (s.acquireFor t sc).mem :=
  acquire_canon (s := { s with cur := t }) h sc

theorem digestPoint_canon : Ends (fun t => Canon t.mem) s.digestPoint := by
  unfold State.digestPoint
  dsimp only
  split
  · split
    · exact h
    · split
      · simp [h]
      · split
        · simp [h]
        · next s1 e1 =>
          split
          · simp [h]
          · next s2 e2 =>
            have h2 := writeVa_canon (writeVa_canon h e1) e2
            exact h2
  · split
    · split
      · split
        · simp [h]
        · split <;> simp [h]
      · simp [h]
    · exact h

theorem plainRelease_canon (opc : Nat) (sc : Scope) : Ends (fun t => Canon t.mem) (s.plainRelease opc sc) := by
  unfold State.plainRelease
  split
  · next e => exact (sbEmpty_canon h opc).of_error e
  · simp [h]

theorem sendCheck_canon (w : Word) (most : Nat) : Ends (fun _ => True) (s.sendCheck w most) := by
  unfold State.sendCheck
  dsimp only
  split_ifs <;> simp [h]

theorem writeHandler_canon (n : Nat) (lo hi : Word) : Ends (fun t => Canon t.mem) (s.writeHandler n lo hi) := by
  unfold State.writeHandler
  dsimp only
  split_ifs <;> simp [h]

theorem writeRing_canon (n : Nat) (w : Word) : Ends (fun t => Canon t.mem) (s.writeRing n w) := by
  unfold State.writeRing
  dsimp only
  split_ifs <;> simp [h]

theorem landIn_canon {m : Msg} {r : Nat} {unhandled : Bool} {t : State} (e : s.landIn m r unhandled = some t) :
    Canon t.mem := by
  unfold State.landIn at e
  dsimp only at e
  split at e <;> cases e
  exact performQuiet_canon (performQuiet_canon (performQuiet_canon h ..) ..) ..

theorem landUnhandled_canon {m : Msg} {t : State} (e : s.landUnhandled m = some t) : Canon t.mem := by
  unfold State.landUnhandled at e
  split at e
  · cases e
  · next s1 e1 =>
    cases e
    have h1 := landIn_canon h e1
    exact canon_ite h1 (by simpa using h1)

theorem deliver_canon {m : Msg} {t : State} (e : s.deliver m = some t) : Canon t.mem := by
  unfold State.deliver at e
  dsimp only at e
  split at e
  · split at e <;> cases e
    simp [h]
  · split at e
    · exact landIn_canon h e
    · split at e
      · split at e
        · exact landIn_canon h e
        · exact landUnhandled_canon h e
      · split at e
        · split at e <;> cases e
          exact h
        · exact landUnhandled_canon h e

theorem replySaved_canon {p : Reply} {t : State} (e : s.replySaved p = some t) : Canon t.mem := by
  unfold State.replySaved at e
  dsimp only at e
  split at e <;> cases e
  exact h

@[simp] theorem serveReply_canon (p : Reply) : Canon (s.serveReply p).mem := by
  unfold State.serveReply
  dsimp only
  split
  · exact acquireFor_canon (s := s.setThread _ _) h ..
  · split
    · next e => exact replySaved_canon h e
    · exact h

@[simp] theorem spawnNow_canon (r : SpawnReq) (slot id : Nat) : Canon (s.spawnNow r slot id).mem := by
  simp [State.spawnNow, h]

theorem serveSpawn_canon {r : SpawnReq} {t : State} (e : s.serveSpawn r = some t) : Canon t.mem := by
  unfold State.serveSpawn at e
  split at e
  · cases e
    exact gateServed_canon ((trapOf_mem ..).symm ▸ h) ..
  · cases e
  · obtain ⟨id, -, rfl⟩ := Option.map_eq_some_iff.1 e
    exact spawnNow_canon h ..

@[simp] theorem offerSpawn_canon (r : SpawnReq) : Canon (s.offerSpawn r).mem := by
  unfold State.offerSpawn
  cases e : State.serveSpawn { s with spawns := s.spawns.erase r } r with
  | none => exact h
  | some t => exact serveSpawn_canon (s := { s with spawns := s.spawns.erase r }) h e

@[simp] theorem offerSent_canon (m : Sent) : Canon (s.offerSent m).mem := by
  cases m with
  | msg m =>
    refine canon_ite h ?_
    cases e : State.deliver { s with msgs := s.msgs.filter (fun x => x.num != m.num) } m with
    | none => exact h
    | some t => exact deliver_canon (s := { s with msgs := s.msgs.filter (fun x => x.num != m.num) }) h e
  | reply p => exact canon_ite h (serveReply_canon (s := { s with replies := s.replies.filter (fun x => x.num != p.num) }) h p)
  | spawn r => exact canon_ite h (offerSpawn_canon h r)

@[simp] theorem offerTasks_canon (j : Nat) : Canon (s.offerTasks j).mem := canon_foldl _ h fun _ _ hw => offerSpawn_canon hw _

@[simp] theorem depart_canon (t : Nat) (sc : Scope) : Canon (s.depart t sc).mem := by
  have hd := digestPoint_canon (s := { s with cur := t }) h
  unfold State.depart
  dsimp only
  split
  · split
    · next e =>
      have h1 := hd.of_error e
      exact h1
    · next e =>
      have h1 := acquire_canon (hd.of_ok e) sc
      exact h1
  · exact h

@[simp] theorem endEpisode_canon (e : Episode) : Canon (s.endEpisode e).mem := canon_foldl _ h fun _ _ hw => depart_canon hw ..

@[simp] theorem incAct_canon (n pa job : Nat) : Canon (s.incAct n pa job).mem := by
  unfold State.incAct
  split
  · simp [h]
  · simp [h]
  · exact canon_ite (by simp [h]) (perform_canon h ..)

@[simp] theorem ullageInc_canon (n : Nat) (c : Counter) : Canon (s.ullageInc n c).mem := incAct_canon h ..

@[simp] theorem ullageAction_canon (n : Nat) : Canon (s.ullageAction n).mem := by
  unfold State.ullageAction
  dsimp only
  split
  · split <;> simp [h]
  · split <;> simp [h]

@[simp] theorem ullageAdd_canon (n v : Nat) : Canon (s.ullageAdd n v).mem := by
  unfold State.ullageAdd
  dsimp only
  split
  · exact h
  · split <;> split <;> simp [h]

theorem loadWords_canon (opc : Nat) (va : Word) (n : Nat) : Ends (fun p => Canon p.2.mem) (s.loadWords opc va n) := by
  induction n generalizing s va with
  | zero => exact h
  | succ n ih =>
    unfold State.loadWords
    split
    · next e => exact (scalarLoad_canon h ..).of_error e
    · next e =>
      have h1 := (scalarLoad_canon h ..).of_ok e
      split
      · next e => exact (ih h1 _).of_error e
      · next e =>
        have h2 := (ih h1 _).of_ok e
        exact h2

theorem ulsArm_canon (n : Nat) (at_ : Word) (w : List Word) (d : BitVec 5) :
    Ends (fun t => Canon t.mem) (s.ulsArm n at_ w d) := by
  unfold State.ulsArm
  dsimp only
  split
  · simp [h]
  · split
    · simp [h]
    · split
      · next e => exact (sbEmpty_canon h _).of_error e
      · split
        · simp [h]
        · split
          · split <;> simp [h]
          · split <;> simp [h]

theorem bauXlate_canon (l : List (Nat × Nat × Need × Nat)) : Ends (fun _ => True) (s.bauXlate l) := by
  induction l with
  | nil => trivial
  | cons q l ih =>
    unfold State.bauXlate
    split
    · next e => exact (xparts_canon h ..).of_error e
    · split
      · next e => exact ih.of_error e
      · trivial

@[simp] theorem flushRanges_canon (ps : List (Nat × Nat)) : Canon (s.flushRanges ps).mem :=
  canon_foldl _ h fun _ _ hw => flushLine_canon hw ..

theorem queueBau_canon (d : BauDesc) (ps : List (Nat × Nat)) : Ends (fun t => Canon t.mem) (s.queueBau d ps) := by
  unfold State.queueBau
  dsimp only
  split
  · simp [h]
  · split <;> simp [h]

@[simp] theorem bauWrite_canon (b : Nat) (c : BauCmd) (pa : Nat) (d : List Byte) : Canon (s.bauWrite b c pa d).mem :=
  canon_ite (by simp [h]) (perform_canon h ..)

@[simp] theorem bauSector_canon (b : Nat) (c : BauCmd) (i : Nat) : Canon (s.bauSector b c i).mem := by
  unfold State.bauSector
  dsimp only
  split <;> split <;> simp [h]

@[simp] theorem bauPerform_canon (b : Nat) (c : BauCmd) : Canon (s.bauPerform b c).mem := by
  unfold State.bauPerform
  split
  · split <;> simp [h]
  · exact canon_foldl _ h fun _ _ hw => bauSector_canon hw ..

theorem fetchPa_canon : Ends (fun _ => True) s.fetchPa := by
  unfold State.fetchPa
  dsimp only
  split
  · simp [h]
  · split
    · simp [h]
    · simp [h]
    · split
      · split <;> simp [h]
      · simp [h]

theorem fetchNewt_canon : Ends (fun _ => True) s.fetchNewt := by
  unfold State.fetchNewt
  split
  · next e => exact (fetchPa_canon h).of_error e
  · split
    · simp [h]
    · split <;> simp [h]

@[simp] theorem sramPut_canon (t off : Nat) (b : List Byte) (cyc : Int) (counted : Bool) :
    Canon (s.sramPut t off b cyc counted).mem :=
  canon_foldl_fst _ h fun _ _ hq => canon_ite (perform_canon (by simpa using hq) ..) (performQuiet_canon (by simpa using hq) ..)

@[simp] theorem closeRuns_canon (job : Nat) : Canon (s.closeRuns job).mem :=
  canon_ite h (canon_foldl _ h fun _ _ hw => closeRun_canon hw ..)

@[simp] theorem endKernel_canon (job kid status : Nat) : Canon (s.endKernel job kid status).mem := by
  simp only [State.endKernel, settle_mem, finish_mem]
  refine closeRuns_canon ?_ _
  exact canon_foldl _ h fun _ _ hw => by simpa using hw

@[simp] theorem landGranule_canon (t : Nat) (g : Granule) : Canon (s.landGranule t g).mem := by
  have h1 : Canon (if g.load || g.passed == some false then s else s.noteHbmWrite t).mem := canon_ite h (by simp [h])
  exact canon_ite h1 (canon_ite h1 (canon_foldl_fst _ h1 fun _ _ hq => perform_canon hq ..))

@[simp] theorem landStopped_canon (t : Nat) (g : Granule) : Canon (s.landStopped t g).mem :=
  canon_ite (sramPut_canon (s := s.setTile ..) h ..) (landGranule_canon h ..)

@[simp] theorem lkaPut_canon (t off : Nat) (b : List Byte) (since : List (Nat × Nat)) (cyc : Int) :
    Canon (s.lkaPut t off b since cyc).mem :=
  canon_ite (canon_foldl _ h fun _ _ hw => canon_ite hw (sramPut_canon hw ..)) (sramPut_canon h ..)

@[simp] theorem takeEffect_canon (t : Nat) (p : Pend) : Canon (s.takeEffect t p).mem := by
  unfold State.takeEffect
  dsimp only
  split <;> simp [h]

@[simp] theorem takeDue_canon (t : Nat) (upto : Int) : Canon (s.takeDue t upto).mem :=
  canon_foldl _ h fun _ _ hw => takeEffect_canon hw ..

@[simp] theorem landBefore_canon (pk : Nat) (cyc : Int) : Canon (s.landBefore pk cyc).mem :=
  canon_foldl _ h fun _ _ hw => canon_foldl _ (canon_foldl _ hw fun _ _ hr => landGranule_canon hr ..) fun _ _ hr =>
    takeEffect_canon hr ..

@[simp] theorem takePending_canon (pk : Nat) : Canon (s.takePending pk).mem :=
  canon_foldl _ h fun _ _ hw => canon_foldl _ hw fun _ _ hr => takeEffect_canon hr ..

end

/-! ## Transfers -/

section
variable {r : XferRun} (h : Canon r.st.mem) (t : Transfer)
include h

theorem touch_canon (va n : Nat) : Canon (r.touch t va n).st.mem := canon_foldl _ h fun _ _ hw => by simpa using hw

theorem fail_canon (need : Need) (va n : Nat) (c : XErr) : Canon (r.fail t need va n c).st.mem := by
  unfold XferRun.fail
  dsimp only
  split <;> exact h

theorem flush_canon : Canon (r.flush t).st.mem := by
  unfold XferRun.flush
  split
  · exact h
  · have h1 := touch_canon (r := { r with part := none }) h t
    dsimp only
    split
    · exact fail_canon (h1 ..) ..
    · next e => exact writeVa_canon (h1 ..) e

theorem gather_canon (va : Word) (b : List Byte) : Canon (r.gather t va b).st.mem := by
  unfold XferRun.gather
  split
  · split
    · exact h
    · dsimp only
      split <;> exact flush_canon h t
  · exact h

theorem write_canon (va : Word) (b : List Byte) : Canon (r.write t va b).st.mem := by
  unfold XferRun.write
  dsimp only
  split
  · exact h
  · split
    · split
      · exact fail_canon (touch_canon h ..) ..
      · next e => exact accumVa_canon (touch_canon h ..) e
    · exact gather_canon h ..

theorem before_canon (va n : Nat) : Canon (r.before t va n).st.mem := by
  unfold XferRun.before
  split
  · split
    · exact flush_canon h t
    · exact h
  · exact h

theorem read_canon (va n : Nat) {k : XferRun → List Byte → XferRun} (hk : ∀ r b, Canon r.st.mem → Canon (k r b).st.mem) :
    Canon (r.read t va n k).st.mem := by
  have h1 := touch_canon (before_canon h t va n) t va n
  unfold XferRun.read
  dsimp only
  split
  · exact h1
  · split
    · exact fail_canon h1 ..
    · exact hk _ _ h1

theorem move_canon (src dst : Word) : Canon (r.move t src dst).st.mem := by
  unfold XferRun.move
  split
  · exact h
  · exact read_canon h t _ _ fun _ _ h1 => write_canon h1 ..

omit h in
theorem canon_foldl_run {β : Type} {f : XferRun → β → XferRun} (l : List β) {r : XferRun} (h : Canon r.st.mem)
    (hf : ∀ w b, Canon w.st.mem → Canon (f w b).st.mem) : Canon (l.foldl f r).st.mem := by
  induction l generalizing r with
  | nil => exact h
  | cons b l ih => exact ih (hf r b h)

theorem dense_canon : Canon (r.dense t).st.mem := by
  refine canon_foldl_run _ h fun _ i3 h3 => canon_foldl_run _ h3 fun _ i2 h2 => canon_foldl_run _ h2 fun _ i1 h1 =>
    canon_foldl_run _ h1 fun _ i0 h0 => ?_
  dsimp only
  split
  · exact h0
  · exact move_canon h0 ..

theorem row_canon (i1 k : Nat) : Canon (r.row t i1 k).st.mem := by
  have hfill : ∀ (q : XferRun) (va : Nat → Word) (b : List Byte), Canon q.st.mem → Canon ((List.range (dimN t.shadows 0)).foldl
      (fun r0 i0 => if r0.err ≠ 0 ∨ r0.waits.isSome then r0 else r0.write t (va i0) b) q).st.mem := by
    refine fun q va b hq => canon_foldl_run _ hq fun w i0 hw => ?_
    split
    · exact hw
    · exact write_canon hw ..
  unfold XferRun.row
  dsimp only
  split
  · split
    · split
      · exact hfill _ _ _ h
      · exact hfill _ _ _ h
    · split <;> exact h
  · refine canon_foldl_run _ ?_ fun w i0 hw => ?_
    · split <;> exact h
    · split <;> exact move_canon hw ..

theorem sparse_canon : Canon (r.sparse t).st.mem := by
  refine canon_foldl_run _ h fun _ i1 h1 => ?_
  split
  · exact h1
  · exact read_canon h1 t _ _ fun _ _ h2 => row_canon h2 ..

end

section
variable {s : State} (h : Canon s.mem)
include h

theorem runTransfer_canon (e : Nat) (t : Transfer) : Canon (s.runTransfer e t).st.mem := by
  unfold State.runTransfer
  dsimp only
  split
  · exact h
  · refine flush_canon ?_ t
    split
    · exact sparse_canon h t
    · exact dense_canon h t

@[simp] theorem startTransfer_canon (e : Nat) (t : Transfer) : Canon (s.startTransfer e t).mem := by
  have hr := runTransfer_canon h e t
  unfold State.startTransfer
  dsimp only
  split
  · exact h
  · exact h
  · simpa using hr

end

end Sys2Proof.CanonicalMemory
end

section
/-! PROOF. Pages, jobs, launches, saves, restores and the cycle keep the canonical form of memory (log entry 2; 06 R137,
R155). -/

namespace Sys2Proof.CanonicalMemory

open Sys2Proof
open Sys2Proof.Machine

section
variable {s : State} (h : Canon s.mem)
include h

theorem wwtAt_canon (d : BitVec 5) (pk t wid : Nat) : Ends (fun t => Canon t.mem) (s.wwtAt d pk t wid) := by
  unfold State.wwtAt
  split <;> simp [h]

@[simp] theorem dropRox_canon (c : Nat) (f : Nat → Bool) : Canon (s.dropRox c f).mem :=
  canon_foldl _ h fun _ _ hw => evictLine_canon hw ..

@[simp] theorem rewritePtes_canon (old size new : Nat) (mig : Bool) : Canon (s.rewritePtes old size new mig).mem :=
  canon_foldl _ h fun _ _ hw => putMem_canon hw ..

@[simp] theorem dropFrame_canon (pa size : Nat) : Canon (s.dropFrame pa size).mem :=
  canon_foldl _ h fun _ _ hw => canon_foldl _ hw fun _ _ hz => evictLine_canon hz ..

@[simp] theorem movePage_canon (m : Migration) : Canon (s.movePage m).mem := by
  have hput : ∀ (l : Store Byte) (t : Store Byte), Canon t →
      Canon (l.foldl (fun t p => Store.put 0 (p.1 - m.old + m.new) p.2 t) t) := by
    intro l
    induction l with
    | nil => exact fun _ ht => ht
    | cons p l ih => exact fun t ht => ih _ (Store.wf_put 0 _ _ ht)
  exact hput _ _ (clearRange_memWf _ _ (clearRange_memWf _ _ h))

@[simp] theorem migrAnswer_canon (m : Migration) : Canon (s.migrAnswer m).mem :=
  canon_ite (acquire_canon (s := { s with cur := m.thr }) h .pkg) h

@[simp] theorem stopUnits_canon (j status : Nat) : Canon (s.stopUnits j status).mem :=
  canon_foldl _ (canon_foldl _ h fun _ _ hw => by simpa using hw) fun _ _ hw => endKernel_canon hw ..

@[simp] theorem tlbDrop_canon (f : Leaf → Bool) (pages : List (Nat × Nat)) : Canon (s.tlbDrop f pages).mem :=
  canon_foldl _ h fun _ _ hw => dropRox_canon hw ..

@[simp] theorem eraseJob_canon (j : Nat) : Canon (s.eraseJob j).mem := tlbDrop_canon h ..

@[simp] theorem closeJob_canon (j : Nat) : Canon (s.closeJob j).mem := by
  simp [State.closeJob, h]

theorem takeTable_canon {j : Nat} {q : Nat × State} (e : s.takeTable j = some q) : Canon q.2.mem := by
  unfold State.takeTable at e
  split at e <;> cases e
  exact clearRange_memWf _ _ h

theorem pteFor_canon {j va target : Nat} {make : Bool} {level table : Nat} {q : State × Option Nat}
    (e : pteFor j va target make level table s = some q) : Canon q.1.mem := by
  induction level generalizing s table with
  | zero => cases e
  | succ level ih =>
    unfold pteFor at e
    dsimp only at e
    split at e
    · cases e
      exact h
    · split at e
      · exact ih h e
      · split at e
        · cases e
          exact h
        · split at e
          · cases e
          · next e1 => exact ih (performQuiet_canon (takeTable_canon h e1) ..) e

theorem writeLeaves_canon {j target : Nat} {make : Bool} {l : List (Nat × Nat)} {t : State}
    (e : State.writeLeaves j target make l s = some t) : Canon t.mem := by
  induction l generalizing s with
  | nil => cases e; exact h
  | cons p l ih =>
    unfold State.writeLeaves at e
    split at e
    · cases e
    · next e1 => exact ih (pteFor_canon h e1) e
    · next e1 => exact ih (performQuiet_canon (pteFor_canon h e1) ..) e

@[simp] theorem enterFull_canon : Canon s.enterFull.mem := canon_foldl _ h fun _ _ hw => closeJob_canon hw _

@[simp] theorem loadNum_mem : Canon s.loadNum.2.mem := by
  unfold State.loadNum
  split
  · exact h
  · split <;> exact h

@[simp] theorem writeTile_canon (d : Sched) (t fb : Nat) : Canon (s.writeTile d t fb).mem :=
  canon_foldl _ (performQuiet_canon h ..) fun _ _ hw => performQuiet_canon hw ..

@[simp] theorem acceptSched_canon (d : Sched) (p : Partition) (id gran : Nat) (start : Word) (cmd : Option (Nat × Nat)) :
    Canon (s.acceptSched d p id gran start cmd).mem := by
  have h1 : Canon (s.loadNum.2.forceAll p.tiles (s.pickFb p.tiles d.flen) d.flen).mem := by simp [h]
  exact canon_foldl _ h1 fun _ _ hw => writeTile_canon (s := State.setTile ..) hw ..

/-- The page found stays folded as a function: unfolded, the kernel would count out the multiple of 2^21 in its address. -/
theorem joinPages_canon {j v k va n i : Nat} {q : Nat × State}
    (e : s.joinPages j v k va n i = .ok q) : Canon q.2.mem := by
  obtain ⟨page, hpage⟩ : ∃ page : State → Nat → Except Nat Nat, ∀ s i, s.copyPage j (va + i * 2 ^ 21) = page s i :=
    ⟨_, fun _ _ => rfl⟩
  delta State.joinPages State.joinPages._f at e
  simp only [hpage] at e
  induction n generalizing s i q with
  | zero =>
    cases e
    exact h
  | succ n ih =>
    dsimp only at e
    split at e
    · cases e
    · split at e <;> cases e
      next e1 =>
        have h1 := fun hs => ih hs e1
        exact h1 h

theorem joinCopies_canon {j v len k : Nat} {l : List Nat} {q : List Nat × State} (e : s.joinCopies j v len k l = .ok q) :
    Canon q.2.mem := by
  induction l generalizing s k q with
  | nil => cases e; exact h
  | cons va l ih =>
    unfold State.joinCopies at e
    split at e
    · cases e
    · next e1 =>
      split at e <;> cases e
      next e2 =>
        have h1 := ih (joinPages_canon h e1) e2
        exact h1

theorem createSet_canon {j : Nat} {d : SetDecl} {q : Nat × State} (e : s.createSet j d = .ok q) : Canon q.2.mem := by
  unfold State.createSet at e
  split at e
  · cases e
  · split at e
    · cases e
    · next e1 =>
      have h1 := joinCopies_canon h e1
      cases e
      exact h1

/-- Making one set stays folded here as a function that keeps the form: unfolded, its search for a free number is too deep. -/
theorem createSets_canon {j : Nat} {l : List SetDecl} {q : List Nat × State} (e : s.createSets j l = .ok q) :
    Canon q.2.mem := by
  obtain ⟨make, hmake, hcanon⟩ : ∃ make : State → SetDecl → Except Nat (Nat × State), (∀ s d, s.createSet j d = make s d) ∧
      ∀ {s : State}, Canon s.mem → ∀ {d q}, make s d = .ok q → Canon q.2.mem :=
    ⟨_, fun _ _ => rfl, fun h _ _ e => createSet_canon h e⟩
  delta State.createSets State.createSets._f at e
  simp only [hmake] at e
  induction l generalizing s q with
  | nil =>
    cases e
    exact h
  | cons d l ih =>
    dsimp only at e
    split at e
    · cases e
    · next e1 =>
      split at e <;> cases e
      next e2 =>
        have h1 := ih (hcanon h e1) e2
        exact h1

@[simp] theorem loadRegion_canon (k : KImage) (sets : List Nat) (c : Nat) : Canon (s.loadRegion k sets c).mem := by
  unfold State.loadRegion
  dsimp only
  split <;> simp [h]

@[simp] theorem startKernelThread_canon (j kid c i : Nat) (args : List Word) :
    Canon (s.startKernelThread j kid c i args).mem := by
  unfold State.startKernelThread
  dsimp only
  split
  · split <;> simp [h]
  · exact h

@[simp] theorem admitKernel_canon (j kid : Nat) (img : KImage) (k : Kernel) (sets at_ : List Nat) (args : List Word) :
    Canon (s.admitKernel j kid img k sets at_ args).mem :=
  canon_foldl _ (canon_foldl _ h fun w c hw => loadRegion_canon ((enterCore_mem w j kid c).symm ▸ hw) ..) fun _ _ hw =>
    startKernelThread_canon hw ..

@[simp] theorem writeRes_canon (j : Nat) (res : Option Word) (w : Word) : Canon (s.writeRes j res w).mem := by
  unfold State.writeRes
  split
  · exact h
  · split
    · next e => exact writeVa_canon h e
    · exact h

@[simp] theorem refuseLaunch_canon (j : Nat) (res : Option Word) (cmd : Option (Nat × Nat)) (status cause : Nat) :
    Canon (s.refuseLaunch j res cmd status cause).mem := by
  unfold State.refuseLaunch
  dsimp only
  split <;> simp [h]

@[simp] theorem submit_canon (a : Ask) {keep : State} (hk : Canon keep.mem) : Canon (s.submit a keep).mem := by
  unfold State.submit
  split
  · exact refuseLaunch_canon (s := s.drawn) h ..
  · split
    · simp [h]
    · split <;> simp [h, hk]
    · exact hk

@[simp] theorem submitCmd_canon (c : Cmd) (a : Ask) : Canon (s.submitCmd c a).mem := by
  unfold State.submitCmd
  exact submit_canon (by simp [h]) _ h

@[simp] theorem launched_canon (l : Launch) (id : Nat) : Canon (s.launched l id).mem := by
  unfold State.launched
  dsimp only
  split <;> simp [h]

@[simp] theorem stowShadows_canon (t : Nat) : Canon (s.stowShadows t).mem := by
  unfold State.stowShadows
  split <;> simp [h]

@[simp] theorem saveThread_canon (j kid t : Nat) : Canon (s.saveThread j kid t).mem := by
  simp [State.saveThread, h]

@[simp] theorem kernelSaved_canon (j kid : Nat) : Canon (s.kernelSaved j kid).mem := by
  have h1 : Canon ((s.kernel j kid).cores.foldl State.flushRlc s).mem := canon_foldl _ h fun _ _ hw => flushRlc_canon hw _
  unfold State.kernelSaved
  dsimp only
  rw [cmdsSaved_mem, ite_mem, queueResume_mem, ite_self, kernelRecord_mem]
  refine closeRuns_canon ?_ j
  rw [setKernel_mem]
  exact canon_foldl _ h1 fun _ _ hw => saveThread_canon hw ..

@[simp] theorem putBack_canon (pk : Nat) : Canon (s.putBack pk).mem :=
  canon_foldl _ h fun _ _ hw => performQuiet_canon hw ..

@[simp] theorem goTransfer_canon (q : Nat × Nat) : Canon (s.goTransfer q).mem := by
  unfold State.goTransfer
  split <;> simp [h]

@[simp] theorem letGo_canon (pk : Nat) : Canon (s.letGo pk).mem :=
  canon_foldl _ (canon_foldl _ (canon_foldl _ h fun _ _ hw => drainNext_canon hw _) fun _ _ hw => goTransfer_canon hw _)
    fun _ _ hw => incAct_canon hw ..

@[simp] theorem restorePart_canon (pk num : Nat) : Canon (s.restorePart pk num).mem := by
  unfold State.restorePart
  dsimp only
  rw [ite_mem, resumeParts_mem, ite_self, cmdsSaved_mem, partRecord_mem]
  refine letGo_canon ?_ pk
  rw [State.setPart_mem]
  refine (putTiles_mem _ pk).symm ▸ putBack_canon ?_ pk
  exact canon_foldl _ h fun _ _ hw => by rwa [effectOnce_mem]

@[simp] theorem remapFrom_canon (j : Nat) (moves : List (Nat × Nat)) (level table : Nat) :
    Canon (remapFrom j moves level table s).mem := by
  induction level generalizing s table with
  | zero => exact h
  | succ level ih =>
    refine canon_foldl _ h fun w i hw => ?_
    dsimp only
    split
    · exact hw
    · split
      · exact ih hw _
      · split
        · split
          · exact performQuiet_canon hw ..
          · exact hw
        · split
          · split
            · exact hw
            · next e => exact ih (performQuiet_canon (performQuiet_canon (takeTable_canon hw e) ..) ..) _
          · exact hw

@[simp] theorem remap_canon (j : Nat) (moves : List (Nat × Nat)) : Canon (s.remap j moves).mem :=
  tlbDrop_canon (remapFrom_canon h ..) ..

@[simp] theorem putRegion_canon (k : Kernel) (c : Nat) (r : List Byte × List Bool) : Canon (s.putRegion k c r).mem :=
  canon_foldl _ (canon_ite h (performQuiet_canon h ..)) fun _ _ hw => by simpa using hw

@[simp] theorem moveKernel_canon (j kid : Nat) (k : Kernel) (at_ : List Nat) : Canon (s.moveKernel j kid k at_).mem := by
  unfold State.moveKernel
  dsimp only
  have hflush : ∀ w : State, Canon w.mem →
      Canon (at_.foldl (fun (w : State) c => ((w.enterCore j kid c).flushRlc c).invalidateRlc c) w).mem := fun w hw =>
    canon_foldl _ hw fun w c hw => flushRlc_canon ((enterCore_mem w j kid c).symm ▸ hw) c
  have hput : ∀ w : State, Canon w.mem → ∀ l : List (Nat × List Byte × List Bool), Canon (l.foldl (fun w x =>
      if at_ == k.cores && k.lsSaved.all (fun r => r.1 != x.1) then w else w.putRegion k x.1 x.2) w).mem := fun w hw l =>
    canon_foldl _ hw fun w x hw => canon_ite hw (putRegion_canon hw ..)
  split
  · exact hput _ (hflush _ h) _
  · have hleft : ∀ w : State, Canon w.mem → Canon (k.cores.foldl (fun (w : State) c =>
        (w.setCore c ((w.core c).unhandled j kid)).leaveCore j kid c) w).mem := fun w hw => canon_foldl _ hw fun _ _ hw => hw
    refine remap_canon ?_ ..
    refine canon_foldl _ (hput _ (hflush _ (hleft _ h)) _) fun w p hw => ?_
    rwa [State.setCore_mem]

@[simp] theorem restoreKernel_canon (j kid : Nat) (at_ : List Nat) : Canon (s.restoreKernel j kid at_).mem := by
  unfold State.restoreKernel
  dsimp only
  rw [ite_mem, State.push_mem, ite_self, cmdsSaved_mem, kernelRecord_mem]
  refine canon_foldl _ (moveKernel_canon ?_ ..) fun _ _ hw => by rwa [putThread_mem]
  rw [setKernel_mem]
  exact canon_foldl _ h fun _ _ hw => by rwa [effectOnce_mem]

theorem moving_canon (c : Cmd) {f : State → State} (hf : ∀ w, Canon w.mem → Canon (f w).mem) : Canon (s.moving c f).mem := by
  simp only [State.moving, settle_mem]
  exact hf _ (by simp [h])

theorem resuming_canon (c : Cmd) {f : State → State} (hf : ∀ w, Canon w.mem → Canon (f w).mem) :
    Canon (s.resuming c f).mem := by
  simp only [State.resuming, settle_mem]
  exact hf _ (by simp [h])

theorem takeClaim_canon (j no id : Nat) (o : Nat × Nat) (image : List Byte) : Canon (s.takeClaim j no id o image).2.mem := by
  unfold State.takeClaim
  split
  · exact h
  · dsimp only
    split_ifs <;> simp [h]

@[simp] theorem answerClaim_canon (id : Nat) (b : List Byte) : Canon (s.answerClaim id b).mem := by
  unfold State.answerClaim
  dsimp only
  split
  · exact h
  · rw [sideband_mem]
    exact takeClaim_canon h ..

theorem fpResult_canon (d : BitVec 5) (r : FRes) : Ends (fun t => Canon t.mem) (s.fpResult d r) := fpDone_canon h ..

theorem lanesDone_canon (vd : BitVec 3) (me : BitVec 1) (vm : BitVec 3) (pol : BitVec 1) (r : List LaneRes) :
    Ends (fun t => Canon t.mem) (s.lanesDone vd me vm pol r) := by
  unfold State.lanesDone
  exact fpDone_canon h ..

omit h in
theorem coldState_mem : s.coldState.mem = State.reset.mem := by
  unfold State.coldState
  with_reducible rfl

omit h in
theorem coldState_canon : Canon s.coldState.mem := by
  rw [coldState_mem]
  unfold Canon
  exact reset_memWf

omit h in
theorem turnOff_canon (trip : Bool) : Canon (s.turnOff trip).mem := by
  unfold State.turnOff
  dsimp only
  rw [State.setPkg_mem]
  exact coldState_canon

omit h in
theorem startFails_canon (warm kept : Bool) (n : Nat) (readings : List Byte) :
    Canon (s.startFails warm kept n readings).mem := by
  unfold State.startFails
  dsimp only
  rw [logEvent_mem, State.setPkg_mem, startQueues_mem]
  exact coldState_canon

@[simp] theorem passPart_canon (pk : Nat) : Canon (s.passPart pk).mem := by
  unfold State.passPart
  dsimp only
  split
  · exact h
  · split
    · exact h
    · exact canon_foldl _ h fun _ _ hw => takeDue_canon hw ..

@[simp] theorem pass_canon : Canon s.pass.mem := by
  have h1 : Canon ({ s with cyc := s.cyc + 1 } : State).passTime.mem := by simp [h]
  simp only [State.pass, passPower_mem]
  exact canon_foldl _ (canon_foldl _ h1 fun _ _ hw => passPart_canon hw _) fun w _ hw => by simpa using hw

@[simp] theorem tick_canon : Canon s.tick.mem := by
  simp only [State.tick, noteActivity_mem]
  exact canon_ite (by simp [h]) (pass_canon h)

end

end Sys2Proof.CanonicalMemory
end

section
/-! PROOF. Every arm of `exec`, and so every step, keeps the canonical form of memory (log entry 2; 06 R137). -/

namespace Sys2Proof.CanonicalMemory

open Sys2Proof
open Sys2Proof.Machine

theorem canonOut_ite {c : Prop} [Decidable c] {a b : Out} (ha : CanonOut a) (hb : CanonOut b) :
    CanonOut (if c then a else b) := by
  split <;> assumption

section
variable {s : State} (h : Canon s.mem)
include h

theorem unrecorded_canon {f : State → Except State State} (hf : Ends (fun t => Canon t.mem) (f s)) :
    CanonOut (unrecorded f s) := by
  unfold unrecorded
  split
  · simp [h]
  · exact hf.ended

theorem recordable_canon (i : Instr) {f : State → State} (hf : Canon (f s).mem) : CanonOut (recordable i f s) := by
  unfold recordable
  split
  · simp [h]
  · exact hf

theorem issued_canon (i : Instr) (len : Nat) {f : State → State} (hf : ∀ r : State, Canon r.mem → Canon (f r).mem) :
    CanonOut (issued i len f s) := by
  unfold issued
  refine canonOut_ite (canonOut_ite ?_ ?_) h
  · simp [h]
  · simpa using hf _ (by simp [h])

theorem issuedFrom_canon (i : Instr) (len : Nat) (src : State → List (Nat × Nat)) {f : State → State}
    (hf : ∀ r : State, Canon r.mem → Canon (f r).mem) : CanonOut (issuedFrom i len src f s) :=
  canonOut_ite (by simp [h]) (issued_canon h i len hf)

theorem issuedControl_canon (len : Nat) (f : State → Stream → Stream) : CanonOut (issuedControl len f s) := by
  unfold issuedControl
  refine canonOut_ite (canonOut_ite ?_ ?_) h <;> simp [h]

theorem hbmStore_canon (i : Instr) (acum : Option Nat) (kt kv : BitVec 4) (n16 : BitVec 14) :
    CanonOut (s.hbmStore i acum kt kv n16) := by
  unfold State.hbmStore
  split
  · exact issuedFrom_canon h _ _ _ fun r hr => by simpa using hr
  · split <;> simp [h]
end

theorem ends_ite {α : Type} {P : α → Prop} {c : Prop} [Decidable c] {a b : Except State α} (ha : Ends P a) (hb : Ends P b) :
    Ends P (if c then a else b) := by
  split <;> assumption

section
variable {s : State} (h : Canon s.mem)
include h

/-! ## Instructions -/

theorem fec_canon (base : BitVec 5) (off : BitVec 9) : CanonOut (execFec base off s) := by
  refine unrecorded_canon h ?_
  split
  · next e => exact (feCheck_canon h ..).of_error e
  · exact gateRequest_canon h ..

theorem amo_canon (d a b : BitVec 5) (w : BitVec 1) (ord : BitVec 2) (fn : BitVec 4) : CanonOut (execAmo d a b w ord fn s) := by
  refine unrecorded_canon h ?_
  split
  · next e => exact (atomicStart_canon h ..).of_error e
  · next e => exact gateRequest_canon ((atomicStart_canon h ..).of_ok e) ..

theorem cas_canon (d a b c : BitVec 5) (w : BitVec 1) (ord : BitVec 2) : CanonOut (execCas d a b c w ord s) := by
  refine unrecorded_canon h ?_
  split
  · next e => exact (atomicStart_canon h ..).of_error e
  · next e => exact gateRequest_canon ((atomicStart_canon h ..).of_ok e) ..

theorem arc_canon (d a : BitVec 5) : CanonOut (execArc d a s) := by
  unfold execArc
  split
  · simp [h]
  · refine canonOut_ite (by simp [h]) ?_
    split
    · next e => exact (xpart_canon h ..).of_error e
    · refine canonOut_ite (by simp [h]) ?_
      split
      · next e => exact (readyRelease_canon h ..).of_error e
      · next e =>
        have h1 := (readyRelease_canon h ..).of_ok e
        exact gateRequest_canon (s := State.noteLatch ..) h1 ..

theorem fence_canon (sc : BitVec 3) : CanonOut (execFence sc s) := by
  refine unrecorded_canon h ?_
  dsimp only
  split
  · next e => exact (sbEmpty_canon h ..).of_error e
  · split
    · simp [h]
    · split
      · next e => exact takeDeferred_canon (writeThrough_canon h _) e
      · rw [ends_ok, retire_mem, setTh_mem]
        exact acquire_canon (release_canon (writeThrough_canon h _) _) _

theorem bfence_canon (a : BitVec 5) (sc : BitVec 3) : CanonOut (execBfence a sc s) := by
  refine unrecorded_canon h ?_
  split
  · next e => exact (fencePa_canon h ..).of_error e
  · refine ends_ite (by simp [h]) ?_
    dsimp only
    split <;> simp [h]

theorem callr_canon (a : BitVec 5) : CanonOut (execCallr a s) := by
  refine unrecorded_canon h ?_
  dsimp only
  split
  · simp [h]
  · exact call_canon h ..

theorem vld_canon (vd : BitVec 3) (ga : BitVec 5) (me : BitVec 1) (vm : BitVec 3) (pol : BitVec 1) (ord : BitVec 2) :
    CanonOut (execVld vd ga me vm pol ord s) := by
  refine unrecorded_canon h ?_
  dsimp only
  split
  · next e => exact (allLanes_canon h ..).of_error e
  · split
    · simp [h]
    · split
      · simp [h]
      · split
        · next e => exact (readLanes_canon h ..).of_error e
        · next e =>
          have h1 := (readLanes_canon h ..).of_ok e
          exact canon_ite (acquire_canon h1 _) h1

theorem vst_canon (vd : BitVec 3) (ga : BitVec 5) (me : BitVec 1) (vm : BitVec 3) (pol : BitVec 1) (ord : BitVec 2) :
    CanonOut (execVst vd ga me vm pol ord s) := by
  refine unrecorded_canon h ?_
  dsimp only
  split
  · next e => exact (allLanes_canon h ..).of_error e
  · next ls _ =>
    have h1 : Ends (fun t => Canon t.mem)
        (if ord = 1 then s.beforeRelease 0x5E (s.th.effRelease (s.partsScope (ls.flatMap (·.2)))) else .ok s) := by
      split
      · exact beforeRelease_canon h ..
      · exact h
    split
    · next e => exact h1.of_error e
    · next e =>
      have h2 := h1.of_ok e
      split
      · next e =>
        split at e
        · cases e
        · exact (enterStore_canon h2 ..).of_error e
      · next e =>
        rw [ends_ok, retire_mem, digestLanes_mem]
        split at e
        · cases e
          exact h2
        · exact (enterStore_canon h2 ..).of_ok e

theorem vgth_canon (vd : BitVec 3) (ga : BitVec 5) (vc : BitVec 3) (me : BitVec 1) (vm : BitVec 3) (pol : BitVec 1)
    (sc : BitVec 2) : CanonOut (execVgth vd ga vc me vm pol sc s) := by
  refine unrecorded_canon h ?_
  dsimp only
  split
  · next e => exact (allLanes_canon h ..).of_error e
  · split
    · simp [h]
    · split
      · next e => exact (readLanes_canon h ..).of_error e
      · next e => exact (readLanes_canon h ..).of_ok e

theorem vsct_canon (vd : BitVec 3) (ga : BitVec 5) (vc : BitVec 3) (me : BitVec 1) (vm : BitVec 3) (pol : BitVec 1)
    (sc : BitVec 2) : CanonOut (execVsct vd ga vc me vm pol sc s) := by
  refine unrecorded_canon h ?_
  dsimp only
  split
  · next e => exact (allLanes_canon h ..).of_error e
  · split
    · simp [h]
    · split
      · next e =>
        split at e
        · cases e
        · exact (enterStore_canon h ..).of_error e
      · next e =>
        rw [ends_ok, retire_mem, digestLanes_mem]
        refine putLanes_canon ?_ ..
        split at e
        · cases e
          exact h
        · exact (enterStore_canon h ..).of_ok e

theorem send_canon (a : BitVec 5) : CanonOut (execSend a s) := by
  refine unrecorded_canon h ?_
  split
  · next e => exact (sendCheck_canon h ..).of_error e
  · dsimp only
    split
    · next e => exact (plainRelease_canon h ..).of_error e
    · next e =>
      have h1 := (plainRelease_canon h ..).of_ok e
      split <;> simp [h, h1]

theorem recv_canon (d a : BitVec 5) : CanonOut (execRecv d a s) := by
  refine unrecorded_canon h ?_
  dsimp only
  generalize s.ringCount _ _ = queued
  refine ends_ite (by simp [h]) (ends_ite (by simp [h]) (ends_ite (by simp [h]) ?_))
  rw [ends_ok, retireG_mem]
  exact acquire_canon (s := s.noteRead ..) h _

theorem rpc_canon (a : BitVec 5) : CanonOut (execRpc a s) := by
  refine unrecorded_canon h ?_
  split
  · next e => exact (sendCheck_canon h ..).of_error e
  · dsimp only
    split
    · next e => exact (plainRelease_canon h ..).of_error e
    · next e =>
      have h1 := (plainRelease_canon h ..).of_ok e
      split <;> simp [h, h1]

theorem rply_canon (a : BitVec 5) : CanonOut (execRply a s) := by
  refine unrecorded_canon h ?_
  dsimp only
  split
  · next e => exact (plainRelease_canon h ..).of_error e
  · next e =>
    have h1 := (plainRelease_canon h ..).of_ok e
    split <;> simp [h, h1]

theorem htw_canon (a b c : BitVec 5) : CanonOut (execHtw a b c s) := by
  refine unrecorded_canon h ?_
  dsimp only
  split
  · simp [h]
  · split
    · exact writeHandler_canon h ..
    · exact writeRing_canon h ..

theorem spwn_canon (d a b c : BitVec 5) : CanonOut (execSpwn d a b c s) := by
  refine unrecorded_canon h ?_
  dsimp only
  split
  · simp [h]
  · split
    · next e => exact (plainRelease_canon h ..).of_error e
    · next e =>
      have h1 := (plainRelease_canon h ..).of_ok e
      simp [h1]

theorem quit_canon : CanonOut (execQuit s) := by
  refine unrecorded_canon h ?_
  split
  · next e => exact (sbEmpty_canon h ..).of_error e
  · have hw := writeThrough_canon h .pkg
    dsimp only
    split
    · simp [h]
    · split
      · next e => exact takeDeferred_canon hw e
      · split
        · simp [h]
        · split
          · next e => exact (digestPoint_canon hw).of_error e
          · next e =>
            have h1 := (digestPoint_canon hw).of_ok e
            simp [h1]

theorem bar_canon (a : BitVec 5) (id sc : BitVec 3) : CanonOut (execBar a id sc s) := by
  refine unrecorded_canon h ?_
  dsimp only
  split
  · simp [h]
  · split
    · simp [h]
    · split
      · next e => exact takeDeferred_canon h e
      · split
        · next e => exact (plainRelease_canon h ..).of_error e
        · next e =>
          have h1 := (plainRelease_canon h ..).of_ok e
          split
          · simp [h]
          · split <;> simp [h, h1]

theorem cpl_canon (d : BitVec 5) : CanonOut (execCpl d s) := by
  refine unrecorded_canon h ?_
  dsimp only
  split
  · simp [h]
  · have hc : Canon (s.claimHandles ((dstHandle (shadow s.th.shadows 11).toNat).toList ++
        (srcHandle (shadow s.th.shadows 11).toNat).toList)).mem := by simp [h]
    split
    · next e => exact (plainRelease_canon hc ..).of_error e
    · next e =>
      have h1 := (plainRelease_canon hc ..).of_ok e
      split
      · simp [h]
      · split <;> simp [h, h1]

theorem hwt_canon (st : BitVec 2) (e : BitVec 5) : CanonOut (execHwt st e s) := by
  refine unrecorded_canon h ?_
  split
  · exact canon_ite (acquire_canon h _) h
  · simp [h]

theorem hrl_canon (e : BitVec 5) : CanonOut (execHrl e s) := by
  refine unrecorded_canon h ?_
  dsimp only
  split
  · simp [h]
  · split <;> simp [h]

theorem uls_canon (d a b : BitVec 5) : CanonOut (execUls d a b s) := by
  refine unrecorded_canon h ?_
  dsimp only
  split
  · simp [h]
  · split
    · simp [h]
    · split
      · next e => exact (loadWords_canon h ..).of_error e
      · next e => exact ulsArm_canon ((loadWords_canon h ..).of_ok e) ..

theorem rinc_canon (a b c : BitVec 5) (rel kind : BitVec 1) : CanonOut (execRinc a b c rel kind s) := by
  refine unrecorded_canon h ?_
  have hrel : Ends (fun t => Canon t.mem) (if rel = 1 then s.beforeRelease 0x77 (s.th.effRelease .pod) else .ok s) := by
    split
    · exact beforeRelease_canon h ..
    · exact h
  dsimp only
  split
  · simp [h]
  · split
    · next e => exact hrel.of_error e
    · next e =>
      have h1 := hrel.of_ok e
      split <;> simp [h1]

theorem post_canon (a b : BitVec 5) : CanonOut (execPost a b s) := by
  refine unrecorded_canon h ?_
  dsimp only
  split
  · simp [h]
  · split
    · simp [h]
    · split
      · next e => exact (beforeRelease_canon h ..).of_error e
      · next e =>
        have h1 := (beforeRelease_canon h ..).of_ok e
        split <;> simp [h1]

theorem wwt_canon (d a : BitVec 5) : CanonOut (execWwt d a s) := by
  refine unrecorded_canon h ?_
  dsimp only
  split
  · simp [h]
  · split
    · simp [h]
    · simp [h]
    · split
      · simp [h]
      · exact wwtAt_canon h ..
    · exact wwtAt_canon h ..

theorem vpub_canon (d a b : BitVec 5) : CanonOut (execVpub d a b s) := by
  refine unrecorded_canon h ?_
  split
  · next e => exact takeDeferred_canon h e
  · dsimp only
    split
    · simp [h]
    · split
      · simp [h]
      · split
        · next e => exact (sbEmpty_canon h ..).of_error e
        · simp [h]

theorem bcmd_canon (a : BitVec 5) : CanonOut (execBcmd a s) := by
  refine unrecorded_canon h ?_
  dsimp only
  split
  · simp [h]
  · split
    · next e => exact (loadWords_canon h ..).of_error e
    · next e =>
      have h1 := (loadWords_canon h ..).of_ok e
      split
      · simp [h1]
      · split
        · simp [h1]
        · split
          · next e => exact (bauXlate_canon h1 ..).of_error e
          · split
            · simp [h1]
            · simp [h1]
            · exact queueBau_canon h1 ..

theorem migr_canon (d a b : BitVec 5) : CanonOut (execMigr d a b s) := by
  refine unrecorded_canon h ?_
  dsimp only
  split
  · simp [h]
  · split
    · next e => exact (sbEmpty_canon h ..).of_error e
    · split
      · simp [h]
      · simp [h]
      · simp [h]
      · split
        · simp [h]
        · rw [ends_ok]
          refine dropFrame_canon ?_ ..
          simp [h]

theorem hld_canon (kt kv : BitVec 4) (n16 : BitVec 14) : CanonOut (execHld kt kv n16 s) := by
  unfold execHld
  split
  · exact issued_canon h _ _ fun r hr => by simpa using hr
  · split <;> simp [h]

theorem tld_canon (kt kv : BitVec 4) (n16 : BitVec 14) (vchk : BitVec 1) : CanonOut (execTld kt kv n16 vchk s) := by
  unfold execTld
  split
  · exact issued_canon h _ _ fun r hr => by simpa using hr
  · split <;> simp [h]

theorem tkw_canon (fifo : BitVec 3) (kd : BitVec 4) : CanonOut (execTkw fifo kd s) :=
  canonOut_ite h (issued_canon h _ _ fun r hr => by simpa using hr)

theorem lks_canon (ks : BitVec 4) (form dir : BitVec 2) (n1 : BitVec 10) : CanonOut (execLks ks form dir n1 s) := by
  unfold execLks
  dsimp only
  exact issuedFrom_canon h _ _ _ fun r hr => canon_foldl _ hr fun _ _ hw => by simpa using hw

theorem mma_canon (ka kw : BitVec 4) (af wf : BitVec 5) (bank : BitVec 1) (m1 : BitVec 6) :
    CanonOut (execMma ka kw af wf bank m1 s) := by
  unfold execMma
  dsimp only
  exact issuedFrom_canon h _ _ _ fun r hr => canon_foldl _ hr fun _ _ hw => by simpa using hw

end

/-- The state of an answer to a launch, where it has one, has canonical memory. -/
def CanonTaken : Taken → Prop
  | .accepted t _ | .waits t => Canon t.mem
  | _ => True

theorem canonTaken_ite {c : Prop} [Decidable c] {a b : Taken} (ha : CanonTaken a) (hb : CanonTaken b) :
    CanonTaken (if c then a else b) := by
  split <;> assumption

section
variable {s : State} (h : Canon s.mem)
include h

/-! ## Commands of the host -/

theorem hostCmd_canon {f : State → Cmd → State} (hf : ∀ c, Canon (f s c).mem) : CanonOut (hostCmd f s) := by
  unfold hostCmd
  dsimp only
  rw [canonOut_next]
  split
  · simp [h]
  · exact hf _

theorem jobOpen_canon : CanonOut (execJobOpen s) := by
  refine hostCmd_canon h fun c => canon_ite (by simp [h]) ?_
  split
  · split
    · simp [h]
    · simp [h]
    · next e _ =>
      have h1 := takeTable_canon h e
      simpa using h1
  · simp [h]

theorem map_canon : CanonOut (execMap s) := by
  refine hostCmd_canon h fun c => canon_ite (by simp [h]) (canon_ite (by simp [h]) ?_)
  split
  · simp [h]
  · next e =>
    have h1 := tlbDrop_canon (writeLeaves_canon h e)
    dsimp only
    rw [doneCmd_mem]
    exact h1 ..

theorem peer_canon : CanonOut (execPeer s) := by
  refine hostCmd_canon h fun c => canon_ite (by simp [h]) ?_
  rw [doneCmd_mem]
  exact canon_foldl _ h fun _ _ hw => by simpa using hw

theorem preempt_canon : CanonOut (execPreempt s) := by
  refine hostCmd_canon h fun c => ?_
  dsimp only
  split
  · exact canon_ite (moving_canon h c fun w hw => by simpa using hw) (by simp [h])
  · exact canon_ite (moving_canon h c fun w hw => by simpa using hw) (by simp [h])
  · exact canon_ite (by simp [h]) (moving_canon h c fun w hw => by simpa using hw)
  · simp [h]

theorem resume_canon : CanonOut (execResume s) := by
  refine hostCmd_canon h fun c => ?_
  dsimp only
  split
  · exact canon_ite (resuming_canon h c fun w hw => by simpa using hw) (by simp [h])
  · exact canon_ite (resuming_canon h c fun w hw => by simpa using hw) (by simp [h])
  · exact canon_ite (resuming_canon h c fun w hw => by simpa using hw) (by simp [h])
  · simp [h]

theorem vintage_canon : CanonOut (execVintage s) := by
  refine hostCmd_canon h fun c => ?_
  dsimp only
  split_ifs <;> simp [h]

theorem query_canon : CanonOut (execQuery s) := by
  refine hostCmd_canon h fun c => ?_
  split <;> simp [h]

theorem attest_canon : CanonOut (execAttest s) := by
  refine hostCmd_canon h fun c => ?_
  dsimp only
  split_ifs <;> simp [h]

theorem debug_canon : CanonOut (execDebug s) := by
  refine hostCmd_canon h fun c => ?_
  dsimp only
  (repeat' split) <;> simp [h]

theorem log_canon : CanonOut (execLog s) := by
  refine hostCmd_canon h fun c => ?_
  dsimp only
  split_ifs <;> simp [h]

theorem fwload_canon : CanonOut (execFwload s) := by
  refine hostCmd_canon h fun c => ?_
  split
  · simp [h]
  · split <;> simp [h]

theorem start_canon : CanonOut (execStart s) :=
  hostCmd_canon h fun c => canon_ite (by simp [h]) (by simp [h])

theorem power_canon : CanonOut (execPower s) := by
  refine hostCmd_canon h fun c => ?_
  dsimp only
  (repeat' split) <;> simp [h]

/-! ## Launches -/

theorem takeSpan_canon (l : Launch) (d : Sched) (p : Partition) (id gran : Nat) : CanonTaken (s.takeSpan l d p id gran) := by
  unfold State.takeSpan
  dsimp only
  split_ifs <;> simp [CanonTaken, h]

theorem takeSched_canon (l : Launch) : CanonTaken (s.takeSched l) := by
  unfold State.takeSched
  dsimp only
  split
  · generalize s.canPlace _ _ = fits
    refine canonTaken_ite trivial (canonTaken_ite (takeSpan_canon h ..) ?_)
    exact acceptSched_canon h ..
  · exact canonTaken_ite trivial trivial
  · exact True.intro

theorem takeKernel_canon (l : Launch) : CanonTaken (s.takeKernel l) := by
  unfold State.takeKernel
  dsimp only
  split
  · trivial
  · split
    · trivial
    · split
      · trivial
      · split
        · exact h
        · trivial
        · next e =>
          have h1 := createSets_canon h e
          exact admitKernel_canon h1 ..

theorem take_canon (l : Launch) : CanonTaken (s.take l) := by
  unfold State.take
  split
  · exact takeSched_canon h l
  · exact takeKernel_canon h l

theorem launchAccept_canon : CanonOut (execLaunchAccept s) := by
  unfold execLaunchAccept
  split
  · exact h
  · next l _ =>
    refine canonOut_ite h ?_
    have ht := take_canon h l
    split
    · next e =>
      rw [e] at ht
      exact launched_canon ht ..
    · simp [h]
    · next e =>
      rw [e] at ht
      exact ht
    · refine canon_ite (by simp [h]) (canon_ite ?_ h)
      exact canon_foldl _ h fun _ _ hw => by simpa using hw

/-! ## Events -/

theorem gatedRequestService_canon : CanonOut (execGatedRequestService s) := by
  unfold execGatedRequestService
  dsimp only
  split
  · next e =>
    have h1 := serveFirst_canon h e
    simpa using h1
  · simp [h]

theorem quantumEnd_canon : CanonOut (execQuantumEnd s) := by
  unfold execQuantumEnd
  refine canonOut_ite ?_ h
  rw [canonOut_next, nextQuantumSaved_mem]
  refine canon_foldl _ ?_ fun _ _ hw => by simpa using hw
  rw [State.setJob_mem]
  refine offerTasks_canon (canon_foldl _ ?_ fun _ _ hw => offerSent_canon hw _) _
  simp [h]

theorem messageDelivery_canon : CanonOut (execMessageDelivery s) := by
  unfold execMessageDelivery
  split
  · exact h
  · refine canonOut_ite h ?_
    split
    · exact h
    · next e =>
      have h1 := deliver_canon h e
      exact canon_ite (gateServed_canon h1 ..) h1

theorem spawnService_canon : CanonOut (execSpawnService s) := by
  unfold execSpawnService
  split
  · exact h
  · refine canonOut_ite h ?_
    rw [canonOut_next]
    cases e : State.serveSpawn _ _ with
    | none => exact h
    | some t =>
      have h1 := fun hs => serveSpawn_canon hs e
      exact h1 h

theorem qscQuietCheck_canon : CanonOut (execQscQuietCheck s) := by
  unfold execQscQuietCheck
  dsimp only
  split
  · exact canon_ite (by simp [h]) h
  · refine canonOut_ite (by simp [h]) (canonOut_ite (by simp [h]) (canonOut_ite h ?_))
    exact canon_foldl _ (depart_canon h ..) fun _ _ hw => depart_canon hw ..
  · exact h

theorem railEnable_canon : CanonOut (execRailEnable s) :=
  canonOut_ite h (canonOut_ite (by simp [h]) (turnOff_canon _))

theorem reset_canon : CanonOut (execReset s) :=
  canonOut_ite h (canonOut_ite (by simp [h]) (coldState_canon (s := s)))

theorem startSequence_canon : CanonOut (execStartSequence s) := by
  unfold execStartSequence
  split
  · exact h
  · refine canonOut_ite ?_ (startFails_canon ..)
    rw [canonOut_next, startOk_mem]
    exact canon_ite h coldState_canon

theorem retentionEntry_canon : CanonOut (execRetentionEntry s) :=
  canonOut_ite (filter_memWf _ h) h

theorem hbmGranuleLanding_canon : CanonOut (execHbmGranuleLanding s) := by
  unfold execHbmGranuleLanding
  dsimp only
  split
  · exact h
  · refine canon_foldl _ (canon_foldl _ h fun _ _ hw => ?_) fun _ _ hw => ?_
    · simpa using hw
    · exact canon_ite (landStopped_canon hw ..) (landGranule_canon hw ..)

theorem migrationEnd_canon : CanonOut (execMigrationEnd s) := by
  unfold execMigrationEnd
  split
  · exact h
  · refine migrAnswer_canon (rewritePtes_canon (s := { s.movePage _ with migrations := _ }) ?_ ..) _
    exact movePage_canon h _

theorem commandThread_canon : CanonOut (execCommandThread s) := by
  unfold execCommandThread
  dsimp only
  split_ifs <;> simp [h]

theorem commandCompletion_canon : CanonOut (execCommandCompletion s) := by
  unfold execCommandCompletion
  dsimp only
  (repeat' split) <;> simp [h]

theorem heldRecordDelivery_canon : CanonOut (execHeldRecordDelivery s) :=
  canonOut_ite h (by simp [h])

theorem launchPort_canon : CanonOut (execLaunchPort s) := by
  unfold execLaunchPort
  dsimp only
  (repeat' split) <;> simp [h]

theorem kernelComplete_canon : CanonOut (execKernelComplete s) :=
  canonOut_ite h (by simp [h])

theorem deadlinePreemption_canon : CanonOut (execDeadlinePreemption s) := by
  unfold execDeadlinePreemption
  split
  · exact h
  · split <;> simp [h]

theorem deadlineMiss_canon : CanonOut (execDeadlineMiss s) :=
  canonOut_ite (by simp [h]) h

theorem partitionPreemption_canon : CanonOut (execPartitionPreemption s) :=
  canonOut_ite h (canonOut_ite (by simp [h]) (by simp [h]))

theorem preemptSaveDone_canon : CanonOut (execPreemptSaveDone s) := by
  unfold execPreemptSaveDone
  dsimp only
  split_ifs <;> simp [h]

theorem kernelPreemption_canon : CanonOut (execKernelPreemption s) :=
  canonOut_ite (by simp [h]) h

theorem partitionRestore_canon : CanonOut (execPartitionRestore s) := by
  unfold execPartitionRestore
  dsimp only
  (repeat' split) <;> simp [h]

theorem kernelRestore_canon : CanonOut (execKernelRestore s) := by
  unfold execKernelRestore
  dsimp only
  (repeat' split) <;> simp [h]

theorem pctlContinue_canon : CanonOut (execPctlContinue s) := by
  unfold execPctlContinue
  dsimp only
  (repeat' split) <;> simp [h]

theorem pctlAbort_canon : CanonOut (execPctlAbort s) := by
  unfold execPctlAbort
  split <;> simp [h]

theorem hang_canon : CanonOut (execHang s) := by
  unfold execHang
  dsimp only
  (repeat' split) <;> simp [h]

theorem coreClockGate_canon : CanonOut (execCoreClockGate s) := by
  unfold execCoreClockGate
  dsimp only
  split <;> simp [h]

theorem corePowerGate_canon : CanonOut (execCorePowerGate s) := by
  unfold execCorePowerGate
  dsimp only
  split <;> simp [h]

theorem registerWrite_canon : CanonOut (execRegisterWrite s) := by
  unfold execRegisterWrite
  split <;> simp [h]

theorem ahqctlEnable_canon : CanonOut (execAhqctlEnable s) :=
  canonOut_ite (by simp [h]) h

theorem podForm_canon : CanonOut (execPodForm s) :=
  canonOut_ite h (by simp [h])

theorem podDissolve_canon : CanonOut (execPodDissolve s) :=
  canonOut_ite h (by simp [h])

theorem alccfgWrite_canon : CanonOut (execAlccfgWrite s) :=
  canonOut_ite h (by simp [h])

theorem counterFeedWrite_canon : CanonOut (execCounterFeedWrite s) := by
  simp [execCounterFeedWrite, h]

theorem counterTotalWrite_canon : CanonOut (execCounterTotalWrite s) := by
  unfold execCounterTotalWrite
  dsimp only
  split <;> simp [h]

theorem ullageCountReport_canon : CanonOut (execUllageCountReport s) := by
  simp [execUllageCountReport, h]

theorem ullageLaunch_canon : CanonOut (execUllageLaunch s) := by
  unfold execUllageLaunch
  (repeat' split) <;> simp [h]

theorem storeBufferDrain_canon : CanonOut (execStoreBufferDrain s) := by
  unfold execStoreBufferDrain
  split <;> simp [h]

theorem rlcEviction_canon : CanonOut (execRlcEviction s) := by
  simp [execRlcEviction, h]

theorem pageWalk_canon : CanonOut (execPageWalk s) := by
  unfold execPageWalk
  dsimp only
  split <;> simp [h]

theorem rplyDelivery_canon : CanonOut (execRplyDelivery s) := by
  unfold execRplyDelivery
  dsimp only
  (repeat' split) <;> simp [h]

theorem barrierEpisodeComplete_canon : CanonOut (execBarrierEpisodeComplete s) := by
  unfold execBarrierEpisodeComplete
  split
  · exact h
  · split <;> simp [h]

theorem windowSpill_canon : CanonOut (execWindowSpill s) :=
  canonOut_ite (by simp [h]) h

theorem windowFill_canon : CanonOut (execWindowFill s) :=
  canonOut_ite h (by simp [h])

theorem copyTransferStart_canon : CanonOut (execCopyTransferStart s) := by
  unfold execCopyTransferStart
  split <;> simp [h]

theorem copyTransferComplete_canon : CanonOut (execCopyTransferComplete s) := by
  unfold execCopyTransferComplete
  dsimp only
  split <;> simp [h]

theorem bauCommand_canon : CanonOut (execBauCommand s) := by
  unfold execBauCommand
  dsimp only
  split <;> simp [h]

theorem movedReissue_canon : CanonOut (execMovedReissue s) := by
  simp [execMovedReissue, h]

theorem wftRelease_canon : CanonOut (execWftRelease s) := by
  unfold execWftRelease
  dsimp only
  split <;> simp [h]

theorem remoteAck_canon : CanonOut (execRemoteAck s) := by
  unfold execRemoteAck
  split
  · exact h
  · split <;> simp [h]

theorem retransmissionLimit_canon : CanonOut (execRetransmissionLimit s) := by
  unfold execRetransmissionLimit
  split <;> simp [h]

theorem pdcIdleClose_canon : CanonOut (execPdcIdleClose s) := by
  unfold execPdcIdleClose
  dsimp only
  (repeat' split) <;> simp [h]

theorem frameReceive_canon : CanonOut (execFrameReceive s) :=
  canonOut_ite h (by simp [h])

theorem neighbourDiscovery_canon : CanonOut (execNeighbourDiscovery s) :=
  canonOut_ite h (by simp [h])

theorem ptpEventMessage_canon : CanonOut (execPtpEventMessage s) :=
  canonOut_ite (by simp [h]) (canonOut_ite (by simp [h]) (by simp [h]))

theorem ethernetPortDown_canon : CanonOut (execEthernetPortDown s) :=
  canonOut_ite h (by simp [h])

theorem ethernetPortTraining_canon : CanonOut (execEthernetPortTraining s) :=
  canonOut_ite h (canonOut_ite (by simp [h]) (by simp [h]))

theorem tendrilTraining_canon : CanonOut (execTendrilTraining s) :=
  canonOut_ite h (canonOut_ite (by simp [h]) (by simp [h]))

theorem link_canon : CanonOut (execLink s) :=
  canonOut_ite h (by simp [h])

theorem timestamp_canon : CanonOut (execTimestamp s) := by
  unfold execTimestamp
  dsimp only
  (repeat' split) <;> simp [h]

theorem timestampExchange_canon : CanonOut (execTimestampExchange s) := by
  unfold execTimestampExchange
  (repeat' split) <;> simp [h]

theorem sidebandFreeze_canon : CanonOut (execSidebandFreeze s) := by
  unfold execSidebandFreeze
  split <;> simp [h]

theorem sidebandResume_canon : CanonOut (execSidebandResume s) := by
  unfold execSidebandResume
  split <;> simp [h]

theorem sidebandBar_canon : CanonOut (execSidebandBar s) := by
  unfold execSidebandBar
  dsimp only
  (repeat' split) <;> simp [h]

theorem bcast_canon : CanonOut (execBcast s) := by
  unfold execBcast
  split
  · exact h
  · split <;> simp [h]

theorem corr_canon : CanonOut (execCorr s) :=
  canonOut_ite h (by simp [h])

theorem sidebandFault_canon : CanonOut (execSidebandFault s) := by
  unfold execSidebandFault
  split
  · exact h
  · split <;> simp [h]

theorem linkmgt_canon : CanonOut (execLinkmgt s) := by
  unfold execLinkmgt
  dsimp only
  (repeat' split) <;> simp [h]

theorem sidebandReserved_canon : CanonOut (execSidebandReserved s) :=
  canonOut_ite h (by simp [h])

theorem ptimeCorrectionStep_canon : CanonOut (execPtimeCorrectionStep s) := by
  unfold execPtimeCorrectionStep
  dsimp only
  split_ifs <;> simp [h]

theorem clockPhaseStep_canon : CanonOut (execClockPhaseStep s) :=
  canonOut_ite h (by simp [h])

theorem powerSample_canon : CanonOut (execPowerSample s) :=
  canonOut_ite h (by simp [h])

theorem throttleStep_canon : CanonOut (execThrottleStep s) := by
  unfold execThrottleStep
  dsimp only
  split_ifs <;> simp [h]

theorem throttleInterval_canon : CanonOut (execThrottleInterval s) := by
  simp [execThrottleInterval, h]

theorem thermalFloor_canon : CanonOut (execThermalFloor s) :=
  canonOut_ite h (by simp [h])

theorem marginPlan_canon : CanonOut (execMarginPlan s) :=
  canonOut_ite h (by simp [h])

theorem marginMonitorLow_canon : CanonOut (execMarginMonitorLow s) :=
  canonOut_ite h (canonOut_ite (by simp [h]) (by simp [h]))

theorem securityFault_canon : CanonOut (execSecurityFault s) :=
  canonOut_ite h (by simp [h])

theorem debugExpiry_canon : CanonOut (execDebugExpiry s) := by
  unfold execDebugExpiry
  split <;> simp [h]

theorem patrolScrub_canon : CanonOut (execPatrolScrub s) := by
  unfold execPatrolScrub
  dsimp only
  split_ifs <;> simp [h]

theorem sramScrub_canon : CanonOut (execSramScrub s) := by
  simp [execSramScrub, h]

theorem alertBackOff_canon : CanonOut (execAlertBackOff s) :=
  canonOut_ite h (by simp [h])

theorem hbmRetrainRequest_canon : CanonOut (execHbmRetrainRequest s) :=
  canonOut_ite h (canonOut_ite (by simp [h]) (by simp [h]))

theorem retrainDeferExpiry_canon : CanonOut (execRetrainDeferExpiry s) := by
  unfold execRetrainDeferExpiry
  dsimp only
  (repeat' split) <;> simp [h]

theorem hbmFallbackRate_canon : CanonOut (execHbmFallbackRate s) :=
  canonOut_ite h (by simp [h])

theorem scheduleStart_canon : CanonOut (execScheduleStart s) :=
  canonOut_ite (by simp [h]) h

theorem checkPoint_canon : CanonOut (execCheckPoint s) :=
  canonOut_ite (by simp [h]) h

theorem freezeTakesEffect_canon : CanonOut (execFreezeTakesEffect s) := by
  unfold execFreezeTakesEffect
  dsimp only
  split_ifs <;> simp [h]

theorem freezeEnd_canon : CanonOut (execFreezeEnd s) := by
  unfold execFreezeEnd
  dsimp only
  split <;> simp [h]

theorem slipTimeout_canon : CanonOut (execSlipTimeout s) :=
  canonOut_ite (by simp [h]) h

theorem postArrival_canon : CanonOut (execPostArrival s) := by
  unfold execPostArrival
  split <;> simp [h]

theorem windowOpen_canon : CanonOut (execWindowOpen s) := by
  unfold execWindowOpen
  dsimp only
  (repeat' split) <;> simp [h]

theorem windowClose_canon : CanonOut (execWindowClose s) :=
  canonOut_ite h (by simp [h])

theorem meshFlitArrival_canon : CanonOut (execMeshFlitArrival s) := by
  unfold execMeshFlitArrival
  dsimp only
  (repeat' split) <;> simp [h]

theorem scheduleEnd_canon : CanonOut (execScheduleEnd s) := by
  unfold execScheduleEnd
  dsimp only
  split_ifs <;> simp [h]

theorem thermalFloorRelease_canon : CanonOut (execThermalFloorRelease s) := by
  simp [execThermalFloorRelease, h]

theorem negativeAcknowledgement_canon : CanonOut (execNegativeAcknowledgement s) := by
  unfold execNegativeAcknowledgement
  split <;> simp [h]

theorem hbmRetrainingEnd_canon : CanonOut (execHbmRetrainingEnd s) :=
  canonOut_ite h (by simp [h])

end

theorem exec_canon {s : State} (h : Canon s.mem) (i : Instr) : CanonOut (exec i s) := by
  cases i
  case add | sub | addi | mul | mulh | mulhu | div | divu | rem | remu | andR | orR | xorR | andn | lea | andi |
    ori | xori | shl | shr | sar | rot | shli | shri | sari | roti | clz | ctz | popc | brev | bswp | bext | bins |
    min | max | minu | maxu | lih =>
    dsimp only [exec, execAdd, execSub, execAddi, execMul, execMulh, execMulhu, execDiv, execDivu, execRem, execRemu,
      execAndR, execOrR, execXorR, execAndn, execLea, execAndi, execOri, execXori, execShl, execShr, execSar,
      execRot, execShli, execShri, execSari, execRoti, execClz, execCtz, execPopc, execBrev, execBswp, execBext,
      execBins, execMin, execMax, execMinu, execMaxu, execLih, intExec]
    refine recordable_canon h _ ?_
    simpa using h
  case sk | ski =>
    dsimp only [exec, execSk, execSki]
    refine recordable_canon h _ ?_
    simpa using h
  case fadd | fsub | fmul | fdiv | fsqrt | fma | fms | fnma | fmin | fmax | fcvt | frnd =>
    dsimp only [exec, execFadd, execFsub, execFmul, execFdiv, execFsqrt, execFma, execFms, execFnma, execFmin,
      execFmax, execFcvt, execFrnd, fp2, fp3]
    refine unrecorded_canon h ?_
    exact fpResult_canon h ..
  case vadd | vsub | vmul | vfma | vdiv | vmin | vmax | vlog | vshf | vcmp | vsel | vbrd | vprm | vcvt | gmb =>
    dsimp only [exec, execVadd, execVsub, execVmul, execVfma, execVdiv, execVmin, execVmax, execVlog, execVshf,
      execVcmp, execVsel, execVbrd, execVprm, execVcvt, execGmb]
    refine unrecorded_canon h ?_
    exact lanesDone_canon h ..
  case ld | ldx | ldc =>
    dsimp only [exec, execLd, execLdx, execLdc]
    refine unrecorded_canon h ?_
    exact loadInstr_canon h ..
  case st | stx =>
    dsimp only [exec, execSt, execStx]
    refine unrecorded_canon h ?_
    exact storeInstr_canon h ..
  case ldf | ldp =>
    dsimp only [exec, execLdf, execLdp]
    refine unrecorded_canon h ?_
    exact takeInstr_canon h ..
  case ste | stf =>
    dsimp only [exec, execSte, execStf]
    refine unrecorded_canon h ?_
    exact putInstr_canon h ..
  case call =>
    dsimp only [exec, execCall]
    refine unrecorded_canon h ?_
    exact call_canon h ..
  case fsk | br | jr | ret | dbnz | prf | arb | fcls | fsgn | vred | vext | qsc | wft | cps | cpq | ulr | rst |
    vqry | rng | alc | fre | trap | eret | syr | syw | tlbi | tlbiAll | time | timeRot | brk =>
    dsimp only [exec, execFsk, execBr, execJr, execRet, execDbnz, execPrf, execArb, execFcls, execFsgn, execVred,
      execVext, execQsc, execWft, execCps, execCpq, execUlr, execRst, execVqry, execRng, execAlc, execFre, execTrap,
      execEret, execSyr, execSyw, execTlbi, execTlbiAll, execTime, execTimeRot, execBrk]
    refine unrecorded_canon h ?_
    (repeat' split) <;> simp [h]
  case nop | dly | wut | tkp | kli | kliHi | kliAdd | kliMul | kop | lkr | lka | wcl | prd | fmt | acz | var | vsy |
    vrd | vtr | vcm | vsl =>
    dsimp only [exec, execNop, execDly, execWut, execTkp, execKli, execKliHi, execKliAdd, execKliMul, execKop,
      execLkr, execLka, execWcl, execPrd, execFmt, execAcz, execVar, execVsy, execVrd, execVtr, execVcm, execVsl]
    refine issued_canon h _ _ fun r hr => ?_
    simpa using hr
  case win | vlt =>
    dsimp only [exec, execWin, execVlt]
    refine issued_canon h _ _ fun r hr => ?_
    split <;> exact hr
  case vly | scp | qnt | dqn | cvt | trn | pak | srs | wld | acr =>
    dsimp only [exec, execVly, execScp, execQnt, execDqn, execCvt, execTrn, execPak, execSrs, execWld, execAcr]
    refine issuedFrom_canon h _ _ _ fun r hr => ?_
    simpa using hr
  case blk | brc | endT =>
    dsimp only [exec, execBlk, execBrc, execEndT]
    exact issuedControl_canon h ..
  case hst | hac =>
    dsimp only [exec, execHst, execHac]
    exact hbmStore_canon h ..
  case jobClose | schedLoad | klaunch | seed =>
    dsimp only [exec, execJobClose, execSchedLoad, execKlaunch, execSeed]
    refine hostCmd_canon h fun c => ?_
    simp [h]
  case callr | fec | amo | cas | arc | fence | bfence | vld | vst | vgth | vsct | send | recv | rpc | rply | htw |
    spwn | quit | bar | cpl | hwt | hrl | uls | rinc | post | wwt | vpub | bcmd | migr | tkw | hld | tld | lks |
    mma =>
    simp only [exec, callr_canon h, fec_canon h, amo_canon h, cas_canon h, arc_canon h, fence_canon h,
      bfence_canon h, vld_canon h, vst_canon h, vgth_canon h, vsct_canon h, send_canon h, recv_canon h, rpc_canon h,
      rply_canon h, htw_canon h, spwn_canon h, quit_canon h, bar_canon h, cpl_canon h, hwt_canon h, hrl_canon h,
      uls_canon h, rinc_canon h, post_canon h, wwt_canon h, vpub_canon h, bcmd_canon h, migr_canon h, tkw_canon h,
      hld_canon h, tld_canon h, lks_canon h, mma_canon h]
  case jobOpen | map | peer | preempt | resume | vintage | query | attest | debug | log | fwload | start | power =>
    simp only [exec, jobOpen_canon h, map_canon h, peer_canon h, preempt_canon h, resume_canon h, vintage_canon h,
      query_canon h, attest_canon h, debug_canon h, log_canon h, fwload_canon h, start_canon h, power_canon h]
  case launchAccept | gatedRequestService | quantumEnd | messageDelivery | spawnService | qscQuietCheck |
    railEnable | reset | startSequence | retentionEntry | hbmGranuleLanding | migrationEnd | commandThread |
    commandCompletion | heldRecordDelivery | launchPort | kernelComplete | deadlinePreemption | deadlineMiss |
    partitionPreemption | preemptSaveDone | kernelPreemption | partitionRestore | kernelRestore | pctlContinue |
    pctlAbort | hang | coreClockGate | corePowerGate | registerWrite | ahqctlEnable | podForm | podDissolve |
    alccfgWrite | counterFeedWrite | counterTotalWrite | ullageCountReport | ullageLaunch | storeBufferDrain |
    rlcEviction | pageWalk | rplyDelivery | barrierEpisodeComplete | windowSpill | windowFill | copyTransferStart |
    copyTransferComplete | bauCommand | movedReissue | wftRelease | remoteAck | retransmissionLimit | pdcIdleClose |
    frameReceive | neighbourDiscovery | ptpEventMessage | ethernetPortDown | ethernetPortTraining | tendrilTraining |
    link | timestamp | timestampExchange | sidebandFreeze | sidebandResume | sidebandBar | bcast | corr |
    sidebandFault | linkmgt | sidebandReserved | ptimeCorrectionStep | clockPhaseStep | powerSample | throttleStep |
    throttleInterval | thermalFloor | marginPlan | marginMonitorLow | securityFault | debugExpiry | patrolScrub |
    sramScrub | alertBackOff | hbmRetrainRequest | retrainDeferExpiry | hbmFallbackRate | scheduleStart |
    checkPoint | freezeTakesEffect | freezeEnd | slipTimeout | postArrival | windowOpen | windowClose |
    meshFlitArrival | scheduleEnd | thermalFloorRelease | negativeAcknowledgement | hbmRetrainingEnd =>
    simp only [exec, launchAccept_canon h, gatedRequestService_canon h, quantumEnd_canon h, messageDelivery_canon h,
      spawnService_canon h, qscQuietCheck_canon h, railEnable_canon h, reset_canon h, startSequence_canon h,
      retentionEntry_canon h, hbmGranuleLanding_canon h, migrationEnd_canon h, commandThread_canon h,
      commandCompletion_canon h, heldRecordDelivery_canon h, launchPort_canon h, kernelComplete_canon h,
      deadlinePreemption_canon h, deadlineMiss_canon h, partitionPreemption_canon h, preemptSaveDone_canon h,
      kernelPreemption_canon h, partitionRestore_canon h, kernelRestore_canon h, pctlContinue_canon h,
      pctlAbort_canon h, hang_canon h, coreClockGate_canon h, corePowerGate_canon h, registerWrite_canon h,
      ahqctlEnable_canon h, podForm_canon h, podDissolve_canon h, alccfgWrite_canon h, counterFeedWrite_canon h,
      counterTotalWrite_canon h, ullageCountReport_canon h, ullageLaunch_canon h, storeBufferDrain_canon h,
      rlcEviction_canon h, pageWalk_canon h, rplyDelivery_canon h, barrierEpisodeComplete_canon h,
      windowSpill_canon h, windowFill_canon h, copyTransferStart_canon h, copyTransferComplete_canon h,
      bauCommand_canon h, movedReissue_canon h, wftRelease_canon h, remoteAck_canon h, retransmissionLimit_canon h,
      pdcIdleClose_canon h, frameReceive_canon h, neighbourDiscovery_canon h, ptpEventMessage_canon h,
      ethernetPortDown_canon h, ethernetPortTraining_canon h, tendrilTraining_canon h, link_canon h,
      timestamp_canon h, timestampExchange_canon h, sidebandFreeze_canon h, sidebandResume_canon h,
      sidebandBar_canon h, bcast_canon h, corr_canon h, sidebandFault_canon h, linkmgt_canon h,
      sidebandReserved_canon h, ptimeCorrectionStep_canon h, clockPhaseStep_canon h, powerSample_canon h,
      throttleStep_canon h, throttleInterval_canon h, thermalFloor_canon h, marginPlan_canon h,
      marginMonitorLow_canon h, securityFault_canon h, debugExpiry_canon h, patrolScrub_canon h, sramScrub_canon h,
      alertBackOff_canon h, hbmRetrainRequest_canon h, retrainDeferExpiry_canon h, hbmFallbackRate_canon h,
      scheduleStart_canon h, checkPoint_canon h, freezeTakesEffect_canon h, freezeEnd_canon h, slipTimeout_canon h,
      postArrival_canon h, windowOpen_canon h, windowClose_canon h, meshFlitArrival_canon h, scheduleEnd_canon h,
      thermalFloorRelease_canon h, negativeAcknowledgement_canon h, hbmRetrainingEnd_canon h]
  case rmaWrite =>
    dsimp only [exec, execRmaWrite]
    exact receive_canon h _ _ (rmaWrite_canon h _)
  case rmaRead =>
    dsimp only [exec, execRmaRead]
    exact receive_canon h _ _ (rmaRead_canon h _)
  case fetchAdd =>
    dsimp only [exec, execFetchAdd]
    exact receive_canon h _ _ (fetchAddPkt_canon h _)
  case nonFetchingAtomicAdd =>
    dsimp only [exec, execNonFetchingAtomicAdd]
    exact receive_canon h _ _ (addPkt_canon h _)
  case thermalTrip =>
    dsimp only [exec, execThermalTrip]
    exact canonOut_ite h (turnOff_canon _)
  case arl | ars =>
    dsimp only [exec, execArl, execArs]
    simp [h]

/-! ## The step -/

theorem issueThread_canon {s : State} (h : Canon s.mem) (t : Nat) : CanonOut (issueThread t s) := by
  unfold issueThread
  split
  · exact exec_canon (s := { s with cur := t }) h _
  · next e => exact (fetchNewt_canon (s := { s with cur := t }) h).of_error e

theorem issueStream_canon {s : State} (h : Canon s.mem) (t : Nat) (st : StreamId) : CanonOut (issueStream t st s) := by
  unfold issueStream
  split
  · exact exec_canon (s := { s with curTile := t, curSt := st }) h _
  · trivial

theorem perform_canonOut {s : State} (h : Canon s.mem) (a : Act) : CanonOut (perform a s) := by
  cases a with
  | issue c sl => exact issueThread_canon h _
  | stream t st => exact issueStream_canon h t st
  | event i x => exact exec_canon (s := { s with arg := x }) h i
  | storeUe t va => simp [perform, h]
  | spare c tried => simp [perform, h]

theorem step_canon {s : State} (h : Canon s.mem) : CanonOut (step s) := by
  unfold step
  split
  · exact tick_canon h
  · next rest _ => exact perform_canonOut (s := { s with agenda := rest }) h _

/-- Settles O50: each function of the model that writes memory writes it by operations that keep the canonical form, and the
rest leave memory alone. -/
theorem memoryStaysCanonical : Obligations.MemoryStaysCanonical := by
  intro s t h e
  have hstep := step_canon (s := s) h
  rw [e] at hstep
  exact hstep

/-- Settles O49: by the evaluation of the state after reset. -/
theorem resetMemoryWellFormed : Obligations.ResetMemoryWellFormed := reset_memWf

end Sys2Proof.CanonicalMemory
end

section
/-! PROOF. FENCE and BFENCE complete (06 R174, R175; 07 R186, R187, R189; 12 R368 to R370). -/

namespace Sys2Proof.FencesDone

open Sys2Proof
open Sys2Proof.Machine
open Sys2Proof.Becoming

section
variable {s : State}

theorem fence_retires (hp : s.performs) (sc : BitVec 3) {e : Scope} (he : e = s.fenceScope (scopeOfCode sc.toNat))
    (hsb : s.th.sb = []) (hout : e.atLeast .pkg = true → s.outstanding = 0)
    (hdue : (s.writeThrough e).takeDeferred (e.atLeast .pkg) = none) :
    exec (.fence sc) s = .next (((((s.writeThrough e).release e).acquire e).setTh
      { (((s.writeThrough e).release e).acquire e).th with readScope := .core }).retire) := by
  show execFence sc s = _
  have hwait : ¬ (e.atLeast .pkg = true ∧ s.outstanding ≠ 0) := fun h => h.2 (hout h.1)
  simp only [execFence, unrecorded_performs hp, State.sbEmpty, hsb, List.isEmpty_nil, if_true, ← he, if_neg hwait, rpeDue, hdue]
  rfl

theorem fence_waits (hp : s.performs) (sc : BitVec 3) (hsb : s.th.sb ≠ []) :
    exec (.fence sc) s = .next (s.setTh { s.th with park := .retry 0x41 }) := by
  show execFence sc s = _
  simp only [execFence, unrecorded_performs hp, State.sbEmpty, List.isEmpty_iff, if_neg hsb]
  rfl

/-- The commands that a BFENCE waits for: those it noted at its issue, or those queued now. -/
def fenceLeft (s : State) (sc : BitVec 3) (pa : Nat) : List (Nat × Nat) :=
  match s.th.park with
  | .bank _ l => l
  | _ => s.queuedAt (s.fenceHas sc pa)

theorem queuedAt_empty {f : Nat → Bool} (h : ∀ q ∈ s.banks, f q.1 = true → q.2.fifo = []) : s.queuedAt f = [] := by
  have hnone : s.banks.filter (fun p => f p.1 && !p.2.fifo.isEmpty) = [] := by
    refine List.filter_eq_nil_iff.2 fun q hq hf => ?_
    simp only [Bool.and_eq_true, Bool.not_eq_true'] at hf
    simp [h q hq hf.1] at hf
  simp [State.queuedAt, hnone]

theorem bankError_none {f : Nat → Bool} {key : Nat}
    (h : ∀ q ∈ s.banks, f q.1 = true → Store.get none key q.2.pend = none) : s.bankError f key = none := by
  have hnone : s.banks.filterMap (fun p => if f p.1 then Store.get none key p.2.pend else none) = [] := by
    refine List.filterMap_eq_nil_iff.2 fun q hq => ?_
    split
    · next hf => exact h q hq hf
    · rfl
  rw [State.bankError, hnone]
  rfl

theorem bfence_retires (hp : s.performs) {a : BitVec 5} {sc : BitVec 3} {pa : Nat} (hpa : s.fencePa a sc = .ok pa)
    (hleft : (fenceLeft s sc pa).any (fun p => p.2 != 0) = false)
    (herr : s.bankError (s.fenceHas sc pa) (threadKey s.th.job s.th.tid) = none) :
    exec (.bfence a sc) s = .next ((s.acquire .pkg).retire) := by
  show execBfence a sc s = _
  rw [execBfence, unrecorded_performs hp]
  simp only [hpa, herr]
  split_ifs with hwait
  · exact absurd hwait (Bool.eq_false_iff.1 hleft)
  · rfl

theorem fenceLeft_done {sc : BitVec 3} {pa : Nat}
    (h : match s.th.park with
      | .bank _ left => ∀ e ∈ left, e.2 = 0
      | _ => ∀ q ∈ s.banks, s.fenceHas sc pa q.1 = true → q.2.fifo = []) :
    (fenceLeft s sc pa).any (fun p => p.2 != 0) = false := by
  unfold fenceLeft
  split at h
  · simpa using h
  · rw [queuedAt_empty h]
    rfl

end

/-- Settles O24: each form by its own lemma; what a BFENCE waits for is done where the noted or the queued commands are. -/
theorem fencesComplete : Obligations.FencesComplete := by
  intro s a sc hp
  exact ⟨fence_retires hp sc rfl, fence_waits hp sc, fun pa hpa hleft herr =>
    bfence_retires hp hpa (fenceLeft_done hleft) (bankError_none herr)⟩

end Sys2Proof.FencesDone
end

section
/-! PROOF. LD, LDX and LDC (06 R151; 11 R313, R316, R317; 12 R353 to R356): a load by what its parts are, and the plain load
of near
storage with what it leaves of the thread and of the state. -/

namespace Sys2Proof.LoadsDone

open Sys2Proof
open Sys2Proof.Machine
open Sys2Proof.Becoming
open Sys2Proof.BankCompletion

/-! ## Addresses and values (12 R353, R354) -/

theorem xAddr_eq (base idx : Word) (sc : BitVec 2) : xAddr base idx sc = base + idx * BitVec.ofNat 64 (2 ^ sc.toNat) := by
  have hpow : BitVec.twoPow 64 sc.toNat = BitVec.ofNat 64 (2 ^ sc.toNat) :=
    BitVec.eq_of_toNat_eq (by rw [BitVec.toNat_twoPow, BitVec.toNat_ofNat])
  rw [xAddr, BitVec.shiftLeft_eq_mul_twoPow, hpow]

theorem sextW_eq {n : Nat} (hn : 0 < n) (x : Nat) : sextW n x = (BitVec.ofNat n x).signExtend 64 := by
  have hpow : 2 ^ n = 2 * 2 ^ (n - 1) := by rw [← Nat.pow_succ', Nat.succ_eq_add_one, Nat.sub_add_cancel hn]
  unfold sextW toSigned BitVec.signExtend
  rw [BitVec.toInt_eq_toNat_cond, BitVec.toNat_ofNat]
  congr 1
  split_ifs <;> omega

theorem loadValue_eq (wc : BitVec 3) (b : List Byte) :
    loadValue wc b = if 4 ≤ wc.toNat then BitVec.ofNat 64 (natOf b)
      else (BitVec.ofNat (8 * 2 ^ (wc.toNat % 4)) (natOf b)).signExtend 64 := by
  unfold loadValue wcUnsigned wcSize
  split_ifs with h h'
  · rfl
  · simp_all
  · simp_all
  · exact sextW_eq (by positivity) _

section
variable {s s1 : State} {opc : Nat} {va : Word} {wc : BitVec 3} {acq home : Bool} {ps : List Part} {d : BitVec 5}

/-! ## A load by what its parts are -/

theorem loadInstr_storage {b : List Byte} (hps : s.xparts opc va.toNat (wcSize wc) needRd = .ok ps)
    (hst : s.storageCheck va (wcSize wc) ps = .ok false) (hwait : acq = true → s.acqWaits ps = false)
    (hall : s.loadAll opc va ps (home || (acq && (s.acqEff ps).atLeast .die)) = .ok (b, s1)) :
    loadInstr opc d va wc acq home s =
      .ok ((if acq = true then s1.acquire (s.acqEff ps) else s1).retireG d (loadValue wc b)) := by
  have hgo : (acq && s.acqWaits ps) = false := by
    cases acq with
    | false => rfl
    | true => simpa using hwait rfl
  simp [loadInstr, State.scalarLoad, hps, hst, hgo, hall]

theorem loadInstr_register {p : Part} {rest : List Part} {v : Word}
    (hps : s.xparts opc va.toNat (wcSize wc) needRd = .ok (p :: rest))
    (hst : s.storageCheck va (wcSize wc) (p :: rest) = .ok true) (hsb : s.th.sb = []) (hv : s.mmioRead s.who p.pa = some v) :
    loadInstr opc d va wc acq home s =
      .ok ((if acq = true then (s.noteAccess p.pa).acquire (s.partsAcq (p :: rest)) else s.noteAccess p.pa).retireG d
        (loadValue wc (wordBytes v))) := by
  simp [loadInstr, State.scalarLoad, hps, hst, State.mmioLoad, State.sbEmpty, hsb, hv]

theorem execLd_eq (hp : s.performs) (base : BitVec 5) (ord : BitVec 2) (off : BitVec 9) :
    exec (.ld d base ord off wc) s =
      .next (ended (loadInstr 0x30 d (mAddr (s.g base) off (wcSize wc)) wc (ord == 2) false s)) :=
  unrecorded_performs hp _

theorem execLdx_eq (hp : s.performs) (base idx : BitVec 5) (ord sc : BitVec 2) :
    exec (.ldx d base idx wc ord sc) s =
      .next (ended (loadInstr 0x32 d (xAddr (s.g base) (s.g idx) sc) wc (ord == 2) false s)) :=
  unrecorded_performs hp _

theorem execLdc_eq (hp : s.performs) (base : BitVec 5) (ord : BitVec 2) (off : BitVec 9) :
    exec (.ldc d base ord off wc) s =
      .next (ended (loadInstr 0x34 d (mAddr (s.g base) off (wcSize wc)) wc (ord == 2) true s)) :=
  unrecorded_performs hp _

/-- What a load that is `i` does where its parts translate: the bytes of storage, or the aligned doubleword of a register. -/
theorem load_completes {i : Instr} (hi : exec i s = .next (ended (loadInstr opc d va wc acq home s)))
    (hps : s.xparts opc va.toNat (2 ^ (wc.toNat % 4)) needRd = .ok ps) :
    (∀ (b : List Byte) (s1 : State), s.storageCheck va (2 ^ (wc.toNat % 4)) ps = .ok false →
      (acq = true → s.acqWaits ps = false) → s.loadAll opc va ps (home || (acq && (s.acqEff ps).atLeast .die)) = .ok (b, s1) →
      exec i s = .next ((if acq = true then s1.acquire (s.acqEff ps) else s1).retireG d
        (if 4 ≤ wc.toNat then BitVec.ofNat 64 (natOf b)
          else (BitVec.ofNat (8 * 2 ^ (wc.toNat % 4)) (natOf b)).signExtend 64))) ∧
    (∀ (v : Word) (p : Part) (rest : List Part), ps = p :: rest → s.storageCheck va (2 ^ (wc.toNat % 4)) ps = .ok true →
      s.th.sb = [] → s.mmioRead s.who p.pa = some v →
      exec i s = .next ((if acq = true then (s.noteAccess p.pa).acquire (s.partsAcq ps)
        else s.noteAccess p.pa).retireG d (loadValue wc (wordBytes v)))) := by
  constructor
  · intro b s1 hst hwait hall
    rw [hi, loadInstr_storage hps hst hwait hall, loadValue_eq]
    rfl
  · rintro v p rest rfl hst hsb hv
    rw [hi, loadInstr_register hps hst hsb hv]
    rfl

/-! ## A plain load of near storage -/

/-- The part of an access that lies within 256 bytes is one. -/
theorem xparts_one {n a : Nat} {l : Leaf} {need : Need} (hfit : va.toNat % 256 + n ≤ 256)
    (hx : s.xlate s.cur va.toNat need = .pa a l) :
    s.xparts opc va.toNat n need = .ok [{ va := va.toNat, pa := a, len := n, leaf := l }] := by
  have hmin : Nat.min n (256 - va.toNat % 256) = n := Nat.min_eq_left (by omega)
  simp [State.xparts, State.xpart, hmin, hx]

theorem storageCheck_storage {n size : Nat} {p : Part} (hn : 0 < n) (hlen : p.len = n)
    (hst : ∀ k, k < n → spaceOf (p.pa + k) ≠ .mmio ∧ spaceOf (p.pa + k) ≠ .hole) : s.storageCheck va size [p] = .ok false := by
  obtain ⟨hm, hh⟩ := hst 0 hn
  obtain ⟨hm', hh'⟩ := hst (n - 1) (by omega)
  rw [← Nat.add_sub_assoc hn] at hm' hh'
  simp only [Nat.add_zero] at hm hh
  simp [State.storageCheck, isHole, isMmio, hlen, hm, hh, hm', hh']

theorem loadAll_near {p : Part} (hcover : coverOf s.th.sb [p] = .none) (hmmio : isMmio p.pa = false)
    (hview : isView p.pa = false)
    (hfar : s.isFar (coreOf s.cur) p.pa = false) (hline : (s.core (coreOf s.cur)).line (p.pa / 128) = none)
    (hr : s.readAns p.pa p.len s.th.job = .ok) :
    s.loadAll opc va [p] false = .ok (s.bytes p.pa p.len, (s.noteLoad p false).noteAccess p.pa) := by
  simp [State.loadAll, hcover, State.loadParts, hview, hmmio, loadPart_near hfar hline hr]

theorem onlyThread_setTh {r : State} (h : s.onlyThread r) (x : Thread) : s.onlyThread (r.setTh x) := by
  obtain ⟨hr, hothers, hbytes⟩ := h
  have hcur : r.cur = s.cur := (congrArg State.cur hr :)
  refine ⟨?_, fun u hu => (State.thread_setTh_other r (hcur ▸ hu) x).trans (hothers u hu), hbytes⟩
  rw [hr]
  rfl

theorem onlyThread_noteLoad (p : Part) (fresh : Bool) : s.onlyThread (s.noteLoad p fresh) := by
  have hself : s.onlyThread s := ⟨rfl, fun _ _ => rfl, fun _ => rfl⟩
  unfold State.noteLoad
  split
  · exact onlyThread_setTh hself _
  · exact onlyThread_setTh hself _

theorem noteLoad_th (p : Part) (fresh : Bool) : ∃ sc, (s.noteLoad p fresh).th = { s.th with readScope := sc } := by
  unfold State.noteLoad
  split
  · exact ⟨_, State.th_setTh ..⟩
  · exact ⟨_, State.th_setTh ..⟩

/-- The state in which a plain load retires. -/
def loadedState (s : State) (p : Part) (d : BitVec 5) (v : Word) : State :=
  ((s.noteLoad p false).noteAccess p.pa).retireG d v

theorem loadedState_only (p : Part) (v : Word) : s.onlyThread (loadedState s p d v) :=
  onlyThread_setTh (onlyThread_setTh (onlyThread_setTh (onlyThread_noteLoad p false) _) _) _

theorem loadedState_th (p : Part) (v : Word) : ∃ sc far, (loadedState s p d v).th =
    ({ s.th with readScope := sc, far := far }.setGr d.toNat v).go (s.th.pc + 4) 1 := by
  obtain ⟨sc, hsc⟩ := noteLoad_th (s := s) p false
  refine ⟨sc, (s.noteLoad p false).th.far || (s.noteLoad p false).farAccess (coreOf (s.noteLoad p false).cur) p.pa, ?_⟩
  simp only [loadedState, State.retireG, State.setG, State.noteAccess, Kept.retire_th, State.th_setTh, hsc]
  rw [Thread.setGr_eq]

theorem loadedState_g (p : Part) (v : Word) (r : BitVec 5) :
    (loadedState s p d v).g r = if r = 0 then 0 else if r = d then v else s.g r := by
  obtain ⟨sc, far, hth⟩ := loadedState_th (s := s) (d := d) p v
  have hgr := Thread.gr_setGr { s.th with readScope := sc, far := far } d.toNat r.toNat v
  rw [State.g, hth]
  refine hgr.trans ?_
  simp only [BitVec.toNat_eq]
  rfl

theorem loadedState_frame (p : Part) (v : Word) :
    let t := loadedState s p d v
    t.th = { s.th with g := t.th.g, pc := s.th.pc + 4, park := .running, qcount := s.th.qcount + 1,
                       far := t.th.far, readScope := t.th.readScope } := by
  obtain ⟨sc, far, hth⟩ := loadedState_th (s := s) (d := d) p v
  dsimp only
  rw [hth, Thread.setGr_eq]
  rfl

theorem ld_near {base : BitVec 5} {off : BitVec 9} {a : Nat} {l : Leaf} {n : Nat} (hn : n = 2 ^ (wc.toNat % 4))
    (hva : va = s.g base + off.signExtend 64 * BitVec.ofNat 64 n) (hp : s.performs) (hfit : va.toNat % 256 + n ≤ 256)
    (hx : s.xlate s.cur va.toNat needRd = .pa a l) (hst : ∀ k, k < n → spaceOf (a + k) ≠ .mmio ∧ spaceOf (a + k) ≠ .hole)
    (hview : isView a = false) (hcover : coverOf s.th.sb [{ va := va.toNat, pa := a, len := n, leaf := l }] = .none)
    (hfar : s.isFar (coreOf s.cur) a = false) (hline : (s.core (coreOf s.cur)).line (a / 128) = none)
    (hr : s.readAns a n s.th.job = .ok) :
    exec (.ld d base 0 off wc) s =
      .next (loadedState s { va := va.toNat, pa := a, len := n, leaf := l } d (loadValue wc (s.bytes a n))) := by
  subst hn
  have hpos : 0 < 2 ^ (wc.toNat % 4) := by positivity
  have hmmio : isMmio a = false := by simpa [isMmio] using (hst 0 hpos).1
  have hparts := xparts_one (opc := 0x30) hfit hx
  rw [execLd_eq hp, mAddr, wcSize, ← hva, loadInstr_storage hparts (storageCheck_storage hpos rfl hst) (fun h => by cases h)
    (loadAll_near hcover hmmio hview hfar hline hr)]
  rfl

end

/-- Settles O18: the three forms by what a load does where its parts translate, the plain load by the state it leaves. -/
theorem loadsReadMemory : Obligations.LoadsReadMemory := by
  refine ⟨fun s d base idx ord sc off wc hp _ => ?_, fun s d base off wc a l hp _ => ?_⟩
  · simp only [List.forall_mem_cons, List.not_mem_nil, IsEmpty.forall_iff, implies_true, and_true]
    refine ⟨fun ps hps => load_completes (execLd_eq hp base ord off) hps, fun ps hps => ?_,
      fun ps hps => load_completes (execLdc_eq hp base ord off) hps⟩
    have hldx := execLdx_eq (d := d) (wc := wc) hp base idx ord sc
    rw [xAddr_eq] at hldx
    exact load_completes hldx hps
  · intro n ea hfit hx hst hview hcover hfar hline hr
    refine ⟨_, ld_near rfl rfl hp hfit hx hst hview hcover hfar hline hr, loadedState_only .., ?_, fun r hne => ?_,
      loadedState_frame ..⟩
    · rw [loadedState_g, if_pos rfl, loadValue_eq]
    · rw [loadedState_g, if_neg hne]
      split_ifs with h0
      · rw [h0]
        rfl
      · rfl

end Sys2Proof.LoadsDone
end

section
/-! PROOF. What a thread is after an instruction that acquires and writes a register has retired (07 R187; 12 R338): the
rules that the
completions of several instructions are proved from. -/

namespace Sys2Proof.Completing

open Sys2Proof
open Sys2Proof.Machine
open Sys2Proof.Kept
open Sys2Proof.Becoming

section
variable {s r : State}

/-- A state whose executing thread is at the same instruction as in another: the same thread, pc and count. -/
def Abreast (s r : State) : Prop := r.cur = s.cur ∧ r.th.pc = s.th.pc ∧ r.th.qcount = s.th.qcount

theorem abreast_refl (s : State) : Abreast s s := ⟨rfl, rfl, rfl⟩

theorem abreast_of_kept (h : kept r = kept s) : Abreast s r := ⟨cur_of_kept h, pc_of_kept h, qcount_of_kept h⟩

theorem abreast_of_becomes {y : Thread} (h : Becomes s r s.cur y) (hpc : y.pc = s.th.pc) (hcount : y.qcount = s.th.qcount) :
    Abreast s r := by
  have hth : bare r.th = bare y := by rw [State.th, h.cur, h.thread]
  exact ⟨h.cur, (congrArg Thread.pc hth :).trans hpc, (congrArg Thread.qcount hth :).trans hcount⟩

theorem Abreast.trans {t : State} (h : Abreast s r) (h' : Abreast r t) : Abreast s t :=
  ⟨h'.1.trans h.1, h'.2.1.trans h.2.1, h'.2.2.trans h.2.2⟩

theorem acquire_abreast (sc : Scope) : Abreast s (s.acquire sc) := abreast_of_becomes (acquire_becomes sc) rfl rfl

theorem setTh_abreast {x : Thread} (hpc : x.pc = s.th.pc) (hcount : x.qcount = s.th.qcount) : Abreast s (s.setTh x) :=
  ⟨rfl, (congrArg Thread.pc (State.th_setTh s x)).trans hpc, (congrArg Thread.qcount (State.th_setTh s x)).trans hcount⟩

theorem setG_abreast (d : BitVec 5) (v : Word) : Abreast s (s.setG d v) :=
  setTh_abreast (by rw [Thread.setGr_eq]) (by rw [Thread.setGr_eq])

theorem retired_of_abreast (h : Abreast s r) : s.retired r.retire := by
  obtain ⟨hcur, hpc, hcount⟩ := h
  rw [State.retired, retire_th]
  exact ⟨hcur, congrArg (· + 4) hpc, rfl, congrArg (· + 1) hcount⟩

theorem retired_retireG (h : Abreast s r) (d : BitVec 5) (v : Word) : s.retired (r.retireG d v) :=
  retired_of_abreast (h.trans (setG_abreast d v))

theorem retire_g (d : BitVec 5) : r.retire.g d = r.g d := by
  rw [State.g, retire_th]
  rfl

theorem setG_g (d e : BitVec 5) (v : Word) : (s.setG d v).g e = if e = 0 then 0 else if e = d then v else s.g e := by
  rw [State.g, State.setG, State.th_setTh, Thread.gr_setGr]
  simp only [BitVec.toNat_eq]
  rfl

theorem retireG_g (d : BitVec 5) (v : Word) : (r.retireG d v).g d = if d = 0 then 0 else v := by
  rw [State.retireG, retire_g, setG_g, if_pos rfl]

theorem takeDeferred_atRest (h : s.atRest) (due : Bool) : s.takeDeferred due = none := by
  obtain ⟨-, hrpe, hwpe, hvpe, -⟩ := h
  simp [State.takeDeferred, hrpe, hwpe, hvpe]

/-! ## A release with nothing left to order (07 R186; 12 R337) -/

theorem writeThrough_cleanFrom (h : Clean s (coreOf s.cur)) (sc : Scope) : CleanFrom s (coreOf s.cur) (s.writeThrough sc) := by
  have hrefl : CleanFrom s (coreOf s.cur) s := ⟨⟨s.cores, rfl⟩, h⟩
  unfold State.writeThrough
  split
  · exact foldl_keeps (CleanFrom s (coreOf s.cur)) (fun w (l : Line) => w.flushLine (coreOf s.cur) l.num)
      (fun _ _ hw => flushWords_clean hw _ _) _ s hrefl
  · exact hrefl

/-- A release whose core has no dirty word to write through changes the cores and what is noted of the thread alone. -/
theorem release_clean (h : Clean s (coreOf s.cur)) (sc : Scope) :
    CleanFrom s (coreOf s.cur) { s.release sc with threads := s.threads } ∧ bare (s.release sc).th = bare s.th := by
  obtain ⟨⟨cs, hcs⟩, hclean⟩ := writeThrough_cleanFrom h sc
  refine ⟨⟨⟨cs, ?_⟩, hclean⟩, th_of_kept (kept_release sc)⟩
  rw [State.release, hcs]
  rfl

/-- The same of the writing through and the release that come before an instruction. -/
theorem released_clean (h : s.atRest) (sc : Scope) :
    ∃ cs ts, (s.writeThrough sc).release sc = { s with cores := cs, threads := ts } := by
  obtain ⟨-, -, -, -, hclean⟩ := h
  obtain ⟨⟨cs, hcs⟩, hdone⟩ := writeThrough_cleanFrom hclean sc
  have hcur : (s.writeThrough sc).cur = s.cur := by rw [hcs]
  obtain ⟨⟨⟨cs', hcs'⟩, -⟩, -⟩ := release_clean (s := s.writeThrough sc) (by rwa [hcur]) sc
  refine ⟨cs', ((s.writeThrough sc).release sc).threads, ?_⟩
  have hback := congrArg (fun w : State => { w with threads := ((s.writeThrough sc).release sc).threads }) hcs'
  refine Eq.trans ?_ (hback.trans ?_)
  · rfl
  · rw [hcs]

end

end Sys2Proof.Completing
end

section
/-! PROOF. POST, WWT, VPUB and VQRY complete (06 R164 to R166; 09 R253, R254, R258; 13 R407 to R410). -/

namespace Sys2Proof.PartitionAccesses

open Sys2Proof
open Sys2Proof.Machine
open Sys2Proof.Kept
open Sys2Proof.Becoming
open Sys2Proof.PostsAndVintages
open Sys2Proof.ThreadsComplete
open Sys2Proof.Completing

section
variable {s r : State}

/-! ## POST (13 R407): what a post leaves of the threads -/

theorem spread_seen (p : Partition) (kind : Nat) (at_ : Word) (value : List Byte) :
    seen (s.spread p kind at_ value) = seen s := by
  unfold State.spread
  split
  · exact sideband_seen ..
  · rfl

theorem retryPosts_seen (t : Nat) : seen (s.retryPosts t) = seen s := by
  unfold State.retryPosts
  split <;> rfl

theorem stallCheck_seen (pk t : Nat) : seen (s.stallCheck pk t) = seen s := by
  refine foldl_same seen _ (fun w x => ?_) _ s
  refine (retryPosts_seen t).trans (foldl_same seen _ (fun v f => spread_seen ..) _ _)

theorem postAt_seen (q : Post) (t : Nat) : seen (s.postAt q t) = seen s := by
  unfold State.postAt
  dsimp only
  split_ifs
  · exact stallCheck_seen ..
  · rfl
  · rfl
  · rfl

theorem postDone_th {t : Nat} (ht : s.cur = t) (hpark : s.th.park = .post) :
    (s.postDone t).th = s.th.go (s.th.pc + 4) 1 ∧ (s.postDone t).cur = s.cur := by
  subst ht
  have hp : (s.thread s.cur).park = .post := hpark
  simp only [State.postDone, hp, if_true]
  exact ⟨State.th_setTh s _, rfl⟩

/-- A post performed at once retires its thread's instruction. -/
theorem performPost_retires {q : Post} (hthr : q.thr = r.cur) (hpre : (r.part q.part).st ≠ .preempted)
    (hfree : (r.part q.part).st ≠ .free) (hroom : r.postRoom q = true) (hbehind : r.postBehind q = false)
    (hat : Abreast s r) (hpark : r.th.park = .post) : s.retired (r.performPost q false) := by
  obtain ⟨hcur, hpc, hcount⟩ := hat
  have hheld : ¬ ((!r.postRoom q || (!false && r.postBehind q)) = true) := by simp [hroom, hbehind]
  have hposted : seen (q.tiles.foldl (fun w t => w.postAt q t) r) = seen r := foldl_same seen _ (fun _ t => postAt_seen q t) _ _
  have hretried : ∀ w : State, seen (q.tiles.foldl (fun w t => w.retryPosts t) w) = seen w := fun w =>
    foldl_same seen _ (fun _ t => retryPosts_seen t) _ _
  have hpcur : (q.tiles.foldl (fun w t => w.postAt q t) r).cur = q.thr :=
    (congrArg (fun v : Store Thread × Nat × List Episode => v.2.1) hposted).trans hthr.symm
  obtain ⟨hdone, hdcur⟩ := postDone_th hpcur ((congrArg Thread.park (th_of_seen hposted)).trans hpark)
  rw [State.performPost, if_neg hpre, if_neg hfree, if_neg hheld]
  have hth := th_of_seen (hretried ((q.tiles.foldl (fun w t => w.postAt q t) r).postDone q.thr))
  rw [hdone, th_of_seen hposted] at hth
  refine ⟨?_, ?_, ?_, ?_⟩
  · refine (congrArg (fun v : Store Thread × Nat × List Episode => v.2.1) (hretried _)).trans ?_
    exact hdcur.trans (hpcur.trans (hthr.trans hcur))
  · rw [hth]
    exact congrArg (· + 4) hpc
  · rw [hth]
    rfl
  · rw [hth]
    exact congrArg (· + 1) hcount

theorem post_completes {a b : BitVec 5} {k : Nat} (hclear : s.clear) (hbad : postBad (s.g a).toNat = false)
    (hk : s.addressed s.th.job ((s.g a).toNat % 1024) = some k) (hpre : (s.part k).st ≠ .preempted)
    (hfree : (s.part k).st ≠ .free) (hroom : s.postRoom (postAsked s (s.g a).toNat (s.g b) k) = true)
    (hbehind : s.postBehind (postAsked s (s.g a).toNat (s.g b) k) = false) :
    ∃ u, exec (.post a b) s = .next u ∧ s.retired u := by
  obtain ⟨hp, hrest⟩ := hclear
  have hrel := beforeRelease_atRest hrest 0x78 .pkg
  have hat : Abreast s ((s.writeThrough .pkg).release .pkg) := abreast_of_kept (kept_of_beforeRelease hrel)
  refine ⟨_, post_asked hp hbad hk hrel, ?_⟩
  obtain ⟨cs, ts, hr⟩ := released_clean hrest .pkg
  dsimp only
  split
  · exact retired_of_abreast hat
  · rw [hr] at hat ⊢
    refine performPost_retires rfl hpre hfree hroom hbehind (hat.trans (setTh_abreast rfl rfl)) ?_
    exact congrArg Thread.park (State.th_setTh ..)

/-! ## WWT (13 R408) -/

theorem wwt_again {a d : BitVec 5} {k : Nat} (hp : s.performs) (hw : (s.g a).toNat < 2 ^ 14) (hsame : s.th.wwtFor = some k)
    (hk : s.addressed s.th.job ((s.g a).toNat % 1024) = some k) :
    exec (.wwt d a) s = .next (ended (s.wwtAt d k ((s.g a).toNat % 1024) ((s.g a).toNat / 2 ^ 10 % 16))) := by
  have hno : ¬ (k ≠ k ∧ (s.part k).st = .free) := fun h => h.1 rfl
  show execWwt d a s = _
  simp only [execWwt, unrecorded_performs hp, Nat.div_eq_of_lt hw, hsame, hk, if_neg hno]
  rfl

theorem wwt_completes {a d : BitVec 5} {k : Nat} {x : Win} (hp : s.performs) (hw : (s.g a).toNat < 2 ^ 14)
    (hk : s.addressed s.th.job ((s.g a).toNat % 1024) = some k) (hfor : s.th.wwtFor = none ∨ s.th.wwtFor = some k)
    (hopen : (s.tileOf k ((s.g a).toNat % 1024)).wins.find?
      (fun y => y.defn.wid == (s.g a).toNat / 2 ^ 10 % 16 && y.isOpen) = some x) :
    ∃ u, exec (.wwt d a) s = .next u ∧ s.retired u ∧ u.g d = if d = 0 then 0 else x.checkCycle (s.part k).lead := by
  have hexec : exec (.wwt d a) s = .next (ended (s.wwtAt d k ((s.g a).toNat % 1024) ((s.g a).toNat / 2 ^ 10 % 16))) :=
    hfor.elim (fun h => wwt_addressed hp hw h hk) (fun h => wwt_again hp hw h hk)
  rw [wwtAt_open hopen] at hexec
  exact ⟨_, hexec, retired_retireG (acquire_abreast _) .., retireG_g ..⟩

/-! ## VPUB and VQRY (13 R409, R410) -/

theorem vpub_completes {a b d : BitVec 5} (hclear : s.clear) (hown : s.ownsSet s.th.job (s.g a) = true)
    (hbar : (s.vset (s.g a).toNat).bar (s.g b).toNat = none) :
    let x := s.vset (s.g a).toNat
    ∃ u, exec (.vpub d a b) s = .next u ∧ s.retired u ∧ (u.vset (s.g a).toNat).pub = x.pub + 1 ∧
      (u.vset (s.g a).toNat).pubcopy = (s.g b).toNat ∧ u.g d = if d = 0 then 0 else (x.pub + 1).setWidth 64 := by
  obtain ⟨hp, hrest⟩ := hclear
  intro x
  have hvset : ∀ w : State, ∀ v y, (((w.setVset v y).retireG d ((x.pub + 1).setWidth 64)).vset v) = y := fun w v y =>
    State.vset_setVset_same w v y
  refine ⟨_, vpub_publishes hp (takeDeferred_atRest hrest true) hown hbar hrest.1, ?_, ?_, ?_, retireG_g ..⟩
  · exact retired_retireG (abreast_of_kept (kept_release (s := s) .pkg)) ..
  · rw [hvset]
  · rw [hvset]

theorem vqry_completes {a d : BitVec 5} (hp : s.performs) (hown : s.ownsSet s.th.job (s.g a) = true) (hd : d.toNat ≤ 30) :
    let x := s.vset (s.g a).toNat
    ∃ u, exec (.vqry d a) s = .next u ∧ s.retired u ∧
      (d ≠ 0 → u.g d = BitVec.ofNat 64 (x.pub.toNat + x.pubcopy * 2 ^ 32 + x.ncopy * 2 ^ 34)) ∧
      u.g (d + 1) = BitVec.ofNat 64 (natOf (x.latch.flatMap (fun l => bytesOf 2 l.toNat))) := by
  have hnext : d + 1 ≠ 0 := by bv_omega
  have hother : d ≠ d + 1 := by bv_omega
  refine ⟨_, vqry_reads hp hown, retired_retireG (setG_abreast ..) .., fun hd0 => ?_, ?_⟩
  · rw [State.retireG, retire_g, setG_g, if_neg hd0, if_neg hother, setG_g, if_neg hd0, if_pos rfl]
  · rw [retireG_g, if_neg hnext]

end

/-- Settles O58: each instruction by its own lemma, the post with nothing left to order before it. -/
theorem partitionAccessesComplete : Obligations.PartitionAccessesComplete := by
  intro s d a b k w t
  refine ⟨fun hclear hbad hk hpre hfree hroom hbehind => post_completes hclear hbad hk hpre hfree hroom hbehind,
    fun x hp hw hk hfor hopen => wwt_completes hp hw hk hfor hopen, fun hv hused howner => ?_⟩
  have hown : s.ownsSet s.th.job (s.g a) = true := ownsSet_eq_true.2 ⟨hv, hused, howner⟩
  refine ⟨fun hclear hn hlatch hpub => vpub_completes hclear hown ?_, fun hp hd => vqry_completes hp hown hd⟩
  exact (if_neg (Nat.not_le.2 hn)).trans ((if_neg (not_not.2 hlatch)).trans (if_neg hpub))

end Sys2Proof.PartitionAccesses
end

section
/-! PROOF. What dropping lines of the remote line caches and entries of the TLBs does, and what it leaves (06 R143, R149,
R155): the rules
that TLBI, MIGR and the evictions are proved from. -/

namespace Sys2Proof.CachesDropped

open Sys2Proof
open Sys2Proof.Machine
open Sys2Proof.Kept
open Sys2Proof.Becoming

section
variable {s r : State}

/-! ## A line dropped from a core's remote line cache (06 R149) -/

/-- A core but for its remote line cache and its count of faults lost. -/
def still (x : Core) : Core := { x with rlc := [], deferredLost := 0 }

/-- The lines of each core, and what writing them through leaves of it. -/
def caches (s : State) : Nat → List Line × Core := fun k => ((s.core k).rlc, still (s.core k))

theorem caches_setCore {c : Nat} {x : Core} (hrlc : x.rlc = (s.core c).rlc) (hstill : still x = still (s.core c)) :
    caches (s.setCore c x) = caches s := by
  funext k
  by_cases hk : k = c
  · rw [hk, caches, State.core_setCore_same, hrlc, hstill]
    rfl
  · rw [caches, State.core_setCore_other _ hk]
    rfl

theorem caches_noteWritten (pa n : Nat) : caches (s.noteWritten pa n) = caches s := by
  unfold State.noteWritten
  split
  · dsimp only
    split <;> rfl
  · rfl

theorem caches_perform (pa : Nat) (b : List Byte) (w : WTag) : caches (s.perform pa b w) = caches s :=
  caches_noteWritten (s := (s.putMem pa b).clearUe pa b.length) pa b.length

theorem caches_deferFault (t kind : Nat) (wkind : BitVec 2) (detail : Word) :
    caches (s.deferFault t kind wkind detail) = caches s := by
  unfold State.deferFault
  split
  · exact caches_setCore rfl rfl
  · rfl

theorem caches_refuseStore (t c : Nat) (va : Word) : caches (s.refuseStore t c va) = caches s := by
  unfold State.refuseStore
  split_ifs
  · exact caches_deferFault ..
  · exact caches_deferFault ..
  · exact caches_deferFault ..
  · rfl
  · rfl

theorem caches_flushWord (l : Line) (i : Nat) : caches (s.flushWord l i) = caches s := by
  unfold State.flushWord
  split
  · rfl
  · dsimp only
    split
    · exact caches_perform ..
    · exact caches_refuseStore ..
    · rfl

theorem caches_flushGranule (l : Line) (g : Nat) : caches (s.flushGranule l g) = caches s := by
  refine (foldl_same caches _ (fun _ i => caches_flushWord l i) _ _).trans ?_
  split <;> rfl

/-- Writing a line through leaves every other line alone, and of the cores all else but the faults lost. -/
theorem flushLine_caches (c n k : Nat) :
    still ((s.flushLine c n).core k) = still (s.core k) ∧ (k ≠ c → ((s.flushLine c n).core k).rlc = (s.core k).rlc) ∧
      ((s.flushLine c n).core c).rlc.filter (fun m => m.num != n) = (s.core c).rlc.filter (fun m => m.num != n) := by
  unfold State.flushLine State.flushWords
  split
  · exact ⟨rfl, fun _ => rfl, rfl⟩
  · next l hl =>
    have hnum : l.num = n := by simpa using List.find?_some hl
    have hsame : caches ((List.range 4).foldl (fun (w : State) g =>
        w.flushGranule { l with dirty := l.dirty &&& BitVec.allOnes 16 } g) s) = caches s :=
      foldl_same caches _ (fun _ g => caches_flushGranule _ g) _ _
    dsimp only
    generalize (List.range 4).foldl (fun (w : State) g =>
      w.flushGranule { l with dirty := l.dirty &&& BitVec.allOnes 16 } g) s = w at hsame ⊢
    have hrlc : ∀ j, (w.core j).rlc = (s.core j).rlc := fun j => congrArg Prod.fst (congrFun hsame j)
    have hstill : ∀ j, still (w.core j) = still (s.core j) := fun j => congrArg Prod.snd (congrFun hsame j)
    refine ⟨?_, fun hk => ?_, ?_⟩
    · by_cases hk : k = c
      · rw [hk, State.core_setCore_same]
        exact hstill c
      · rw [State.core_setCore_other _ hk]
        exact hstill k
    · rw [State.core_setCore_other _ hk]
      exact hrlc k
    · rw [State.core_setCore_same, ← hrlc c]
      simp [Core.putLine, hnum, List.filter_filter]

theorem kept_evictLine (c n : Nat) : kept (s.evictLine c n) = kept s := kept_flushWords c n _

theorem evictLine_rlc (c n k : Nat) :
    ((s.evictLine c n).core k).rlc = if k = c then (s.core c).rlc.filter (fun m => m.num != n) else (s.core k).rlc := by
  obtain ⟨-, hother, hsame⟩ := flushLine_caches (s := s) c n k
  unfold State.evictLine
  split_ifs with hk
  · rw [hk, State.core_setCore_same]
    exact hsame
  · rw [State.core_setCore_other _ hk]
    exact hother hk

theorem evictLine_still (c n k : Nat) : still ((s.evictLine c n).core k) = still (s.core k) := by
  unfold State.evictLine
  by_cases hk : k = c
  · rw [hk, State.core_setCore_same]
    exact (flushLine_caches c n c).1
  · rw [State.core_setCore_other _ hk]
    exact (flushLine_caches c n k).1

/-! ## Several lines dropped -/

/-- The lines of some numbers dropped from a core's cache. -/
def evictLines (s : State) (c : Nat) (ns : List Nat) : State := ns.foldl (fun w n => w.evictLine c n) s

theorem kept_evictLines (c : Nat) (ns : List Nat) : kept (evictLines s c ns) = kept s :=
  foldl_same kept _ (fun _ n => kept_evictLine c n) _ _

theorem evictLines_tlb (c : Nat) (ns : List Nat) (k : Nat) : ((evictLines s c ns).core k).tlb = (s.core k).tlb :=
  (congrArg Core.tlb (foldl_same (fun w : State => still (w.core k)) _ (fun _ n => evictLine_still c n k) ns s) :)

theorem mem_evictLines {c : Nat} {ns : List Nat} {k : Nat} {x : Line} (hx : x ∈ ((evictLines s c ns).core k).rlc) :
    x ∈ (s.core k).rlc ∧ (k = c → x.num ∉ ns) := by
  induction ns generalizing s with
  | nil => exact ⟨hx, fun _ => List.not_mem_nil⟩
  | cons n ns ih =>
    obtain ⟨hmem, hnot⟩ := ih (s := s.evictLine c n) hx
    rw [evictLine_rlc] at hmem
    split_ifs at hmem with hk
    · obtain ⟨hin, hne⟩ := List.mem_filter.1 hmem
      refine ⟨hk ▸ hin, fun _ hor => ?_⟩
      rcases List.mem_cons.1 hor with heq | hrest
      · simp [heq] at hne
      · exact hnot hk hrest
    · exact ⟨hmem, fun h => absurd h hk⟩

/-- The lines of a core's cache that meet a condition dropped. -/
def dropLines (s : State) (c : Nat) (f : Line → Bool) : State := evictLines s c (((s.core c).rlc.filter f).map (·.num))

theorem dropRox_eq (c : Nat) (f : Nat → Bool) : s.dropRox c f = dropLines s c (fun l => l.rox && f (l.num * 128)) := rfl

/-- The lines that are left are lines of before, in the core itself none that meets the condition. -/
theorem mem_dropLines {c : Nat} {f : Line → Bool} {k : Nat} {x : Line} (hx : x ∈ ((dropLines s c f).core k).rlc) :
    x ∈ (s.core k).rlc ∧ (k = c → f x = false) := by
  obtain ⟨hmem, hnot⟩ := mem_evictLines hx
  refine ⟨hmem, fun hk => Bool.eq_false_iff.2 fun hf => hnot hk ?_⟩
  exact List.mem_map.2 ⟨x, List.mem_filter.2 ⟨hk ▸ hmem, hf⟩, rfl⟩

/-! ## Entries taken out of a core's and its quad's TLB (13 R420) -/

theorem tlbRemove_core_same (c : Nat) (f : Leaf → Bool) :
    (s.tlbRemove c f).core c = { s.core c with tlb := (s.core c).tlb.filter (fun l => !f l) } :=
  State.core_setCore_same ..

theorem tlbRemove_quad (c : Nat) (f : Leaf → Bool) :
    Store.get [] (quadOf c) (s.tlbRemove c f).quadTlb = (Store.get [] (quadOf c) s.quadTlb).filter (fun l => !f l) :=
  Store.get_put_same ..

end

end Sys2Proof.CachesDropped
end

section
/-! PROOF. MIGR takes a frame out of every TLB and every remote line cache, and marks the PTEs that name it (06 R155; 13 R421). -/

namespace Sys2Proof.FrameTakenOut

open Sys2Proof
open Sys2Proof.Machine
open Sys2Proof.Kept
open Sys2Proof.Becoming
open Sys2Proof.CachesDropped

section
variable {s r : State}

/-! ## Lookups in tables whose values are mapped -/

theorem get_map {α : Type} {d : α} {f : α → α} (hd : f d = d) (k : Nat) (t : Store α) :
    Store.get d k (t.map (fun p => (p.1, f p.2))) = f (Store.get d k t) := by
  induction t with
  | nil => exact hd.symm
  | cons p t ih =>
    obtain ⟨j, v⟩ := p
    simp only [List.map_cons, Store.get]
    split_ifs
    · rfl
    · exact ih

theorem get_not_key {α : Type} {d : α} {k : Nat} {t : Store α} (h : k ∉ t.map (·.1)) : Store.get d k t = d := by
  induction t with
  | nil => rfl
  | cons p t ih =>
    obtain ⟨j, v⟩ := p
    rw [List.map_cons, List.mem_cons, not_or] at h
    rw [Store.get, if_neg (Ne.symm h.1)]
    exact ih h.2

/-! ## The TLBs (06 R143, R155) -/

theorem shootDown_core (pa size k : Nat) : (s.shootDown pa size).core k =
    { s.core k with tlb := (s.core k).tlb.filter (fun l => decide (overlap l.pa l.size pa size = 0)) } :=
  get_map (f := fun x : Core => { x with tlb := x.tlb.filter (fun l => decide (overlap l.pa l.size pa size = 0)) }) rfl k s.cores

theorem shootDown_quad (pa size q : Nat) : Store.get [] q (s.shootDown pa size).quadTlb =
    (Store.get [] q s.quadTlb).filter (fun l => decide (overlap l.pa l.size pa size = 0)) :=
  get_map (f := fun x : List Leaf => x.filter (fun l => decide (overlap l.pa l.size pa size = 0))) rfl q s.quadTlb

theorem shootDown_engines {pa size : Nat} {q : Nat × Engine} (hq : q ∈ (s.shootDown pa size).engines) {e : Leaf}
    (he : e ∈ q.2.tlb) : overlap e.pa e.size pa size = 0 := by
  obtain ⟨p, -, rfl⟩ := List.mem_map.1 hq
  exact of_decide_eq_true (List.mem_filter.1 he).2

/-! ## The remote line caches (06 R149, R155) -/

/-- Whether a line lies in a frame. -/
def lineIn (pa size : Nat) (l : Line) : Bool := decide (overlap (l.num * 128) 128 pa size ≠ 0)

/-- The lines in a frame dropped from the caches of some cores. -/
def dropFrom (s : State) (pa size : Nat) (cs : List Nat) : State := cs.foldl (fun w c => dropLines w c (lineIn pa size)) s

theorem dropFrame_eq (pa size : Nat) : s.dropFrame pa size = dropFrom s pa size (s.cores.map (·.1)) := rfl

theorem kept_dropFrom (pa size : Nat) (cs : List Nat) : kept (dropFrom s pa size cs) = kept s :=
  foldl_same kept _ (fun _ c => kept_evictLines c _) _ _

theorem dropFrom_tlb (pa size : Nat) (cs : List Nat) (k : Nat) : ((dropFrom s pa size cs).core k).tlb = (s.core k).tlb :=
  foldl_same (fun w : State => (w.core k).tlb) _ (fun _ c => evictLines_tlb c _ k) _ _

theorem mem_dropFrom {pa size : Nat} {cs : List Nat} {k : Nat} {x : Line} (hx : x ∈ ((dropFrom s pa size cs).core k).rlc) :
    x ∈ (s.core k).rlc ∧ (k ∈ cs → lineIn pa size x = false) := by
  induction cs generalizing s with
  | nil => exact ⟨hx, fun h => absurd h List.not_mem_nil⟩
  | cons c cs ih =>
    obtain ⟨hmid, hrest⟩ := ih (s := dropLines s c (lineIn pa size)) hx
    obtain ⟨hmem, hgone⟩ := mem_dropLines hmid
    exact ⟨hmem, fun h => (List.mem_cons.1 h).elim hgone hrest⟩

theorem dropFrame_rlc {pa size k : Nat} {x : Line} (hx : x ∈ ((s.dropFrame pa size).core k).rlc) :
    overlap (x.num * 128) 128 pa size = 0 := by
  obtain ⟨hmem, hgone⟩ := mem_dropFrom hx
  by_cases hk : k ∈ s.cores.map (·.1)
  · simpa [lineIn] using hgone hk
  · have hinit : s.core k = Core.init := get_not_key hk
    rw [hinit] at hmem
    exact absurd hmem List.not_mem_nil

/-! ## Dropping lines with no dirty word changes the cores alone -/

/-- `r` is `s` but for its cores, none of which has a dirty word in its remote line cache. -/
def CleanBut (s r : State) : Prop := (∃ cs, r = { s with cores := cs }) ∧ ∀ c, Clean r c

theorem evictLine_cleanBut (h : CleanBut s r) (c n : Nat) : CleanBut s (r.evictLine c n) := by
  obtain ⟨hr, hclean⟩ := h
  have hflush : CleanFrom s c (r.flushWords c n (BitVec.allOnes 16)) := flushWords_clean ⟨hr, hclean c⟩ n _
  obtain ⟨cs, hcs⟩ := hflush.1
  refine ⟨⟨(r.evictLine c n).cores, ?_⟩, fun k x hx => hclean k x ?_⟩
  · unfold State.evictLine State.flushLine
    rw [hcs]
    rfl
  · rw [evictLine_rlc] at hx
    split_ifs at hx with hk
    · exact hk ▸ (List.mem_filter.1 hx).1
    · exact hx

theorem evictLines_cleanBut (h : CleanBut s r) (c : Nat) (ns : List Nat) : CleanBut s (evictLines r c ns) :=
  foldl_keeps (CleanBut s) _ (fun _ n hw => evictLine_cleanBut hw c n) ns r h

theorem dropFrame_clean (h : ∀ c, Clean s c) (pa size : Nat) : ∃ cs, s.dropFrame pa size = { s with cores := cs } :=
  (foldl_keeps (CleanBut s) (fun (w : State) c => dropLines w c (lineIn pa size)) (fun _ c hw => evictLines_cleanBut hw c _)
    (s.cores.map Prod.fst) s ⟨⟨s.cores, rfl⟩, h⟩).1

/-! ## Numbers in memory -/

theorem natOf_bytesOf (n v : Nat) : natOf (bytesOf n v) = v % 256 ^ n := by
  induction n generalizing v with
  | zero => simp [bytesOf, natOf, Nat.mod_one]
  | succ n ih =>
    have hmod := Nat.mod_mul (a := 256) (b := 256 ^ n) (x := v)
    simp only [bytesOf, natOf, ih, BitVec.toNat_ofNat, Nat.pow_succ', hmod, Nat.reducePow]

theorem natOf_lt (l : List Byte) : natOf l < 256 ^ l.length := by
  induction l with
  | nil => simp [natOf]
  | cons b l ih =>
    have hb := b.isLt
    simp only [natOf, List.length_cons, Nat.pow_succ']
    omega

theorem value_lt (pa : Nat) : s.value pa 8 < 2 ^ 64 := by
  have h := natOf_lt (s.bytes pa 8)
  rw [bytes_length] at h
  exact h

theorem value_putMem_same (a : Nat) {w : Nat} (hw : w < 2 ^ 64) : (s.putMem a (bytesOf 8 w)).value a 8 = w := by
  have hbytes := putMem_bytes s a (bytesOf 8 w)
  rw [RemoteOps.bytesOf_length] at hbytes
  rw [State.value, hbytes, natOf_bytesOf]
  exact Nat.mod_eq_of_lt hw

theorem value_putMem_other {a k : Nat} (ha : a % 8 = 0) (hk : k % 8 = 0) (hne : k ≠ a) (w : Nat) :
    (s.putMem a (bytesOf 8 w)).value k 8 = s.value k 8 := by
  unfold State.value State.bytes
  refine congrArg natOf (List.map_congr_left fun i hi => ?_)
  have hlt := List.mem_range.1 hi
  refine putMem_byte_outside _ _ _ _ ?_
  rw [RemoteOps.bytesOf_length]
  omega

/-! ## The PTEs that name a frame marked (06 R146, R155) -/

/-- The frame that a PTE names. -/
def frameOf (v : Nat) : Nat := v / 2 ^ 12 % 2 ^ 28 * 4096

theorem or_mark (v : Nat) : v ||| 2 ^ 9 = v - v / 2 ^ 9 % 2 * 2 ^ 9 + 2 ^ 9 := by
  have hodd : ∀ q b, b < 2 → (2 * q + b) ||| 1 = 2 * q + 1 := by
    intro q b hb
    have h1 := Nat.shiftLeft_add_eq_or_of_lt (i := 1) (b := 1) (by omega) q
    simp only [Nat.shiftLeft_eq, Nat.pow_one, Nat.mul_comm q 2] at h1
    obtain rfl | rfl : b = 0 ∨ b = 1 := by omega
    · exact h1.symm
    · rw [h1, Nat.or_assoc, Nat.or_self]
  have hlow : v % 2 ^ 9 < 2 ^ 9 := Nat.mod_lt _ (by decide)
  have hv := Nat.shiftLeft_add_eq_or_of_lt hlow (v / 2 ^ 9)
  have hw := Nat.shiftLeft_add_eq_or_of_lt hlow (2 * (v / 2 ^ 9 / 2) + 1)
  have hsplit : (v / 2 ^ 9) <<< 9 + v % 2 ^ 9 = v := by
    rw [Nat.shiftLeft_eq]
    omega
  calc v ||| 2 ^ 9 = ((v / 2 ^ 9) <<< 9 ||| v % 2 ^ 9) ||| 1 <<< 9 := by rw [← hv, hsplit]; rfl
    _ = (v / 2 ^ 9 ||| 1) <<< 9 ||| v % 2 ^ 9 := by
      rw [Nat.or_assoc, Nat.or_comm (v % 2 ^ 9), ← Nat.or_assoc, Nat.shiftLeft_or_distrib]
    _ = (2 * (v / 2 ^ 9 / 2) + 1) <<< 9 ||| v % 2 ^ 9 := by
      rw [← hodd (v / 2 ^ 9 / 2) (v / 2 ^ 9 % 2) (Nat.mod_lt _ (by decide)), Nat.div_add_mod]
    _ = v - v / 2 ^ 9 % 2 * 2 ^ 9 + 2 ^ 9 := by
      rw [← hw, Nat.shiftLeft_eq]
      omega

theorem frameOf_mark (v : Nat) : frameOf (v ||| 2 ^ 9) = frameOf v := by
  have h : (v ||| 2 ^ 9) / 2 ^ 12 = v / 2 ^ 12 := by
    rw [or_mark]
    omega
  rw [frameOf, frameOf, h]

/-- What a rewrite that keeps the frame and sets MIG makes of a PTE. -/
def marked (old v : Nat) : Nat :=
  v - bits v 39 12 * 4096 + (bits v 39 12 * 4096 - old + old) - at' (b2n (bit v 9)) 9 + at' (b2n true) 9

theorem marked_eq {old v : Nat} (h : old ≤ frameOf v) : marked old v = v ||| 2 ^ 9 := by
  have hbit : b2n (bit v 9) = v / 2 ^ 9 % 2 := by
    unfold b2n bit
    split_ifs with hb
    · simp only [beq_iff_eq] at hb
      omega
    · simp only [beq_iff_eq] at hb
      omega
  have hframe : bits v 39 12 * 4096 = frameOf v := rfl
  have hle : frameOf v ≤ v := by
    unfold frameOf
    omega
  rw [or_mark, marked, hframe, hbit, Nat.sub_add_cancel h, Nat.sub_add_cancel hle]
  rfl

theorem mark_lt {v : Nat} (h : v < 2 ^ 64) : v ||| 2 ^ 9 < 2 ^ 64 := Nat.or_lt_two_pow h (by decide)

/-- One PTE marked in place. -/
def markAt (old : Nat) (w : State) (a : Nat) : State := w.putMem a (bytesOf 8 (marked old (w.value a 8)))

theorem markAt_value {old a k : Nat} (ha : a % 8 = 0) (hk : k % 8 = 0) (hold : old ≤ frameOf (s.value a 8)) :
    (markAt old s a).value k 8 = if k = a then s.value k 8 ||| 2 ^ 9 else s.value k 8 := by
  unfold markAt
  rw [marked_eq hold]
  split_ifs with hka
  · rw [hka]
    exact value_putMem_same a (mark_lt (value_lt a))
  · exact value_putMem_other ha hk hka _

theorem foldl_markAt_value {old k : Nat} {l : List Nat} (hk : k % 8 = 0) (hl : ∀ a ∈ l, a % 8 = 0)
    (hold : ∀ a ∈ l, old ≤ frameOf (s.value a 8)) :
    (l.foldl (markAt old) s).value k 8 = if k ∈ l then s.value k 8 ||| 2 ^ 9 else s.value k 8 := by
  induction l generalizing s with
  | nil => rfl
  | cons a l ih =>
    have ha := hl a List.mem_cons_self
    have hstep := fun j (hj : j % 8 = 0) => markAt_value (s := s) ha hj (hold a List.mem_cons_self)
    have hrest : ∀ j ∈ l, old ≤ frameOf ((markAt old s a).value j 8) := by
      intro j hj
      have hlow := hold j (List.mem_cons_of_mem a hj)
      rw [hstep j (hl j (List.mem_cons_of_mem a hj))]
      split_ifs
      · rwa [frameOf_mark]
      · exact hlow
    rw [List.foldl_cons, ih (fun j hj => hl j (List.mem_cons_of_mem a hj)) hrest, hstep k hk]
    by_cases hka : k = a <;> by_cases hkl : k ∈ l <;> simp [hka, hkl]

/-- Whether a PTE is a leaf of a size that names a frame. -/
def namesFrame (old size v : Nat) : Bool :=
  bit v 0 && pageBytes (bits v 7 5) == size && decide (old ≤ bits v 39 12 * 4096) && decide (bits v 39 12 * 4096 < old + size)

theorem rewritePtes_marks (old size : Nat) : s.rewritePtes old size old true =
    (s.pteAddrs.filter (fun a => namesFrame old size (s.value a 8))).foldl (markAt old) s := rfl

theorem pteAddrs_aligned (h : ∀ p ∈ s.pool, p.1 % 8 = 0) : ∀ a ∈ s.pteAddrs, a % 8 = 0 := by
  intro a ha
  obtain ⟨p, hp, hmem⟩ := List.mem_flatMap.1 ha
  split_ifs at hmem
  · obtain ⟨i, -, rfl⟩ := List.mem_map.1 hmem
    have h8 := h p hp
    omega
  · exact absurd hmem List.not_mem_nil

theorem namesFrame_eq (old size v : Nat) : namesFrame old size v = true ↔
    v % 2 = 1 ∧ pageBytes (v / 2 ^ 5 % 8) = size ∧ old ≤ frameOf v ∧ frameOf v < old + size := by
  unfold namesFrame bit bits frameOf
  rw [Bool.and_eq_true, Bool.and_eq_true, Bool.and_eq_true, beq_iff_eq, beq_iff_eq, decide_eq_true_iff, decide_eq_true_iff,
    and_assoc, and_assoc, pow_zero, Nat.div_one]
  rfl

theorem rewritePtes_value (hpool : ∀ p ∈ s.pool, p.1 % 8 = 0) {k : Nat} (hk : k ∈ s.pteAddrs) (old size : Nat) :
    (s.rewritePtes old size old true).value k 8 =
      if namesFrame old size (s.value k 8) = true then s.value k 8 ||| 2 ^ 9 else s.value k 8 := by
  have haddr := pteAddrs_aligned hpool
  rw [rewritePtes_marks, foldl_markAt_value (haddr k hk) (fun a ha => haddr a (List.mem_filter.1 ha).1)
    (fun a ha => ((namesFrame_eq ..).1 (List.mem_filter.1 ha).2).2.2.1)]
  simp [List.mem_filter, hk]

/-- A rewrite of the PTEs changes memory alone. -/
theorem rewritePtes_rest (old size new : Nat) (mig : Bool) : ∃ m, s.rewritePtes old size new mig = { s with mem := m } := by
  unfold State.rewritePtes
  exact foldl_keeps (fun w : State => ∃ m, w = { s with mem := m }) _ (by rintro _ a ⟨m, rfl⟩; exact ⟨_, rfl⟩) _ _ ⟨s.mem, rfl⟩

end

end Sys2Proof.FrameTakenOut
end

section
/-! PROOF. TLBI, MIGR and the end of a migration, and memory-mapped register writes (06 R139, R149, R155; 13 R414, R420,
R421). -/

namespace Sys2Proof.PagesAndRegisters

open Sys2Proof
open Sys2Proof.Machine
open Sys2Proof.Kept
open Sys2Proof.Becoming
open Sys2Proof.CachesDropped
open Sys2Proof.FrameTakenOut

section
variable {s r : State}

/-! ## Invalidations (06 R149) -/

/-- What an invalidation of the executing core's entries that meet `gone` ends in. -/
def invalidated (s : State) (gone : Leaf → Bool) (f : Nat → Bool) : State :=
  ((s.tlbRemove (coreOf s.cur) gone).dropRox (coreOf s.cur) f).retire

theorem invalidated_kept (gone : Leaf → Bool) (f : Nat → Bool) :
    kept ((s.tlbRemove (coreOf s.cur) gone).dropRox (coreOf s.cur) f) = kept (s.tlbRemove (coreOf s.cur) gone) := by
  rw [dropRox_eq]
  exact kept_evictLines ..

theorem invalidated_retired (gone : Leaf → Bool) (f : Nat → Bool) : s.retired (invalidated s gone f) := by
  have hkept := invalidated_kept (s := s) gone f
  exact retired_retire ((cur_of_kept hkept).trans rfl) ((th_of_kept hkept).trans rfl)

theorem invalidated_gr (gone : Leaf → Bool) (f : Nat → Bool) (d : Nat) : (invalidated s gone f).th.gr d = s.th.gr d := by
  have hkept := th_of_kept (invalidated_kept (s := s) gone f)
  rw [invalidated, retire_th]
  exact (congrArg (fun x : Thread => x.gr d) hkept :)

theorem invalidated_tlb (gone : Leaf → Bool) (f : Nat → Bool) :
    ((invalidated s gone f).core (coreOf s.cur)).tlb = (s.core (coreOf s.cur)).tlb.filter (fun l => !gone l) := by
  rw [show (invalidated s gone f).core = ((s.tlbRemove (coreOf s.cur) gone).dropRox (coreOf s.cur) f).core from rfl, dropRox_eq,
    dropLines, evictLines_tlb, tlbRemove_core_same]

theorem invalidated_quad (gone : Leaf → Bool) (f : Nat → Bool) :
    Store.get [] (quadOf (coreOf s.cur)) (invalidated s gone f).quadTlb =
      (Store.get [] (quadOf (coreOf s.cur)) s.quadTlb).filter (fun l => !gone l) := by
  have hquad : (invalidated s gone f).quadTlb = (s.tlbRemove (coreOf s.cur) gone).quadTlb :=
    (congrArg State.quadTlb (outside_of_kept (invalidated_kept (s := s) gone f)) :)
  rw [hquad, tlbRemove_quad]

theorem invalidated_rlc {gone : Leaf → Bool} {f : Nat → Bool} {x : Line}
    (hx : x ∈ ((invalidated s gone f).core (coreOf s.cur)).rlc) (hrox : x.rox = true) : f (x.num * 128) = false := by
  have hmem : x ∈ ((dropLines (s.tlbRemove (coreOf s.cur) gone) (coreOf s.cur) (fun l => l.rox && f (l.num * 128))).core
      (coreOf s.cur)).rlc := hx
  have hgone := (mem_dropLines hmem).2 rfl
  rwa [hrox, Bool.true_and] at hgone

/-- A thread's TLBI that takes the entries that meet `gone` out of its core's TLB and its quad's, and the lines of their ROX
pages out
of its core. -/
def Invalidates (s t : State) (gone : Leaf → Bool) : Prop :=
  t.th.pc = s.th.pc + 4 ∧ t.th.park = .running ∧ (∀ d, t.th.gr d = s.th.gr d) ∧
  (t.core (coreOf s.cur)).tlb = (s.core (coreOf s.cur)).tlb.filter (fun e => !gone e) ∧
  Store.get [] (quadOf (coreOf s.cur)) t.quadTlb = (Store.get [] (quadOf (coreOf s.cur)) s.quadTlb).filter (fun e => !gone e) ∧
  (∀ e ∈ (s.core (coreOf s.cur)).tlb ++ Store.get [] (quadOf (coreOf s.cur)) s.quadTlb, gone e = true →
    ∀ x ∈ (t.core (coreOf s.cur)).rlc, x.rox = true → overlap (x.num * 128) 128 e.pa e.size = 0)

theorem invalidated_invalidates {gone : Leaf → Bool} {f : Nat → Bool}
    (h : ∀ e ∈ (s.core (coreOf s.cur)).tlb ++ Store.get [] (quadOf (coreOf s.cur)) s.quadTlb, gone e = true →
      ∀ pa, f pa = false → overlap pa 128 e.pa e.size = 0) : Invalidates s (invalidated s gone f) gone := by
  obtain ⟨-, hpc, hpark, -⟩ := invalidated_retired (s := s) gone f
  exact ⟨hpc, hpark, invalidated_gr gone f, invalidated_tlb gone f, invalidated_quad gone f,
    fun e he hgone _ hx hrox => h e he hgone _ (invalidated_rlc hx hrox)⟩

/-- Whether a line of 128 bytes touches a range. -/
def touches (rs : List (Nat × Nat)) (pa : Nat) : Bool := rs.any (fun q => decide (overlap pa 128 q.1 q.2 ≠ 0))

theorem tlbi_invalidates (hp : s.performs) (a : BitVec 5) : exec (.tlbi a) s =
    .next (invalidated s (fun l => l.ofPage s.myJob.asid (some (s.g a).toNat)) (touches (s.tlbiRanges (s.g a).toNat))) := by
  show execTlbi a s = _
  exact unrecorded_performs hp _

theorem tlbiAll_invalidates (hp : s.performs) : exec .tlbiAll s =
    .next (invalidated s (fun l => l.ofPage s.myJob.asid none) (fun _ => true)) := by
  show execTlbiAll s = _
  exact unrecorded_performs hp _

theorem tlbiRanges_mem {va : Nat} {e : Leaf}
    (he : e ∈ (s.core (coreOf s.cur)).tlb ++ Store.get [] (quadOf (coreOf s.cur)) s.quadTlb)
    (hof : e.ofPage s.myJob.asid (some va) = true) : (e.pa, e.size) ∈ s.tlbiRanges va :=
  List.mem_append_right _ (List.mem_map.2 ⟨e, List.mem_filter.2 ⟨he, hof⟩, rfl⟩)

theorem ofPage_some (e : Leaf) (asid va : Nat) : e.ofPage asid (some va) =
    (e.asid == asid && decide (e.page ≠ 0) && decide (va / e.page = e.va / e.page)) := (Bool.and_assoc ..).symm

theorem ofPage_none (e : Leaf) (asid : Nat) : e.ofPage asid none = (e.asid == asid) := Bool.and_true _

theorem not_touches {rs : List (Nat × Nat)} {pa : Nat} (h : touches rs pa = false) {q : Nat × Nat} (hq : q ∈ rs) :
    overlap pa 128 q.1 q.2 = 0 := by
  have hnot := List.any_eq_false.1 h q hq
  simpa using hnot

/-! ## MIGR (06 R155; 13 R421) -/

section
variable {d a b : BitVec 5}

theorem migr_user (hp : s.performs) (h : s.th.level = .user) : exec (.migr d a b) s = .next (s.trapFree 0x02) := by
  show execMigr d a b s = _
  simp only [execMigr, unrecorded_performs hp, if_pos h]
  rfl

theorem migr_waits (hp : s.performs) (h : s.th.level ≠ .user) (hsb : s.th.sb ≠ []) :
    exec (.migr d a b) s = .next (s.setTh { s.th with park := .retry 0x86 }) := by
  show execMigr d a b s = _
  simp only [execMigr, unrecorded_performs hp, if_neg h, State.sbEmpty, List.isEmpty_iff, if_neg hsb]
  rfl

/-- The state in which the PTEs that name a frame are marked, and no TLB or remote line cache holds anything of it. -/
def takenOut (s : State) (old size : Nat) : State := ((s.rewritePtes old size old true).shootDown old size).dropFrame old size

variable {old size : Nat}

theorem takenOut_tlb (c : Nat) : ∀ e ∈ ((takenOut s old size).core c).tlb, overlap e.pa e.size old size = 0 := by
  intro e he
  rw [takenOut, dropFrame_eq, dropFrom_tlb, shootDown_core] at he
  exact of_decide_eq_true (List.mem_filter.1 he).2

theorem takenOut_kept : kept (takenOut s old size) = kept ((s.rewritePtes old size old true).shootDown old size) :=
  kept_dropFrom ..

theorem takenOut_quad (q : Nat) : ∀ e ∈ Store.get [] q (takenOut s old size).quadTlb, overlap e.pa e.size old size = 0 := by
  intro e he
  have hquad : (takenOut s old size).quadTlb = ((s.rewritePtes old size old true).shootDown old size).quadTlb :=
    (congrArg State.quadTlb (outside_of_kept takenOut_kept) :)
  rw [hquad, shootDown_quad] at he
  exact of_decide_eq_true (List.mem_filter.1 he).2

theorem takenOut_engines : ∀ q ∈ (takenOut s old size).engines, ∀ e ∈ q.2.tlb, overlap e.pa e.size old size = 0 := by
  intro q hq e he
  have heng : (takenOut s old size).engines = ((s.rewritePtes old size old true).shootDown old size).engines :=
    (congrArg State.engines (outside_of_kept takenOut_kept) :)
  rw [heng] at hq
  exact shootDown_engines hq he

theorem takenOut_rlc (c : Nat) : ∀ x ∈ ((takenOut s old size).core c).rlc, overlap (x.num * 128) 128 old size = 0 :=
  fun _ hx => dropFrame_rlc hx

theorem takenOut_mem (h : ∀ c, ∀ x ∈ (s.core c).rlc, x.dirty = 0) :
    (takenOut s old size).mem = (s.rewritePtes old size old true).mem := by
  obtain ⟨m, hm⟩ := rewritePtes_rest (s := s) old size old true
  have hclean : ∀ c, Clean ((s.rewritePtes old size old true).shootDown old size) c := by
    intro c x hx
    rw [shootDown_core, hm] at hx
    exact h c x hx
  obtain ⟨cs, hcs⟩ := dropFrame_clean hclean old size
  rw [takenOut, hcs]
  rfl

theorem takenOut_value (hpool : ∀ p ∈ s.pool, p.1 % 8 = 0) (hclean : ∀ c, ∀ x ∈ (s.core c).rlc, x.dirty = 0) {k : Nat}
    (hk : k ∈ s.pteAddrs) : (takenOut s old size).value k 8 =
      if namesFrame old size (s.value k 8) = true then s.value k 8 ||| 2 ^ 9 else s.value k 8 := by
  rw [← rewritePtes_value hpool hk]
  unfold State.value State.bytes State.byte
  rw [takenOut_mem hclean]

end

/-- A migration joins those under way. -/
def joined (s : State) (m : Migration) : State := { s with migrations := s.migrations ++ [m] }

/-- The migration that MIGR of a page begins, `page` bytes long and lying at `old`. -/
def migrationOf (s : State) (d a b : BitVec 5) (page old : Nat) : Migration :=
  { job := s.th.job, va := (s.g a).toNat - (s.g a).toNat % page, size := page, old := old, new := (s.g b).toNat, thr := s.cur,
    d := d.toNat, held := [] }

/-- The state in which a page begins to migrate, for MIGR by the executing thread. -/
def migrationBegun (s : State) (d a b : BitVec 5) (page old : Nat) : State :=
  (joined (takenOut s old page) (migrationOf s d a b page old)).parkOn .migr

/-- The state after MIGR has begun a migration, with the PTEs of tables at proper addresses in a pool, and no dirty line. -/
theorem migrationBegun_ends (d a b : BitVec 5) (page old : Nat) :
    (migrationBegun s d a b page old).th.park = .migr ∧
    (migrationBegun s d a b page old).migrations = (takenOut s old page).migrations ++ [migrationOf s d a b page old] ∧
    (∀ c, ∀ e ∈ ((migrationBegun s d a b page old).core c).tlb, overlap e.pa e.size old page = 0) ∧
    (∀ q, ∀ e ∈ Store.get [] q (migrationBegun s d a b page old).quadTlb, overlap e.pa e.size old page = 0) ∧
    (∀ q ∈ (migrationBegun s d a b page old).engines, ∀ e ∈ q.2.tlb, overlap e.pa e.size old page = 0) ∧
    (∀ c, ∀ x ∈ ((migrationBegun s d a b page old).core c).rlc, overlap (x.num * 128) 128 old page = 0) ∧
    ((∀ p ∈ s.pool, p.1 % 8 = 0) → (∀ c, ∀ x ∈ (s.core c).rlc, x.dirty = 0) → ∀ k ∈ s.pteAddrs,
      (migrationBegun s d a b page old).value k 8 =
        if s.value k 8 % 2 = 1 ∧ pageBytes (s.value k 8 / 2 ^ 5 % 8) = page ∧ old ≤ frameOf (s.value k 8) ∧
            frameOf (s.value k 8) < old + page
          then s.value k 8 ||| 2 ^ 9 else s.value k 8) := by
  have hrest : ∃ ts, migrationBegun s d a b page old =
      { joined (takenOut s old page) (migrationOf s d a b page old) with threads := ts } := ⟨_, rfl⟩
  refine ⟨congrArg Thread.park (State.th_setTh ..), ?_⟩
  obtain ⟨ts, hrest⟩ := hrest
  rw [hrest]
  exact ⟨rfl, takenOut_tlb, takenOut_quad, takenOut_engines, takenOut_rlc,
    fun hpool hclean k hk => (takenOut_value hpool hclean hk).trans (if_congr (namesFrame_eq ..) rfl rfl)⟩

section
variable {d a b : BitVec 5}
variable (hp : s.performs) (h : s.th.level ≠ .user) (hsb : s.th.sb = []) (hr : r = s.release (s.th.effRelease .pkg))
include hp h hsb hr

theorem migr_unmapped (hwalk : r.walk r.th.job (r.g a).toNat = .fail) : exec (.migr d a b) s = .next (r.trapFree 0x04) := by
  show execMigr d a b s = _
  simp only [execMigr, unrecorded_performs hp, if_neg h, State.sbEmpty, hsb, List.isEmpty_nil, if_true, ← hr, hwalk]
  rfl

theorem migr_inError (hwalk : r.walk r.th.job (r.g a).toNat = .bad) : exec (.migr d a b) s = .next (r.trapFree 0x10) := by
  show execMigr d a b s = _
  simp only [execMigr, unrecorded_performs hp, if_neg h, State.sbEmpty, hsb, List.isEmpty_nil, if_true, ← hr, hwalk]
  rfl

theorem migr_migrating (hwalk : r.walk r.th.job (r.g a).toNat = .migrating) :
    exec (.migr d a b) s = .next ((r.acquire .pkg).retireG d 5) := by
  show execMigr d a b s = _
  simp only [execMigr, unrecorded_performs hp, if_neg h, State.sbEmpty, hsb, List.isEmpty_nil, if_true, ← hr, hwalk]
  rfl

variable {l : Leaf} {pte at_ lv : Nat} (hwalk : r.walk r.th.job (r.g a).toNat = .leaf l pte at_ lv)
include hwalk

theorem migr_refused {st : Nat} (hst : r.migrStatus l (bit pte 11) (l.at_ (r.g a).toNat - (r.g a).toNat % l.page) (r.g b) = st)
    (hne : st ≠ 0) : exec (.migr d a b) s = .next ((r.acquire .pkg).retireG d (BitVec.ofNat 64 st)) := by
  show execMigr d a b s = _
  simp only [execMigr, unrecorded_performs hp, if_neg h, State.sbEmpty, hsb, List.isEmpty_nil, if_true, ← hr, hwalk, hst,
    if_pos hne]
  rfl

theorem migr_begins (hst : r.migrStatus l (bit pte 11) (l.at_ (r.g a).toNat - (r.g a).toNat % l.page) (r.g b) = 0) :
    exec (.migr d a b) s = .next (migrationBegun r d a b l.page (l.at_ (r.g a).toNat - (r.g a).toNat % l.page)) := by
  show execMigr d a b s = _
  simp only [execMigr, unrecorded_performs hp, if_neg h, State.sbEmpty, hsb, List.isEmpty_nil, if_true, ← hr, hwalk, hst, ne_eq,
    not_true_eq_false, if_false]
  rfl

end

theorem migrationEnd_moves {m : Migration} (hfind : s.migrations.find? (fun k => !s.bauBusy k.old k.size) = some m)
    (hr : r = (({ s.movePage m with migrations := s.migrations.filter (fun k => k != m) }).rewritePtes m.old m.size m.new
      false).migrAnswer m) :
    exec .migrationEnd s = .next { r with
      agenda :=
        (s.storesTo m.old m.size).map (fun t => .event .movedReissue (Arg.ofN t)) ++ m.held.map packetAct ++ r.agenda } := by
  subst hr
  show execMigrationEnd s = _
  rw [execMigrationEnd, hfind]

/-! ## Memory-mapped registers (06 R139; 13 R414) -/

theorem registerWrite_writes {x : Reg} (hreg : regAt s.arg.n = some x) : exec .registerWrite s =
    .next (if s.mayWrite s.arg.who x then s.mmioWrite s.arg.who x s.arg.v else s) := by
  show execRegisterWrite s = _
  rw [execRegisterWrite, hreg]

/-- Whether a value is a proper one for ALLOCCFG in the state: no user kernel runs, the size is one of an arena, and the base
lies at
a multiple of it. -/
def arenaTaken (s : State) : Prop :=
  s.userKernelRuns s.arg.n = false ∧ (s.arg.v.toNat % 64 = 0 ∨ (16 ≤ s.arg.v.toNat % 64 ∧ s.arg.v.toNat % 64 ≤ 36)) ∧
    s.arg.v.toNat / 2 ^ 12 % 2 ^ 36 * 4096 % 2 ^ (s.arg.v.toNat % 64) = 0

/-- A job with an arena that is one free block. -/
def withArena (j : Job) (v : Nat) : Job :=
  ({ j with sizelog2 := v % 64, base := BitVec.ofNat 64 (v / 2 ^ 12 % 2 ^ 36 * 4096) }).clearArena

theorem alccfgWrite_sets (h : arenaTaken s) :
    exec .alccfgWrite s = .next (s.setJob s.arg.n (withArena (s.job s.arg.n) s.arg.v.toNat)) := by
  obtain ⟨huser, hsize, hbase⟩ := h
  show execAlccfgWrite s = _
  refine if_neg ?_
  rintro (h1 | h1 | h1)
  · exact Bool.false_ne_true (huser.symm.trans h1)
  · simp only [Bool.not_eq_true', Bool.or_eq_false_iff, beq_eq_false_iff_ne, Bool.and_eq_false_iff,
      decide_eq_false_iff_not] at h1
    omega
  · exact h1 hbase

theorem alccfgWrite_ignored (h : ¬ arenaTaken s) : exec .alccfgWrite s = .next s := by
  show execAlccfgWrite s = _
  refine if_pos ?_
  by_contra hnot
  simp only [not_or, Bool.not_eq_true', Bool.not_eq_false, Bool.or_eq_true, beq_iff_eq, Bool.and_eq_true, decide_eq_true_eq,
    ne_eq, not_not, Bool.not_eq_true] at hnot
  exact h hnot

end

/-- Settles O26: an invalidation and MIGR by what they drop, MIGRATION_END and the register writes by their cases. -/
theorem translationAndRegisterWrites : Obligations.TranslationAndRegisterWrites := by
  refine ⟨fun s d a b l pte at_ lv m => ⟨fun hp => ?_, fun hfind => ?_⟩, fun s => ?_⟩
  · refine ⟨⟨⟨_, tlbi_invalidates hp a, ?_⟩, ⟨_, tlbiAll_invalidates hp, ?_, ?_⟩⟩, migr_user hp, migr_waits hp,
      fun hlev hsb => ?_⟩
    · have hpage := invalidated_invalidates (s := s) (gone := fun e => e.ofPage s.myJob.asid (some (s.g a).toNat))
        (f := touches (s.tlbiRanges (s.g a).toNat)) fun e he hgone pa hpa => not_touches hpa (tlbiRanges_mem he hgone)
      simp only [ofPage_some] at hpage ⊢
      exact hpage
    · have hall := invalidated_invalidates (s := s) (gone := fun e => e.ofPage s.myJob.asid none) (f := fun _ => true)
        fun _ _ _ _ hpa => absurd hpa (by decide)
      simp only [ofPage_none] at hall ⊢
      exact hall
    · exact fun x hx => Bool.eq_false_iff.2 fun hrox => absurd (invalidated_rlc hx hrox) (by decide)
    · refine ⟨migr_unmapped hp hlev hsb rfl, migr_inError hp hlev hsb rfl, migr_migrating hp hlev hsb rfl,
        fun hwalk hst => migr_refused hp hlev hsb rfl hwalk rfl hst, fun hwalk hst => ⟨_,
          migr_begins hp hlev hsb rfl hwalk hst, ?_⟩⟩
      exact migrationBegun_ends ..
  · exact migrationEnd_moves hfind rfl
  · refine ⟨fun x hreg hmay => ?_, fun x hreg hmay => ?_, fun huser hsize hbase => ?_, fun hnot => ?_⟩
    · rw [registerWrite_writes hreg, if_pos hmay]
    · rw [registerWrite_writes hreg, hmay]
      rfl
    · refine ⟨_, alccfgWrite_sets ⟨huser, hsize, hbase⟩, ?_⟩
      rw [State.job_setJob_same]
      exact ⟨rfl, rfl, rfl, rfl, rfl, fun k hk => State.job_setJob_other s hk _⟩
    · refine alccfgWrite_ignored fun ⟨huser, hsize, hbase⟩ => ?_
      obtain h | h | h := hnot
      · exact Bool.false_ne_true (huser.symm.trans h)
      · omega
      · exact h hbase

end Sys2Proof.PagesAndRegisters
end

section
/-! PROOF. The allocator, invalidations and migrations complete, and the events of the memory path (06 R142, R146, R149,
R155, R156;
07 R181, R203; 12 R358; 13 R414 to R416, R420, R421). -/

namespace Sys2Proof.MemoryPath

open Sys2Proof
open Sys2Proof.Machine
open Sys2Proof.Kept
open Sys2Proof.Becoming
open Sys2Proof.Completing
open Sys2Proof.RemoteCompletion
open Sys2Proof.CachesDropped
open Sys2Proof.FrameTakenOut
open Sys2Proof.PagesAndRegisters

section
variable {s r : State}

/-! ## The allocator's gate in free mode (06 R142; 07 R203) -/

theorem nudge_agenda (g : Nat) : ∃ ag, s.nudge g = { s with agenda := ag } := by
  unfold State.nudge
  split
  · exact ⟨_, rfl⟩
  · exact ⟨s.agenda, rfl⟩

/-- A gate of a job in free mode serves an operation that may be done at once. -/
theorem gateRequest_free {g : Nat} {op : GateOp} (h : (s.job s.th.job).gmode = 0) (hserve : s.serveOp op = some r)
    (hr : (r.job s.th.job).gmode = 0) : s.gateRequest g op = r.nudge g := by
  have hmode : ¬ s.myJob.gmode = 2 := by
    rw [State.myJob, h]
    decide
  rw [State.gateRequest, if_neg hmode, gateAllows_free h, if_pos rfl, hserve]
  exact congrArg (fun w : State => w.nudge g) (gateServed_free hr g _)

theorem allocate_gmode {j j' : Job} {n off : Nat} (h : j.allocate n = some (off, j')) : j'.gmode = j.gmode := by
  unfold Job.allocate at h
  split at h
  · cases h
  · dsimp only at h
    split at h
    · cases h
    · cases h
      rfl

theorem release_gmode {j j' : Job} {off : Nat} (h : j.release off = some j') : j'.gmode = j.gmode := by
  unfold Job.release at h
  split at h
  · cases h
  · cases h
    rfl

theorem alc_requests (hp : s.performs) (d a : BitVec 5) :
    exec (.alc d a) s = .next (s.gateRequest gateAlloc (.alc (s.g a) d.toNat)) := by
  show execAlc d a s = _
  exact unrecorded_performs hp _

theorem fre_requests (hp : s.performs) (a : BitVec 5) : exec (.fre a) s = .next (s.gateRequest gateAlloc (.fre (s.g a))) := by
  show execFre a s = _
  exact unrecorded_performs hp _

theorem alc_completes (hp : s.performs) (hfree : (s.job s.th.job).gmode = 0) {d a : BitVec 5} {off : Nat} {j : Job}
    (halloc : (s.job s.th.job).allocate (s.g a).toNat = some (off, j)) :
    ∃ t, exec (.alc d a) s = .next t ∧ s.retired t ∧ t.job s.th.job = j ∧
      t.g d = if d = 0 then 0 else j.base + BitVec.ofNat 64 off := by
  have hserve : s.serveOp (.alc (s.g a) d.toNat) =
      some ((s.setJob s.th.job j).retireG d (j.base + BitVec.ofNat 64 off)) := by
    rw [State.serveOp, State.serveAlc, State.myJob, halloc]
    rfl
  have hjob : ((s.setJob s.th.job j).retireG d (j.base + BitVec.ofNat 64 off)).job s.th.job = j := State.job_setJob_same ..
  obtain ⟨ag, hag⟩ := nudge_agenda (s := (s.setJob s.th.job j).retireG d (j.base + BitVec.ofNat 64 off)) gateAlloc
  have hreq := gateRequest_free (g := gateAlloc) hfree hserve (by rw [hjob, allocate_gmode halloc, hfree])
  refine ⟨_, (alc_requests hp d a).trans (congrArg Host.Outcome.next hreq), ?_⟩
  rw [hag]
  exact ⟨retired_retireG (s := s) (r := s.setJob s.th.job j) (abreast_refl s) d _, hjob,
    retireG_g (r := s.setJob s.th.job j) d _⟩

theorem fre_completes (hp : s.performs) (hfree : (s.job s.th.job).gmode = 0) {a : BitVec 5} {j : Job}
    (hserve : s.serveFre (s.g a) = (s.setJob s.th.job j).retire) (hj : j.gmode = 0) :
    ∃ t, exec (.fre a) s = .next t ∧ s.retired t ∧ t.job s.th.job = j := by
  have hjob : ((s.setJob s.th.job j).retire).job s.th.job = j := State.job_setJob_same ..
  obtain ⟨ag, hag⟩ := nudge_agenda (s := (s.setJob s.th.job j).retire) gateAlloc
  have hreq := gateRequest_free (g := gateAlloc) (op := .fre (s.g a)) hfree (congrArg some hserve) (by rw [hjob, hj])
  refine ⟨_, (fre_requests hp a).trans (congrArg Host.Outcome.next hreq), ?_⟩
  rw [hag]
  exact ⟨retired_of_abreast (s := s) (r := s.setJob s.th.job j) (abreast_refl s), hjob⟩

theorem fre_null (hp : s.performs) (hfree : (s.job s.th.job).gmode = 0) {a : BitVec 5} (ha : s.g a = 0) :
    ∃ t, exec (.fre a) s = .next t ∧ s.retired t := by
  have hserve : s.serveOp (.fre (s.g a)) = some s.retire := by
    rw [State.serveOp, State.serveFre, if_pos ha]
  obtain ⟨ag, hag⟩ := nudge_agenda (s := s.retire) gateAlloc
  refine ⟨_, (fre_requests hp a).trans (congrArg Host.Outcome.next (gateRequest_free (g := gateAlloc) hfree hserve hfree)), ?_⟩
  rw [hag]
  exact retired_of_abreast (abreast_refl s)

theorem serveFre_frees {v : Word} {j : Job} (hne : v ≠ 0) (hle : (s.job s.th.job).base.toNat ≤ v.toNat)
    (hrel : (s.job s.th.job).release (v.toNat - (s.job s.th.job).base.toNat) = some j) :
    s.serveFre v = (s.setJob s.th.job j).retire := by
  unfold State.serveFre State.myJob
  rw [if_neg hne, if_pos hle, hrel]

/-! ## Invalidations (06 R149) -/

theorem invalidated_gone (gone : Leaf → Bool) (f : Nat → Bool) :
    ∀ e ∈ ((invalidated s gone f).core (coreOf s.cur)).tlb, gone e = false := by
  intro e he
  rw [invalidated_tlb] at he
  simpa using (List.mem_filter.1 he).2

/-! ## MIGR with nothing left to order, and the end of a migration (06 R155; 13 R421) -/

/-- A walk reads memory and its errors, the jobs, the roots and ILTAB, and nothing else. -/
theorem walk_cores (cs : Store Core) (ts : Store Thread) (j va : Nat) :
    ({ s with cores := cs, threads := ts }).walk j va = s.walk j va := by
  have hfrom : ∀ asid n table, walkFrom { s with cores := cs, threads := ts } asid va n table = walkFrom s asid va n table := by
    intro asid n
    induction n with
    | zero => exact fun _ => rfl
    | succ n ih =>
      intro table
      simp only [walkFrom, ih]
      rfl
  simp only [State.walk, hfrom]
  rfl

theorem release_atRest (h : s.atRest) (sc : Scope) : (∃ cs ts, s.release sc = { s with cores := cs, threads := ts }) ∧
    bare (s.release sc).th = bare s.th := by
  obtain ⟨-, -, -, -, hclean⟩ := h
  obtain ⟨⟨⟨cs, hcs⟩, -⟩, hth⟩ := release_clean hclean sc
  exact ⟨⟨cs, (s.release sc).threads, congrArg (fun w : State => { w with threads := (s.release sc).threads }) hcs⟩, hth⟩

theorem takenOut_migrations (old size : Nat) : (takenOut s old size).migrations = s.migrations := by
  obtain ⟨m, hm⟩ := rewritePtes_rest (s := s) old size old true
  have hkept : (takenOut s old size).migrations = ((s.rewritePtes old size old true).shootDown old size).migrations :=
    (congrArg State.migrations (outside_of_kept takenOut_kept) :)
  rw [hkept, hm]
  rfl

section
variable {d a b : BitVec 5} {l : Leaf} {pte at_ lv : Nat}

/-- What MIGR sees of the state released: the page and its status as before. -/
theorem migr_released (h : s.atRest) (hwalk : s.walk s.th.job (s.g a).toNat = .leaf l pte at_ lv)
    (hr : r = s.release (s.th.effRelease .pkg)) :
    Abreast s r ∧ r.g a = s.g a ∧ r.g b = s.g b ∧ r.migrations = s.migrations ∧
    r.walk r.th.job (r.g a).toNat = .leaf l pte at_ lv ∧
    ∀ old new, r.migrStatus l (bit pte 11) old new = s.migrStatus l (bit pte 11) old new := by
  subst hr
  obtain ⟨⟨cs, ts, hcs⟩, hth⟩ := release_atRest h (s.th.effRelease .pkg)
  have hg : ∀ e, (s.release (s.th.effRelease .pkg)).g e = s.g e := fun e => (congrArg (fun x : Thread => x.gr e.toNat) hth :)
  have hjob : (s.release (s.th.effRelease .pkg)).th.job = s.th.job := (congrArg Thread.job hth :)
  refine ⟨abreast_of_kept (kept_release _), hg a, hg b, ?_, ?_, ?_⟩
  · rw [hcs]
  · rw [hg, hjob, ← hwalk, hcs]
    exact walk_cores ..
  · intro old new
    rw [hcs]
    rfl

theorem migr_answers (hclear : s.clear) (hlev : s.th.level ≠ .user)
    (hwalk : s.walk s.th.job (s.g a).toNat = .leaf l pte at_ lv) {st : Nat}
    (hst : s.migrStatus l (bit pte 11) (l.at_ (s.g a).toNat - (s.g a).toNat % l.page) (s.g b) = st) (hne : st ≠ 0) :
    ∃ t, exec (.migr d a b) s = .next t ∧ s.retired t ∧ t.g d = if d = 0 then 0 else BitVec.ofNat 64 st := by
  obtain ⟨hp, hrest⟩ := hclear
  obtain ⟨hat, hga, hgb, -, hwalk', hstatus⟩ := migr_released (b := b) hrest hwalk rfl
  refine ⟨_, migr_refused hp hlev hrest.1 rfl hwalk' (by rw [hstatus, hga, hgb, hst]) hne, ?_, retireG_g _ _⟩
  exact retired_retireG (hat.trans (acquire_abreast .pkg)) d _

theorem migr_parks (hclear : s.clear) (hlev : s.th.level ≠ .user)
    (hwalk : s.walk s.th.job (s.g a).toNat = .leaf l pte at_ lv)
    (hst : s.migrStatus l (bit pte 11) (l.at_ (s.g a).toNat - (s.g a).toNat % l.page) (s.g b) = 0) :
    ∃ t m, exec (.migr d a b) s = .next t ∧ t.th.park = .migr ∧ t.migrations = s.migrations ++ [m] ∧
      m.old = l.at_ (s.g a).toNat - (s.g a).toNat % l.page ∧ m.new = (s.g b).toNat ∧ m.size = l.page ∧ m.thr = s.cur ∧
      m.d = d.toNat := by
  obtain ⟨hp, hrest⟩ := hclear
  obtain ⟨hat, hga, hgb, hmig, hwalk', hstatus⟩ := migr_released (b := b) hrest hwalk rfl
  have hexec := migr_begins (d := d) (b := b) hp hlev hrest.1 rfl hwalk' (by rw [hstatus, hga, hgb, hst])
  obtain ⟨hpark, hjoin, -⟩ := migrationBegun_ends (s := s.release (s.th.effRelease .pkg)) d a b l.page
    (l.at_ ((s.release (s.th.effRelease .pkg)).g a).toNat - ((s.release (s.th.effRelease .pkg)).g a).toNat % l.page)
  rw [takenOut_migrations, hmig] at hjoin
  refine ⟨_, _, hexec, hpark, hjoin, ?_⟩
  · exact ⟨by rw [migrationOf, hga], by rw [migrationOf, hgb], rfl, hat.1, rfl⟩

end

theorem migrAnswer_live {m : Migration} (hlive : (s.thread m.thr).live = true) (hpark : (s.thread m.thr).park = .migr) :
    (s.migrAnswer m).migrations = s.migrations ∧ ((s.migrAnswer m).thread m.thr).pc = (s.thread m.thr).pc + 4 ∧
      ((s.migrAnswer m).thread m.thr).park = .running := by
  have hacq := acquire_becomes (s := { s with cur := m.thr }) .pkg
  obtain ⟨hcur, hpc, hrun, -⟩ := retired_retireG (acquire_abreast (s := { s with cur := m.thr }) .pkg) (BitVec.ofNat 5 m.d) 0
  have hmig : (({ s with cur := m.thr }).acquire .pkg).migrations = s.migrations := (congrArg State.migrations hacq.rest :)
  unfold State.migrAnswer
  rw [if_pos ⟨hlive, hpark⟩]
  generalize ({ s with cur := m.thr }).acquire .pkg = w at *
  refine ⟨hmig, ?_, ?_⟩
  · rw [State.th, hcur] at hpc
    exact hpc
  · rw [State.th, hcur] at hrun
    exact hrun

theorem migrationEnd_answers {m : Migration} (hfind : s.migrations.find? (fun k => !s.bauBusy k.old k.size) = some m)
    (hlive : (s.thread m.thr).live = true) (hpark : (s.thread m.thr).park = .migr) :
    ∃ t, exec .migrationEnd s = .next t ∧ t.migrations = s.migrations.filter (fun k => k != m) ∧
      (t.thread m.thr).pc = (s.thread m.thr).pc + 4 ∧ (t.thread m.thr).park = .running := by
  refine ⟨_, migrationEnd_moves hfind rfl, ?_⟩
  obtain ⟨mem, hmem⟩ := rewritePtes_rest (s := { s.movePage m with migrations := s.migrations.filter (fun k => k != m) })
    m.old m.size m.new false
  rw [hmem]
  exact migrAnswer_live (s := { s.movePage m with migrations := s.migrations.filter (fun k => k != m), mem := mem }) hlive hpark

/-! ## Page walks (06 R146) -/

theorem walkDone_leaf (q : WalkReq) (l : Leaf) (pte at_ lv u : Nat) : (s.walkDone q (.leaf l pte at_ lv)).thread u =
    if u = q.thr ∧ (s.thread u).park = .walk q.va ∧ (s.thread u).live = true then { s.thread u with park := .running }
    else s.thread u := by
  unfold State.walkDone
  by_cases hu : u = q.thr
  · subst hu
    by_cases hc : (s.thread q.thr).park = .walk q.va ∧ (s.thread q.thr).live = true
    · rw [if_pos hc, if_pos ⟨rfl, hc⟩]
      exact State.thread_setThread_same ..
    · rw [if_neg hc, if_neg fun h => hc h.2]
  · have hnot : ¬ (u = q.thr ∧ (s.thread u).park = .walk q.va ∧ (s.thread u).live = true) := fun h => hu h.1
    rw [if_neg hnot]
    split
    · exact State.thread_setThread_other _ hu _
    · rfl

/-- A thread that a walk lets go on, or that waits for it yet. -/
def WaitsOrRuns (u : Nat) (va : Word) (s : State) : Prop :=
  (s.thread u).park = .running ∨ ((s.thread u).park = .walk va ∧ (s.thread u).live = true)

theorem walkDone_runs {q : WalkReq} {l : Leaf} {pte at_ lv u : Nat} (h : (s.thread u).park = .running) :
    ((s.walkDone q (.leaf l pte at_ lv)).thread u).park = .running := by
  rw [walkDone_leaf]
  split
  · rfl
  · exact h

theorem walkDone_waitsOrRuns {q : WalkReq} {l : Leaf} {pte at_ lv u : Nat} {va : Word} (h : WaitsOrRuns u va s) :
    WaitsOrRuns u va (s.walkDone q (.leaf l pte at_ lv)) := by
  unfold WaitsOrRuns
  rw [walkDone_leaf]
  split
  · exact Or.inl rfl
  · exact h

theorem walkDone_goesOn {q : WalkReq} {l : Leaf} {pte at_ lv : Nat} (h : WaitsOrRuns q.thr q.va s) :
    ((s.walkDone q (.leaf l pte at_ lv)).thread q.thr).park = .running := by
  obtain h | h := h
  · exact walkDone_runs h
  · rw [walkDone_leaf, if_pos ⟨rfl, h⟩]

theorem foldl_walkDone_runs {q : WalkReq} {l : Leaf} {pte at_ lv : Nat} {qs : List WalkReq} (hq : q ∈ qs)
    (h : WaitsOrRuns q.thr q.va s) :
    ((qs.foldl (fun w k => w.walkDone k (.leaf l pte at_ lv)) s).thread q.thr).park = .running := by
  obtain ⟨before, after, rfl⟩ := List.append_of_mem hq
  rw [List.foldl_append, List.foldl_cons]
  refine foldl_keeps (fun w : State => (w.thread q.thr).park = .running) _ (fun _ _ hw => walkDone_runs hw) after _ ?_
  exact walkDone_goesOn (foldl_keeps (WaitsOrRuns q.thr q.va) _ (fun _ _ hw => walkDone_waitsOrRuns hw) before s h)

/-- Whether two queued walks are of one page of one job. -/
def samePage (q k : WalkReq) : Bool := k.job == q.job && decide (k.va.toNat / 4096 = q.va.toNat / 4096)

/-- The walks of other pages than a request's left alone in a queue. -/
def withoutPage (s : State) (d : Nat) (q : WalkReq) : State :=
  { s with walks := Store.put [] d ((s.walkQueue d).filter (fun k => !samePage q k)) s.walks }

theorem pageWalk_walks {q : WalkReq} (hfind : (s.walkQueue s.arg.n).find? s.walkReady = some q) : exec .pageWalk s =
    .next (((s.walkQueue s.arg.n).filter (samePage q)).foldl (fun w k => w.walkDone k (s.walk q.job q.va.toNat))
      (withoutPage s s.arg.n q)) := by
  show execPageWalk s = _
  rw [execPageWalk, hfind]
  rfl

theorem pageWalk_goesOn {q : WalkReq} {l : Leaf} {pte at_ lv : Nat} (hfind : (s.walkQueue s.arg.n).find? s.walkReady = some q)
    (hwalk : s.walk q.job q.va.toNat = .leaf l pte at_ lv) (hlive : (s.thread q.thr).live = true)
    (hpark : (s.thread q.thr).park = .walk q.va) :
    ∃ t, exec .pageWalk s = .next t ∧ (t.thread q.thr).park = .running := by
  have hq : q ∈ (s.walkQueue s.arg.n).filter (samePage q) :=
    List.mem_filter.2 ⟨List.mem_of_find?_eq_some hfind, by simp [samePage]⟩
  have hwait : WaitsOrRuns q.thr q.va (withoutPage s s.arg.n q) := Or.inr ⟨hpark, hlive⟩
  refine ⟨_, pageWalk_walks hfind, ?_⟩
  rw [hwalk]
  exact foldl_walkDone_runs hq hwait

/-! ## Drains, evictions and reissues (07 R181; 12 R358) -/

theorem perform_threads (pa : Nat) (b : List Byte) (w : WTag) : (s.perform pa b w).threads = s.threads :=
  congrArg Prod.fst (noteWritten_running (s := (s.putMem pa b).clearUe pa b.length) pa b.length)

theorem updateCopy_cores (c pa : Nat) (b : List Byte) : ∃ cs, s.updateCopy c pa b = { s with cores := cs } := by
  unfold State.updateCopy
  split
  · exact ⟨s.cores, rfl⟩
  · exact ⟨_, rfl⟩

theorem heldFor_none {u : Nat} {p : SbPart} {tag : Scope} {rel : Bool}
    (hans : s.writeAns p.pa p.data.length (s.thread u).job = .ok) :
    s.heldFor u { parts := [p], tag := tag, rel := rel } = none := by
  simp [State.heldFor, hans]

theorem not_migrating {pa n job : Nat} (h : s.writeAns pa n job = .ok) : s.migratingAt pa = false := by
  unfold State.writeAns at h
  split at h
  · cases h
  · next hmig => exact Bool.eq_false_iff.2 hmig

theorem drainPart_near {u : Nat} {e : SbEntry} {p : SbPart} (hfar : s.isFar (coreOf u) p.pa = false)
    (hview : isView p.pa = false)
    (hjoint : e.joint = false) (hans : s.writeAns p.pa p.data.length (s.thread u).job = .ok) :
    s.drainPart u e p = (s.perform p.pa p.data { place := threadPlace u, tag := e.tag }).updateCopy (coreOf u) p.pa p.data := by
  have hside : s.sideOf e p = [p] := by rw [State.sideOf, hjoint, if_neg Bool.false_ne_true]
  unfold State.drainPart
  rw [hfar, Bool.false_and, if_neg Bool.false_ne_true, State.drainSide, hside, List.map_cons, List.map_nil, hans]
  show s.drainHome u p.va p.pa p.data _ = _
  rw [State.drainHome, hview, if_neg Bool.false_ne_true, hans]

theorem drainNext_near {u : Nat} {p : SbPart} {tag : Scope} {rel : Bool} {rest : List SbEntry}
    (hsb : (s.thread u).sb = { parts := [p], tag := tag, rel := rel } :: rest)
    (hans : s.writeAns p.pa p.data.length (s.thread u).job = .ok) (hview : isView p.pa = false)
    (hfar : s.isFar (coreOf u) p.pa = false) :
    s.drainNext u = ((s.setThread u { s.thread u with sb := rest }).perform p.pa p.data
      { place := threadPlace u, tag := tag }).updateCopy (coreOf u) p.pa p.data := by
  have hstay : ([p].any fun q => s.migratingAt q.pa) = false := by simp [not_migrating hans]
  rw [State.drainNext, hsb]
  dsimp only
  rw [hstay, if_neg Bool.false_ne_true, heldFor_none hans]
  dsimp only
  rw [State.drainOldest, hsb]
  refine drainPart_near hfar hview rfl ?_
  rw [State.thread_setThread_same]
  exact hans

theorem storeBufferDrain_drains {p : SbPart} {tag : Scope} {rel : Bool} {rest : List SbEntry}
    (hsb : (s.thread s.arg.n).sb = { parts := [p], tag := tag, rel := rel } :: rest)
    (hheld : ∀ q ∈ s.parts, q.2.heldStores.contains s.arg.n = false)
    (hans : s.writeAns p.pa p.data.length (s.thread s.arg.n).job = .ok) (hview : isView p.pa = false)
    (hfar : s.isFar (coreOf s.arg.n) p.pa = false) :
    ∃ t, exec .storeBufferDrain s = .next t ∧ t.bytes p.pa p.data.length = p.data ∧ (t.thread s.arg.n).sb = rest := by
  refine ⟨s.drainNext s.arg.n, congrArg Host.Outcome.next (if_neg ?_), ?_⟩
  · simpa using hheld
  · rw [drainNext_near hsb hans hview hfar]
    obtain ⟨cs, hcs⟩ := updateCopy_cores (s := (s.setThread s.arg.n { s.thread s.arg.n with sb := rest }).perform p.pa p.data
      { place := threadPlace s.arg.n, tag := tag }) (coreOf s.arg.n) p.pa p.data
    rw [hcs]
    refine ⟨perform_bytes p.pa p.data { place := threadPlace s.arg.n, tag := tag }, ?_⟩
    have hthreads := perform_threads (s := s.setThread s.arg.n { s.thread s.arg.n with sb := rest }) p.pa p.data
      { place := threadPlace s.arg.n, tag := tag }
    have hth := congrArg (Store.get Thread.init s.arg.n) hthreads
    exact (congrArg Thread.sb hth).trans (congrArg Thread.sb (State.thread_setThread_same ..))

theorem evictLine_line (c n : Nat) : ((s.evictLine c n).core c).line n = none := by
  rw [Core.line, evictLine_rlc, if_pos rfl]
  refine List.find?_eq_none.2 fun x hx => ?_
  simpa using (List.mem_filter.1 hx).2

theorem movedReissue_length : ∃ t, exec .movedReissue s = .next t ∧
    (t.thread s.arg.n).sb.length = (s.thread s.arg.n).sb.length := by
  refine ⟨_, rfl, ?_⟩
  rw [State.thread_setThread_same, List.length_map]

/-! ## A queued FEC at its gate (07 R203) -/

theorem wordFull_setWordFull (pa : Nat) (v : Bool) : (s.setWordFull pa v).wordFull pa = v := Store.get_put_same ..

theorem noteAccess_abreast (pa : Nat) : Abreast s (s.noteAccess pa) := setTh_abreast rfl rfl

theorem serveReq_fec {q : GateReq} {pa : Nat} (hop : q.op = .fec pa) (hfree : (s.job q.job).gmode = 0) :
    ∃ qs, s.serveReq q = some { ({ s with cur := q.thr }).serveClear pa with cur := s.cur, gateQueue := qs } := by
  have hserved := gateServed_free (s := ({ s with cur := q.thr }).serveClear pa) (j := q.job) hfree q.gate q.tid.toNat
  rw [State.serveReq, hop, State.serveOp]
  dsimp only
  rw [hserved]
  exact ⟨_, rfl⟩

theorem gatedFec_served {q : GateReq} {rest : List GateReq} {pa : Nat}
    (hqueue : s.gateQueue.filter (fun k => k.gate == s.arg.n) = q :: rest) (hheld : q.held = false)
    (hfree : (s.job q.job).gmode = 0) (hop : q.op = .fec pa) :
    ∃ t, exec .gatedRequestService s = .next t ∧ (t.thread q.thr).pc = (s.thread q.thr).pc + 4 ∧
      (t.thread q.thr).park = .running ∧ t.wordFull pa = false := by
  obtain ⟨qs, hserve⟩ := serveReq_fec hop hfree
  have hfirst : s.serveFirst (q :: rest) = s.serveReq q := by
    rw [State.serveFirst, hheld, gateAllows_free hfree, if_neg (by decide), hserve]
  obtain ⟨ag, hag⟩ := nudge_agenda (s := { ({ s with cur := q.thr }).serveClear pa with cur := s.cur, gateQueue := qs }) s.arg.n
  refine ⟨{ ({ s with cur := q.thr }).serveClear pa with cur := s.cur, gateQueue := qs, agenda := ag }, ?_, ?_⟩
  · show execGatedRequestService s = _
    rw [execGatedRequestService]
    dsimp only
    rw [hqueue, hfirst, hserve]
    exact congrArg Host.Outcome.next hag
  · have hnote : Abreast { s with cur := q.thr } ((({ s with cur := q.thr }).setWordFull pa false).noteAccess pa) :=
      noteAccess_abreast (s := ({ s with cur := q.thr }).setWordFull pa false) pa
    obtain ⟨hcur, hpc, hrun, -⟩ := retired_of_abreast hnote
    exact ⟨hpc, hrun, wordFull_setWordFull (s := s) pa false⟩

end

/-- Settles O59: each instruction and event by its own completion. -/
theorem allocatorAndMemoryPathComplete : Obligations.AllocatorAndMemoryPathComplete := by
  intro s d a b
  refine ⟨fun hp hfree => ⟨fun off j halloc => alc_completes hp hfree halloc, fre_null hp hfree, fun j hne hle hrel =>
      fre_completes hp hfree (serveFre_frees hne hle hrel) ((release_gmode hrel).trans hfree)⟩,
    fun hp => ⟨⟨_, tlbi_invalidates hp a, invalidated_retired _ _, invalidated_gone _ _⟩,
      ⟨_, tlbiAll_invalidates hp, invalidated_retired _ _, fun e he => ?_⟩⟩,
    fun l pte at_ lv hclear hlev hwalk => ⟨fun hst => migr_answers hclear hlev hwalk rfl hst, migr_parks hclear hlev hwalk⟩,
    fun m => migrationEnd_answers, fun q l pte at_ lv => pageWalk_goesOn, fun p tag rel rest => storeBufferDrain_drains,
    ⟨_, rfl, evictLine_line _ _⟩, movedReissue_length, fun q rest pa => gatedFec_served, fun x hreg hmay => ?_,
    fun huser hsize hbase => ⟨_, alccfgWrite_sets ⟨huser, hsize, hbase⟩, ?_⟩⟩
  · have hgone := invalidated_gone _ _ e he
    rw [ofPage_none] at hgone
    exact beq_eq_false_iff_ne.1 hgone
  · rw [registerWrite_writes hreg, if_pos hmay]
  · rw [State.job_setJob_same]
    exact ⟨rfl, rfl⟩

end Sys2Proof.MemoryPath
end

section
/-! PROOF. Copies, handles and counters complete, and the events of engines and counters (06 R158 to R163; 10 R291, R295 to
R297;
13 R399 to R404). -/

namespace Sys2Proof.CopiesAndCounters

open Sys2Proof
open Sys2Proof.Machine
open Sys2Proof.Kept
open Sys2Proof.Becoming
open Sys2Proof.BankCompletion
open Sys2Proof.SpawnAndQuit
open Sys2Proof.Completing
open Sys2Proof.CachesDropped
open Sys2Proof.MemoryPath

section
variable {s r : State}

/-! ## A table written twice under one key -/

theorem erase_insert {α : Type} (k : Nat) (v : α) (t : Store α) : Store.erase k (Store.insert k v t) = Store.erase k t := by
  induction t with
  | nil => simp [Store.insert, Store.erase]
  | cons p t ih =>
    obtain ⟨j, w⟩ := p
    unfold Store.insert
    split_ifs with hlt heq
    · simp [Store.erase, ih]
    · simp [Store.erase, heq]
    · simp [Store.erase]

theorem insert_insert {α : Type} (k : Nat) (v w : α) (t : Store α) :
    Store.insert k w (Store.insert k v t) = Store.insert k w t := by
  induction t with
  | nil => simp [Store.insert]
  | cons p t ih =>
    obtain ⟨j, x⟩ := p
    rw [Store.insert]
    split_ifs with hlt heq
    · simp [Store.insert, hlt, ih]
    · simp [Store.insert, heq]
    · simp [Store.insert, hlt, heq]

theorem put_put {α : Type} [DecidableEq α] {d v : α} (h : v ≠ d) (k : Nat) (w : α) (t : Store α) :
    Store.put d k w (Store.put d k v t) = Store.put d k w t := by
  simp only [Store.put, if_neg h, erase_insert, insert_insert]

theorem setCounter_setCounter {x : Counter} (h : x ≠ Counter.init) (n : Nat) (y : Counter) :
    (s.setCounter n x).setCounter n y = s.setCounter n y :=
  congrArg (fun cs => { s with counters := cs }) (put_put h n y s.counters)

/-! ## CPS and CPQ (06 R158, R160; 13 R399, R401) -/

theorem cps_writes (hp : s.performs) (a : BitVec 5) (sel : BitVec 14) : exec (.cps a sel) s = .next (s.setTh { s.th with
    shadows := Store.put 0 sel.toNat (shadowWord sel.toNat (s.g a)) s.th.shadows }).retire := by
  show execCps a sel s = _
  exact unrecorded_performs hp _

theorem shadowWord_other {sel : BitVec 14} (h : sel ≠ 11) (v : Word) : shadowWord sel.toNat v = v :=
  if_neg fun heq => h (BitVec.eq_of_toNat_eq heq)

theorem cps_completes (hp : s.performs) (a : BitVec 5) (sel : BitVec 14) :
    ∃ t, exec (.cps a sel) s = .next t ∧ s.retired t ∧ (sel ≠ 11 → Store.get 0 sel.toNat t.th.shadows = s.g a) := by
  refine ⟨_, cps_writes hp a sel, retired_of_abreast (setTh_abreast rfl rfl), fun hsel => ?_⟩
  rw [retire_th, State.th_setTh]
  exact (Store.get_put_same ..).trans (shadowWord_other hsel _)

/-- An acquire that is done or not. -/
theorem acquireIf_abreast (c : Prop) [Decidable c] (sc : Scope) : Abreast s (if c then s.acquire sc else s) := by
  split
  · exact acquire_abreast sc
  · exact abreast_refl s

theorem cpq_returns (hp : s.performs) (d a : BitVec 5) {v : Word} (hv : v = s.tidStatus ((s.g a).toNat % 65536)) :
    exec (.cpq d a) s = .next ((if v.toNat % 4 = 1 ∨ v.toNat % 4 = 2 then s.acquire .pkg else s).retireG d v) := by
  subst hv
  show execCpq d a s = _
  exact unrecorded_performs hp _

theorem cpq_completes (hp : s.performs) (d a : BitVec 5) :
    ∃ t, exec (.cpq d a) s = .next t ∧ s.retired t ∧
      t.g d = if d = 0 then 0 else s.tidStatus ((s.g a).toNat % 65536) := by
  exact ⟨_, cpq_returns hp d a rfl, retired_retireG (acquireIf_abreast _ _) d _, retireG_g d _⟩

/-! ## Handles (06 R159; 10 R297; 13 R402, R403) -/

theorem handleOf_eq : ∀ st : BitVec 2,
    handleOf st = ([.free, .filling, .full, .draining] : List HState).getD st.toNat .free := by
  decide

theorem hwt_completes (hp : s.performs) {st : BitVec 2} {h : BitVec 5}
    (hst : ((s.core (coreOf s.cur)).handle h.toNat).st = handleOf st) : ∃ t, exec (.hwt st h) s = .next t ∧ s.retired t := by
  refine ⟨(if st = 0 ∨ st = 2 then s.acquire .pkg else s).retire, ?_, retired_of_abreast (acquireIf_abreast _ _)⟩
  show execHwt st h s = _
  rw [execHwt, unrecorded_performs hp, if_pos hst]
  rfl

theorem hrl_releases (hp : s.performs) {h : BitVec 5} {x : Handle} (hx : (s.core (coreOf s.cur)).handle h.toNat = x)
    (hown : x.owner = none ∨ x.owner = some (s.th.job, s.th.kid)) (hrest : x.st = .free ∨ x.st = .full) :
    exec (.hrl h) s =
      .next (s.setCore (coreOf s.cur) ((s.core (coreOf s.cur)).setHandle h.toNat Handle.init)).retire := by
  have hmine : ¬ (x.owner.isSome = true ∧ x.owner ≠ some (s.th.job, s.th.kid)) := by
    rintro ⟨hsome, hne⟩
    obtain hnone | hme := hown
    · rw [hnone] at hsome
      cases hsome
    · exact hne hme
  have hidle : ¬ (x.st = .filling ∨ x.st = .draining) := by
    obtain hfree | hfull := hrest
    · simp [hfree]
    · simp [hfull]
  show execHrl h s = _
  simp only [execHrl, unrecorded_performs hp, hx, if_neg hmine, if_neg hidle]
  rfl

theorem hrl_completes (hp : s.performs) {h : BitVec 5} {x : Handle} (hx : (s.core (coreOf s.cur)).handle h.toNat = x)
    (hown : x.owner = none ∨ x.owner = some (s.th.job, s.th.kid)) (hrest : x.st = .free ∨ x.st = .full) :
    ∃ t, exec (.hrl h) s = .next t ∧ s.retired t ∧ (t.core (coreOf s.cur)).handle h.toNat = Handle.init := by
  refine ⟨_, hrl_releases hp hx hown hrest, retired_of_abreast (s := s) (r := s.setCore _ _) (abreast_refl s), ?_⟩
  have hcore : ((s.setCore (coreOf s.cur) ((s.core (coreOf s.cur)).setHandle h.toNat Handle.init)).retire).core (coreOf s.cur) =
      (s.core (coreOf s.cur)).setHandle h.toNat Handle.init := State.core_setCore_same ..
  rw [hcore]
  exact Store.get_put_same Handle.init h.toNat Handle.init _

/-! ## CPL (06 R158, R161; 13 R400) -/

theorem release_still (sc : Scope) (k : Nat) : still ((s.release sc).core k) = still (s.core k) := by
  have hflush : still ((s.writeThrough sc).core k) = still (s.core k) := by
    unfold State.writeThrough
    split
    · exact foldl_same (fun w : State => still (w.core k)) (fun w (l : Line) => w.flushLine (coreOf s.cur) l.num)
        (fun _ _ => (flushLine_caches _ _ k).1) _ s
    · rfl
  exact hflush

theorem claimHandles_st (c : Core) (hs : List Nat) (me : Nat × Nat) (h : Nat) :
    ((c.claimHandles hs me).handle h).st = (c.handle h).st := by
  unfold Core.claimHandles
  induction hs generalizing c with
  | nil => rfl
  | cons k hs ih =>
    rw [List.foldl_cons, ih]
    unfold Core.setHandle Core.handle
    rw [Store.get_put]
    split_ifs with hk
    · rw [hk]
    · rfl

theorem handlesReady_congr {c k : Core} (h : ∀ n, (c.handle n).st = (k.handle n).st) (d sr : Option Nat) :
    c.handlesReady d sr = k.handlesReady d sr := by
  simp only [Core.handlesReady, h]

/-- The state in which CPL asks for its engine: its handles are its kernel's, and what it stored is released. -/
def claimed (s : State) (hs : List Nat) : State := (s.claimHandles hs).release (s.th.effRelease .die)

theorem claimed_kept (hs : List Nat) : kept (claimed s hs) = kept s := (kept_release _).trans rfl

theorem claimed_ready (hs : List Nat) (d sr : Option Nat) :
    ((claimed s hs).core (coreOf (claimed s hs).cur)).handlesReady d sr = (s.core (coreOf s.cur)).handlesReady d sr := by
  rw [cur_of_kept (claimed_kept hs)]
  refine handlesReady_congr (fun n => ?_) d sr
  have hstill := release_still (s := s.claimHandles hs) (s.th.effRelease .die) (coreOf s.cur)
  have hhandle : ((claimed s hs).core (coreOf s.cur)).handle n = ((s.claimHandles hs).core (coreOf s.cur)).handle n :=
    (congrArg (fun c : Core => c.handle n) hstill :)
  rw [hhandle, State.claimHandles, State.core_setCore_same]
  exact claimHandles_st ..

theorem claimed_engines (hs : List Nat) : (claimed s hs).engines = s.engines :=
  (congrArg State.engines (outside_of_kept (claimed_kept hs)) :)

theorem cpl_launches (hp : s.performs) {elt g : Nat} {d : BitVec 5} (helt : elt = (shadow s.th.shadows 11).toNat)
    (hcheck : s.cplCheck ((dstHandle elt).toList ++ (srcHandle elt).toList) = none) (hsb : s.th.sb = [])
    (hready : (s.core (coreOf s.cur)).handlesReady (dstHandle elt) (srcHandle elt) = true)
    (hpick : s.pickEngine (dieOf (coreOf s.cur)) = some g) :
    exec (.cpl d) s = .next ((claimed s ((dstHandle elt).toList ++ (srcHandle elt).toList)).launchCopy g d) := by
  have hrel : (s.claimHandles ((dstHandle elt).toList ++ (srcHandle elt).toList)).plainRelease 0x70 (s.th.effRelease .die) =
      .ok (claimed s ((dstHandle elt).toList ++ (srcHandle elt).toList)) := by
    have hempty : (s.claimHandles ((dstHandle elt).toList ++ (srcHandle elt).toList)).sbEmpty 0x70 = .ok () :=
      if_pos (List.isEmpty_iff.2 hsb)
    rw [State.plainRelease, hempty]
    rfl
  have hengine : (claimed s ((dstHandle elt).toList ++ (srcHandle elt).toList)).pickEngine
      (dieOf (coreOf (claimed s ((dstHandle elt).toList ++ (srcHandle elt).toList)).cur)) = some g := by
    rw [cur_of_kept (claimed_kept _), ← hpick]
    unfold State.pickEngine State.engine
    rw [claimed_engines]
  have hready' :=
    (claimed_ready ((dstHandle elt).toList ++ (srcHandle elt).toList) (dstHandle elt) (srcHandle elt)).trans hready
  show execCpl d s = _
  simp only [execCpl, unrecorded_performs hp, ← helt, hcheck, hrel, hready', hengine, Bool.not_true, Bool.false_eq_true,
    if_false]
  rfl

/-- The transfer that the executing thread's CPL queues, by its TID. -/
def copyBy (s : State) (tid : Nat) : Transfer :=
  { job := s.th.job, kid := s.th.kid, core := coreOf s.cur, slot := slotOf s.cur, thr := s.cur, tidNum := tid,
    shadows := s.th.shadows, tid := s.th.tid, level := s.th.level, num := s.msgSeq, after := s.lastTransfer s.cur s.th.tid,
    started := false, err := 0, oor := 0, clipped := false, remote := 0 }

theorem launchCopy_queues (g : Nat) (d : BitVec 5) : ∃ tid, s.retired (s.launchCopy g d) ∧
    ((s.launchCopy g d).engine g).queue = (s.engine g).queue ++ [copyBy s tid] ∧
      (s.launchCopy g d).g d = if d = 0 then 0 else BitVec.ofNat 64 tid :=
  ⟨_, retired_retireG (s := s) (abreast_refl s) d _, congrArg Engine.queue (State.engine_setEngine_same ..), retireG_g d _⟩

theorem retired_of_kept {t : State} (h : kept r = kept s) (ht : r.retired t) : s.retired t := by
  obtain ⟨hcur, hpc, hpark, hcount⟩ := ht
  exact ⟨hcur.trans (cur_of_kept h), hpc.trans (congrArg (· + 4) (pc_of_kept h)), hpark,
    hcount.trans (congrArg (· + 1) (qcount_of_kept h))⟩

theorem cpl_completes (hp : s.performs) {elt g : Nat} (d : BitVec 5) (helt : elt = (shadow s.th.shadows 11).toNat)
    (hcheck : s.cplCheck ((dstHandle elt).toList ++ (srcHandle elt).toList) = none) (hsb : s.th.sb = [])
    (hready : (s.core (coreOf s.cur)).handlesReady (dstHandle elt) (srcHandle elt) = true)
    (hpick : s.pickEngine (dieOf (coreOf s.cur)) = some g) :
    ∃ t q, exec (.cpl d) s = .next t ∧ s.retired t ∧ (t.engine g).queue = (s.engine g).queue ++ [q] ∧
      q.shadows = s.th.shadows ∧ q.job = s.th.job ∧ q.kid = s.th.kid ∧
      t.g d = if d = 0 then 0 else BitVec.ofNat 64 q.tidNum := by
  have hkept := claimed_kept (s := s) ((dstHandle elt).toList ++ (srcHandle elt).toList)
  have heng : (claimed s ((dstHandle elt).toList ++ (srcHandle elt).toList)).engine g = s.engine g :=
    congrArg (Store.get Engine.init g) (claimed_engines _)
  have hexec := cpl_launches (d := d) hp helt hcheck hsb hready hpick
  obtain ⟨tid, hret, hqueue, hg⟩ :=
    launchCopy_queues (s := claimed s ((dstHandle elt).toList ++ (srcHandle elt).toList)) g d
  have hth := th_of_kept hkept
  exact ⟨_, _, hexec, retired_of_kept hkept hret, by rw [hqueue, heng], (congrArg Thread.shadows hth :),
    (congrArg Thread.job hth :), (congrArg Thread.kid hth :), hg⟩

/-! ## ULS and ULR (06 R162, R163; 13 R404) -/

theorem ulr_completes (hp : s.performs) (d : BitVec 5) {a : BitVec 5} (hn : (s.g a).toNat ≤ 16383)
    (hmine : s.notMine (s.g a).toNat = false) : ∃ t, exec (.ulr d a) s = .next t ∧ s.retired t ∧
      t.g d = if d = 0 then 0 else BitVec.ofNat 64 ((s.counter (s.g a).toNat).read 8) := by
  refine ⟨(s.acquire .pkg).retireG d (BitVec.ofNat 64 ((s.counter (s.g a).toNat).read 8)), ?_,
    retired_retireG (acquire_abreast .pkg) d _, retireG_g d _⟩
  show execUlr d a s = _
  simp only [execUlr, unrecorded_performs hp, if_neg (Nat.not_lt.2 hn), hmine, Bool.false_eq_true, if_false]
  rfl

theorem ofNat_toNat_setWidth (v : Word) : BitVec.ofNat 48 v.toNat = v.setWidth 48 := by
  rw [BitVec.ofNat_toNat]

section
variable (h : Noted s r)
include h

theorem noted_abreast : Abreast s r := ⟨h.cur, (congrArg Thread.pc h.th :), (congrArg Thread.qcount h.th :)⟩

theorem noted_notMine (n : Nat) : r.notMine n = s.notMine n := by
  have hjob := h.job
  obtain ⟨ts, rfl, -⟩ := h
  simp only [State.notMine, hjob]
  rfl

theorem noted_bindRange (j va n : Nat) : r.bindRange j va n = s.bindRange j va n := by
  obtain ⟨ts, rfl, -⟩ := h
  have hwalk : ∀ at_, ({ s with threads := ts }).walk j at_ = s.walk j at_ := walk_cores s.cores ts j
  have hfrom : ∀ fuel at_ k, ({ s with threads := ts }).bindFrom j fuel at_ k = s.bindFrom j fuel at_ k := by
    intro fuel
    induction fuel with
    | zero => exact fun _ _ => rfl
    | succ fuel ih => exact fun at_ k => by simp only [State.bindFrom, hwalk, ih]
  exact hfrom ..

theorem noted_flushRlc (hclean : Clean s (coreOf s.cur)) : ∃ cs, r.flushRlc (coreOf r.cur) = { r with cores := cs } := by
  have hr : Clean r (coreOf r.cur) := by
    rw [h.cur]
    unfold Clean
    rw [h.core]
    exact hclean
  exact (foldl_keeps (CleanFrom r (coreOf r.cur)) (fun w (l : Line) => w.flushLine (coreOf r.cur) l.num)
    (fun _ _ hw => flushWords_clean hw _ _) (r.core (coreOf r.cur)).rlc r ⟨⟨r.cores, rfl⟩, hr⟩).1

theorem noted_ulsStatus (cs : Store Core) (n : Nat) (rs : List (Nat × Nat)) :
    ({ r with cores := cs }).ulsStatus n rs = s.ulsStatus n rs := by
  obtain ⟨ts, rfl, -⟩ := h
  rfl

end

section
variable {d a b : BitVec 5} {pa : Nat}

/-- ULS of a descriptor in near storage: the counter's change is that of the state in which its words have been read. -/
theorem uls_reads (hp : s.performs) (hn : (s.g a).toNat ≤ 16383) (hsb : s.th.sb = []) (hnear : s.nearWords (s.g b).toNat pa 8) :
    ∃ r, Noted s r ∧ exec (.uls d a b) s = .next (ended (r.ulsArm (s.g a).toNat (s.g b) (s.words pa 8) d)) := by
  obtain ⟨r, hload, hnoted⟩ := loadWords_near (opc := 0x74) hsb hnear
  have halign : ¬ (s.g b).toNat % 8 ≠ 0 := fun hne => hne hnear.1
  refine ⟨r, hnoted, ?_⟩
  show execUls d a b s = _
  simp only [execUls, unrecorded_performs hp, if_neg (Nat.not_lt.2 hn), if_neg halign, hload]

theorem ulsArm_off {ws : List Word} {n : Nat} {at_ : Word} (hoff : nth 0 ws 2 = 0) (hmine : s.notMine n = false)
    (hsb : s.th.sb = []) : s.ulsArm n at_ ws d = .ok ((s.setCounter n (s.counter n).disarm).retireG d 0) := by
  have hoff' : (nth 0 ws 2 == 0) = true := beq_iff_eq.2 hoff
  have hempty : s.sbEmpty 0x74 = .ok () := if_pos (List.isEmpty_iff.2 hsb)
  simp only [State.ulsArm, hoff', Bool.not_true, Bool.false_and, Bool.false_eq_true, if_false, hmine, hempty, if_true]

theorem ulsArm_on {ws : List Word} {n : Nat} {at_ : Word} {rs : List (Nat × Nat)} (hoff : nth 0 ws 2 ≠ 0)
    (hbad : badUls ws = false)
    (hmine : s.notMine n = false) (hsb : s.th.sb = [])
    (hbind : s.bindRange s.th.job (nth 0 ws 0).toNat (nth 0 ws 1).toNat = .ok rs) (hr : r = s.flushRlc (coreOf s.cur))
    (hst : r.ulsStatus n rs = 0) : s.ulsArm n at_ ws d =
      .ok ((r.setCounter n ((r.counter n).arm r.th.job r.th.kid ws rs)).retireG d 0) := by
  have hoff' : (nth 0 ws 2 == 0) = false := beq_eq_false_iff_ne.2 hoff
  have hempty : s.sbEmpty 0x74 = .ok () := if_pos (List.isEmpty_iff.2 hsb)
  simp only [State.ulsArm, hoff', hbad, Bool.not_false, Bool.and_false, Bool.false_eq_true, if_false, hmine, hempty, hbind,
    ← hr, hst, ne_eq, not_true_eq_false]

/-- A counter set, and status 0 returned. -/
theorem counterSet_ends (hat : Abreast s r) (n : Nat) (x : Counter) : s.retired ((r.setCounter n x).retireG d 0) ∧
    ((r.setCounter n x).retireG d 0).g d = 0 ∧ ((r.setCounter n x).retireG d 0).counter n = x := by
  refine ⟨retired_retireG (hat.trans (t := r.setCounter n x) ⟨rfl, rfl, rfl⟩) d 0, ?_, State.counter_setCounter_same ..⟩
  rw [retireG_g]
  exact ite_self 0

theorem uls_disarms (hp : s.performs) (hn : (s.g a).toNat ≤ 16383) (hmine : s.notMine (s.g a).toNat = false) (hrest : s.atRest)
    (hnear : s.nearWords (s.g b).toNat pa 8) (hoff : nth 0 (s.words pa 8) 2 = 0) :
    ∃ t, exec (.uls d a b) s = .next t ∧ s.retired t ∧ t.g d = 0 ∧ (t.counter (s.g a).toNat).armed = false := by
  obtain ⟨r, hnoted, hexec⟩ := uls_reads (d := d) hp hn hrest.1 hnear
  rw [ulsArm_off hoff ((noted_notMine hnoted _).trans hmine) (hnoted.sb.trans hrest.1)] at hexec
  obtain ⟨hret, hg, hcounter⟩ := counterSet_ends (d := d) (noted_abreast hnoted) (s.g a).toNat (r.counter (s.g a).toNat).disarm
  exact ⟨_, hexec, hret, hg, congrArg Counter.armed hcounter⟩

theorem uls_arms (hp : s.performs) (hn : (s.g a).toNat ≤ 16383) (hmine : s.notMine (s.g a).toNat = false) (hrest : s.atRest)
    (hnear : s.nearWords (s.g b).toNat pa 8) {ws : List Word} (hws : ws = s.words pa 8) {rs : List (Nat × Nat)}
    (hoff : nth 0 ws 2 ≠ 0) (hbad : badUls ws = false)
    (hbind : s.bindRange s.th.job (nth 0 ws 0).toNat (nth 0 ws 1).toNat = .ok rs) (hst : s.ulsStatus (s.g a).toNat rs = 0) :
    ∃ t, exec (.uls d a b) s = .next t ∧ s.retired t ∧ t.g d = 0 ∧ (t.counter (s.g a).toNat).armed = true ∧
      (t.counter (s.g a).toNat).count = 0 ∧ (t.counter (s.g a).toNat).total = (nth 0 ws 2).setWidth 48 ∧
      (t.counter (s.g a).toNat).owner = some s.th.job ∧ (t.counter (s.g a).toNat).ranges = rs := by
  obtain ⟨r, hnoted, hexec⟩ := uls_reads (d := d) hp hn hrest.1 hnear
  obtain ⟨cs, hcs⟩ := noted_flushRlc hnoted hrest.2.2.2.2
  obtain ⟨q, hq⟩ : ∃ q, q = r.flushRlc (coreOf r.cur) := ⟨_, rfl⟩
  rw [← hq] at hcs
  have hat : Abreast s q := by
    rw [hcs]
    exact (noted_abreast hnoted :)
  have hjob : q.th.job = s.th.job := by
    rw [hcs]
    exact hnoted.job
  have hzero : q.ulsStatus (s.g a).toNat rs = 0 := by
    rw [hcs, noted_ulsStatus hnoted, hst]
  rw [← hws, ulsArm_on hoff hbad ((noted_notMine hnoted _).trans hmine) (hnoted.sb.trans hrest.1)
    (by rw [noted_bindRange hnoted, hnoted.job, hbind]) hq hzero, ended_ok] at hexec
  obtain ⟨hret, hg, hcounter⟩ := counterSet_ends (d := d) hat (s.g a).toNat
    ((q.counter (s.g a).toNat).arm q.th.job q.th.kid ws rs)
  refine ⟨_, hexec, hret, hg, ?_⟩
  rw [hcounter]
  exact ⟨rfl, rfl, ofNat_toNat_setWidth _, congrArg some hjob, rfl⟩

end

/-! ## Transfers of an engine (06 R159 to R161; 10 R291, R295) -/

theorem copyTransferStart_starts {e : Nat} {t : Transfer} {rest : List Transfer} (he : e = s.arg.n)
    (hqueue : (s.engine e).queue = t :: rest) (hidle : ∀ y ∈ t :: rest, y.started = false) (hord : s.ordReady t = true)
    (hheld : s.engineHeld e t.num = false) {q : XferRun} (hq : q = s.runTransfer e t) (hwaits : q.waits = none) :
    exec .copyTransferStart s = .next ((q.st.mapTransfer e t.num (fun y =>
      { y with started := true, err := q.err, oor := q.oor, clipped := isClipped y.shadows && q.err != 1 })).sendParts e t
        q.sends.reverse) := by
  have hnone : ¬ ((t :: rest).any fun y => y.started) = true := by
    rw [Bool.not_eq_true, List.any_eq_false]
    exact fun y hy => Bool.eq_false_iff.1 (hidle y hy)
  have hnext : s.nextTransfer e = some t := by
    rw [State.nextTransfer, hqueue, if_neg hnone, List.find?_cons_of_pos (by rw [hheld]; rfl)]
    exact if_pos hord
  show execCopyTransferStart s = _
  rw [execCopyTransferStart, ← he, hnext]
  dsimp only
  rw [State.startTransfer, ← hq]
  dsimp only
  rw [hwaits]

theorem endTransfer_engine (e : Nat) (t : Transfer) : ((s.endTransfer e t).engine e).done = (s.engine e).done + 1 ∧
    ((s.endTransfer e t).engine e).queue = (s.engine e).queue.filter (fun y => y.num != t.num) := by
  unfold State.endTransfer
  dsimp only
  split
  · exact ⟨congrArg Engine.done (State.engine_setEngine_same s e _), congrArg Engine.queue (State.engine_setEngine_same s e _)⟩
  · exact ⟨congrArg Engine.done (State.engine_setEngine_same s e _), congrArg Engine.queue (State.engine_setEngine_same s e _)⟩

theorem copyTransferComplete_ends {e : Nat} {t : Transfer} {rest : List Transfer} (he : e = s.arg.n)
    (hqueue : (s.engine e).queue = t :: rest) (hstarted : t.started = true) (hremote : t.remote = 0) :
    ∃ u, exec .copyTransferComplete s = .next u ∧ (u.engine e).done = (s.engine e).done + 1 ∧
      (u.engine e).queue = (t :: rest).filter (fun y => y.num != t.num) := by
  refine ⟨s.endTransfer e t, ?_, ?_⟩
  · show execCopyTransferComplete s = _
    rw [execCopyTransferComplete, ← he, hqueue, List.find?_cons_of_pos (by rw [hstarted, hremote]; rfl)]
  · rw [← hqueue]
    exact endTransfer_engine e t

/-! ## Counts, totals and launches of a counter (06 R162, R163; 10 R296) -/

/-- A count that stays below TOTAL fires nothing and overruns nothing. -/
theorem ullageAdd_below {n v : Nat} {x : Counter} (hx : s.counter n = x) (harmed : x.armed = true) (hfired : x.fired = false)
    (hbelow : (x.count + BitVec.ofNat 48 v).toNat < x.total.toNat) :
    s.ullageAdd n v = s.setCounter n { x with count := x.count + BitVec.ofNat 48 v } := by
  have hfire : decide (x.total.toNat ≤ (x.count + BitVec.ofNat 48 v).toNat) = false := decide_eq_false (Nat.not_le.2 hbelow)
  have hover : decide (x.total.toNat < (x.count + BitVec.ofNat 48 v).toNat) = false :=
    decide_eq_false (Nat.not_lt.2 (Nat.le_of_lt hbelow))
  simp only [State.ullageAdd, hx, harmed, hfired, hfire, hover, Bool.not_true, Bool.not_false, Bool.and_false, Bool.or_false,
    Bool.false_eq_true, if_false]

theorem counterFeedWrite_below {n : Nat} {x : Counter} (hn : n = s.arg.n) (hx : s.counter n = x) (harmed : x.armed = true)
    (hfired : x.fired = false) (hbelow : (x.count + s.arg.v.setWidth 48).toNat < x.total.toNat) :
    exec .counterFeedWrite s = .next (s.setCounter n { x with count := x.count + s.arg.v.setWidth 48 }) := by
  subst hn
  rw [← ofNat_toNat_setWidth] at hbelow ⊢
  exact congrArg Host.Outcome.next (ullageAdd_below hx harmed hfired hbelow)

theorem counterTotalWrite_sets {n : Nat} {x : Counter} (hn : n = s.arg.n) (hx : s.counter n = x)
    (hidle : x.armed = false ∨ x.fired = true) :
    exec .counterTotalWrite s = .next (s.setCounter n { x with total := s.arg.v.setWidth 48 }) := by
  subst hn hx
  have hnot : ¬ ((s.counter s.arg.n).armed && !(s.counter s.arg.n).fired) = true := by
    obtain h | h := hidle
    · simp [h]
    · simp [h]
  rw [← ofNat_toNat_setWidth]
  exact congrArg Host.Outcome.next (if_neg hnot)

theorem ullageCountReport_below {e n v : Nat} {x : Counter} (he : e = s.arg.n) (hn : n = s.arg.m) (hx : s.counter n = x)
    (hv : v = Store.get 0 e x.frags) (harmed : x.armed = true) (hfired : x.fired = false)
    (hbelow : (x.count + BitVec.ofNat 48 v).toNat < x.total.toNat) :
    exec .ullageCountReport s = .next (s.setCounter n
      { x with frags := Store.put 0 e 0 x.frags, count := x.count + BitVec.ofNat 48 v }) := by
  subst he hn hx hv
  have hne : ({ s.counter s.arg.m with frags := Store.put 0 s.arg.n 0 (s.counter s.arg.m).frags } : Counter) ≠ Counter.init :=
    fun heq => Bool.false_ne_true ((congrArg Counter.armed heq).symm.trans harmed)
  have hadd := ullageAdd_below (s := s.setCounter s.arg.m
    { s.counter s.arg.m with frags := Store.put 0 s.arg.n 0 (s.counter s.arg.m).frags })
    (State.counter_setCounter_same ..) harmed hfired hbelow
  rw [setCounter_setCounter hne] at hadd
  exact congrArg Host.Outcome.next hadd

/-- A request of a counter whose thread has room starts it, and nobody waits for its number. -/
theorem ullageLaunch_starts {e i id slot : Nat} {q : SpawnReq} {rest : List Nat} (he : e = s.arg.n)
    (hfind : (indexed s.spawns).find? (fun p => p.2.counter == some e) = some (i, q)) (hw : q.waiter = none)
    (hheld : q.held = false) (hfree : (s.job q.job).gmode = 0)
    (hslots : s.freeSlots q.job q.kid q.core q.slots = slot :: rest) (hid : s.freeId q.job = some id) :
    ∃ t, exec .ullageLaunch s = .next t ∧ t.spawns = s.spawns.eraseIdx i ∧
      (t.thread (q.core * 16 + slot)).live = true ∧ (t.thread (q.core * 16 + slot)).pc = q.pc := by
  subst he
  have hgo : ¬ (q.held = true ∨ (!s.gateAllows q.job gateSpawn q.tid.toNat) = true) := by
    simp [hheld, gateAllows_free hfree]
  refine ⟨({ s with spawns := dropAt s.spawns i }).spawnNow q slot id, ?_, ?_⟩
  · show execUllageLaunch s = _
    simp only [execUllageLaunch, hfind, if_neg hgo, hslots, hid]
  · rw [spawnNow_free (s := { s with spawns := dropAt s.spawns i }) hfree, hw]
    have hacq := acquireFor_becomes (s := startFor { s with spawns := dropAt s.spawns i } q (spawnSlot q slot) id)
      (spawnSlot q slot) q.tag
    have hthread := (startFor_thread (s := { s with spawns := dropAt s.spawns i }) q (spawnSlot q slot) id).of_bare hacq.thread
    exact ⟨hacq.spawns, hthread.live, hthread.pc⟩

end

/-- Settles O56: each instruction and event by its own completion. -/
theorem copiesAndCountersComplete : Obligations.CopiesAndCountersComplete := by
  intro s d a b h sel st pa
  refine ⟨fun hp => ⟨cps_completes hp a sel, cpq_completes hp d a,
    fun hst => hwt_completes hp (hst.trans (handleOf_eq st).symm),
      hrl_completes hp rfl, fun g => cpl_completes hp d rfl, fun hn hmine => ⟨ulr_completes hp d hn hmine, fun hrest hnear =>
        ⟨uls_disarms hp hn hmine hrest hnear, fun rs => uls_arms hp hn hmine hrest hnear rfl⟩⟩⟩,
    fun t rest hqueue => ⟨fun hidle hord hheld hwaits => copyTransferStart_starts rfl hqueue hidle hord hheld rfl hwaits,
      copyTransferComplete_ends rfl hqueue⟩,
    counterFeedWrite_below rfl rfl, counterTotalWrite_sets rfl rfl, ullageCountReport_below rfl rfl rfl rfl,
    fun i q slot rest id => ullageLaunch_starts rfl⟩

end Sys2Proof.CopiesAndCounters
end

section
/-! PROOF. The elements of a sector in memory, and what a bank's write of a sector keeps (06 R171 to R173, R175). -/

namespace Sys2Proof.BankSectors

open Sys2Proof
open Sys2Proof.Machine
open Sys2Proof.Kept
open Sys2Proof.RemoteOps
open Sys2Proof.RemoteCompletion

section
variable {s r : State}

/-! ## Runs of bytes -/

theorem bytes_append (pa m n : Nat) : s.bytes pa (m + n) = s.bytes pa m ++ s.bytes (pa + m) n := by
  simp only [State.bytes, List.range_add, List.map_append, List.map_map, Function.comp_def, Nat.add_assoc]

theorem bytes_congr {pa n : Nat} (h : ∀ x, pa ≤ x → x < pa + n → r.byte x = s.byte x) : r.bytes pa n = s.bytes pa n :=
  List.map_congr_left fun i hi => h (pa + i) (Nat.le_add_right ..) (Nat.add_lt_add_left (List.mem_range.1 hi) pa)

theorem bytes_of_mem (h : r.mem = s.mem) (pa n : Nat) : r.bytes pa n = s.bytes pa n :=
  bytes_congr fun x _ _ => congrArg (Store.get 0 x) h

/-- Two runs that agree sector by sector. -/
theorem bytes_of_sectors {p q m : Nat} (h : ∀ i, i < m → r.bytes (p + 32 * i) 32 = s.bytes (q + 32 * i) 32) :
    r.bytes p (32 * m) = s.bytes q (32 * m) := by
  induction m with
  | zero => rfl
  | succ m ih =>
    rw [Nat.mul_succ, bytes_append, bytes_append, ih fun i hi => h i (Nat.lt_succ_of_lt hi), h m (Nat.lt_succ_self m)]

theorem chunksN_nil {α : Type} (w fuel : Nat) : chunksN w fuel ([] : List α) = [] := by
  cases fuel with
  | zero => rfl
  | succ fuel => rfl

theorem chunksN_bytes {w : Nat} (hw : 0 < w) (m pa fuel : Nat) (hfuel : w * m ≤ fuel) :
    chunksN w fuel (s.bytes pa (w * m)) = (List.range m).map (fun k => s.bytes (pa + w * k) w) := by
  induction m generalizing pa fuel with
  | zero => exact chunksN_nil w fuel
  | succ m ih =>
    rw [Nat.mul_succ] at hfuel
    obtain ⟨f, rfl⟩ : ∃ f, fuel = f + 1 := ⟨fuel - 1, by omega⟩
    have hlen : (s.bytes pa w).length = w := bytes_length ..
    have hne : (s.bytes pa w ++ s.bytes (pa + w) (w * m)).isEmpty = false := by
      rw [List.isEmpty_eq_false_iff, ne_eq, ← List.length_eq_zero_iff, List.length_append, hlen]
      omega
    rw [Nat.mul_succ, Nat.add_comm (w * m) w, bytes_append, chunksN, hne, if_neg Bool.false_ne_true, List.take_left' hlen,
      List.drop_left' hlen, ih (pa + w) f (by omega), List.range_succ_eq_map, List.map_cons, List.map_map]
    refine congrArg₂ List.cons (by rw [Nat.mul_zero, Nat.add_zero]) (List.map_congr_left fun k _ => ?_)
    simp only [Function.comp_apply, Nat.mul_succ]
    exact congrArg (fun a => s.bytes a w) (by omega)

theorem chunks_bytes {w : Nat} (hw : 0 < w) (m pa : Nat) :
    chunks w (s.bytes pa (w * m)) = (List.range m).map (fun k => s.bytes (pa + w * k) w) := by
  rw [chunks, bytes_length]
  exact chunksN_bytes hw m pa _ le_rfl

theorem flatMap_length {α : Type} {g : α → List Byte} {w : Nat} (hg : ∀ v, (g v).length = w) (l : List α) :
    (l.flatMap g).length = w * l.length := by
  induction l with
  | nil => rfl
  | cons v l ih => rw [List.flatMap_cons, List.length_append, hg, ih, List.length_cons, Nat.mul_succ, Nat.add_comm]

/-- The bytes of one of several values of one width written one after the other. -/
theorem bytes_of_flatMap {α : Type} {g : α → List Byte} {w : Nat} (hg : ∀ v, (g v).length = w) {l : List α} {pa : Nat}
    (h : s.bytes pa (w * l.length) = l.flatMap g) {k : Nat} (hk : k < l.length) : s.bytes (pa + w * k) w = g l[k] := by
  induction l generalizing pa k with
  | nil => exact absurd hk (Nat.not_lt_zero k)
  | cons v l ih =>
    rw [List.length_cons, Nat.mul_succ, Nat.add_comm, bytes_append, List.flatMap_cons] at h
    obtain ⟨hfirst, hrest⟩ := List.append_inj h (by rw [bytes_length, hg])
    cases k with
    | zero => exact hfirst
    | succ k =>
      have hat : pa + w * (k + 1) = pa + w + w * k := by
        rw [Nat.mul_succ]
        omega
      rw [hat]
      exact ih hrest (Nat.lt_of_succ_lt_succ hk)

/-! ## The elements of a command's format (06 R171) -/

/-- The bytes of an element. -/
def width (c : BauCmd) : Nat := if c.bf16 = true then 2 else 4

/-- The format of an element. -/
def form (c : BauCmd) : Fmt := if c.bf16 = true then Sys2Proof.Machine.bf16 else fp32

/-- The value of the `k`-th element from an address on. -/
def val (s : State) (c : BauCmd) (pa k : Nat) : FVal := (form c).dec (natOf (s.bytes (pa + width c * k) (width c)))

/-- The bytes that a value is written as. -/
def stored (c : BauCmd) (v : FVal) : List Byte := bytesOf (width c) ((form c).rne v)

variable {c : BauCmd}

theorem width_pos : 0 < width c := by
  unfold width
  split <;> decide

theorem stored_length (v : FVal) : (stored c v).length = width c := bytesOf_length ..

theorem write_eq (l : List FVal) : c.write l = l.flatMap (stored c) := by
  unfold BauCmd.write stored width form
  split <;> rfl

theorem elems_eq (b : List Byte) : c.elems b = (chunks (width c) b).map (fun q => (form c).dec (natOf q)) := by
  unfold BauCmd.elems width form
  split <;> rfl

theorem elems_bytes (pa m : Nat) : c.elems (s.bytes pa (width c * m)) = (List.range m).map (val s c pa) := by
  rw [elems_eq, chunks_bytes width_pos, List.map_map]
  rfl

/-- The elements of a sector. -/
def per (c : BauCmd) : Nat := if c.bf16 = true then 16 else 8

theorem width_per : width c * per c = 32 := by
  unfold width per
  split <;> rfl

theorem elems_sector (pa : Nat) : c.elems (s.bytes pa 32) = (List.range (per c)).map (val s c pa) := by
  rw [← width_per (c := c), elems_bytes]

theorem nth_elems {pa i : Nat} (hi : i < per c) : nth .nan (c.elems (s.bytes pa 32)) i = val s c pa i := by
  rw [elems_sector, nth, List.getD_eq_getElem _ _ (by simpa using hi), List.getElem_map, List.getElem_range]

/-- An element of a sector, counted from the first sector on. -/
theorem val_sector (pa i j : Nat) : val s c (pa + 32 * i) j = val s c pa (per c * i + j) := by
  have hat : pa + 32 * i + width c * j = pa + width c * (per c * i + j) := by
    rw [Nat.mul_add, ← Nat.mul_assoc, width_per, Nat.add_assoc]
  rw [val, val, hat]

/-! ## The sectors that a command writes (06 R171) -/

/-- The element that a command other than COPY gives D, from its elements of A, B and D, the value of FILL and its scalars. -/
def formula (op : Nat) (fill k1 k2 k3 k4 x y z : FVal) : FVal := if op = 11 then fill else bauElem op k1 k2 k3 k4 x y z

/-- The same of a command with its own scalars. -/
def newElem (c : BauCmd) (x y z : FVal) : FVal :=
  formula c.op c.fill (half32 c.s1 false) (half32 c.s1 true) (half32 c.s2 false) (half32 c.s2 true) x y z

theorem sector_copy (h : c.op = 10) (a b d : List Byte) : c.sector a b d = a := if_pos h

theorem sector_elems (h : c.op ≠ 10) (a b d : Nat) : c.sector (s.bytes a 32) (s.bytes b 32) (s.bytes d 32) =
    ((List.range (per c)).map (fun j => newElem c (val s c a j) (val s c b j) (val s c d j))).flatMap (stored c) := by
  rw [BauCmd.sector, if_neg h, ← write_eq]
  by_cases h11 : c.op = 11
  · have hfill : c.fill :: List.replicate (if c.bf16 then 15 else 7) c.fill = List.replicate (per c) c.fill := by
      unfold per
      split <;> rfl
    have hmap : (List.range (per c)).map (fun j => newElem c (val s c a j) (val s c b j) (val s c d j)) =
        List.replicate (per c) c.fill := by
      simp only [newElem, formula, if_pos h11, List.map_const', List.length_range]
    rw [if_pos h11, hfill, hmap]
  · rw [if_neg h11]
    refine congrArg c.write (List.map_congr_left fun j hj => ?_)
    have hlt : j < per c := List.mem_range.1 hj
    rw [nth_elems hlt, nth_elems hlt, nth_elems hlt, newElem, formula, if_neg h11]

theorem sectorA_elems (a b : Nat) : c.sectorA (s.bytes a 32) (s.bytes b 32) =
    ((List.range (per c)).map (fun j => bauMomA (half32 c.s2 false) (half32 c.s2 true) (val s c a j) (val s c b j))).flatMap
      (stored c) := by
  rw [BauCmd.sectorA, zipWith2, elems_sector, elems_sector, write_eq, List.zipWith_map, List.zipWith_self]

theorem sector_length (a b d : Nat) : (c.sector (s.bytes a 32) (s.bytes b 32) (s.bytes d 32)).length = 32 := by
  by_cases h : c.op = 10
  · rw [sector_copy h, bytes_length]
  · rw [sector_elems h, flatMap_length stored_length, List.length_map, List.length_range, width_per]

theorem sectorA_length (a b : Nat) : (c.sectorA (s.bytes a 32) (s.bytes b 32)).length = 32 := by
  rw [sectorA_elems, flatMap_length stored_length, List.length_map, List.length_range, width_per]

/-- The bytes of an element of a sector written as a list of values. -/
theorem bytes_of_elems {f : Nat → FVal} {pa i k : Nat}
    (h : s.bytes (pa + 32 * i) 32 = ((List.range (per c)).map f).flatMap (stored c))
    (hk : k = per c * i + k % per c) : s.bytes (pa + width c * k) (width c) = stored c (f (k % per c)) := by
  have hlt : k % per c < per c := Nat.mod_lt _ (by unfold per; split <;> decide)
  have hlen : ((List.range (per c)).map f).length = per c := by rw [List.length_map, List.length_range]
  have hat : pa + width c * k = pa + 32 * i + width c * (k % per c) := by
    conv_lhs => rw [hk, Nat.mul_add, ← Nat.mul_assoc, width_per, ← Nat.add_assoc]
  rw [hat, bytes_of_flatMap (l := (List.range (per c)).map f) stored_length (by rw [hlen, width_per, h])
    (by rw [hlen]; exact hlt), List.getElem_map, List.getElem_range]

/-! ## A write of a bank (06 R173, R175) -/

theorem hasUe_part {pa n p m : Nat} (h : s.hasUe pa n = false) (hlo : pa ≤ p) (hhi : p + m ≤ pa + n) : s.hasUe p m = false := by
  rw [State.hasUe, List.any_eq_false] at h ⊢
  intro i hi
  have hlt := List.mem_range.1 hi
  have hpart := h (p + i - pa) (List.mem_range.2 (by omega))
  rwa [show pa + (p + i - pa) = p + i by omega] at hpart

theorem partialUe_none {pa n : Nat} (h : s.hasUe pa n = false) : s.partialUe pa n = false := by
  rw [State.hasUe, List.any_eq_false] at h
  rw [State.partialUe, List.any_eq_false]
  intro i hi
  simp only [Bool.not_eq_true] at h
  simp [h i hi]

theorem perform_ue (pa : Nat) (b : List Byte) (w : WTag) : (s.perform pa b w).ue = (s.clearUe pa b.length).ue := by
  have hnote : ∀ (t : State) (n : Nat), (t.noteWritten pa n).ue = t.ue := by
    intro t n
    unfold State.noteWritten
    split
    · dsimp only
      split <;> rfl
    · rfl
  exact hnote ((s.putMem pa b).clearUe pa b.length) b.length

theorem perform_hasUe {p n : Nat} (h : s.hasUe p n = false) (pa : Nat) (b : List Byte) (w : WTag) :
    (s.perform pa b w).hasUe p n = false := by
  have hclear : ∀ g, Store.get false g s.ue = false → Store.get false g (s.clearUe pa b.length).ue = false := by
    intro g hg
    refine List.foldlRecOn (motive := fun u => Store.get false g u = false) (List.range b.length) _ hg fun u hu i _ => ?_
    split
    · rw [Store.get_put]
      split
      · rfl
      · exact hu
    · exact hu
  rw [State.hasUe, List.any_eq_false] at h ⊢
  intro i hi
  rw [perform_ue]
  simp only [Bool.not_eq_true] at h ⊢
  exact hclear _ (h i hi)

theorem latchedAt_of_kept (h : kept r = kept s) (pa : Nat) : r.latchedAt pa = s.latchedAt pa := by
  have htags : r.pageTags = s.pageTags := (congrArg State.pageTags (outside_of_kept h) :)
  have hsets : r.vsets = s.vsets := (congrArg State.vsets (outside_of_kept h) :)
  unfold State.latchedAt State.pageTag State.vset
  rw [htags, hsets]

theorem bauWrite_performs {k pa : Nat} {b : List Byte} (hlatched : s.latchedAt pa = false) (hue : s.hasUe pa b.length = false) :
    s.bauWrite k c pa b = s.perform pa b (tagBank (stackOf s.iltab pa / 2)) := by
  rw [State.bauWrite, hlatched, partialUe_none hue]
  rfl

/-- What is read of `r` where a command's sources and results are read: as of `s`, and no error or latch that `s` has not. -/
structure Sound (s r : State) (written : Nat → Prop) : Prop where
  rest : ∀ x, ¬ written x → r.byte x = s.byte x
  ue : ∀ pa n, s.hasUe pa n = false → r.hasUe pa n = false
  latched : ∀ pa, r.latchedAt pa = s.latchedAt pa

theorem Sound.refl (s : State) : Sound s s (fun _ => False) := ⟨fun _ _ => rfl, fun _ _ h => h, fun _ => rfl⟩

theorem Sound.mono {w w' : Nat → Prop} (h : Sound s r w) (hw : ∀ x, w x → w' x) : Sound s r w' :=
  ⟨fun x hx => h.rest x fun hwx => hx (hw x hwx), h.ue, h.latched⟩

theorem Sound.bytes {w : Nat → Prop} (h : Sound s r w) {pa n : Nat} (hpa : ∀ x, pa ≤ x → x < pa + n → ¬ w x) :
    r.bytes pa n = s.bytes pa n := bytes_congr fun x hlo hhi => h.rest x (hpa x hlo hhi)

theorem byte_perform_outside {pa x : Nat} {b : List Byte} {w : WTag} (h : x < pa ∨ pa + b.length ≤ x) :
    (s.perform pa b w).byte x = s.byte x := perform_byte_outside s pa x b w h (perform_mem pa b w)

/-- A write of a bank that nothing stops. -/
theorem Sound.bauWrite {w : Nat → Prop} (h : Sound s r w) {k pa : Nat} {b : List Byte} (hlen : b.length = 32)
    (hlatched : s.latchedAt pa = false) (hue : s.hasUe pa 32 = false) :
    Sound s (r.bauWrite k c pa b) (fun x => w x ∨ pa ≤ x ∧ x < pa + 32) ∧ (r.bauWrite k c pa b).bytes pa 32 = b ∧
      ∀ p n, p + n ≤ pa ∨ pa + 32 ≤ p → (r.bauWrite k c pa b).bytes p n = r.bytes p n := by
  rw [bauWrite_performs ((h.latched pa).trans hlatched) (by rw [hlen]; exact h.ue pa 32 hue)]
  refine ⟨⟨fun x hx => ?_, fun p n hp => perform_hasUe (h.ue p n hp) .., fun p => ?_⟩, ?_, fun p n hp => ?_⟩
  · rw [not_or] at hx
    exact (byte_perform_outside (by omega)).trans (h.rest x hx.1)
  · exact (latchedAt_of_kept (kept_perform ..) p).trans (h.latched p)
  · rw [← hlen]
    exact perform_bytes ..
  · exact bytes_congr fun x hlo hhi => byte_perform_outside (by omega)

end

end Sys2Proof.BankSectors
end

section
/-! PROOF. A bank's command over its sectors, and BCMD by its checks (06 R170 to R173, R175; 13 R411). -/

namespace Sys2Proof.BankCommandsDone

open Sys2Proof
open Sys2Proof.Machine
open Sys2Proof.Kept
open Sys2Proof.Becoming
open Sys2Proof.RemoteCompletion
open Sys2Proof.BankSectors

section
variable {s r : State} {c : BauCmd}

/-! ## The sectors done one after the other (06 R173) -/

/-- The bytes of D, and of MOM's A, in the first sectors. -/
def Written (c : BauCmd) (m x : Nat) : Prop := (c.d ≤ x ∧ x < c.d + 32 * m) ∨ (c.op = 6 ∧ c.a ≤ x ∧ x < c.a + 32 * m)

/-- `r` is `s` with a command done on its first sectors. -/
structure DoneTo (s r : State) (c : BauCmd) (m : Nat) : Prop where
  sound : Sound s r (Written c m)
  dst : ∀ i, i < m → r.bytes (c.d + 32 * i) 32 =
    c.sector (s.bytes (c.a + 32 * i) 32) (s.bytes (c.b + 32 * i) 32) (s.bytes (c.d + 32 * i) 32)
  mom : c.op = 6 → ∀ i, i < m → r.bytes (c.a + 32 * i) 32 = c.sectorA (s.bytes (c.a + 32 * i) 32) (s.bytes (c.b + 32 * i) 32)

/-- A command none of whose sectors is stopped, and whose ranges are the same or lie apart. -/
structure Smooth (s : State) (c : BauCmd) : Prop where
  srcA : bauUsesA c.op = true → s.hasUe c.a (32 * c.nsec) = false
  srcB : bauUsesB c.op = true → s.hasUe c.b (32 * c.nsec) = false
  ueD : s.hasUe c.d (32 * c.nsec) = false
  latchD : ∀ i, i < c.nsec → s.latchedAt (c.d + 32 * i) = false
  ueA : c.op = 6 → s.hasUe c.a (32 * c.nsec) = false
  latchA : c.op = 6 → ∀ i, i < c.nsec → s.latchedAt (c.a + 32 * i) = false
  aD : c.a = c.d ∨ overlap c.d (32 * c.nsec) c.a (32 * c.nsec) = 0
  bD : c.b = c.d ∨ overlap c.d (32 * c.nsec) c.b (32 * c.nsec) = 0
  apartMom : c.op = 6 → overlap c.d (32 * c.nsec) c.a (32 * c.nsec) = 0
  bA : c.op = 6 → c.b = c.a ∨ overlap c.a (32 * c.nsec) c.b (32 * c.nsec) = 0

theorem apart_iff {p q n : Nat} : overlap p n q n = 0 ↔ p + n ≤ q ∨ q + n ≤ p ∨ n = 0 := by
  have hmin : Nat.min (p + n) (q + n) = min (p + n) (q + n) := rfl
  have hmax : Nat.max p q = max p q := rfl
  unfold overlap
  rw [hmin, hmax]
  omega

/-- A sector that a command reads is one that it has not written yet. -/
theorem not_written {m p x : Nat} (h : Smooth s c) (hm : m < c.nsec) (hp : p = c.a ∨ p = c.b ∨ p = c.d) (hlo : p + 32 * m ≤ x)
    (hhi : x < p + 32 * m + 32) : ¬ Written c m x := by
  have haD := h.aD
  have hbD := h.bD
  rw [apart_iff] at haD hbD
  rintro (⟨hdlo, hdhi⟩ | ⟨hop, halo, hahi⟩)
  · omega
  · have hmom := h.apartMom hop
    have hbA := h.bA hop
    rw [apart_iff] at hmom hbA
    omega

theorem not_stopped {m : Nat} (h : Smooth s c) (hr : DoneTo s r c m) (hm : m < c.nsec) :
    ((bauUsesA c.op && r.hasUe (c.a + 32 * m) 32) || (bauUsesB c.op && r.hasUe (c.b + 32 * m) 32) ||
      (bauReadsD c.op && r.hasUe (c.d + 32 * m) 32)) = false := by
  have hpart {p : Nat} (hue : s.hasUe p (32 * c.nsec) = false) : r.hasUe (p + 32 * m) 32 = false :=
    hr.sound.ue _ _ (hasUe_part hue (by omega) (by omega))
  have hsrc {uses : Bool} {p : Nat} (hue : uses = true → s.hasUe p (32 * c.nsec) = false) :
      (uses && r.hasUe (p + 32 * m) 32) = false := by
    cases uses with
    | false => rfl
    | true => exact hpart (hue rfl)
  rw [hsrc h.srcA, hsrc h.srcB, hpart h.ueD, Bool.and_false]
  rfl

theorem doneTo_zero (s : State) (c : BauCmd) : DoneTo s s c 0 :=
  ⟨(Sound.refl s).mono fun _ h => h.elim, fun _ hi => absurd hi (Nat.not_lt_zero _),
    fun _ _ hi => absurd hi (Nat.not_lt_zero _)⟩

theorem bauSector_next {m k : Nat} (h : Smooth s c) (hr : DoneTo s r c m) (hm : m < c.nsec) :
    DoneTo s (r.bauSector k c m) c (m + 1) := by
  have hread {p : Nat} (hp : p = c.a ∨ p = c.b ∨ p = c.d) : r.bytes (p + 32 * m) 32 = s.bytes (p + 32 * m) 32 :=
    hr.sound.bytes fun x hlo hhi => not_written h hm hp hlo hhi
  have hueD : s.hasUe (c.d + 32 * m) 32 = false := hasUe_part h.ueD (by omega) (by omega)
  have hw := hr.sound.bauWrite (c := c) (k := k) (sector_length (s := s) (c := c) (c.a + 32 * m) (c.b + 32 * m) (c.d + 32 * m))
    (h.latchD m hm) hueD
  unfold State.bauSector
  dsimp only
  rw [not_stopped h hr hm, if_neg Bool.false_ne_true, hread (.inl rfl), hread (.inr (.inl rfl)), hread (.inr (.inr rfl))]
  generalize r.bauWrite k c (c.d + 32 * m) _ = r1 at hw ⊢
  obtain ⟨hsound, hdst, hkeep⟩ := hw
  have hsector : ∀ i, i < m + 1 → r1.bytes (c.d + 32 * i) 32 =
      c.sector (s.bytes (c.a + 32 * i) 32) (s.bytes (c.b + 32 * i) 32) (s.bytes (c.d + 32 * i) 32) := by
    intro i hi
    obtain hlt | rfl := Nat.lt_succ_iff_lt_or_eq.1 hi
    · rw [hkeep _ _ (by omega), hr.dst i hlt]
    · exact hdst
  by_cases hop : c.op = 6
  · have hapart := apart_iff.1 (h.apartMom hop)
    have hueA : s.hasUe (c.a + 32 * m) 32 = false := hasUe_part (h.ueA hop) (by omega) (by omega)
    have hw2 := hsound.bauWrite (c := c) (k := k) (sectorA_length (s := s) (c := c) (c.a + 32 * m) (c.b + 32 * m))
      (h.latchA hop m hm) hueA
    rw [if_pos hop]
    generalize r1.bauWrite k c (c.a + 32 * m) _ = r2 at hw2 ⊢
    obtain ⟨hsound2, hdst2, hkeep2⟩ := hw2
    refine ⟨hsound2.mono fun x hx => ?_, fun i hi => ?_, fun _ i hi => ?_⟩
    · obtain ((hx | hx) | hx) | hx := hx
      · exact Or.inl (by omega)
      · exact Or.inr ⟨hop, by omega⟩
      · exact Or.inl (by omega)
      · exact Or.inr ⟨hop, by omega⟩
    · rw [hkeep2 _ _ (by omega), hsector i hi]
    · obtain hlt | rfl := Nat.lt_succ_iff_lt_or_eq.1 hi
      · rw [hkeep2 _ _ (by omega), hkeep _ _ (by omega), hr.mom hop i hlt]
      · exact hdst2
  · rw [if_neg hop]
    refine ⟨hsound.mono fun x hx => ?_, hsector, fun h6 => absurd h6 hop⟩
    obtain (hx | ⟨h6, -⟩) | hx := hx
    · exact Or.inl (by omega)
    · exact absurd h6 hop
    · exact Or.inl (by omega)

theorem bauSectors_done (k : Nat) (h : Smooth s c) {m : Nat} (hm : m ≤ c.nsec) :
    DoneTo s ((List.range m).foldl (fun w i => w.bauSector k c i) s) c m := by
  induction m with
  | zero => exact doneTo_zero s c
  | succ m ih =>
    rw [List.range_succ, List.foldl_append]
    exact bauSector_next h (ih (Nat.le_of_succ_le hm)) hm

theorem bauPerform_done (k : Nat) (h : Smooth s c) (hred : bauReduces c.op = false) : DoneTo s (s.bauPerform k c) c c.nsec := by
  rw [State.bauPerform, hred, if_neg Bool.false_ne_true]
  exact bauSectors_done k h le_rfl

/-! ## The bank's oldest command (06 R173) -/

theorem bauCommand_performs {rest : List BauCmd} (h : (s.bank s.arg.n).fifo = c :: rest) :
    ∃ t, exec .bauCommand s = .next t ∧ (t.bank s.arg.n).fifo = rest ∧ t.mem = (s.bauPerform s.arg.n c).mem ∧
      (t.bank s.arg.n).errs = ((s.bauPerform s.arg.n c).bank s.arg.n).errs := by
  have hexec : exec .bauCommand s = execBauCommand s := rfl
  simp only [execBauCommand, h] at hexec
  have hbank := State.bank_setBank_same (s.bauPerform s.arg.n c) s.arg.n
    { (s.bauPerform s.arg.n c).bank s.arg.n with fifo := rest }
  exact ⟨_, hexec, (congrArg Bank.fifo hbank :), rfl, (congrArg Bank.errs hbank :)⟩

theorem bauCommand_idle (h : (s.bank s.arg.n).fifo = []) : exec .bauCommand s = .next s := by
  show execBauCommand s = _
  rw [execBauCommand, h]

/-! ## The elements that a command writes (06 R171) -/

theorem elems_count : 32 * c.nsec / width c = per c * c.nsec := by
  unfold width per
  split <;> omega

theorem elem_sector {k : Nat} (hk : k < per c * c.nsec) : k / per c < c.nsec ∧ k = per c * (k / per c) + k % per c :=
  ⟨Nat.div_lt_of_lt_mul hk, (Nat.div_add_mod ..).symm⟩

theorem done_elems (h : DoneTo s r c c.nsec) (hop : c.op ≠ 10) {k : Nat} (hk : k < per c * c.nsec) :
    r.bytes (c.d + width c * k) (width c) = stored c (newElem c (val s c c.a k) (val s c c.b k) (val s c c.d k)) := by
  obtain ⟨hi, hsplit⟩ := elem_sector hk
  rw [bytes_of_elems ((h.dst _ hi).trans (sector_elems hop ..)) hsplit, val_sector, val_sector, val_sector, ← hsplit]

theorem done_momElems (h : DoneTo s r c c.nsec) (hop : c.op = 6) {k : Nat} (hk : k < per c * c.nsec) :
    r.bytes (c.a + width c * k) (width c) =
      stored c (bauMomA (half32 c.s2 false) (half32 c.s2 true) (val s c c.a k) (val s c c.b k)) := by
  obtain ⟨hi, hsplit⟩ := elem_sector hk
  rw [bytes_of_elems ((h.mom hop _ hi).trans (sectorA_elems ..)) hsplit, val_sector, val_sector, ← hsplit]

theorem done_copy (h : DoneTo s r c c.nsec) (hop : c.op = 10) : r.bytes c.d (32 * c.nsec) = s.bytes c.a (32 * c.nsec) :=
  bytes_of_sectors fun i hi => (h.dst i hi).trans (sector_copy hop ..)

/-! ## SSQ and MAXABS (06 R171) -/

theorem bauReduce_eq (op : Nat) (l : List FVal) : bauReduce op l = if FVal.nan ∈ l then .nan
    else if op = 8 then l.foldl (fun acc x => radd acc (rmul x x)) (.fin false 0 0)
    else l.foldl (fun acc x => if cmpV acc (absV x) < 0 then absV x else acc) (.fin false 0 0) := by
  have hnan : l.any (fun v => v == .nan) = true ↔ FVal.nan ∈ l := by
    rw [List.any_eq_true]
    exact ⟨fun ⟨v, hv, he⟩ => eq_of_beq he ▸ hv, fun h => ⟨_, h, beq_self_eq_true _⟩⟩
  exact if_congr hnan rfl rfl

theorem bauPerform_reduces (k : Nat) (hred : bauReduces c.op = true) (hueA : s.hasUe c.a (32 * c.nsec) = false)
    (hue : s.hasUe c.d 4 = false) (hlatched : s.latchedAt c.d = false) :
    s.bauPerform k c = s.perform c.d (bytesOf 4 (fp32.rne (bauReduce c.op (c.elems (s.bytes c.a (32 * c.nsec))))))
      (tagBank (stackOf s.iltab c.d / 2)) := by
  have hnone : (List.range c.nsec).find? (fun i => s.hasUe (c.a + 32 * i) 32) = none := by
    refine List.find?_eq_none.2 fun i hi => ?_
    have hlt := List.mem_range.1 hi
    rw [hasUe_part hueA (by omega) (by omega)]
    exact Bool.false_ne_true
  rw [State.bauPerform, hred, if_pos rfl, hnone]
  exact bauWrite_performs hlatched (by rw [RemoteOps.bytesOf_length]; exact hue)

/-! ## A source in error (06 R175) -/

theorem bauError_errs {k pa : Nat} (h : (s.bank k).errs.toNat < 2 ^ 16 - 1) :
    ((s.bauError k c pa).bank k).errs = (s.bank k).errs + 1 := by
  have hne : (s.bank k).errs ≠ BitVec.allOnes 16 := fun heq => by
    rw [heq] at h
    exact absurd h (by decide)
  exact (congrArg Bank.errs (State.bank_setBank_same ..)).trans (if_neg hne)

theorem bauPerform_stopped (k : Nat) (hsec : c.nsec = 1) (hred : bauReduces c.op = false)
    (hue : (bauUsesA c.op && s.hasUe c.a 32) = true) : s.bauPerform k c =
      if c.op = 6 then (s.bauError k c c.d).bauError k c c.a else s.bauError k c c.d := by
  rw [State.bauPerform, hred, if_neg Bool.false_ne_true, hsec, List.range_one, List.foldl_cons, List.foldl_nil, State.bauSector,
    Nat.mul_zero, Nat.add_zero, Nat.add_zero, Nat.add_zero, hue, Bool.true_or, Bool.true_or, if_pos rfl]

theorem bauPerform_counts (k : Nat) (hsec : c.nsec = 1) (hred : bauReduces c.op = false)
    (hue : (bauUsesA c.op && s.hasUe c.a 32) = true) : (s.bauPerform k c).mem = s.mem ∧
      ((s.bank k).errs.toNat < 2 ^ 16 - 2 →
        ((s.bauPerform k c).bank k).errs = (s.bank k).errs + (if c.op = 6 then 2 else 1)) := by
  rw [bauPerform_stopped k hsec hred hue]
  split_ifs with hop
  · refine ⟨rfl, fun hlt => ?_⟩
    have hfirst : ((s.bauError k c c.d).bank k).errs = (s.bank k).errs + 1 := bauError_errs (by omega)
    have hsecond : ((s.bauError k c c.d).bank k).errs.toNat < 2 ^ 16 - 1 := by
      rw [hfirst, BitVec.toNat_add]
      have hone : (1 : BitVec 16).toNat = 1 := rfl
      omega
    rw [bauError_errs hsecond, hfirst, BitVec.add_assoc]
    rfl
  · exact ⟨rfl, fun hlt => bauError_errs (by omega)⟩

/-! ## The command as its obligation says it (06 R171, R173, R175) -/

section
variable {rest : List BauCmd} (hfifo : (s.bank s.arg.n).fifo = c :: rest)
include hfifo

theorem bauCommand_ends (h : Smooth s c) (hred : bauReduces c.op = false) : ∃ t, exec .bauCommand s = .next t ∧
    (t.bank s.arg.n).fifo = rest ∧ ∃ r, t.mem = r.mem ∧ DoneTo s r c c.nsec := by
  obtain ⟨t, hexec, hrest, hmem, -⟩ := bauCommand_performs hfifo
  exact ⟨t, hexec, hrest, _, hmem, bauPerform_done _ h hred⟩

/-- A command that writes D alone. -/
theorem bauCommand_writesD (h : Smooth s c) (hred : bauReduces c.op = false) (hop : c.op ≠ 6) :
    ∃ t, exec .bauCommand s = .next t ∧ (t.bank s.arg.n).fifo = rest ∧ s.sameBytesBut t c.d (32 * c.nsec) ∧
      (c.op = 10 → t.bytes c.d (32 * c.nsec) = s.bytes c.a (32 * c.nsec)) ∧
      (c.op ≠ 10 → ∀ k, k < 32 * c.nsec / width c → t.bytes (c.d + width c * k) (width c) =
        stored c (newElem c (val s c c.a k) (val s c c.b k) (val s c c.d k))) := by
  obtain ⟨t, hexec, hrest, r, hmem, hdone⟩ := bauCommand_ends hfifo h hred
  refine ⟨t, hexec, hrest, fun x hx => ?_, fun hcopy => ?_, fun hne k hk => ?_⟩
  · refine (congrArg (Store.get 0 x) hmem).trans (hdone.sound.rest x ?_)
    rintro (hd | ⟨h6, -⟩)
    · omega
    · exact hop h6
  · rw [bytes_of_mem hmem, done_copy hdone hcopy]
  · rw [elems_count] at hk
    rw [bytes_of_mem hmem, done_elems hdone hne hk]

/-- MOM. -/
theorem bauCommand_writesMom (h : Smooth s c) (hop : c.op = 6) :
    ∃ t, exec .bauCommand s = .next t ∧ (t.bank s.arg.n).fifo = rest ∧
      (∀ k, k < 32 * c.nsec / width c →
        t.bytes (c.d + width c * k) (width c) = stored c (newElem c (val s c c.a k) (val s c c.b k) (val s c c.d k)) ∧
        t.bytes (c.a + width c * k) (width c) =
          stored c (bauMomA (half32 c.s2 false) (half32 c.s2 true) (val s c c.a k) (val s c c.b k))) ∧
      ∀ x, (x < c.d ∨ c.d + 32 * c.nsec ≤ x) → (x < c.a ∨ c.a + 32 * c.nsec ≤ x) → t.byte x = s.byte x := by
  obtain ⟨t, hexec, hrest, r, hmem, hdone⟩ := bauCommand_ends hfifo h (by rw [hop]; rfl)
  refine ⟨t, hexec, hrest, fun k hk => ?_, fun x hxd hxa => ?_⟩
  · rw [elems_count] at hk
    rw [bytes_of_mem hmem, bytes_of_mem hmem]
    exact ⟨done_elems hdone (by rw [hop]; decide) hk, done_momElems hdone hop hk⟩
  · refine (congrArg (Store.get 0 x) hmem).trans (hdone.sound.rest x ?_)
    rintro (hd | ⟨-, ha⟩) <;> omega

/-- SSQ and MAXABS. -/
theorem bauCommand_reduces (hred : bauReduces c.op = true) (hueA : s.hasUe c.a (32 * c.nsec) = false)
    (hue : s.hasUe c.d 4 = false) (hlatched : s.latchedAt c.d = false) :
    ∃ t, exec .bauCommand s = .next t ∧ (t.bank s.arg.n).fifo = rest ∧ s.sameBytesBut t c.d 4 ∧ t.bytes c.d 4 =
      bytesOf 4 (fp32.rne (bauReduce c.op ((List.range (32 * c.nsec / width c)).map (val s c c.a)))) := by
  obtain ⟨t, hexec, hrest, hmem, -⟩ := bauCommand_performs hfifo
  have hbytes : 32 * c.nsec = width c * (per c * c.nsec) := by rw [← Nat.mul_assoc, width_per]
  rw [bauPerform_reduces _ hred hueA hue hlatched] at hmem
  refine ⟨t, hexec, hrest, fun x hx => ?_, ?_⟩
  · exact (congrArg (Store.get 0 x) hmem).trans (byte_perform_outside (by rw [RemoteOps.bytesOf_length]; exact hx))
  · rw [bytes_of_mem hmem, elems_count, ← elems_bytes, ← hbytes]
    have hsum := perform_bytes (s := s) c.d (bytesOf 4 (fp32.rne (bauReduce c.op (c.elems (s.bytes c.a (32 * c.nsec))))))
      (tagBank (stackOf s.iltab c.d / 2))
    rwa [RemoteOps.bytesOf_length] at hsum

theorem bauCommand_stopped (hsec : c.nsec = 1) (hred : bauReduces c.op = false)
    (hue : (bauUsesA c.op && s.hasUe c.a 32) = true) :
    ∃ t, exec .bauCommand s = .next t ∧ s.sameBytes t ∧ (t.bank s.arg.n).fifo = rest ∧
      ((s.bank s.arg.n).errs.toNat < 2 ^ 16 - 2 →
        (t.bank s.arg.n).errs = (s.bank s.arg.n).errs + (if c.op = 6 then 2 else 1)) := by
  obtain ⟨t, hexec, hrest, hmem, herrs⟩ := bauCommand_performs hfifo
  obtain ⟨hsame, hcount⟩ := bauPerform_counts s.arg.n hsec hred hue
  exact ⟨t, hexec, fun x => congrArg (Store.get 0 x) (hmem.trans hsame), hrest, fun hlt => herrs.trans (hcount hlt)⟩

end

/-! ## BCMD by its checks (06 R170; 13 R411) -/

section
variable {a : BitVec 5} {ws : List Word} {ps : List (Nat × Nat)} {d : BauDesc} (hp : s.performs)
include hp

theorem bcmd_misaligned (h : (s.g a).toNat % 8 ≠ 0) : exec (.bcmd a) s = .next (s.trap 0x03 (s.g a)) := by
  show execBcmd a s = _
  simp only [execBcmd, unrecorded_performs hp, if_pos h]
  rfl

variable (hal : (s.g a).toNat % 8 = 0) (hload : s.loadWords 0x7C (s.g a) 6 = .ok (ws, r)) (hd : d = bauDesc ws)
include hal hload hd

theorem bcmd_badFormat (hbad : d.bad = true) : exec (.bcmd a) s = .next (r.trap 0x0F 5) := by
  show execBcmd a s = _
  simp only [execBcmd, unrecorded_performs hp, if_neg (not_not.2 hal), hload, ← hd, hbad, if_true]
  rfl

theorem bcmd_badOp (hbad : d.bad = false) (hop : 12 ≤ d.op) : exec (.bcmd a) s = .next (r.trap 0x0F 4) := by
  show execBcmd a s = _
  simp only [execBcmd, unrecorded_performs hp, if_neg (not_not.2 hal), hload, ← hd, hbad, Bool.false_eq_true, if_false,
    if_pos hop]
  rfl

variable (hbad : d.bad = false) (hop : d.op < 12) (hx : r.bauXlate d.ranges = .ok ps)
include hbad hop hx

theorem bcmd_checkFails {v : Nat} (hcheck : r.bauCheck d.ranges ps = some (some v)) :
    exec (.bcmd a) s = .next (r.trap 0x0F (BitVec.ofNat 64 v)) := by
  show execBcmd a s = _
  simp only [execBcmd, unrecorded_performs hp, if_neg (not_not.2 hal), hload, ← hd, hbad, Bool.false_eq_true, if_false,
    if_neg (Nat.not_le.2 hop), hx, hcheck]
  rfl

theorem bcmd_queues (hcheck : r.bauCheck d.ranges ps = none) : exec (.bcmd a) s = .next (ended (r.queueBau d ps)) := by
  show execBcmd a s = _
  simp only [execBcmd, unrecorded_performs hp, if_neg (not_not.2 hal), hload, ← hd, hbad, Bool.false_eq_true, if_false,
    if_neg (Nat.not_le.2 hop), hx, hcheck]

end

/-- The checks after the translation of aligned ranges. -/
theorem bauCheck_aligned {rs : List (Nat × Nat × Need × Nat)} (ps : List (Nat × Nat)) {k : Nat}
    (hk : k = bankOf r.iltab ((ps.map (·.1)).headD 0)) (hal : rs.any (fun q => q.1 % q.2.2.2 != 0) = false) :
    r.bauCheck rs ps =
      if ps.any (fun p => decide (tileBase ≤ p.1)) then some (some 1)
      else if ps.any (fun p => decide (256 < p.1 % 256 + p.2)) then some (some 2)
      else if ps.any (fun p => bankOf r.iltab p.1 != k) then some (some 3)
      else none := by
  have hnot : ¬ (rs.any (fun q => decide (q.1 % q.2.2.2 ≠ 0))) = true := by
    simpa using hal
  rw [State.bauCheck, if_neg hnot, ← hk]

theorem badFormat {ws : List Word} {h : Nat} (hh : h = (nth 0 ws 0).toNat)
    (hform : h / 2 ^ 16 % 2 ^ 8 = 0 ∨ 8 < h / 2 ^ 16 % 2 ^ 8 ∨ 1 < h / 2 ^ 8 % 2 ^ 8) : (bauDesc ws).bad = true := by
  subst hh
  have hfmt : bits (nth 0 ws 0).toNat 15 8 = (nth 0 ws 0).toNat / 2 ^ 8 % 2 ^ 8 := rfl
  have hsec : bits (nth 0 ws 0).toNat 23 16 = (nth 0 ws 0).toNat / 2 ^ 16 % 2 ^ 8 := rfl
  simp only [bauDesc, Bool.or_eq_true, decide_eq_true_eq, beq_iff_eq, hfmt, hsec]
  obtain hnone | hmany | hother := hform
  · exact Or.inl (Or.inl (Or.inl (Or.inr hnone)))
  · exact Or.inl (Or.inl (Or.inr hmany))
  · exact Or.inl (Or.inl (Or.inl (Or.inl hother)))

theorem headAt_eq (l : List Nat) : (l[0]?).getD (l.headD 0) = l.headD 0 := by
  cases l <;> rfl

section
variable {d : BauDesc} {ps : List (Nat × Nat)} {k : Nat} (hk : k = bankOf r.iltab ((ps.map (·.1)).headD 0))
  (hpend : r.storesPending ps = false)
include hk hpend

theorem queueBau_full (hfull : 16 ≤ (r.bank k).fifo.length) : r.queueBau d ps = .error (r.retry 0x7C) := by
  simp only [State.queueBau, hpend, Bool.false_eq_true, if_false, headAt_eq, ← hk, if_pos hfull]

theorem queueBau_takes (hroom : (r.bank k).fifo.length < 16) : ∃ q,
    r.queueBau d ps = .ok (BankCompletion.queued r ps k q).retire ∧
    q.op = d.op ∧ q.nsec = d.nsec ∧ q.bf16 = (d.fmt == 1) ∧ q.d = (ps.map (·.1)).headD 0 ∧ q.s1 = d.s1 ∧ q.s2 = d.s2 ∧
    q.thr = threadKey r.th.job r.th.tid ∧ q.tid = r.th.tid ∧ q.job = r.th.job := by
  simp only [State.queueBau, hpend, Bool.false_eq_true, if_false, headAt_eq, ← hk, if_neg (Nat.not_le.2 hroom)]
  exact ⟨_, rfl, rfl, rfl, rfl, rfl, rfl, rfl, rfl, rfl, rfl⟩

end

/-! ## The formulas (06 R171) -/

/-- The element of a command that writes D alone, by the table. -/
theorem newElem_table (hop : c.op < 12) (hne : c.op ∉ [6, 8, 9]) (h10 : c.op ≠ 10) (x y z : FVal) :
    newElem c x y z = (match c.op with
      | 0 => radd (rmul (half32 c.s1 false) x) z
      | 1 => rmul (half32 c.s1 false) x
      | 2 => radd x y
      | 3 => rmul x y
      | 4 => rnd32 (addV false (mulV x y) z)
      | 5 => bauClamp x (half32 c.s1 false) (half32 c.s1 true)
      | 7 => radd (radd z (negV (rnd32 (divV 32 (rmul (half32 c.s1 false) x)
          (radd (rnd32 (sqrtV 32 (rmul (half32 c.s2 false) y))) (half32 c.s2 true))))))
          (negV (rmul (half32 c.s1 true) z))
      | _ => c.fill) := by
  unfold newElem
  generalize c.op = op at *
  simp only [List.mem_cons, List.not_mem_nil, or_false, not_or] at hne
  have hcases : op = 0 ∨ op = 1 ∨ op = 2 ∨ op = 3 ∨ op = 4 ∨ op = 5 ∨ op = 7 ∨ op = 11 := by omega
  obtain rfl | rfl | rfl | rfl | rfl | rfl | rfl | rfl := hcases <;> rfl

theorem not_reduces {op : Nat} (h8 : op ≠ 8) (h9 : op ≠ 9) : bauReduces op = false :=
  Bool.or_eq_false_iff.2 ⟨beq_eq_false_iff_ne.2 h8, beq_eq_false_iff_ne.2 h9⟩

theorem reduces_usesA {op : Nat} (h : op = 8 ∨ op = 9) : bauReduces op = true ∧ bauUsesA op = true := by
  obtain rfl | rfl := h
  · exact ⟨rfl, rfl⟩
  · exact ⟨rfl, rfl⟩


end

/-- Settles O31: BCMD by its checks in order, a command by its sectors one after the other. -/
theorem bankCommands : Obligations.BankCommands := by
  refine ⟨fun s r a ws ps hp => ⟨bcmd_misaligned hp, fun hal hload => ?_⟩, fun s c rest => ⟨bauCommand_idle, ?_, ?_⟩⟩
  · refine ⟨fun hform => bcmd_badFormat hp hal hload rfl (badFormat rfl hform), bcmd_badOp hp hal hload rfl,
      fun hbad hop hx halign => ?_⟩
    have hcheck := bauCheck_aligned (r := r) ps rfl halign
    refine ⟨fun htile => ?_, fun htile => ⟨fun hline => ?_, fun hline => ⟨fun hbank => ?_, fun hbank hpend => ⟨fun hfull => ?_,
      fun hroom => ?_⟩⟩⟩⟩
    · rw [htile, if_pos rfl] at hcheck
      exact bcmd_checkFails hp hal hload rfl hbad hop hx hcheck
    · rw [htile, hline, if_neg Bool.false_ne_true, if_pos rfl] at hcheck
      exact bcmd_checkFails hp hal hload rfl hbad hop hx hcheck
    · rw [htile, hline, hbank, if_neg Bool.false_ne_true, if_neg Bool.false_ne_true, if_pos rfl] at hcheck
      exact bcmd_checkFails hp hal hload rfl hbad hop hx hcheck
    · rw [htile, hline, hbank, if_neg Bool.false_ne_true, if_neg Bool.false_ne_true, if_neg Bool.false_ne_true] at hcheck
      rw [bcmd_queues hp hal hload rfl hbad hop hx hcheck, queueBau_full rfl hpend hfull]
      rfl
    · rw [htile, hline, hbank, if_neg Bool.false_ne_true, if_neg Bool.false_ne_true, if_neg Bool.false_ne_true] at hcheck
      obtain ⟨q, hqueue, hq⟩ := queueBau_takes (d := bauDesc ws) rfl hpend hroom
      obtain ⟨hqop, hqsec, hqfmt, hqd, hqs1, hqs2, hqthread⟩ := hq
      have hexec := bcmd_queues hp hal hload rfl hbad hop hx hcheck
      rw [hqueue, ended_ok] at hexec
      refine ⟨_, q, hexec, State.th_setTh .., ?_, hqop, hqsec, hqfmt, hqd, hqs1, hqs2, hqthread⟩
      exact congrArg Bank.fifo (State.bank_setBank_same ..)
  · intro n w f val' put rnd mul add k1 k2 k3 k4 sound apart hfifo hueA hueB
    refine ⟨fun hop hne hD haD hbD => ?_, fun hop hD hA hapart hbD hbA => ?_, fun hop hue hlatched => ?_⟩
    · obtain ⟨h6, h8, h9⟩ : c.op ≠ 6 ∧ c.op ≠ 8 ∧ c.op ≠ 9 := by simpa using hne
      obtain ⟨t, hexec, hrest, hsame, hcopy, helems⟩ := bauCommand_writesD hfifo
        ⟨hueA, hueB, hD.1, hD.2, fun h => absurd h h6, fun h => absurd h h6, haD, hbD, fun h => absurd h h6,
          fun h => absurd h h6⟩
        (not_reduces h8 h9) h6
      refine ⟨t, hexec, hrest, hsame, hcopy, fun h10 k hk => (helems h10 k hk).trans ?_⟩
      exact congrArg (stored c) (newElem_table hop hne h10 _ _ _)
    · obtain ⟨t, hexec, hrest, helems, hsame⟩ := bauCommand_writesMom hfifo
        ⟨hueA, hueB, hD.1, hD.2, fun _ => hA.1, fun _ => hA.2, Or.inr hapart, hbD, fun _ => hapart, fun _ => hbA⟩ hop
      refine ⟨t, hexec, hrest, fun k hk => ⟨(helems k hk).1.trans ?_, (helems k hk).2⟩, hsame⟩
      rw [newElem, hop]
      rfl
    · obtain ⟨hred, hA⟩ := reduces_usesA hop
      obtain ⟨t, hexec, hrest, hsame, hsum⟩ := bauCommand_reduces hfifo hred (hueA hA) hue hlatched
      refine ⟨t, hexec, hrest, hsame, ?_⟩
      rw [hsum, bauReduce_eq]
      rfl
  · intro hfifo hsec hne hue
    obtain ⟨h8, h9⟩ : c.op ≠ 8 ∧ c.op ≠ 9 := by simpa using hne
    exact bauCommand_stopped hfifo hsec (not_reduces h8 h9) hue

end Sys2Proof.BankCommandsDone
end

section
/-! PROOF. Scalar floating point (08 R231, R234; 13 R374 to R379): the two ends of an instruction that raises exceptions, the
scalar forms as one such instruction each, and what an operation gives of numbers and of a NaN. -/

namespace Sys2Proof.FloatingPointDone

open Sys2Proof
open Sys2Proof.Machine
open Sys2Proof.Becoming

section
variable {s : State} {i : Instr} {flags lanes : Nat} {write : Thread → Thread}

/-! ## The ends of an instruction that raises exceptions (08 R233, R234) -/

theorem fpTraps_eq_false {x : Thread} : x.fpTraps flags = false ↔ Nat.land flags (bits x.fctl.toNat 12 8) = 0 :=
  bne_eq_false_iff_eq

theorem fpTraps_eq_true {x : Thread} : x.fpTraps flags = true ↔ Nat.land flags (bits x.fctl.toNat 12 8) ≠ 0 :=
  bne_iff_ne

theorem fpDone_retires (h : s.th.fpTraps flags = false) : s.fpDone flags lanes write =
    .ok (((s.setTh (s.th.orFlags flags)).setTh (write (s.setTh (s.th.orFlags flags)).th)).retire) := by
  simp only [State.fpDone, h, Bool.false_eq_true, if_false]

theorem fpDone_traps (h : s.th.fpTraps flags = true) : s.fpDone flags lanes write =
    .error ((s.setTh (s.th.orFlags flags)).trap cFp (fpEval flags lanes)) := by
  simp only [State.fpDone, h, if_true]

/-- What a scalar instruction with result `r` does, by whether some exception of `r` is enabled. -/
theorem fpResult_ends {d : BitVec 5} {r : FRes} (hexec : exec i s = .next (ended (s.fpResult d r))) :
    (Nat.land r.flags (bits s.th.fctl.toNat 12 8) = 0 →
      exec i s = .next ((s.setTh (s.th.orFlags r.flags)).retireG d (BitVec.ofNat 64 r.code))) ∧
    (Nat.land r.flags (bits s.th.fctl.toNat 12 8) ≠ 0 →
      exec i s = .next ((s.setTh (s.th.orFlags r.flags)).trap 0x0B (BitVec.ofNat 64 (r.flags + 256)))) := by
  refine ⟨fun h => ?_, fun h => ?_⟩
  · rw [hexec, State.fpResult, fpDone_retires (fpTraps_eq_false.2 h)]
    rfl
  · rw [hexec, State.fpResult, fpDone_traps (fpTraps_eq_true.2 h), fpEval, Nat.one_mul]
    rfl

end

/-! ## The value of an operation, FTZ clear (08 R231; 13 R375) -/

section
variable {f : Fmt} {m : RMode} {g : List FVal → FVal} {a : Nat} {ops : List Nat}

/-- An exact result delivered: NV and the canonical NaN for an invalid one, any other rounded once. -/
def delivered (f : Fmt) (m : RMode) : FVal → FRes
  | .nan => { code := f.canonNan, flags := fNv }
  | v => f.deliver m false v

theorem ftzIn_clear (f : Fmt) : f.ftzIn false = id := rfl

theorem fpOp_numbers (h : ∀ c ∈ ops, f.isNan c = false) :
    fpOp f m false ops g = delivered f m (g (ops.map f.dec)) := by
  have hnone : ops.find? f.isNan = none := List.find?_eq_none.2 fun c hc => by simp [h c hc]
  simp only [fpOp, ftzIn_clear, List.map_id, hnone]
  rfl

theorem fpOp_first_nan (h : f.isNan a = true) :
    fpOp f m false (a :: ops) g = { code := f.quiet a, flags := snanFlag f (a :: ops) } := by
  simp only [fpOp, ftzIn_clear, List.map_id, List.find?_cons_of_pos h]

theorem snanFlag_pair (f : Fmt) (a b : Nat) : snanFlag f [a, b] = if f.isSnan a || f.isSnan b then fNv else 0 := by
  simp [snanFlag]

end

/-- Settles O14: each scalar form is one operation whose result ends by its flags; an operation on numbers delivers the exact
value, and one whose first operand is a NaN passes it on. -/
theorem fpResultsAreExactThenRounded : Obligations.FpResultsAreExactThenRounded := by
  refine ⟨fun s d a b c k rm p hp q hq => fpResult_ends ?_, fun f m a b c => ⟨fun ha hb hc => ?_, fun ha => ?_⟩⟩
  · revert q
    simp only [List.forall_mem_cons]
    exact ⟨unrecorded_performs hp (fp2 fpAdd d a b rm p), unrecorded_performs hp (fp2 fpSub d a b rm p),
      unrecorded_performs hp (fp2 fpMul d a b rm p), unrecorded_performs hp (fp2 fpDiv d a b rm p),
      show execFsqrt .. = _ from unrecorded_performs hp _,
      unrecorded_performs hp (fp3 false false d a b c rm p), unrecorded_performs hp (fp3 false true d a b c rm p),
      unrecorded_performs hp (fp3 true false d a b c rm p),
      show execFmin .. = _ from unrecorded_performs hp _, show execFmax .. = _ from unrecorded_performs hp _,
      show execFcvt .. = _ from unrecorded_performs hp _, show execFrnd .. = _ from unrecorded_performs hp _, nofun⟩
  · have hab : ∀ v ∈ [a, b], f.isNan v = false := by simp [ha, hb]
    have habc : ∀ v ∈ [a, b, c], f.isNan v = false := by simp [ha, hb, hc]
    exact ⟨fpOp_numbers hab, fpOp_numbers hab, fpOp_numbers hab, fpOp_numbers habc⟩
  · rw [fpAdd, fpOp_first_nan ha, snanFlag_pair]
    exact ⟨rfl, rfl⟩

end Sys2Proof.FloatingPointDone
end

section
/-! PROOF. Lane-wise vector operations, VRED, VEXT and RNG (08 R234; 13 R380 to R386, R389, R412, R413): every lane-wise form ends
as State.lanesDone does, by the flags of its active lanes. -/

namespace Sys2Proof.VectorsDone

open Sys2Proof
open Sys2Proof.Machine
open Sys2Proof.Becoming
open Sys2Proof.FloatingPointDone

section
variable {s : State} {vd va vb vc vm ew sew rm : BitVec 3} {ga : BitVec 5} {me pol hi f1 : BitVec 1} {fn : BitVec 4}

/-! ## The ends of a lane-wise instruction (08 R234; 13 R380) -/

/-- What a lane-wise instruction with the lanes `r` does, by whether some exception of its active lanes is enabled. -/
theorem lanesDone_ends {i : Instr} {r : List (Word × Nat)}
    (hexec : exec i s = .next (ended (s.lanesDone vd me vm pol r))) {fl : Nat}
    (hfl : fl = orAll ((s.th.activeLanes me vm).map (fun k => (nth (0, 0) r k).2))) {s1 : State}
    (hs1 : s1 = s.setTh (s.th.orFlags fl)) :
    (Nat.land fl (bits s.th.fctl.toNat 12 8) = 0 →
      exec i s = .next ((s1.setTh (s1.th.writeLanes vd me vm pol (r.map (·.1)))).retire)) ∧
    (Nat.land fl (bits s.th.fctl.toNat 12 8) ≠ 0 →
      exec i s = .next (s1.trap 0x0B (fpEval fl (s.trapLanes (s.th.activeLanes me vm) r)))) := by
  subst hfl hs1
  refine ⟨fun h => ?_, fun h => ?_⟩
  · rw [hexec, State.lanesDone, fpDone_retires (fpTraps_eq_false.2 h), ended_ok]
  · rw [hexec, State.lanesDone, fpDone_traps (fpTraps_eq_true.2 h)]
    rfl

/-! ## The operation of an element code (11 R320; 13 R381) -/

theorem ewOp_fp (hew : 4 ≤ ew.toNat) (fp : Fmt → RMode → Bool → Nat → Nat → Nat → FRes)
    (int : Nat → Nat → Nat → Nat → FRes) :
    s.ewOp ew fn fp int = fp (ewFmt ew) (s.th.modeOf (fn.setWidth 3)) s.th.ftz :=
  if_pos (decide_eq_true hew)

/-! ## The lanes of each form (13 R381 to R386, R389, R413) -/

section
variable (hp : s.performs)
include hp

/-- A form of R381 with a floating-point element code. -/
theorem ewInstr_fp {i : Instr} (hew : 4 ≤ ew.toNat) (fp : Fmt → RMode → Bool → Nat → Nat → Nat → FRes)
    {int : Nat → Nat → Nat → Nat → FRes}
    (hexec : exec i s =
      unrecorded (fun r => r.lanesDone vd me vm pol (r.elemwise (ewBits ew) (r.ewOp ew fn fp int) va vb vc)) s) :
    exec i s = .next (ended (s.lanesDone vd me vm pol
      (s.elemwise (ewBits ew) (fp (ewFmt ew) (s.th.modeOf (fn.setWidth 3)) s.th.ftz) va vb vc))) := by
  rw [hexec, unrecorded_performs hp, ewOp_fp hew]

theorem vlog_lanes (hfn : fn.toNat ≤ 4) :
    exec (.vlog vd va vb me vm pol fn) s = .next (ended (s.lanesDone vd me vm pol ((List.range 8).map (fun i =>
      (if fn = 0 then s.th.lane va.toNat i &&& s.th.lane vb.toNat i
       else if fn = 1 then s.th.lane va.toNat i ||| s.th.lane vb.toNat i
       else if fn = 2 then s.th.lane va.toNat i ^^^ s.th.lane vb.toNat i
       else if fn = 3 then s.th.lane va.toNat i &&& ~~~(s.th.lane vb.toNat i)
       else ~~~(s.th.lane va.toNat i), 0))))) := by
  have hcodes : fn = 0 ∨ fn = 1 ∨ fn = 2 ∨ fn = 3 ∨ fn = 4 := by bv_omega
  change execVlog .. = _
  rw [execVlog, unrecorded_performs hp]
  obtain rfl | rfl | rfl | rfl | rfl := hcodes <;> rfl

theorem vcmp_lanes (hew : 4 ≤ ew.toNat) :
    exec (.vcmp vd va vb me vm pol ew fn) s = .next (ended (s.lanesDone vd me vm pol
      (s.elemwise (ewBits ew) (fun x y _ =>
        { code := if (fpCond (ewFmt ew) s.th.ftz fn.toNat x y).1 = true then 2 ^ ewBits ew - 1 else 0,
          flags := (fpCond (ewFmt ew) s.th.ftz fn.toNat x y).2 }) va vb 0))) := by
  have hfp : ewIsFp ew = true := decide_eq_true hew
  change execVcmp .. = _
  simp only [execVcmp, unrecorded_performs hp, hfp, if_true]

theorem vsel_lanes :
    exec (.vsel vd va vb vc me vm pol) s = .next (ended (s.lanesDone vd me vm pol ((List.range 8).map (fun i =>
      (if (s.th.lane vc.toNat i).toNat % 2 = 1 then s.th.lane va.toNat i else s.th.lane vb.toNat i, 0))))) := by
  change execVsel .. = _
  simp only [execVsel, unrecorded_performs hp, bit, Nat.pow_zero, Nat.div_one, beq_iff_eq]

/-! ## VRED, VEXT and RNG (13 R385, R389, R412) -/

theorem vred_ends {t : RedNode} (ht : t = treeReduce (redJoin s.th ew fn.toNat) { code := 0, lanes := 0, flags := 0, bad := 0 }
      (Nat.log2 (512 / ewBits ew)) (s.th.redLeaves va me vm ew fn.toNat))
    {s1 : State} (hs1 : s1 = s.setTh (s.th.orFlags t.flags)) :
    (s.th.fpTraps t.flags = false → exec (.vred vd va me vm ew fn) s =
      .next ((s1.setTh (s1.th.setVreg vd.toNat (BitVec.ofNat 64 t.code :: List.replicate 7 0))).retire)) ∧
    (s.th.fpTraps t.flags = true → exec (.vred vd va me vm ew fn) s = .next (s1.trap 0x0B (fpEval t.flags t.bad))) := by
  have hexec : exec (.vred vd va me vm ew fn) s = .next (ended (if s.th.fpTraps t.flags
      then .error (s1.trap cFp (fpEval t.flags t.bad))
      else .ok ((s1.setTh (s1.th.setVreg vd.toNat (BitVec.ofNat 64 t.code :: List.replicate 7 0))).retire))) := by
    subst ht hs1
    change execVred .. = _
    exact unrecorded_performs hp _
  refine ⟨fun h => ?_, fun h => ?_⟩
  · rw [hexec, h]
    rfl
  · rw [hexec, h]
    rfl

omit hp in
theorem nth_elems {n j : Nat} (h : j < 64 / n) (w : Word) : nth 0 (elems n w) j = w.toNat / 2 ^ (n * j) % 2 ^ n := by
  rw [nth, elems, List.getD_eq_getElem _ _ (by simpa using h), List.getElem_map, List.getElem_range]

omit hp in
theorem ewBits_pos (ew : BitVec 3) : 0 < ewBits ew := by
  unfold ewBits
  split <;> decide

theorem vext_extracts {lane j : BitVec 3} {e : Nat}
    (he : e = (s.th.lane vd.toNat lane.toNat).toNat / 2 ^ (ewBits ew * j.toNat) % 2 ^ ewBits ew) (hj : j.toNat < 64 / ewBits ew) :
    exec (.vext vd ga lane ew j) s =
      .next (s.retireG ga (if ew.toNat < 4 then (BitVec.ofNat (ewBits ew) e).signExtend 64 else BitVec.ofNat 64 e)) := by
  subst he
  change execVext .. = _
  simp only [execVext, unrecorded_performs hp, ended_ok, nth_elems hj, ewIsFp, decide_eq_true_eq]
  split_ifs with hfp hint hint
  · omega
  · rfl
  · rw [LoadsDone.sextW_eq (ewBits_pos ew)]
  · omega

theorem rng_writes (h : ∀ i ∈ s.th.activeLanes me vm, (s.th.lane vb.toNat i).toNat % 2 ^ 40 ≠ 2 ^ 40 - 1) :
    exec (.rng vd va vb vc me vm pol ew) s = .next ((s.setTh (s.th.writeLanes vd me vm pol
      ((List.range 8).map (s.rngLaneValue (ew == 3) va vb vc)))).retire) := by
  change execRng .. = _
  rw [execRng, unrecorded_performs hp, if_neg (by simpa using h), ended_ok]

theorem rng_exhausted (h : ∃ i ∈ s.th.activeLanes me vm, (s.th.lane vb.toNat i).toNat % 2 ^ 40 = 2 ^ 40 - 1) :
    exec (.rng vd va vb vc me vm pol ew) s = .next (s.trapFree 0x0C) := by
  change execRng .. = _
  rw [execRng, unrecorded_performs hp, if_pos (by simpa using h)]
  rfl

end

end

/-- Settles O17: each lane-wise form is one list of lanes that ends by the flags of the active ones; VRED, VEXT and RNG by their own
rules. -/
theorem vectorLanesAndReductions : Obligations.VectorLanesAndReductions := by
  refine ⟨fun s vd va vb vc sew ga me vm pol ew rm fn hi f1 hp q hq hform => lanesDone_ends ?_ rfl rfl,
    fun s vd va vb vc ga me vm pol ew fn lane j hp =>
      ⟨vred_ends hp rfl rfl, vext_extracts hp rfl, rng_writes hp, rng_exhausted hp⟩⟩
  revert q
  simp only [List.forall_mem_cons]
  exact ⟨fun hew => ewInstr_fp hp hew (fun f m z x y _ => fpAdd f m z x y) rfl,
    fun hew => ewInstr_fp hp hew (fun f m z x y _ => fpSub f m z x y) rfl,
    fun hew => ewInstr_fp hp hew (fun f m z x y _ => fpMul f m z x y) rfl,
    fun hew => ewInstr_fp hp hew (fun f m z => fpFma f m z false false) rfl,
    fun _ => show execVdiv .. = _ from unrecorded_performs hp _,
    fun hew => ewInstr_fp hp hew (fun f _ z x y _ => fpMinMax f false z x y) rfl,
    fun hew => ewInstr_fp hp hew (fun f _ z x y _ => fpMinMax f true z x y) rfl,
    vlog_lanes hp, vcmp_lanes hp, fun _ => vsel_lanes hp,
    fun _ => show execVprm .. = _ from unrecorded_performs hp _,
    fun _ => show execVbrd .. = _ from unrecorded_performs hp _,
    fun _ => show execVcvt .. = _ from unrecorded_performs hp _,
    fun _ => show execGmb .. = _ from unrecorded_performs hp _, nofun⟩

end Sys2Proof.VectorsDone
end
